-- ==== Sys2Proof/Word.lean ====
section
/-! DEFINITION. The word types of the module's data paths (R18, R145, R222). -/

namespace Sys2Proof

/-- One byte. -/
abbrev Byte := BitVec 8

/-- The 64 B that the directory tracks and a gather-buffer entry holds (R180, R222). -/
abbrev Granule := BitVec 512

/-- The 512 B of a user page, which is one cache line (R18, R144); byte i at bits [8i + 7:8i]. -/
abbrev LineData := BitVec 4096

/-- A register as software sees it in one 64-bit access (R526). -/
abbrev Reg := BitVec 64

end Sys2Proof
end

