-- ==== Sys2Proof/Syntax.lean ====
section
/-!
DEFINITION. The commands of the module, one constructor per row of spec/opcode_table.json, with the operands that
the rule of the row gives its event: the fields of a message, the values of a register access, what a sensor or the
medium returned. A length of time is in picoseconds where it is a course's and in the unit named otherwise.
-/

namespace Sys2Proof

/-- A flit port: Halyard p or Coping l (R277). -/
inductive Port where
  | hal (p : Nat)
  | cop (l : Nat)
deriving DecidableEq, Repr

/-- The fields of a request, writeback, response or data header that the home reads (R189, R284).
`gaddr` is the granule of the group address, GADDR of R189; `req` is the requester number, which Coping carries and
a Halyard port supplies itself (R181). -/
structure Msg where
  port : Port
  agent : Nat
  txid : Nat
  gaddr : Nat
  req : Nat
deriving DecidableEq, Repr

/-- The state of a granule at an agent, with the code of R189. -/
inductive CacheSt where
  | i | s | e | m
deriving DecidableEq, Repr

/-- The AtomicOps of R285 and R322. -/
inductive AtomicOp where
  | fetchAdd | swap | cas
deriving DecidableEq, Repr

/-- The pending kind of a combining entry's word, with the codes of R285. -/
inductive CombKind where
  | none | bit | sat8 | sat16 | first
deriving DecidableEq, Repr

/-- One word of an ACCUM payload or of a combining entry: its kind and its two operands (R248, R285). -/
structure CombWord where
  kind : CombKind := .none
  a : BitVec 64 := 0
  b : BitVec 64 := 0
deriving DecidableEq, Repr

/-- How one decode of a media page ended: corrected with this many bits, only at a bin two or more above the block's own
when `ahead` (R136), or not corrected (R106, R125). -/
inductive Decode where
  | corrected (bits : Nat) (ahead : Bool)
  | failed
deriving DecidableEq, Repr

/-- What a temperature sensor gave: a reading in units of 0.25 °C, no reading, or a failed built-in check (R472). -/
inductive Reading where
  | temp (q : Int)
  | absent
  | checkFailed
deriving DecidableEq, Repr

/-- What the module measures in the course that starts: the input (mV, mA, 0.1 W; R419, R420) and the PTM master time
in ns while a valid PTM context is held (R330). -/
structure CourseMeas where
  vin : Nat
  iin : Nat
  pin : Nat
  ptm : Option Nat
deriving DecidableEq, Repr

/-- The common fields of a submission entry (R332) and the queue it came from. -/
structure Cmd where
  q : Nat
  cid : Nat
  fence : Bool
  noInt : Bool
deriving DecidableEq, Repr

/-- A dword of the configuration space: of the header, of a capability or an extended capability by its ID of PCI Express Base 6.0, or of the space
that none of them takes (R322). -/
inductive CfgReg where
  | header (dw : Nat)
  | cap (id dw : Nat)
  | ext (id dw : Nat)
  | empty (dw : Nat)
deriving DecidableEq, Repr

/-- What a fetch of a submission entry returned (R336). -/
inductive Fetch where
  | entry (e : BitVec 512)
  | failed
deriving DecidableEq, Repr

/-- The classes that can use the cipher engine, with the codes of CPH_LOCK.HOLDER (R416). -/
inductive CphClass where
  | host | debug | firmware
deriving DecidableEq, Repr

/-- An access of the debug access port (R364, R396, R492). -/
inductive DebugAcc where
  | regRead (off size : Nat)
  | regWrite (off size : Nat) (v : BitVec 64)
  | memRead (addr len : Nat)
  | memWrite (addr : Nat) (data : List Byte)
  | scratchRead (off len : Nat)
  | scratchWrite (off : Nat) (data : List Byte)
deriving DecidableEq, Repr

/-- What the boot path met at steps 7 to 12 of R360 (R382): nothing wrong, a DRAM channel that fails training or wipe,
or a media channel that returns no trims; and whether the newest checkpoint mark, only the one before it, or neither could be loaded. -/
inductive BootMedia where
  | good
  | dramFail (k : Nat)
  | mediaFail (c : Nat)
  | olderMark
  | noMark
deriving DecidableEq, Repr

/-- What a scrubber or a reader found at a location (R482, R491); `metadata` for DRAM: the metadata block that holds the location's inline
record is no longer the one that its MAC covers, which no code of a burst shows (R400). -/
inductive EccFind where
  | clean
  | corrected
  | uncorrectable
  | metadata
deriving DecidableEq, Repr

/-- The kinds of trip (R433). -/
inductive TripKind where
  | threshold
  | relative
deriving DecidableEq, Repr

/-- A KEY_OFFER of R301 with the peer's keys as numbers. -/
structure KeyOffer where
  grp : Nat
  epoch : Nat
  nonce : Nat
  idKey : Nat
  ecdhKey : Nat
deriving DecidableEq, Repr

/-- One constructor per row of spec/opcode_table.json, in the table's order. -/
inductive Instr where
  -- ticks and courses (R31 to R69)
  | courseStart (interval : Nat) (m : CourseMeas)
  | earlyEdge
  | missedTick (m : CourseMeas)
  | flywheelCourseEnd (m : CourseMeas)
  | flywheelClear
  | periodAverage
  | programWindowFix
  | guardInterval
  | escalationFall (act loc : Nat)
  | programAbandon (prog : Nat)
  -- media and drift (R70 to R143)
  | mediaReadDone (read : Nat) (d : Decode)
  | pulseGroupDone (prog : Nat) (ok : Bool)
  | resetStripDone (block : Nat) (ok : Bool)
  | journalPageTimeout
  | checkpointPeriodic
  | packageSample (rs : List Reading)
  | stagingCopyDone (line : Nat)
  -- coherence (R180 to R209) and ordering (R210 to R240)
  | rdShared (m : Msg)
  | rdUnique (m : Msg)
  | upgrade (m : Msg)
  | rdOnce (m : Msg)
  | wrNc (m : Msg) (mask : BitVec 64) (data : Granule) (poison : Bool)
  | orderBarrier (m : Msg) (arg : BitVec 32)
  | complBarrier (m : Msg) (arg : BitVec 32)
  | wbDirty (m : Msg) (data : Granule) (poison : Bool)
  | evictClean (m : Msg) (given : CacheSt)
  | ack (m : Msg) (htid : Nat)
  | snpResp (m : Msg) (htid : Nat) (st : CacheSt) (evicted : Bool)
  | snpData (m : Msg) (htid : Nat) (st : CacheSt) (data : Granule) (poison : Bool)
  | atomic (m : Msg) (op : AtomicOp) (size : Nat) (offset : Nat) (payload : Granule)
  | accum (m : Msg) (words : List CombWord)
  | reservedOpcodeMessage (m : Msg)
  | readNotice (m : Msg)
  | gatherMaxAge (entry : Nat)
  | hostFenceRead
  | hostFenceTimeout
  | perstN
  | functionLevelReset
  | d3hotTransition (toD3 : Bool)
  -- streams (R241 to R276)
  -- the two blocks of a pair as they come off the lanes, lane 0 in the low half
  | streamRecord (s : Nat) (wire : BitVec 128) (early : Bool)
  | streamFramingError (s : Nat) (h0 h1 : BitVec 2) (wire : BitVec 128)
  | streamCheckWord (s : Nat) (wire : BitVec 128)
  | streamAlignWord (s : Nat) (wire : BitVec 128)
  | combineRecord (s : Nat)
  | stmStopNHoldExpiry (s : Nat)
  | egressWordPositions (s : Nat)
  | playbackReadData (s : Nat) (req : Nat)
  | arm (s : Nat) (v : BitVec 32)
  | ingressFlush (s : Nat)
  | egressFlush (s : Nat)
  | playlistEntryWrite (s list entry : Nat) (high : Bool) (v : BitVec 64)
  | streamLanesDown (s : Nat)
  | streamLanesUp (s : Nat)
  -- links (R277 to R307)
  -- the 256 bytes of the lanes as their symbols spell them
  | flitReceived (port : Port) (wire : BitVec 2048)
  | nakRepeat (port : Port)
  | linkStateTimeout (port : Port)
  | detectRetry (port : Port)
  -- the 32 B of the set, and whether its lane has the error ratio of R278 with the preset in use
  | trainingSet (port : Port) (set : BitVec 256) (low : Bool)
  | linkTrainFail (port : Port)
  | creditInit (port : Port) (q s w p d : Nat)
  | linkDown (port : Port) (reason : Nat)
  | keyOffer (l : Nat) (o : KeyOffer)
  | keyWrap (l : Nat) (wrapped sig : Nat)
  | keyDone (l : Nat) (epoch : Nat)
  | reservedLtype (port : Port) (ltype : Byte)
  | portEnable (port : Port) (on : Bool)
  | agentReset (p : Nat)
  | retrain (port : Port)
  -- groups (R308 to R321)
  | groupHello (l src size interleave tickSource : Nat) (part : Nat) (tck : Nat)
  | formWait
  | tickAlignSend
  | tickAlign (l src : Nat) (t : Nat)
  | hoistArm (l src tag : Nat) (entry : BitVec 256)
  | hoistReply (l src tag status : Nat)
  | groupHoistTimeout (tag : Nat)
  | groupHoistCancel (l src : Nat) (hoistId : Nat)
  | linkResume (l src port fseq : Nat)
  | memberState (l src : Nat) (present lost waiting : BitVec 8)
  | readmit (l src : Nat) (mask : BitVec 8)
  | readmitWrite (mask : BitVec 8)
  -- host interface (R322 to R342)
  -- the dword that a configuration request names, and what a write carries
  | configurationRequest (write : Bool) (r : CfgReg) (v : BitVec 32) (tag : Nat)
  | bar0BadAccess (write : Bool)
  | registerWrite (off size : Nat) (v : BitVec 64)
  | bar2Read (addr len tag : Nat)
  | bar2Write (addr : Nat) (data : List Byte) (relaxed poisoned : Bool)
  | bar2Atomic (addr : Nat) (op : AtomicOp) (size : Nat) (operand compare : BitVec 128) (poisoned : Bool) (tag : Nat)
  | atomicUnsupported (bar4 : Bool) (off tag : Nat)
  | bar4Read (off len tag : Nat)
  | bar4Write (off : Nat) (data : List Byte)
  | debugAccess (a : DebugAcc)
  | tapInstruction (bypassOrIdcode : Bool)
  | sqTailDoorbell (q v : Nat)
  | cqHeadDoorbell (q v : Nat)
  | sqEntryFetched (q : Nat) (f : Fetch)
  | interruptGap (q : Nat)
  | queueEnable (q : Nat)
  | queueDisable (q : Nat)
  -- Quoin commands (R343 to R358)
  | nop (c : Cmd)
  | cachePreload (c : Cmd) (addr len : Nat) (lock : Bool)
  | cacheUnlock (c : Cmd) (addr len : Nat)
  | cacheMaintClean (c : Cmd) (addr len : Nat)
  | cacheMaintFlush (c : Cmd) (addr len : Nat)
  | cacheMaintInvalidate (c : Cmd) (addr len : Nat)
  | cacheMaintSetClean (c : Cmd) (grp first count : Nat)
  | cacheMaintSetFlush (c : Cmd) (grp first count : Nat)
  | cacheMaintSetInvalidate (c : Cmd) (grp first count : Nat)
  | copy (c : Cmd) (src dst len channel : Nat) (poisonOk : Bool)
  | resume (j : Nat)
  | discard (j : Nat)
  | hoistSubmit (c : Cmd) (entry : BitVec 256)
  | hoistCancel (c : Cmd) (hoistId : Nat)
  | snapshot (c : Cmd)
  | sealedImport (c : Cmd) (src dst len : Nat) (iv : BitVec 96) (slot : Nat)
  | attestCert (c : Cmd) (nonce : BitVec 256)
  | attestIdentity (c : Cmd) (nonce : BitVec 256)
  | attestConfig (c : Cmd) (nonce : BitVec 256)
  | attestGroup (c : Cmd) (nonce : BitVec 256)
  | lifecycleOwned (c : Cmd) (off len : Nat)
  | lifecycleSealed (c : Cmd) (off len : Nat)
  | lifecycleReturn (c : Cmd) (off len : Nat)
  | lifecycleEnd (c : Cmd) (off len : Nat)
  | selfTest (c : Cmd) (memory location : Nat)
  | stop (c : Cmd)
  | run (c : Cmd)
  | stopEntryComplete (entryUs : Nat)
  -- cipher engine (R404 to R409)
  | cphLockRead (cls : CphClass)
  | cphRelease (cls : CphClass) (ticket : BitVec 16)
  | encrypt (cls : CphClass) (ticket : BitVec 16) (keySlot : Nat)
  | decrypt (cls : CphClass) (ticket : BitVec 16) (keySlot : Nat)
  | unwrap (cls : CphClass) (ticket : BitVec 16) (keySlot subjSlot : Nat)
  | wrap (cls : CphClass) (ticket : BitVec 16) (keySlot subjSlot : Nat)
  | clear (cls : CphClass) (ticket : BitVec 16) (subjSlot : Nat)
  | cipherOpDone (agree : Bool)
  | cipherLockTimeout
  -- start-up, supply and power failure (R360 to R384, R417 to R451, R455)
  | powerUp (vin : Nat)
  | railGood (rail mv : Nat)
  | railStart (rail mv : Nat)
  | refStable (cycles : Nat)
  | clockTimeout
  | dramTrained (b : BootMedia) (offTime : Nat) (us : Nat)
  | startupThermalTimeout (sensor : Nat)
  | holdupCharged (c vbank : Nat)
  | memoryReady (readyUs : Nat)
  | inputTrip (kind : TripKind) (vin : Nat)
  | warningIntervalEnd
  | commitPoint
  | dumpComplete (us : Nat)
  | railDisable (rail : Nat)
  | inputRise (vin : Nat)
  | inputGood
  | autoRestart
  | overVoltage (vin : Nat)
  | overVoltageEnd (vin : Nat)
  | inputHigh (vin : Nat)
  | inputLimit
  | inputLimitClear
  | railRun (rail mv : Nat)
  | clockFail
  | pclkLoss
  | holdupMeasure
  | holdupMeasureDone (c vbank : Nat)
  | dirtyLimitRecompute (vbank : Nat)
  | pbShortPress
  | pbHoldOff
  | forcedOff
  | mrRelease
  | hardReset
  | glbResetKey
  | drainComplete
  | clkGateWrite (v : BitVec 32)
  | unitUngated (u : Nat)
  | thermalStop (sensor : Nat)
  | thermalTrip (sensor : Nat) (temp : Int)
  -- errors and the cornerstone flash (R480 to R505)
  | selfTestAuto (memory location : Nat)
  | selfTestRetry (memory location : Nat)
  | selfTestDone (memory location : Nat) (good : Bool)
  | scrubCorrection (memory location : Nat) (found : EccFind)
  | cornerstoneAppendDone (part dev : Nat) (ok : Bool)
  | eraseSlot (slot : Nat)
  | program (slot offset : Nat)
  | imageOpDone (ok : Bool)
  | operatingSecondsRecord
  -- counters and the event recorder (R506 to R522)
  | freeze
  | freezeRelease
  | pmcClear
  | unitClear (u : Nat)
  | pmcOverflow (u i : Nat)
  | eventSlotTimer
  | eventLateRecord (code : Nat)
  | expertClr
  -- SMBus side-band (R546 to R548); `pec` false: the PEC byte sent with the transaction fails
  | status (pec : Bool)
  | vin (pec : Bool)
  | tempMax (pec : Bool)
  | inlet (pec : Bool)
  | tripLast (pec : Bool)
  | fatalLast (pec : Bool)
  | ident (pec : Bool)
  | holdup (pec : Bool)
  | logLast (pec : Bool)
  | powerOn (pec : Bool)
  | powerOff (pec : Bool)
  | clearLatch (pec : Bool)
  | alertResponse (pec : Bool)
  | smbusUnknownCommand (code : Byte) (data : Byte)
  -- sensors, edges and pins
  | sensorSample (n : Nat) (r : Reading)
  | flywheelInputEdge (gap since : Nat)
  | agentResetStretchEnd (p : Nat)
  | receiverDetected (port : Port)
  | pcieLinkDown
  | pcieRefReturn
  | inputHighEnd (vin : Nat)
  | plinthDomainLoss
  | attestDone
  | cornerstoneEraseDone (dev sector : Nat) (ok : Bool)
  | dapEnChange (low : Bool)
deriving DecidableEq, Repr

end Sys2Proof
end

