-- ==== Sys2Proof/Config.lean ====
section
/-!
DEFINITION. What the spec leaves open and the model keeps open: the values that no rule gives, and the cryptographic
functions the rules name by their standards. Each is a constant without a body, so nothing can be proved of its value.
-/

namespace Sys2Proof.Config

/-- The n-th value that no rule gives: what the module took from its entropy source, what a stopped count read, which
datum a flash left behind. DESIGN CHOICE, log 8: safe. -/
opaque freeValue : Nat → Nat

/-! Cryptography by name of its standard (R390 to R414). PRESUMED uninterpreted, log 9: safe. -/

/-- AES-256-GCM encryption: key, 96-bit nonce, additional data, text; gives the ciphertext and the 128-bit tag. -/
opaque gcmSeal (key nonce : Nat) (aad text : List Byte) : List Byte × Nat

/-- AES-256-GCM decryption: gives the text and the tag computed over the ciphertext. -/
opaque gcmOpen (key nonce : Nat) (aad text : List Byte) : List Byte × Nat

/-- AES-256 key wrap and unwrap; unwrapping answers nothing when the integrity check fails. -/
opaque keyWrap (kek key : Nat) : Nat
opaque keyUnwrap (kek wrapped : Nat) : Option Nat

/-- SHA-384. -/
opaque sha384 : List Byte → Nat

/-- ECDSA P-384 over a hash: does the signature verify with the key; and the signature a private key makes. -/
opaque ecdsaOk (pub hash sig : Nat) : Bool
opaque ecdsaSign (priv hash : Nat) : Nat

/-- The signature check of a configuration image (R370): the hash of the key that must verify it, the hash of the image, the
signature. The key itself is held nowhere that a rule names (log 50). -/
opaque imageSigOk (keyHash hash sig : Nat) : Bool

/-- The X and Y, as 96 bytes in a number, of the public key of a private key. -/
opaque pubOf : Nat → Nat

/-- The key derivation of R299: a key, a label number and a context; byte 0 of its output in [7:0]. -/
opaque kdf (key label context : Nat) : Nat

/-- XTS-AES-256 of IEEE 1619 over a data unit of 512 B under a pair of keys (R393), a permutation of the data units: the exchanges of two
units that make it up, in order. Every permutation is such a product (log 9). -/
opaque xts (k1 k2 : BitVec 256) (tweak : Nat) : List (LineData × LineData)

/-- One block of AES-256, and the GHASH of 512 B (R399). -/
opaque aes (key : BitVec 256) (block : BitVec 128) : BitVec 128
opaque ghash (key : BitVec 256) (data : LineData) : BitVec 128

/-- The MAC of the 256 records of a metadata block (R400). -/
opaque metaMac (key : BitVec 256) (records : List (BitVec 128)) : BitVec 64

/-- The P-384 public key whose SHA-384 hash this is: of the owner's the module holds the hash (R385), and no rule says where the key comes
from (log 68). -/
opaque keyOfHash (hash : Nat) : Nat

/-- The ECDH shared key of R301. -/
opaque ecdh (priv pub : Nat) : Nat

/-- The SHA-384 hashes in mask ROM: of the Rilhaus image key and of the Rilhaus authorisation key (R385). -/
opaque imageKeyHash : Nat
opaque authKeyHash : Nat

/-- Rows of post-package repair that the DRAM devices have (R489): no rule gives their number. -/
opaque dramSpares : Nat

/-- The DER certificate of the identity keys, made at manufacture (R391, R413); at most 1,536 B. -/
opaque certificate (serial : Nat) : List Byte

/-- The CRC-32 of a stream of bytes (R371, R494, R305). -/
opaque crc32 : List Byte → BitVec 32

/-- The CRC-16 of the metadata of a page (R72): no rule gives its polynomial. -/
opaque crc16 : List Byte → BitVec 16

/-- The field GF(2^8) of the FEC of R281: the product of two elements, and the four roots of its codewords. No rule gives its polynomial
(DESIGN CHOICE, log 168: safe). -/
opaque gfMul (a b : Byte) : Byte
opaque fecRoot (j : Nat) : Byte

/-- The memory type of a 64 MiB unit of another member's memory (R210, R217), by member × 2^19 + unit: true for device. A member's region
table is its own (R313), and no rule gives this module a copy of it. DESIGN CHOICE, log 82: safe. -/
opaque remoteDevice (unit : Nat) : Bool

/-! What each die is trimmed to at manufacture (R123, R133): no rule gives a value. DESIGN CHOICE, log 121: safe. -/

/-- The value after a value of a sampling path's LFSR (R513): no rule gives its taps (DESIGN CHOICE, log 153, safe). -/
opaque lfsrNext : BitVec 32 → BitVec 32

/-- The base value V_j of a die for threshold j, in DAC steps. -/
opaque dieTrim (die j : Nat) : Int

/-- The trimmed SET current of a die. -/
opaque dieSet (die : Nat) : Nat

end Sys2Proof.Config
end

