-- ==== Sys2Proof/Machine/State.lean ====
section
/-!
DEFINITION. The state of the module as plain data, one structure for each block of the register map and each engine of
the module, the values of every field at reset (they are the fields' defaults), and the reasons a step can stop.
A field's docstring gives: what it is; its width; the rule; its reset value (`spec` where the spec gives it, `log n`
where the assumption log's entry n names it).
-/

namespace Sys2Proof.Machine

/-- A sparse map from an index to a value: indexes strictly rising, and no entry equal to the value that an unlisted
index reads as (each table's docstring names that value). -/
abbrev Table (α : Type) := List (Nat × α)

/-- Where a request enters (R14, R181). -/
inductive Src where
  | hal (p : Nat) | cop (l : Nat) | host | copy (j : Nat) | stream (s : Nat) | fw | dbg
deriving DecidableEq, Repr

/-! ## Outputs -/

/-- The STATUS of a response (R190). -/
inductive RStat where
  | ok | noRight | type | integrity | mediaExhausted | memberLost | protocol
deriving DecidableEq, Repr

/-- The completion status of a PCI Express request (R328). -/
inductive CplStat where
  | sc | ur | ca | rrs
deriving DecidableEq, Repr

/-- The snoops of R191. -/
inductive SnpKind where
  | inv | shared | clean
deriving DecidableEq, Repr

/-- What the module emits: messages on its links, completions and messages on PCI Express, words on stream lanes and
answers on the side-band and the debug port. The levels of pins are fields of the state. -/
inductive Out where
  /-- DATA (R191): receiving agent (or requester, as `agentOf` numbers it), txid, htid, granule, granted state, poison, data. -/
  | data (agent txid htid gaddr : Nat) (st : CacheSt) (poison : Bool) (d : Granule)
  /-- COMP (R191). -/
  | comp (agent txid htid gaddr : Nat) (st : CacheSt) (status : RStat)
  /-- WB_ACK (R191). -/
  | wbAck (agent : Nat) (gaddr : Nat) (status : RStat)
  /-- A snoop (R191). -/
  | snoop (agent htid gaddr : Nat) (k : SnpKind)
  /-- A request forwarded to another member over a Coping port (R17, R314). -/
  | forward (l home : Nat) (req gaddr : Nat) (c : Instr)
  /-- A message passed on unchanged, whole (R310, R320): Coping port, class (5 for a link-layer message), slots. -/
  | relay (l cls : Nat) (slots : List (BitVec 128))
  /-- A link-layer message (R296, R320): port, LTYPE, the fields from byte 2 as numbers. -/
  | lctl (p : Port) (ltype : Nat) (fields : List Nat)
  /-- The home's notice that it has read the line of another member's read (R227): receiving agent or requester, txid, granule. No rule gives
  its form on the link (DESIGN CHOICE, log 82). -/
  | notice (agent txid gaddr : Nat)
  /-- A flit on a port's lanes (R279 to R282): the symbols of each lane, scrambled, in the order sent. It goes before the record of the message
  that it ends. -/
  | flit (p : Port) (lanes : List (List Int))
  /-- A training set on a lane (R293): its 32 B, which are not scrambled. -/
  | train (p : Port) (lane : Nat) (set : List Byte)
  /-- A PCI Express completion (R328): tag, status, EP, data. -/
  | cpl (tag : Nat) (st : CplStat) (ep : Bool) (d : List Byte)
  /-- An AER error of R328: 0 Unsupported Request, 1 Completer Abort, 2 Uncorrectable Internal, 3 Poisoned TLP. -/
  | aer (e : Nat)
  /-- A completion entry written to host memory (R331, R333): queue, slot, address, entry. -/
  | cqe (q slot addr : Nat) (e : BitVec 128)
  /-- A read request for a submission entry in host memory (R331): queue, slot, address. -/
  | sqRead (q slot addr : Nat)
  /-- An MSI-X message (R339). -/
  | msix (vector : Nat)
  /-- An egress block pair (R303, R304): 0 data, 1 not-valid, 2 poison, 3 control word; its payload; the headers and the scrambled blocks of
  lane 0 and of lane 1. -/
  | egress (s kind : Nat) (w : BitVec 128) (h0 h1 : BitVec 2) (b0 b1 : BitVec 64)
  /-- A side-band answer (R547); `none` is a NACK or no answer. -/
  | smbus (answer : Option (List Byte))
  /-- A debug-port answer; `none` is the error response of R396. -/
  | debug (answer : Option (List Byte))
  /-- A register read's value. -/
  | reg (off : Nat) (v : BitVec 64)
deriving DecidableEq, Repr

/-! ## Identity and fuses -/

inductive Part where
  | szm7240 | szm7212
deriving DecidableEq, Repr

/-- The controller's fuses and the values fixed at manufacture (R528, R391, R568). -/
structure Fuses where
  /-- Part number; 16; R1, R528; DESIGN CHOICE, log 5 (the SZM-7240). -/
  part : Part := .szm7240
  /-- Grade: 1 -C, 2 -E; 4; R2, R528; DESIGN CHOICE, log 5 (-C). -/
  grade : Nat := 1
  /-- GLB_ID.STEPPING; 8; R528, R568; DESIGN CHOICE, log 5. -/
  stepping : BitVec 8 := 1
  /-- Serial number; 32; R528; DESIGN CHOICE, log 5. -/
  serial : BitVec 32 := 1
  /-- Firmware level; 32; R13, R528, R568; DESIGN CHOICE, log 5. -/
  fwLevel : BitVec 32 := 0
  /-- Hardware root key; 256; R391; DESIGN CHOICE, log 5. -/
  rootKey : Nat := 0
  /-- Life-cycle fuse counter, SEC_LC.TRANSITIONS; 16; R388; 0 at manufacture, spec R415. -/
  transitions : Nat := 0
deriving DecidableEq, Repr

/-! ## The medium (non-volatile) -/

/-- The block states of R75, with their codes. -/
inductive BlkSt where
  | free | opened | full | victim | pendingReset | failed | retired | spare
deriving DecidableEq, Repr

/-- A block's record (R74) with what the module keeps beside it. -/
structure Blk where
  /-- STATE; 3; R74, R75; spec R558. -/
  st : BlkSt := .free
  /-- ROLE: 0 user, 1 map, 2 journal, 3 checkpoint, 4 dump; 3; R74; spec R558. -/
  role : Nat := 0
  /-- RESET_COUNT; 24; R74, R109; DESIGN CHOICE, log 7. -/
  resets : Nat := 0
  /-- VALID; 12; R74; spec R558. -/
  valid : Nat := 0
  /-- REWRITES; 2; R74; spec R558. -/
  rewrites : Nat := 0
  /-- HEAVY; 4; R74; spec R558. -/
  heavy : Nat := 0
  /-- Single-level tally; 3; R109; 0. -/
  tally : Nat := 0
  /-- Cohort index; 8; R116; none at manufacture, spec R558. -/
  cohort : Option Nat := none
  /-- Pages already given to programs, in ascending order; R75; 0. -/
  next : Nat := 0
  /-- Order in which the block closed or failed (R95); 0. -/
  order : Nat := 0
  /-- Queued for rewrite (R106): its place in the order of queueing; none. -/
  rewriteQ : Option Nat := none
  /-- On its bank's repointing queue (R128). -/
  repointQ : Bool := false
  /-- DRIFT_OVERDUE recorded (R131). -/
  overdue : Bool := false
  /-- The cause with which the block leaves service, R92 STATE (R107: 4 when relocated at the rewrite limit). -/
  doom : Nat := 0
deriving DecidableEq, Repr

/-- A map or directory entry (R77, R80). -/
structure MapEnt where
  valid : Bool := false
  poison : Bool := false
  zero : Bool := false
  cold : Bool := false
  ppn : Nat := 0
deriving DecidableEq, Repr

/-- A programmed physical page: the 16 B of metadata of its spare area (R72), byte 0 least significant, and its data. -/
structure MPage where
  /-- Metadata; 128; R72. -/
  spare : BitVec 128
  /-- Data as it stands on the medium: of user data, map and dump pages it is the ciphertext under the media key; 4096; R71, R393. -/
  data : LineData
deriving DecidableEq, Repr

/-- The journal records of R92, R379 and R444. -/
inductive JRec where
  | blockOpen (role stream block : Nat)
  | relocBegin (act block : Nat)
  | relocCommit (redo : Bool) (w first src tgt : Nat) (bitmap : BitVec 64)
  | mapSet (upage : Nat) (e : MapEnt) (seq : Nat) (wb : Bool)
  | mapPageWrite (m : Nat) (e : MapEnt)
  | pendingReset (block count tally : Nat)
  | resetDone (block : Nat)
  | state (st : BlkSt) (cause block : Nat)
  | mark (gen seq : Nat)
  | dumpRelease (gen : Nat)
  | cleanShutdown (seq : Nat)
deriving DecidableEq, Repr

/-- A cohort of a package (R116). -/
structure Cohort where
  idx : Nat
  stamp : Nat
  count : Nat
deriving DecidableEq, Repr

/-- A package's clock and cohort table (R115, R116). -/
structure Pkg where
  /-- Θ; 64; R115; 0, spec R558. -/
  theta : Nat := 0
  /-- Cohort table, stamp order, oldest first; 256 entries; R116; empty, spec R558. -/
  cohorts : List Cohort := []
deriving DecidableEq, Repr

/-- A durable journal page by its JSEQ, with its records; the page itself, with its CRC, stands in `Medium.pages` (R91). -/
structure JDur where
  jseq : Nat
  recs : List JRec
deriving DecidableEq, Repr

/-- What a durable checkpoint holds (R93, R120). -/
structure Ckpt where
  gen : Nat
  seq : Nat
  /-- JSEQ of the page that holds its mark: replay starts after that page. -/
  jseq : Nat := 0
  map : Table MapEnt
  dir : Table MapEnt
  blocks : Table Blk
  pkgs : Table Pkg
  /-- DATA_SEQ of the zero and poisoned entries of `map`, which name no page: the model's own; R101; DEDUCED, log 28. -/
  flags : Table Nat := []
  /-- By segment, the package and its Θ when the segment was last written; unlisted: at manufacture; R124. -/
  segAt : Table (Nat × Nat) := []
deriving DecidableEq, Repr

/-- One item of the dump (R435): TYPE 1 line, 2 poisoned line, 3 staged page, 4 journal page, 5 gather entry. -/
structure DumpItem where
  type : Nat
  page : Nat := 0
  seq : Nat := 0
  data : LineData := 0
  jrecs : List JRec := []
  granule : Nat := 0
  /-- Requester number of a gather-buffer entry. -/
  req : Nat := 0
  mask : BitVec 64 := 0
  /-- The page position k of R436; type 2 has none. -/
  pos : Option Nat := none
deriving DecidableEq, Repr

/-- A dump in the dump area (R436, R437, R438). -/
structure Dump where
  gen : Nat
  items : List DumpItem
  complete : Bool
  us : Nat := 0
deriving DecidableEq, Repr

/-- Everything the medium keeps without power (R360, R72, R90, R93, R436). -/
structure Medium where
  /-- Programmed pages by physical page number; unlisted: not programmed; R18, R72; empty, spec R558. -/
  pages : Table (Option MPage) := []
  /-- Durable journal pages, oldest first; R90, R91; one with a mark and CLEAN_SHUTDOWN, spec R558. -/
  journal : List JDur := [{ jseq := 0, recs := [.mark 0 0, .cleanShutdown 0] }]
  /-- The durable checkpoints in force, newest first, at most two; R93; one empty checkpoint, spec R558. -/
  ckpts : List Ckpt := [{ gen := 0, seq := 0, map := [], dir := [], blocks := [], pkgs := [] }]
  /-- The dump area; R436; no dump, spec R558. -/
  dump : Option Dump := none
  /-- Latest durable DUMP_RELEASE generation; R379, R438; none. -/
  released : Option Nat := none
  /-- The wrapped pair of media keys in the key sectors, by the fuse count it was wrapped under; R388, R391; made at manufacture. -/
  mediaKey : Option (Nat × Nat) := some (0, 0)
  /-- Banks that are read-only, and worn: neither state is ever left; R111; none; DEDUCED, log 162. -/
  readOnly : List Nat := []
  worn : List Nat := []
  /-- Fuse count under whose media key the contents were written; R388, R377; 0 at manufacture. -/
  written : Nat := 0
  /-- Data was lost at the last power-down or hard reset, which R234, R447, R448 and R476 make unclean; DESIGN CHOICE, log 31; not. -/
  lossy : Bool := false
deriving DecidableEq, Repr

/-! ## The cornerstone flash (non-volatile) -/

/-- A supply log payload (R428). -/
structure SupplyRec where
  kind : Nat
  rail : Nat
  railMv : Nat
  vinMv : Nat
  bank : Nat
  cycles : Nat
  opSec : Nat
  data : Nat
deriving DecidableEq, Repr

/-- An event record (R516) without its computed CRC; `seq` is given at the append or while waiting. -/
structure EvRec where
  seq : Nat
  cycles : Nat
  opSec : Nat
  code : Nat
  source : Nat
  severity : Nat
  suppressed : Nat
  operand : BitVec 64
  tick : Nat
deriving DecidableEq, Repr

/-- A record of a record partition (R495): KEY and payload as bytes; SGEN and address order it (R494, R502). -/
structure FRec where
  seq : Nat
  key : Nat
  payload : List Byte
  sgen : Nat
  slot : Nat
  dev0 : Bool
  dev1 : Bool
deriving DecidableEq, Repr

/-- A record partition of R493. -/
structure Partition where
  recs : List FRec := []
  /-- Highest SGEN used; 32; R494. -/
  sgen : Nat := 1
  /-- Slots used in the open sector, 0–511; R494. -/
  used : Nat := 0
  /-- The ready sector stands erased ahead of the open one; R496. -/
  ready : Bool := true
deriving DecidableEq, Repr

/-- An append that waits for its two programs (R496). -/
structure Append where
  part : Nat
  r : FRec
  /-- 0: device 0 under program; 1: device 1 under program. -/
  phase : Nat
deriving DecidableEq, Repr

/-- The cornerstone flash (R493 to R503). -/
structure Flash where
  /-- Record partitions 1–5; R493, R505; empty, DESIGN CHOICE, log 10. -/
  parts : Table Partition := []
  /-- Appends in progress, oldest first; R496. -/
  appends : List Append := []
  /-- Configuration slots A and B: bytes that differ from erased (0xFF); R369; erased, DESIGN CHOICE, log 10. -/
  slotA : List Host.Cell := []
  slotB : List Host.Cell := []
  /-- Device d answers; 1 each; R501; 1, DESIGN CHOICE, log 10. -/
  ok0 : Bool := true
  ok1 : Bool := true
  /-- Both partition tables can be read; R382 cause FLASH. -/
  tableOk : Bool := true
  /-- Life-cycle record readable; R382 cause LIFECYCLE. -/
  lcOk : Bool := true
  /-- Life-cycle state of the newest record: 0 BLANK … 4 END; 3; R385; BLANK, spec R558. -/
  lc : Nat := 0
  /-- TRANSITIONS of the newest life-cycle record; 16; R388, R389. -/
  lcTrans : Nat := 0
  /-- Owner key hash of the record; 384; R385. -/
  ownerHash : Option Nat := none
  /-- Key sector still to be erased (bit per device) for a life-cycle change; R388 step 5. -/
  keyErase0 : Bool := false
  keyErase1 : Bool := false
  /-- Counters partition: power cycles 24, operating seconds 40, version floor 32, last C, hours at the measurement; R498. -/
  powerCycles : Nat := 0
  opSeconds : Nat := 0
  versionFloor : Nat := 0
  lastC : Option Nat := none
  lastCHours : Nat := 0
  /-- Repairs by memory (key 0x0010 + memory); R489, R498: the locations retired. -/
  repairs : Table (List Nat) := []
  /-- End of the highest durable nonce reservation block; 64; R407. -/
  nonceReserved : Nat := 0
  /-- Highest reservation asked for, durable or not; R407. -/
  nonceAsked : Nat := 0
  /-- Spare sectors left and retired sectors; R493 (64 sectors), R501. -/
  spares : Nat := 64
  retired : Nat := 0
  /-- Erases that wait or are under way: sector and device, in order; the two devices of a sector never at once; R496, R497. -/
  erases : List (Nat × Nat) := []
  /-- Durable event records, newest first; R516; empty, DESIGN CHOICE, log 10. -/
  events : List EvRec := []
  /-- Compactions of the event partition, EVR_STATUS.EPOCH; 16; R519. -/
  epoch : Nat := 0
deriving DecidableEq, Repr

/-! ## GLB -/

structure Glb where
  /-- Identity loaded from the fuses at step 3 (R528). -/
  identity : Bool := false
  /-- EXPERT_EN of the applied image; 1; R529; image, DESIGN CHOICE, log 6. -/
  expertEn : Bool := false
  /-- GLB_SCRATCH; 64; R529; 0. -/
  scratch : BitVec 64 := 0
  /-- GLB_START_STATUS fields; R384; 0. -/
  failCause : Nat := 0
  failUnit : Nat := 0
  /-- A domain that was woken on demand has failed its wake: FAIL_CAUSE and unit; R368. -/
  wakeBad : Option (Nat × Nat) := none
  startKind : Nat := 0
  dumpPartial : Bool := false
  slot : Nat := 0
  fallback : Bool := false
  lcForward : Bool := false
  failed : Bool := false
  memReady : Bool := false
  imageApplied : Bool := false
  /-- GLB_START_TIME; 32 each; R384; 0. -/
  restoreUs : Nat := 0
  readyUs : Nat := 0
  /-- Last completed step of R360 in this start; R360; 2 (a module reset begins the sequence at step 3), spec R365. -/
  step : Nat := 2
  /-- The charge path has finished (step 13). -/
  charged : Bool := false
  /-- Accesses of the debug port that wait, in order of arrival; R14, R15, R368; none. -/
  dbgWait : List DebugAcc := []
  /-- Register writes of the debug port held until step 6; R364. -/
  heldWrites : List (Nat × Nat × BitVec 64) := []
  /-- VERSION and RAISE_FLOOR of the applied image; R372. -/
  imgVersion : Nat := 0
  imgRaise : Bool := false
  /-- SHA-384 of the applied image; R413. -/
  imgHash : Nat := 0
  /-- GROUP_KEYS of the applied image; R371. -/
  groupKeys : List Nat := []
deriving DecidableEq, Repr

/-! ## TCK: ticks, courses, hoists -/

/-- An armed entry of the hoist table (R56). -/
structure Hoist where
  launch : Nat
  action : Nat
  group : Bool
  notify : Bool
  id : Nat
  rep : Nat
  arg : BitVec 128
  /-- Queue that submitted it on this module, with its NO_INT flag (R352). -/
  queue : Option Nat := none
  /-- The entry was in place at the freeze of its tick (R59); false only for a copy armed after it. -/
  onTime : Bool := true
  /-- A cancel came after its freeze: it launches, and is then freed; R63. -/
  cancelled : Bool := false
deriving DecidableEq, Repr

/-- A group hoist whose replies are awaited (R63). -/
structure GroupHoist where
  tag : Nat
  cmd : Cmd
  id : Nat
  accepted : Nat
  /-- Members that have replied SUCCESS, this one included. -/
  replied : BitVec 8
deriving DecidableEq, Repr

/-- A level of R52: the present level, consecutive course starts below it, and the highest level among them. -/
structure Esc where
  level : Nat := 0
  below : Nat := 0
  high : Nat := 0
deriving DecidableEq, Repr

structure Tck where
  /-- TCK_CTRL.OUT_EN; 1; R69; image, DESIGN CHOICE, log 6. -/
  outEn : Bool := false
  /-- TCK_CTRL.SOURCE: 0 external, 1 internal; 2; R69; image, DESIGN CHOICE, log 6. -/
  source : Nat := 0
  /-- TCK_PERIOD.PERIOD_CODE; 5; R69; image, default 4 (R32). -/
  code : Nat := 4
  /-- TCK_COUNT; 64; R33; 0. -/
  count : Nat := 0
  /-- Courses started, by which the module counts off courses; a realignment of TCK_COUNT does not move it (R318, R41, R49): the model's own;
  R49, R41; 0. -/
  course : Nat := 0
  /-- Courses run (step 8 of R360 onward, until a commit point); R360, R434. -/
  running : Bool := false
  /-- TCK_STATUS bits; R69; 0. -/
  mismatch : Bool := false
  flywheel : Bool := false
  inputOk : Bool := false
  /-- TCK_EVENT_CNT; 16 each, saturating; R69; 0. -/
  early : Nat := 0
  missed : Nat := 0
  /-- TCK_VIOL_CNT, TCK_COND_CNT; 32 each, saturating; R69; 0. -/
  viol : Nat := 0
  cond : Nat := 0
  /-- TCK_HOIST_SEL; 6; R69; 0. -/
  sel : Nat := 0
  /-- TCK_HOIST_LAST; 64; R69; 0. -/
  last : Nat := 0
  /-- Hoist table, 64 entries by index; R56; empty, spec R376. -/
  hoists : Table (Option Hoist) := []
  groupHoists : List GroupHoist := []
  /-- Group hoists of other members that this one holds no entry for, by HOIST_ID and launch tick, until their freeze; R63; none. -/
  refusedArms : List (Nat × Nat) := []
  /-- HOIST_IDs of group hoists of other members that have launched once and for all; R63; none. -/
  launched : List Nat := []
  /-- Next request tag of HOIST_ARM; 16; R320. -/
  nextTag : Nat := 0
  /-- Consecutive missed ticks; R65. -/
  missRun : Nat := 0
  /-- Flywheel: two in-window edges seen, so the next edge ends the course; R66. -/
  returning : Bool := false
  /-- Consecutive in-window input edges seen in flywheel operation; R66. -/
  edgeRun : Nat := 0
  /-- Consecutive accepted input edges; R66. -/
  acceptRun : Nat := 0
  /-- Sum (ps) and number of the intervals counted toward the average; R68. -/
  avgSum : Nat := 0
  avgCnt : Nat := 0
  /-- Whether the next interval can be counted (R68: not one that spans a missed tick or ends a flywheel course). -/
  avgArmed : Bool := false
  /-- 0.25 T of the course has passed: program windows are fixed; R557. -/
  fixed : Bool := false
  /-- The guard interval of the course has begun; R36. -/
  guard : Bool := false
  /-- Levels of R52, keyed by activity × 65,536 + bank, channel or 0; idle. -/
  esc : Table Esc := []
  /-- Bank within its channel at which the walks of R53 start, one further at each course start; R53; 0, DESIGN CHOICE, log 130. -/
  walk : Nat := 0
  /-- Whose turn it is in the one-for-one step of R53, per bank: true for the pressing activity. -/
  alt : Table Bool := []
  /-- TICK_OUT edges driven; R35. -/
  outEdges : Nat := 0
deriving DecidableEq, Repr

/-! ## MED and DRF: the media engine -/

/-- Why a media page is read. -/
inductive RdWhy where
  | fill (line : Nat)
  | mapPage (m : Nat)
  | reloc (rel : Nat) (page : Nat)
  | patrol (block page : Nat)
  | selfTest (ppn : Nat)
deriving DecidableEq, Repr

/-- A sense of a multi-level page (R123, R125, R469): the bin whose thresholds it takes, the DAC steps by which they are shifted, and the
seven thresholds themselves, lowest first; a sense of a single-level page has one fixed threshold and an empty list (R124). -/
structure Sense where
  /-- Bin whose thresholds it takes; R123. -/
  bin : Nat
  /-- DAC steps by which they are shifted; R125. -/
  shift : Int
  /-- Its seven thresholds, lowest first; R123, R469. -/
  levels : List Int := []
deriving DecidableEq, Repr

/-- A queued or assigned media read (R45 to R47, R125). -/
structure MRead where
  id : Nat
  why : RdWhy
  ppn : Nat
  /-- 0 class A, 1 class B, 2 class C, 3 background; R46. -/
  cls : Nat
  /-- Level of a background read (1 to 3). -/
  level : Nat
  /-- Course in which it arrived at port ingress, and in which it is treated as queued; R48, R557. -/
  arrived : Nat
  queued : Nat
  /-- Queued within the first B class A and B reads of its course; R45. -/
  inBudget : Bool
  /-- Class A and B reads of its channel queued before it in that course; R45, R67. -/
  rank : Nat := 0
  /-- Its place among the reads queued in one course; R46, R153. -/
  ord : Nat := 0
  /-- Retries made, 0 first attempt; R125. -/
  retry : Nat
  /-- Course in which it is assigned a window; none while it is queued. -/
  assigned : Option Nat
  /-- Assigned to the read window (else the program window). -/
  inRead : Bool
  /-- A retry that did not fit within Q in its course: it goes first in the next; R127. -/
  passed : Bool := false
  /-- The fill of an accumulate in a power-fail warning: it stands at the place of step 3 of R46; R259. -/
  warn : Bool := false
  /-- The senses of the present attempt, and those of the attempts before it; R119, R125. -/
  senses : List Sense := []
  made : List Sense := []
deriving DecidableEq, Repr

/-- A program waveform (R133): its number, the first-pulse current in units of 1 % of 1 DAC step of the SET current's trim, the rise of
each pulse in percent of the SET current, the pulse width in ns and the verify margin in DAC steps. -/
structure Waveform where
  no : Nat
  first : Nat
  step : Nat
  width : Nat
  margin : Nat
deriving DecidableEq, Repr

/-- What a page program writes. -/
inductive PgKind where
  | write (upage : Nat)
  | copy (rel : Nat) (page : Nat)
  | mapPage (m : Nat)
  | journal (jseq : Nat)
  | segment (n : Nat)
  | imported (upage : Nat)
deriving DecidableEq, Repr

/-- A page program (R39 to R42, R84, R133). -/
structure Prog where
  id : Nat
  kind : PgKind
  /-- Bank that carries it (PPN bits [35:24]). -/
  bank : Nat
  /-- Its physical page, taken from the stream's current block when its first piece is planned. -/
  ppn : Option Nat := none
  page : MPage
  /-- 8 pulse groups, or 1 in single-level mode; R39. -/
  groups : Nat
  /-- Pulse groups verified. -/
  done : Nat := 0
  /-- The first half-piece of the present group has run; R39, R42. -/
  half : Bool := false
  /-- Course of its first piece; R41. -/
  first : Option Nat := none
  /-- A piece of it runs in the present course. -/
  running : Bool := false
  /-- Waveform, fixed by the band at the first piece; none for the one waveform of single-level programs; R133, R134. -/
  wave : Option Waveform := none
  /-- Activity that owns it: 0 write path, 1 repointing, 2 reclaim or rewrite, 3 wear levelling, 4 journal. -/
  owner : Nat := 0
deriving DecidableEq, Repr

/-- A write-staging slot of the write path (R84, R85). -/
structure Stage where
  upage : Nat
  /-- Bank that receives it (PPN bits [35:24]), chosen when it enters (R84 step 4). -/
  bank : Nat
  data : LineData
  seq : Nat
  /-- Its program, once one is made. -/
  prog : Option Nat := none
  /-- Its program was abandoned: it is to be placed afresh, once the staging of its new channel has a slot; R41, R85. -/
  afresh : Bool := false
deriving DecidableEq, Repr

/-- A zero or poisoned write-back whose map entry has not changed yet (R86). -/
structure PendSet where
  upage : Nat
  ent : MapEnt
  seq : Nat
deriving DecidableEq, Repr

/-- One copied page of a relocation: source page, target physical page, user or map page, flags. -/
structure Copied where
  page : Nat
  tgt : Nat
  id : Nat
  cold : Bool
  /-- A second copy, made because its first target failed; R99. -/
  redo : Bool := false
deriving DecidableEq, Repr

/-- A relocation (R96). -/
structure Reloc where
  id : Nat
  src : Nat
  /-- 0 reclaim, 1 repointing, 2 wear levelling, 3 rewrite; R92. -/
  act : Nat
  /-- RELOC_BEGIN entered, and the source VICTIM or FAILED. -/
  begun : Bool := false
  /-- Present window 0–31; 32 when every window is done. -/
  win : Nat := 0
  /-- Next source page of the window to look at. -/
  page : Nat := 0
  /-- A source read or a copy program is in progress for this page. -/
  busy : Option Nat := none
  /-- Copies of the present window verified but not committed. -/
  copied : List Copied := []
  /-- Commits entered and not yet durable: JSEQ of the page and the copies. -/
  commits : List (Nat × Bool × List Copied) := []
  /-- Every copy committed so far, for a failed target (R99). -/
  made : List Copied := []
  /-- Pages to copy again into a new target, still without their second copy (R99). -/
  again : List Nat := []
  /-- PENDING_RESET entered: JSEQ of its page. -/
  pendSeq : Option Nat := none
deriving DecidableEq, Repr

/-- A block reset in progress (R39, R96). -/
structure Rst where
  block : Nat
  /-- The activity it belongs to, as in `Prog.owner`. -/
  owner : Nat
  /-- It ends a rewrite: REWRITES increments when it verifies (R106). -/
  rewrite : Bool
  /-- JSEQ of the page that holds its PENDING_RESET record, until that page is durable; R76. -/
  after : Option Nat := none
  /-- Strips done, whether the next is half done, and whether a strip runs in the present course; R39, R96. -/
  strip : Nat := 0
  half : Bool := false
  running : Bool := false
deriving DecidableEq, Repr

/-- A page of the journal buffer (R90). -/
structure JPage where
  jseq : Nat
  recs : List JRec
  /-- Course in which its first record entered. -/
  first : Nat
  /-- To be programmed now (R90). -/
  due : Bool := false
  prog : Option Nat := none
deriving DecidableEq, Repr

/-- A stream's current and next OPEN blocks (R87). -/
structure StreamBlk where
  cur : Option Nat := none
  nxt : Option Nat := none
deriving DecidableEq, Repr

/-- A slot of the map page cache (R82). -/
structure MapSlot where
  pinned : Bool
  dirty : Bool
  used : Nat
deriving DecidableEq, Repr

/-- A checkpoint in progress (R93). -/
structure CkptRun where
  gen : Nat
  /-- Map pages still to be written. -/
  maps : List Nat
  /-- Segment pages still to verify; none while map pages are being written. -/
  segs : Option Nat := none
  /-- Segment pages that have no program yet; R24. -/
  unmade : Nat := 0
  /-- Map pages that changed again, before the start, under a program that carries older data: they take one more program; R93. -/
  twice : List Nat := []
  /-- Segments that this checkpoint writes; R124. -/
  list : List Nat := []
  /-- JSEQ of the page that holds CHECKPOINT_MARK, once it is entered. -/
  mark : Option Nat := none
  /-- 0 periodic, 1 Stop entry, 2 drain. -/
  why : Nat
deriving DecidableEq, Repr

/-- A CHECKPOINT hoist at work (R57, R166): its region mask, the user pages still to be cleaned, whether the first of them is
under snoop, and the write-backs whose map updates it waits for. -/
structure HCkpt where
  mask : BitVec 64
  todo : List Nat
  snooped : Bool := false
  waits : List (Nat × Option Nat) := []
deriving DecidableEq, Repr

/-- The media engine: map, blocks, write path, journal, relocation (R70 to R112). All of it is rebuilt at start-up. -/
structure Med where
  /-- MED_CTRL.WEAR_POLICY; 1; R112; image, DESIGN CHOICE, log 6. `wearEff` is the value in force (R27). -/
  wear : Nat := 0
  wearEff : Nat := 0
  /-- MED_MAP; R112; 0. -/
  pinTrim : Bool := false
  /-- MED_CNT_*: host, reloc, reset, retired, orphan, abandon; 64 each, saturating; R112; 0. -/
  cntHost : Nat := 0
  cntReloc : Nat := 0
  cntReset : Nat := 0
  cntRetired : Nat := 0
  cntOrphan : Nat := 0
  cntAbandon : Nat := 0
  /-- MED_BLK_SEL; 25; R112; 0. -/
  blkSel : Nat := 0
  /-- MED_STATUS.SPREAD as last evaluated; 24; R102; 0. -/
  spread : Nat := 0
  /-- Block table, by block index PPN[35:11]; unlisted: the block as manufactured (DESIGN CHOICE, log 7); R74. -/
  blocks : Table Blk := []
  /-- Map entries by user page; unlisted: never written; R77. -/
  map : Table MapEnt := []
  /-- Map directory by map page; R80. -/
  dir : Table MapEnt := []
  /-- Map page cache; R82. -/
  slots : Table (Option MapSlot) := []
  /-- Streams by bank × 4 + stream (0 HOT, 1 RELOC, 2 COLD, 3 MAP); R87. -/
  streams : Table StreamBlk := []
  /-- Journal and checkpoint rings; R87. -/
  jring : StreamBlk := {}
  cring : StreamBlk := {}
  /-- Write sequence; 64; R73. -/
  wseq : Nat := 0
  /-- Write staging of the write path, oldest first; 96 of 128 slots a channel; R85. -/
  staging : List Stage := []
  pend : List PendSet := []
  progs : List Prog := []
  reads : List MRead := []
  resets : List Rst := []
  relocs : List Reloc := []
  /-- Journal buffer, oldest page first, at most 64; R90. -/
  jbuf : List JPage := []
  /-- Records, with their urgency, that found the journal buffer full, in order; R90; none; DESIGN CHOICE, log 124. -/
  jwait : List (JRec × Bool) := []
  /-- JSEQ of the next journal page; 64; R91. -/
  jseq : Nat := 1
  ckpt : Option CkptRun := none
  ckptGen : Nat := 0
  /-- Segments changed since the last checkpoint: of the directory, and 1,000,000 + those of the block table; R93. -/
  chSegs : List Nat := []
  /-- By segment, the package and its Θ when the segment was last written; unlisted: package 0 at Θ = 0; R124. -/
  segAt : Table (Nat × Nat) := []
  /-- Map pages of which an entry has changed while the page was not in the map page cache: they are read, and then dirty; R82, R569. -/
  late : List Nat := []
  /-- Class A and class B reads queued in the present and in the previous course, by channel; R45, R48, R557. -/
  abNow : Table Nat := []
  abPrev : Table Nat := []
  /-- Reads of any class queued in the present course, by bank; R48. -/
  bankNow : Table Nat := []
  bankPrev : Table Nat := []
  /-- Channels whose soft-read retries exceeded Q in the present and in the previous course; R48. -/
  retryNow : List Nat := []
  retryPrev : List Nat := []
  /-- BLOCK_OPEN records not yet durable: block and JSEQ; R87. -/
  opening : List (Nat × Nat) := []
  /-- Next identifier of a read, program or relocation. -/
  nextId : Nat := 0
  /-- Next closing, failing or queueing order number (R95, R106). -/
  order : Nat := 0
  /-- Banks that are worn, read-only, out of spares; R110, R111. -/
  worn : List Nat := []
  readOnly : List Nat := []
  noSpare : List Nat := []
  /-- Next block of a channel that patrol visits; R135. -/
  patrolPos : Table Nat := []
  /-- Time (ps) at which the present patrol lap of a channel began; R135. -/
  patrolAge : Table Nat := []
  /-- LRU clock of the map page cache. -/
  lru : Nat := 0
  /-- CHECKPOINT hoists at work; R57. -/
  hoistCkpt : List HCkpt := []
deriving DecidableEq, Repr

/-- Drift state (R113 to R143). -/
structure Drf where
  /-- Package clocks and cohort tables; R115, R116. -/
  pkgs : Table Pkg := []
  /-- Advances of Θ of a sample, by package, that take effect with its merges at the next course start; R119; none. -/
  advance : Table Nat := []
  /-- DRF_RECAL fields: METHOD 2, SPREAD 1, U_MAX 48; R143; 0. -/
  method : Nat := 0
  spread : Bool := false
  umax : Nat := 0
  /-- By die (channel × dies of a channel + die): the base values V_1 to V_7 and the SET current as trimmed at manufacture, read from the
  dies at start-up; R123, R133; empty, spec R376. -/
  trims : List (List Int) := []
  setTrims : List Nat := []
  /-- DRF_PKG_SEL; 6; R143; 0. -/
  pkgSel : Nat := 0
  /-- DRF_CNT_*: retry 1, retry deep, repoint, overdue, ahead; 64 each; R143; 0. -/
  cntRetry1 : Nat := 0
  cntDeep : Nat := 0
  cntRepoint : Nat := 0
  cntOverdue : Nat := 0
  cntAhead : Nat := 0
deriving DecidableEq, Repr

/-! ## CCH: the DRAM cache -/

/-- The line states of R148. -/
inductive LineSt where
  | invalid | clean | dirty | poisoned | filling | evicting
deriving DecidableEq, Repr

/-- A line of a cache way: its state (R148), its data in the DRAM, and its inline record's cover mask (R398). -/
structure Line where
  st : LineSt := .invalid
  /-- The line's 512 B as they stand in the DRAM, encrypted by the inline cipher; 4096; R397, R399. -/
  ct : LineData := 0
  /-- Cover mask; 8; R171. -/
  cover : BitVec 8 := 0
  /-- The line's unit agrees with the TAG of its record: an error of the DRAM that no code corrects breaks this; R399, R170. -/
  tagOk : Bool := true
  /-- Evicting for cleaning: it becomes Clean (or stays Poisoned) when its data has left; R160. -/
  cleaning : Bool := false
  /-- A Poisoned line whose MAP_SET has been entered is no longer counted; R148, R160. -/
  written : Bool := false
  /-- An Evicting line was Poisoned: its write-back is a poisoned one; R157. -/
  pz : Bool := false
  /-- Becomes Invalid when its data has left, whatever else (FLUSH); R166. -/
  drop : Bool := false
  /-- Recorded as one that must be written through; R162. -/
  through : Bool := false
  /-- Class of the fill of a Filling line (0 A, 1 B, 2 C, 3 background), whether it is a fill of an accumulate in a power-fail warning
  (R259), and the course its read arrived in; R153. -/
  fillCls : Nat := 2
  fillWarn : Bool := false
  arrived : Nat := 0
deriving DecidableEq, Repr

/-- A tag entry (R147). -/
structure Way where
  valid : Bool := false
  tag : Nat := 0
  lock : Bool := false
  cls : Nat := 0
  age : Nat := 0
  retiring : Bool := false
  lines : Table Line := []
  /-- New sector of a RETIRING way: tag, class, age, lock (R157 step 4, R163). -/
  incoming : Option (Nat × Nat × Nat × Bool) := none
  /-- The way is disabled (R489). -/
  off : Bool := false
deriving DecidableEq, Repr

/-- A cache command in progress (R163, R166, R411). -/
structure CacheJob where
  cmd : Cmd
  /-- Its number among the cache commands started. -/
  id : Nat := 0
  /-- 0 preload, 1 clean, 2 flush, 3 invalidate. -/
  op : Nat
  lock : Bool := false
  /-- Next and last + 1 local line of an address range still to be handled, and the group address of its start. -/
  next : Nat
  last : Nat
  base : Nat := 0
  /-- Set form (R346): sets instead of lines, and the next way. -/
  bySet : Bool := false
  way : Nat := 0
  /-- First user page of the sector that the present way held when the operation reached it; R166. -/
  sector : Option Nat := none
  skipped : Nat := 0
  /-- User pages whose map update the completion waits for, with the DATA_SEQ of the write-back once it has left. -/
  waits : List (Nat × Option Nat) := []
  /-- Lines that the command has filled or found filled (R163): each is filled at most once. -/
  done : List Nat := []
  /-- The line under snoop (R202): granules still unanswered are transactions with this job's parent. -/
  snooped : Bool := false
  /-- The number of the next request when the command took the present line's lock; R168. -/
  lockAt : Nat := 0
  /-- The sector miss of a CACHE_PRELOAD that waits for a way: its first user page, and its place in the order of arrival; R155. -/
  miss : Option (Nat × Nat) := none
deriving DecidableEq, Repr

structure Cch where
  /-- CCH_STATUS bits; R179; 0. -/
  initDone : Bool := false
  holding : Bool := false
  cleanForced : Bool := false
  /-- Derived dirty limit in 512 B units from the latest C and V_bank; R431; 0 until measured. -/
  limit : Nat := 0
  /-- Counters CCH_CNT_*: hit, sector miss, line miss, evict dirty, clean, held, poison, refill; 64 each; R179; 0. -/
  cntHit : Nat := 0
  cntMissSec : Nat := 0
  cntMissLine : Nat := 0
  cntEvict : Nat := 0
  cntClean : Nat := 0
  cntHeld : Nat := 0
  cntPoison : Nat := 0
  cntRefill : Nat := 0
  /-- CCH_TAG_SEL: way 4, set 17; R179; 0. -/
  selWay : Nat := 0
  selSet : Nat := 0
  /-- Tag store and line data by set × 12 + way; unlisted: not VALID; R147, R177. -/
  ways : Table Way := []
  /-- The cleaner's rotating pointer (set); it runs while D is at START_PCT of L or above; R174. -/
  ptr : Nat := 0
  jobs : List CacheJob := []
deriving DecidableEq, Repr

/-! ## DIR: the home and its directory -/

/-- The recorded state of a granule (R185, R186). -/
inductive DirSt where
  | uncached
  | shared (holders : List Nat)
  | coarse (mods ports : Nat)
  | owned (agent : Nat)
deriving DecidableEq, Repr

/-- A directory entry (R184). -/
structure DirEnt where
  tag : Nat
  st : DirSt
  busy : Bool
deriving DecidableEq, Repr

/-- What a request at a home asks for. -/
inductive ReqKind where
  | rdShared | rdUnique | upgrade | rdOnce
  | write
  | atomic (op : AtomicOp) (size off : Nat) (cmp : BitVec 128)
  | accum (ws : List CombWord)
  /-- Snoops of CACHE_MAINT (R202): 1 clean, 2 flush, 3 invalidate. -/
  | maint (op : Nat)
deriving DecidableEq, Repr

/-- A request at its home. -/
structure Req where
  id : Nat
  src : Src
  /-- Requester number; 7; R181. -/
  rq : Nat
  kind : ReqKind
  txid : Nat
  agent : Nat
  /-- Group and local granule numbers. -/
  gaddr : Nat
  lg : Nat
  mask : BitVec 64 := 0
  data : Granule := 0
  poison : Bool := false
  /-- Course of arrival at port ingress; R48. -/
  tick : Nat
  /-- Host read, copy offset, combining entry or cache job the request belongs to. -/
  parent : Nat := 0
  /-- Gather-buffer entry that holds its bytes. -/
  gb : Option Nat := none
  /-- Already acknowledged (EARLY_ACK, or a merged write). -/
  acked : Bool := false
  /-- Part of one request that covers a whole line (R153): the request's number. -/
  whole : Option Nat := none
  /-- Numbers of the requests that its gather-buffer entry merged. -/
  ids : List Nat := []
deriving DecidableEq, Repr

/-- An open snoop (R194). -/
structure Snoop where
  agent : Nat
  /-- Local granule: the request's, or the victim entry's (R188). -/
  lg : Nat
  kind : SnpKind
  /-- The response has arrived. -/
  resp : Bool := false
  /-- It had EVICTED = 1, so a W message is awaited. -/
  evicted : Bool := false
  /-- The W message has arrived (its WB_ACK is held), with clean or dirty data. -/
  w : Bool := false
  /-- State the agent reported. -/
  st : CacheSt := .i
deriving DecidableEq, Repr

/-- Where a transaction stands. -/
inductive Stage' where
  /-- Passed the ordering point; waits in its granule's queue (R198). -/
  | queued
  /-- Waits for snoop answers, its own or those of R188. -/
  | snooping
  /-- Reads or writes its line (R198). -/
  | line
  /-- Waits for the map update that acknowledges it (R162). -/
  | media
  /-- Waits for the requester's ACK (R197). -/
  | ack
deriving DecidableEq, Repr

/-- A transaction at the home (R197 to R201). -/
structure Txn where
  req : Req
  stage : Stage'
  /-- Snoop slot (HTID); R197. -/
  slot : Option Nat := none
  snoops : List Snoop := []
  /-- State recorded in the slot: what the entry takes when the transaction closes. -/
  after : DirSt := .uncached
  /-- Victim entry of R188: set × 16 + way. -/
  victim : Option Nat := none
  /-- STATUS found on the way. -/
  status : RStat := .ok
  /-- DATA_SEQ of the write-back whose map update acknowledges it; R162. -/
  wseq : Option Nat := none
  /-- What its lookup found: 0 a hit, 1 a line miss, 2 a sector miss; 4 not looked up yet. -/
  look : Nat := 4
  /-- For the sample of R514: retries of its media read, over budget, map page read, held under R175. -/
  retry : Nat := 0
  overBudget : Bool := false
  mapRead : Bool := false
  /-- A read that waits for a fill, whose data it receives; R152, R168. -/
  fillWait : Bool := false
  /-- Its agent was lost after it had started: it ends without an answer; R208. -/
  lost : Bool := false
deriving DecidableEq, Repr

/-- An entry of a gather buffer (R222): buffer number 0–7 Halyard, 8–11 Coping, 12 PCIe. -/
structure GbEnt where
  id : Nat
  buf : Nat
  rq : Nat
  lg : Nat
  gaddr : Nat
  mask : BitVec 64
  data : Granule
  poison : Bool
  device : Bool
  relaxed : Bool
  /-- Reserved entry of R195: 1 W message, 2 SNP_DATA; 0 otherwise. -/
  rsv : Nat
  /-- It has passed the ordering point. -/
  drained : Bool
  /-- txid and agent to acknowledge when not early. -/
  txid : Nat
  agent : Nat
  /-- Acknowledgement already sent. -/
  acked : Bool
  src : Src
  /-- Numbers of the requests merged in it. -/
  reqs : List Nat
  /-- As in `Req.whole`. -/
  whole : Option Nat := none
  /-- Course of its allocation. -/
  tick : Nat := 0
  /-- The lookup of a reserved entry's data has been counted; R156. -/
  looked : Bool := false
deriving DecidableEq, Repr

/-- Requests held at a port: by a stopped port (R556), a barrier (R227), device order (R217) or full slots (R15). -/
structure Held where
  /-- Number of the request, in order of arrival. -/
  id : Nat
  src : Src
  cmd : Instr
  tick : Nat
  /-- Counted in CCH_CNT_HELD: it waits for the dirty limit (R175). -/
  dheld : Bool := false
  /-- A posted host write that has been checked whole (R328). -/
  checked : Bool := false
deriving DecidableEq, Repr

/-- A barrier that has not completed (R225 to R228). -/
structure Barrier where
  port : Nat
  agent : Nat
  txid : Nat
  /-- ARG[3:0]. -/
  sel : Nat
  compl : Bool
  /-- Number of the barrier in order of arrival. -/
  id : Nat
  /-- Earlier reads and writes, by number (R226). -/
  reads : List Nat
  writes : List Nat
deriving DecidableEq, Repr

/-- A host read in progress (R328): granules answered so far. -/
structure HostRd where
  id : Nat
  tag : Nat
  addr : Nat
  len : Nat
  got : Table (Option (Granule × Bool))
  tick : Nat
  /-- The first granule that was refused: the cause code of R328, and which granule of the request it is. -/
  bad : Option (Nat × Nat) := none
deriving DecidableEq, Repr

/-- A request forwarded to another member and not yet answered (R17, R314). -/
structure Fwd where
  home : Nat
  port : Nat
  req : Nat
  txid : Nat
  gaddr : Nat
  agent : Nat
  src : Src
  write : Bool
  /-- The home's notice that it has read the line has come (R227). -/
  noticed : Bool := false
  /-- What `Req.parent` holds. -/
  parent : Nat := 0
  /-- The command that was forwarded. -/
  cmd : Instr
deriving DecidableEq, Repr

structure Dir where
  /-- DIR_CTRL.READ_GRANT; 1; R209; image, DESIGN CHOICE, log 6; and the value in force (R27). -/
  readGrant : Nat := 0
  readGrantEff : Nat := 0
  /-- DIR_AGENT_LOST; 64; R209; 0. -/
  lost : BitVec 64 := 0
  /-- DIR_CNT_*: snoop, evict, cross, coarse, spurious, protocol, home atomic; 64 each; R209; 0. -/
  cntSnoop : Nat := 0
  cntEvict : Nat := 0
  cntCross : Nat := 0
  cntCoarse : Nat := 0
  cntSpur : Nat := 0
  cntProto : Nat := 0
  cntAtomic : Nat := 0
  /-- DIR_ENT_SEL: way 4, set 18; R209; 0. -/
  selWay : Nat := 0
  selSet : Nat := 0
  /-- Directory store by set × 16 + way; unlisted: free; R184. -/
  ents : Table (Option DirEnt) := []
  /-- Round-robin pointer of each set; 4; R188; 0. -/
  rr : Table Nat := []
  /-- Disabled directory ways (R489). -/
  off : List Nat := []
  /-- Transactions in the order in which they passed the ordering point; R198. -/
  txns : List Txn := []
  held : List Held := []
  barriers : List Barrier := []
  hostRds : List HostRd := []
  fwds : List Fwd := []
  nextId : Nat := 0
deriving DecidableEq, Repr

/-! ## ORD -/

/-- A protection region's attributes (R211, R240). -/
structure Region where
  /-- ORD_REGION_BASE.UNIT, ORD_REGION_LIMIT.UNIT; 19 each; R240; image, DESIGN CHOICE, log 6. -/
  base : Nat := 0
  limit : Nat := 0
  /-- ORD_REGION_ATTR: BOUND 2, DURABLE, EARLY_ACK, TYPE, ENABLE; R240; image, DESIGN CHOICE, log 6. -/
  bound : Nat := 0
  durable : Bool := false
  early : Bool := false
  device : Bool := false
  enable : Bool := false
  /-- SEC_RIGHTS[25:0]; 26; R415; image, FIRMWARE 0b11. -/
  rights : BitVec 26 := 0x3000000
deriving DecidableEq, Repr

/-- A write that another home has answered, and that may not yet be performed, or durable, there (R214, R227, R228). -/
structure Away where
  req : Nat
  home : Nat
  src : Src
  agent : Nat
  /-- This module knows that it has been performed. -/
  performed : Bool := false
deriving DecidableEq, Repr

structure Ord where
  /-- ORD_STATUS; R240; 0. -/
  draining : Bool := false
  overlap : Bool := false
  locked : Bool := false
  /-- Region table, 64 regions; R211. -/
  regions : Table Region := []
  /-- Gather buffers, all of them, in allocation order; R220. -/
  gbs : List GbEnt := []
  /-- ORD_GB_*.PEAK by buffer; 7; R240; 0. -/
  peaks : Table Nat := []
  /-- ORD_CNT_*: early, forward, barrier, fence retry; 64 each; R240; 0. -/
  cntEarly : Nat := 0
  cntFwd : Nat := 0
  cntBarrier : Nat := 0
  cntFence : Nat := 0
  /-- Reads of ORD_HOST_FENCE that wait, oldest first: the host writes that each waits for, by number; R229; none. -/
  fences : List (List Nat) := []
  /-- Answered writes of other homes that are not yet known to be performed and durable; R214, R227 to R229, log 82; none. -/
  away : List Away := []
deriving DecidableEq, Repr

/-! ## STM -/

/-- A combining entry (R247). -/
structure Comb where
  id : Nat
  gaddr : Nat
  words : List CombWord
  /-- Port and course of its first record; R243, R257. -/
  port : Nat
  tick : Nat
  /-- Ports whose records it holds, with the course of the first record of each. -/
  ports : Table (Option Nat)
  /-- Port, tag and address of each of its records, oldest first, for the logs of R274. -/
  log : List (Nat × Nat × Nat)
  /-- It is to be applied, once its port has a slot; R243, R250. -/
  due : Bool := false
  /-- It is being applied. -/
  busy : Bool := false
deriving DecidableEq, Repr

/-- A playback list entry (R260). -/
structure PlEnt where
  addr : Nat := 0
  rep : Nat := 0
  len : Nat := 0
  last : Bool := false
  wrap : Bool := false
deriving DecidableEq, Repr

/-- A word in the egress FIFO or standby buffer: data, poison, or one whose read has not returned (R262, R273). -/
inductive EgWord where
  | data (w : BitVec 128)
  | poison
  | wait (req : Nat) (idx : Nat)
deriving DecidableEq, Repr

/-- A place in a playback list: entry, plays left, words played; `ended` when the list has finished. -/
structure PlPos where
  ent : Nat := 0
  rep : Nat := 0
  word : Nat := 0
  ended : Bool := false
deriving DecidableEq, Repr

/-- A playback read in flight (R262): a line by its first granule, and the granules answered, `none` for poison. -/
structure EgRead where
  id : Nat
  gaddr : Nat
  got : List (Nat × Option Granule) := []
  /-- Its words are no longer wanted: it is dropped on arrival, and keeps its slot until then; R268, R243. -/
  dropped : Bool := false
deriving DecidableEq, Repr

/-- A stream port (R241 to R276, R303 to R307). -/
structure StmPort where
  /-- STM_IN_WM: LOW 15, HIGH 15; R276; 8,192 and 12,288; with the values in force (R27). -/
  low : Nat := 8192
  high : Nat := 12288
  lowEff : Nat := 8192
  highEff : Nat := 12288
  /-- Ingress state: 0 IDLE, 2 RUNNING; R242; IDLE. -/
  inSt : Nat := 0
  /-- Ingress FIFO: record and the course of its acceptance; 16,384 records; R252. -/
  fifo : List (BitVec 128 × Nat) := []
  /-- Records were accepted before the latest change of acceptance (a STREAM_START or STOP, PFW_N); R259, R268. -/
  inPrev : Bool := false
  /-- The latest such change was a FLUSH: what is left of a record begun before it is discarded unlogged; R270. -/
  flushed : Bool := false
  /-- Course start at which ingress last stopped; R269. -/
  stopAt : Option Nat := none
  /-- STM_CAP_COMMIT still advances: the port has run, and its last records are not all applied; R258. -/
  capOpen : Bool := false
  /-- Course whose word positions have been sent; R263. -/
  egSent : Option Nat := none
  /-- STM_STOP_N asserted; R253; 1. -/
  stop : Bool := true
  /-- The least asserted or deasserted time runs; R253. -/
  stopHold : Bool := false
  /-- Occupancy has reached HIGH and not since fallen to LOW; R253. -/
  full : Bool := false
  /-- STM_IN_STATUS.LINK_UP; R276; 0. -/
  linkUp : Bool := false
  /-- STM_CAP_COMMIT; 64; R258; 0. -/
  commit : Nat := 0
  /-- STM_ERR: COUNT 16, TAG 8, CAUSE 4, DIR, VALID; STM_ERR_ADDR: TICK 16, ADDR 48; R276; 0. -/
  errValid : Bool := false
  errCount : Nat := 0
  errTag : Nat := 0
  errCause : Nat := 0
  errDir : Nat := 0
  errTick : Nat := 0
  errAddr : Nat := 0
  /-- STM_IN_CNT_ACCEPT, STM_IN_CNT_DROP; 64; R276; 0. -/
  cntAccept : Nat := 0
  cntDrop : Nat := 0
  /-- STM_EG_CTRL: WPT 12, LIST_INIT; R276; image (default WPT_MAX, R264) and 0; WPT before the image is 1, DESIGN CHOICE, log 174. -/
  wpt : Nat := 1
  listInit : Nat := 0
  /-- Egress state: 0 IDLE, 1 READY, 2 RUNNING; R242; IDLE. -/
  egSt : Nat := 0
  /-- Egress FIFO and standby buffer, 16,384 words each; R261. -/
  egFifo : List EgWord := []
  standby : List EgWord := []
  standbyFull : Bool := false
  /-- Current list and the places of prefetch, standby prefetch and play; R261. -/
  cur : Nat := 0
  pos : PlPos := {}
  sbPos : PlPos := {}
  play : PlPos := {}
  /-- STM_EG_CNT_*: words, not valid, poison; 64; R276; 0. -/
  cntWords : Nat := 0
  cntNv : Nat := 0
  cntPoison : Nat := 0
  /-- Playback lists by list × 16 + entry; R260; 0. -/
  lists : Table PlEnt := []
  /-- Lane training: ALIGN received, the consecutive aligned pairs since, and which of the last 64 headers of each lane were valid, newest first;
  R306. -/
  aligned : Bool := false
  run : Nat := 0
  headers : List (Bool × Bool) := []
  /-- Scrambler registers of the two lanes, of what is received and of what is sent; 58 each; R303. -/
  scrIn : BitVec 58 × BitVec 58 := (0, 0)
  scrOut : BitVec 58 × BitVec 58 := (0, 0)
  /-- CRC-32 of the records since the previous CHECK, and of the words sent (as their lists); R305. -/
  inCrc : List (BitVec 128) := []
  outCrc : List (BitVec 128) := []
  /-- STM_LNK: ENABLE, STATE (0, 2, 5), CNT_BAD, CNT_REPLAY, CNT_RECOVERY; R307; image and 0. -/
  enable : Bool := false
  lnkSt : Nat := 0
  cntBad : Nat := 0
  cntChk : Nat := 0
  cntLost : Nat := 0
  /-- A STREAM_STOP that acts at the next course start: lane loss, clock gating; R242. -/
  stopNext : Bool := false
  /-- The lanes have left operation and not come back; R275. -/
  lanesLost : Bool := false
  /-- Line reads in flight, and the next identifier of one; R243, R262. -/
  inFlight : List EgRead := []
  nextRd : Nat := 0
deriving DecidableEq, Repr

structure Stm where
  /-- STM_COMB_CTRL.COMMIT_TICKS; 7; R276; image, default 2; and the value in force. -/
  commitTicks : Nat := 2
  commitEff : Nat := 2
  /-- STM_CNT_MERGED, APPLIED, CONFLICT; 64 each; R276; 0. -/
  cntMerged : Nat := 0
  cntApplied : Nat := 0
  cntConflict : Nat := 0
  /-- Combining entries in the order of their first records; 65,536; R247. -/
  comb : List Comb := []
  /-- Combining entries taken out of use (R489). -/
  combOff : List Nat := []
  ports : Table StmPort := []
deriving DecidableEq, Repr

/-! ## Links and groups -/

/-- A sequenced flit held for replay (R289, R300): its FSEQ, its header and its 14 slots as sent, and the message that ends in it. -/
structure Sent where
  fseq : Nat
  hdr : BitVec 128
  slots : List (BitVec 128)
  msg : Option Out
deriving DecidableEq, Repr

/-- A Halyard or Coping port (R286 to R307). -/
structure Lnk where
  /-- *_CTRL.ENABLE; 1; R307; image, DESIGN CHOICE, log 6. -/
  enable : Bool := false
  /-- STATE: 0 DISABLED, 1 DETECT, 2 POLLING, 3 EQUALIZE, 4 CONFIG, 5 ACTIVE, 6 RECOVERY; 4; R307; 0. -/
  st : Nat := 0
  /-- *_STATUS: WIDTH 4, HALF_RATE, KEYED, EPOCH 16; R307; 0. -/
  width : Nat := 0
  half : Bool := false
  keyed : Bool := false
  epoch : Nat := 0
  /-- *_CREDIT: Q, S, W, P, D; 12 each; R307; 0. -/
  crQ : Nat := 0
  crS : Nat := 0
  crW : Nat := 0
  crP : Nat := 0
  crD : Nat := 0
  /-- *_CNT_FEC, BAD, REPLAY, RECOVERY, AUTH; 64 each; R307; 0. -/
  cntFec : Nat := 0
  cntBad : Nat := 0
  cntReplay : Nat := 0
  cntRecov : Nat := 0
  cntAuth : Nat := 0
  /-- FSEQ of the next flit sent; expected FSEQ; last accepted FSEQ; last ACK received; 12 each; R280, R289. -/
  txSeq : Nat := 0
  rxSeq : Nat := 0
  lastAck : Nat := 4095
  peerAck : Nat := 4095
  /-- A bad flit was seen and the expected one has not come; R289. -/
  waiting : Bool := false
  /-- NAKs received in succession with the same ACK; R290. -/
  nakRun : Nat := 0
  nakAck : Nat := 0
  /-- Replay buffer: the flits held until an ACK covers them, oldest first, at most 512; R289. -/
  replay : List Sent := []
  /-- Times (ps) of entries into RECOVERY within the last second; R292. -/
  recovs : List Nat := []
  /-- Time of the last credit violation; R288. -/
  credErr : Option Nat := none
  /-- Messages that wait to be sent, with their classes: no credit, a full replay buffer, or RECOVERY; R286, R289, R290. -/
  held : List (Nat × Out) := []
  /-- Messages received of each class Q, S, W, P, D whose credit has not been returned; R286. -/
  rcv : List Nat := []
  /-- Snoops of other members' homes that the agent has not answered: HTID and granule; R567. -/
  snoops : List (Nat × Nat) := []
  /-- Slots received of a coherence message, and of a link-layer message, that continue in the next flit; R283. -/
  cont : List (BitVec 128) := []
  contL : List (BitVec 128) := []
  /-- Consecutive CONFIG sets that agree, lanes locked, equalisation at half rate; R293, R294. -/
  agree : Nat := 0
  lock : Nat := 0
  /-- CREDIT_INIT received; key exchange: 0 none, 1 offer accepted, 2 wrap accepted; R287, R301. -/
  credInit : Bool := false
  keyStage : Nat := 0
  /-- Stays DISABLED until module reset; R301, R302. -/
  dead : Bool := false
  /-- Peer's offer and traffic key; R301. -/
  peerOffer : Option KeyOffer := none
  peerKey : Nat := 0
  /-- A failed EQUALIZE at full rate has been seen: train at half rate; R294. -/
  tryHalf : Bool := false
  /-- LINK_DOWN was sent, and only IDLE flits go until an ACK covers it; STATE reads as before; R298. -/
  closing : Bool := false
  /-- Sequenced flits received under the peer's epoch, which is the count of their IV; R300. -/
  rxCount : Nat := 0
  /-- This module's KEY_OFFER (nonce and ephemeral key) and its traffic key; R299, R301. -/
  offNonce : Nat := 0
  offPriv : Nat := 0
  txKey : Nat := 0
  /-- Sequenced flits first sent under this module's epoch, which is the count of their IV; R300. -/
  txCount : Nat := 0
  /-- The last DETECT failed and its retry has not begun; R292. -/
  failed : Bool := false
  /-- The port has left operation and its peer has not sent LINK_RESUME yet: messages wait; R311. -/
  resume : Bool := false
  /-- The FSEQ of a peer's LINK_RESUME that came before this port left operation; R311. -/
  resumeAt : Option Nat := none
  /-- While `resume` stands: the members whose messages used this port and wait, its replay buffer and its waiting messages when it left
  operation, and those that wait since; R311. -/
  holdFor : BitVec 8 := 0
  oldSent : List Sent := []
  oldHeld : List (Nat × Out) := []
  /-- Equalisation, by lane: the preset in use, the preset asked of the far end and the requests made; the lanes that have reached the error
  ratio; R292, R293. -/
  eqUse : List Nat := []
  eqAsk : List Nat := []
  eqRounds : List Nat := []
  eqOk : Nat := 0
  /-- The largest width that training has not yet ruled out, 0 for all lanes; it failed at its smallest width at half rate; R294. -/
  maxW : Nat := 0
  cannot : Bool := false
  /-- Agent may train again: AGT_RST_N stretch of AGENT_RESET runs; R449. -/
  stretch : Bool := false
  /-- Scrambler registers of the lanes, of what is received and of what is sent; 31 each; R282; none before the first flit. -/
  scrRx : List (BitVec 31) := []
  scrTx : List (BitVec 31) := []
deriving DecidableEq, Repr

structure Grp where
  /-- GRP_CTRL: FORM_WAIT 8, INTERLEAVE 5, SIZE (1, 2, 4, 8); R321; image, DESIGN CHOICE, log 6. -/
  formWait : Nat := 1
  interleave : Nat := 0
  size : Nat := 1
  /-- GRP_ID[2:0]; 3; R308; strap, DESIGN CHOICE, log 5. -/
  id : Nat := 0
  /-- GRP_STATUS: PRESENT 8, WAITING 8, LEADER 3, ISOLATED, FORMED; R321; 0. -/
  present : BitVec 8 := 0
  waiting : BitVec 8 := 0
  leader : Nat := 0
  isolated : Bool := false
  formed : Bool := false
  /-- GRP_LOST, GRP_READMIT; 8 each; R321; 0. -/
  lost : BitVec 8 := 0
  readmit : BitVec 8 := 0
  /-- Members lost and not readmitted; R316, R317. -/
  gone : BitVec 8 := 0
  /-- GRP_ROUTE by member; 3 each; R310; 0b111. -/
  route : Table (Option Nat) := []
  /-- GRP_CNT_FORWARD, RELAY, REROUTE, REALIGN; 64 each; R321; 0. -/
  cntFwd : Nat := 0
  cntRelay : Nat := 0
  cntReroute : Nat := 0
  cntRealign : Nat := 0
  /-- Hash of the identity key that each peer proved, by GRP_ID; R413. -/
  proven : Table (Option Nat) := []
deriving DecidableEq, Repr

/-! ## HST -/

/-- A command that has ended and whose completion entry is not yet written (R338). -/
structure Done where
  kind : Nat
  cid : Nat
  status : Nat
  result : BitVec 64
  noInt : Bool
  /-- It ends a command that used the result window; R342. -/
  win : Bool := false
deriving DecidableEq, Repr

/-- A queue pair (R331 to R342). -/
structure HQueue where
  /-- HST_SQ_BASE, HST_CQ_BASE [63:12]; 52; R359; 0. -/
  sqBase : Nat := 0
  cqBase : Nat := 0
  /-- HST_Q_CFG: CQ_SIZE 12, SQ_SIZE 12, INT_GAP 8, VECTOR 8, INT_EN, ENABLE; R359; 0. -/
  cqSize : Nat := 0
  sqSize : Nat := 0
  intGap : Nat := 0
  vector : Nat := 0
  intEn : Bool := false
  enable : Bool := false
  /-- HST_Q_STATUS: CQ_TAIL 12, SQ_HEAD 12, ERR_CAUSE 4, PHASE, ERROR; R359; 0. -/
  cqTail : Nat := 0
  sqHead : Nat := 0
  errCause : Nat := 0
  phase : Bool := false
  error : Bool := false
  /-- HST_SQ_TAIL, HST_CQ_HEAD; 12 each; R359; 0. -/
  sqTail : Nat := 0
  cqHead : Nat := 0
  /-- The interrupt gap runs, and an entry was written during it; R339. -/
  gap : Bool := false
  gapPend : Bool := false
  /-- Commands fetched and not started, in order, and commands started and not ended; R336, R340. -/
  fetched : List Instr := []
  started : List Cmd := []
  /-- A fetched entry with FENCE that is checked once every earlier command has completed; R332. -/
  fenced : Option (BitVec 512) := none
  /-- Ended commands and hoist notices that wait for space in the CQ; R338, R352. -/
  dones : List Done := []
  /-- Result window: CID 16, WSTATE 8, DATA; R342; EMPTY. -/
  winCid : Nat := 0
  winSt : Nat := 0
  winData : List Byte := []
  /-- The window command that has started and whose completion entry is not written; R342. -/
  winRun : Option Cmd := none
  /-- Commands that had started when the queue was disabled or reset, and have not ended: no entry is written for them. They go by the queue
  number 64 more than their own, so that no later command is taken for one of them; R325, R340. -/
  mute : List Cmd := []
deriving DecidableEq, Repr

/-- A COPY in progress (R348). -/
structure CopyRun where
  cmd : Cmd
  src : Nat
  dst : Nat
  len : Nat
  poisonOk : Bool
  /-- Granules whose read was issued; writes issued; writes acknowledged. -/
  rd : Nat := 0
  wrIssued : Nat := 0
  wrDone : Nat := 0
  /-- Reads answered. -/
  back : Nat := 0
  poisoned : Nat := 0
  low : Option Nat := none
  /-- 0 running; a status code of R344 that ends the command once writes are done. -/
  ending : Nat := 0
  resAddr : Nat := 0
deriving DecidableEq, Repr

/-- A copy channel (R348 to R350). -/
structure CopyCh where
  /-- HST_COPY_CTRL.HALTED; R359; 0. -/
  halted : Bool := false
  /-- HST_COPY_ADDR; 48; R359; 0. -/
  addr : Nat := 0
  run : Option CopyRun := none
  /-- COPY commands that wait: behind the running one, or held while halted; R350. -/
  queue : List Instr := []
deriving DecidableEq, Repr

/-- The host interface (R322 to R359, R492). -/
structure Hst where
  /-- Max Payload Size and Max Read Request Size of the configuration space, as their codes; 3 each; R322; PRESUMED 0 and 2 (PCI Express Base 6.0),
  log 52. -/
  mps : Nat := 0
  mrrs : Nat := 2
  /-- HST_STATUS: PFW, STOP, READY; R359; 0. -/
  pfw : Bool := false
  stop : Bool := false
  ready : Bool := false
  /-- HST_ERR: COUNT 16, BAR4, KIND 2, CAUSE 4, VALID; HST_ERR_ADDR 48; R359; 0. -/
  errValid : Bool := false
  errCount : Nat := 0
  errBar4 : Bool := false
  errKind : Nat := 0
  errCause : Nat := 0
  errAddr : Nat := 0
  /-- HST_PTM_TIME, HST_PTM_TICK; 64; R359; 0. -/
  ptmTime : Nat := 0
  ptmTick : Nat := 0
  copies : Table CopyCh := []
  queues : Table HQueue := []
  /-- Queue whose turn it is to be fetched; R336. -/
  turn : Nat := 0
  /-- MSI-X table by dword index (4 a vector) and pending bits; R359; PCI Express specification, PRESUMED, log 18. -/
  msix : Table (BitVec 32) := []
  msixPend : Table Bool := []
  /-- Configuration space ready; PCI Express link up; function in D3hot; R324, R323. -/
  cfgReady : Bool := false
  linkUp : Bool := false
  d3 : Bool := false
  /-- SNAPSHOT commands for the next course start; R353. -/
  snaps : List Cmd := []
  /-- ATTEST commands whose reports are being built: command, REPORT, NONCE; R413. -/
  attests : List (Cmd × Nat × Nat) := []
  /-- Host scratch SRAM: bytes that are not zero; and the written words; R492. -/
  scratch : List Host.Cell := []
  marks : Table Bool := []
  /-- A LIFECYCLE change that waits for its drain: target state and owner hash; R356. -/
  lc : Option (Nat × Option Nat) := none
  /-- STOP in progress: the commands that asked for it; RUN commands waiting; R358, R465. -/
  stops : List Cmd := []
  runs : List Cmd := []
deriving DecidableEq, Repr

/-! ## SEC and CPH -/

/-- The 16 B record of a 512 B unit of the DRAM (R398); COVER stands with its line. -/
structure URec where
  minor : Nat := 0
  major : Nat := 0
  tag : BitVec 56 := 0
deriving DecidableEq, Repr

/-- A sector under re-encryption (R401): its way, the new MAJOR, and its units not yet rewritten, in order. -/
structure Reenc where
  way : Nat
  major : Nat
  left : List Nat
deriving DecidableEq, Repr

structure Sec where
  /-- Boot key of this start; 256; R391. -/
  bootKey : Nat := 0
  /-- Transport key present (OWNED, SEALED); R394. -/
  transport : Option Nat := none
  /-- The pair of AES-256 media keys, unwrapped; R360 step 8, R391. -/
  mediaKey : Option (BitVec 256 × BitVec 256) := none
  /-- Sectors under re-encryption: SEC_INLINE.REENC_ACTIVE; R401, R415; none. -/
  reenc : List Reenc := []
  /-- SEC_CNT_*: reenc, tag fail, meta fail, denied; 64 each; R415; 0. -/
  cntReenc : Nat := 0
  cntTag : Nat := 0
  cntMeta : Nat := 0
  cntDenied : Nat := 0
  /-- The inline records by data-cache unit (way × 32 + line): MINOR 28, MAJOR 36, TAG 56; R398; 0, spec R376. -/
  ctrs : Table URec := []
  /-- Records of the counter-and-tag cache, by unit as in `ctrs`, latest used first, at most 135,168; R400; none, spec R376. -/
  recs : List Nat := []
  /-- Metadata blocks (256 records each) in the DRAM that do not match their MAC; R400; none, spec R376. -/
  badMeta : List Nat := []
  /-- Step reached by a life-cycle change after its drain (3 to 6 of R388; 0 none). -/
  lcStep : Nat := 0
deriving DecidableEq, Repr

/-- An operation of the cipher engine under way (R406). -/
structure CphOp where
  op : Nat
  keySlot : Nat
  subj : Nat
  cls : Nat
  nonce : Nat
  /-- Additional data and input, and for DECRYPT the nonce and tag, as they stood at the start (DESIGN CHOICE, log 47). -/
  aad : List Byte
  text : List Byte
  iv : Nat
  tag : Nat
deriving DecidableEq, Repr

/-- A sealed import under way (R411). -/
structure Import where
  cmd : Cmd
  src : Nat
  dst : Nat
  len : Nat
  iv : Nat
  slot : Nat
  /-- 0 flushing, 1 reading, 2 decrypting twice, 3 programming, 4 committing; R411. -/
  phase : Nat := 0
  /-- Reads issued, and the tag that came with the ciphertext. -/
  issued : Nat := 0
  tag : Nat := 0
  /-- The page to be committed next is under snoop. -/
  snooped : Bool := false
  /-- Ciphertext granules read, by offset. -/
  got : Table (Option Granule) := []
  rd : Nat := 0
  /-- Pages decrypted that have no program yet: user page and data; R24. -/
  todo : List (Nat × LineData) := []
  /-- Pages programmed: user page, physical page, DATA_SEQ. -/
  pages : List (Nat × Nat × Nat) := []
  /-- The tag has verified; pages whose MAP_SET has been entered. -/
  good : Bool := false
  setDone : Nat := 0
deriving DecidableEq, Repr

structure Cph where
  /-- Lock holder: 0 none, 1 host, 2 debug, 3 firmware; ticket in force 16; R404; free. -/
  holder : Nat := 0
  ticket : Nat := 0
  /-- CPH_LEN; 13 and 17; R416; 0. -/
  aadLen : Nat := 0
  textLen : Nat := 0
  /-- CPH_STATUS: BAD_TICKET 16, CAUSE 4, STATE 3; R416; 0. -/
  badTicket : Nat := 0
  cause : Nat := 0
  st : Nat := 0
  /-- CPH_NONCE 96, CPH_TAG 128; R416; 0. -/
  nonce : Nat := 0
  tag : Nat := 0
  /-- CPH_NONCE_CTR.NEXT; 64; R407, R416; 0. -/
  nonceCtr : Nat := 0
  /-- CPH_IN and CPH_OUT: bytes that are not zero; 64 KiB each; R416; 0. -/
  inp : List Host.Cell := []
  out : List Host.Cell := []
  /-- Slots 0–15: class (0 empty, 1 host, 2 debug, 3 module) and key; R406, R416. -/
  slots : Table (Nat × Nat) := []
  run : Option CphOp := none
  /-- Times of the faults of the last second; DISABLED until module reset; R408. -/
  faults : List Nat := []
  disabled : Bool := false
  imp : Option Import := none
deriving DecidableEq, Repr

/-! ## PWR: supply, hold-up, Run and Stop; the plinth domain -/

/-- The registers of the PWR block and the power state machine, volatile with the controller. -/
structure Pwr where
  /-- PWR_INPUT: P_IN 0.1 W, I_IN mA, V_IN mV; 16 each; R451; 0. -/
  pin : Nat := 0
  iin : Nat := 0
  vin : Nat := 0
  /-- PWR_BUDGET: IN_FORCE 9 (320), CAP 6 (image, default 32) and CAP in force; R451. -/
  inForce : Nat := 320
  cap : Nat := 32
  capEff : Nat := 32
  /-- PWR_ADMIT.LIMIT as R420 gives it, before the cap of R471; 9; R451; 128. -/
  admLim : Nat := 128
  /-- Input power of the last 16 courses, newest first; courses below 85 %; R420. -/
  hist : List Nat := []
  low : Nat := 0
  /-- PWR_STATUS.INPUT_LIMIT; R451; 0; courses without limiting; a limit that acts at the next course start; R421. -/
  inputLimit : Bool := false
  limitCourses : Nat := 0
  limitNext : Bool := false
  /-- PWR_PFW_CTRL: WARN_US 11 (500), DROP_PCT 6 (0), TRIP 10 (112, 50 mV); R451; image defaults. -/
  warnUs : Nat := 500
  dropPct : Nat := 0
  trip : Nat := 112
  /-- PWR_HOLDUP: HOURS 16, V_BANK 10 mV, C_MEAS 10 µF, METHOD, MEASURING; R451; 0. -/
  hours : Nat := 0
  cMeas : Nat := 0
  method : Nat := 0
  measuring : Bool := false
  /-- PWR_STATUS.DEGRADED; R451; 0. -/
  degraded : Bool := false
  /-- PWR_HOLDUP_CTRL.POLICY; R451; image, DESIGN CHOICE, log 6; and the value in force. -/
  policy : Nat := 0
  policyEff : Nat := 0
  /-- PWR_DUMP_LAST (pages, µs), PWR_DUMP_GEN; R451; 0. -/
  dumpPages : Nat := 0
  dumpUs : Nat := 0
  dumpGen : Nat := 0
  /-- PWR_CNT_*: trip, cancel, dump, limit, measure; 64 each; R451; 0. -/
  cntTrip : Nat := 0
  cntCancel : Nat := 0
  cntDump : Nat := 0
  cntLimit : Nat := 0
  cntMeasure : Nat := 0
  /-- PWR_RUN_STATUS.STATE: 0 RUN, 1 ENTERING, 2 STOP, 3 WAKING; R479; 0. -/
  runSt : Nat := 0
  /-- Step of Stop entry (R358, R463) reached: 0 none, 1 waiting for started commands, 2 draining, 3 cleaning, 4 checkpoint,
  5 checkpoint durable. -/
  entry : Nat := 0
  /-- PWR_STOP_TICK 64; PWR_STOP_TIME: WAKE_US, ENTRY_US; PWR_CNT_STOP; R479; 0. -/
  stopTick : Nat := 0
  wakeUs : Nat := 0
  entryUs : Nat := 0
  cntStop : Nat := 0
  /-- Time (ps) at which the present wake began; R464. -/
  wakeAt : Nat := 0
  /-- Hoists that lapsed in Stop, recorded at the return to Run; R64. -/
  lapsed : List Nat := []
  /-- A drain of R236 or R444 under way: 0 none, 1 module reset, 2 orderly off, 3 life-cycle change. -/
  drain : Nat := 0
  /-- Its step: 0 not begun, 1 requests complete, 2 write-back, 3 checkpoint, 4 CLEAN_SHUTDOWN entered, 5 durable; and the JSEQ of
  the page that holds CLEAN_SHUTDOWN; R236, R444. -/
  drainSt : Nat := 0
  drainSeq : Nat := 0
  /-- Multi-level programs and resets may start; cleared at the warning (R434 step 2). -/
  noStart : Bool := false
deriving DecidableEq, Repr

/-- What the plinth domain holds (R418): it outlives every reset while it is powered. -/
structure Plinth where
  /-- The domain has power; R418; 1, DESIGN CHOICE, log 4. -/
  alive : Bool := true
  /-- The TAP holds a boundary-scan instruction other than BYPASS and IDCODE, which pauses a start; the TAP is no part of what a module reset
  resets; R366; false, DEDUCED, log 163. -/
  tapHold : Bool := false
  /-- PWR_STATUS.STATE: 0 OFF, 1 STARTING, 2 RUN, 3 WARNING, 4 HOLD, 5 DUMPING, 6 SHUTDOWN, 7 RAILS_DOWN; 4; R451; 2. -/
  st : Nat := 2
  /-- PWR_STATUS.LATCHED 0, FIRST_RAIL 8 (0xFF); R451. -/
  latched : Bool := false
  firstRail : Nat := 255
  /-- PWR_RAIL0–23: STATE 2 and MV 16; unlisted: good with 0 mV; R451; 0b10 and 0. -/
  rails : Table (Nat × Nat) := []
  /-- Hold-up bank voltage, 10 mV; R429, R451; 0. -/
  vbank : Nat := 0
  /-- The charger runs; R429. -/
  charger : Bool := true
  /-- Input voltage last seen, mV; R417. -/
  vin : Nat := 0
  /-- Input below the trip threshold (tripped and not risen again); input switch open; R417, R433. -/
  down : Bool := false
  swOpen : Bool := false
  /-- VIN above 40 V (surge); R417. -/
  high : Bool := false
  /-- PFW_N asserted; R434, R439; DESIGN CHOICE, log 16 (asserted until memory ready after a power failure only). -/
  pfw : Bool := false
  /-- AGT_RST_N[p] asserted; 8; R449: asserted until memory ready. -/
  agtRst : BitVec 8 := 0xFF
  /-- Why the module goes, or went, down: 0 input, 1 rail 0–15 or clock, 2 media rail, 3 thermal stop, 4 forced off, 5 orderly
  shutdown, 6 start-up reversed or failed; R426, R434, R444, R445, R447, R456, R474. -/
  cause : Nat := 0
  /-- An on request waits for the end of a power-down; a restart after the dump is due; R442, R446. -/
  onReq : Bool := false
  autoRe : Bool := false
  /-- The orderly shutdown has completed: forced off has no effect; R447. -/
  off : Bool := false
  /-- LATCH_CLEAR is appended when the rails next come up; R548. -/
  latchClr : Bool := false
  /-- THM_TRIP_LAST: VALID, SENSOR 8, TEMP 12; R478; 0. -/
  tripValid : Bool := false
  tripSensor : Nat := 0
  tripTemp : Int := 0
  /-- THERMAL_TRIP is to be recorded at the next start; R476. -/
  tripNew : Bool := false
  /-- C_MEAS and DEGRADED of the last measurement, which the side-band reads while the rails are down; R547; 0. -/
  cHeld : Nat := 0
  degHeld : Bool := false
  /-- Sensors whose comparators read 100 °C or more since a hardware trip; R476; none. -/
  hotComps : List Nat := []
  /-- ERR_FATAL_LAST: VALID, CAUSE 4, MEMORY 8; R504; 0. -/
  fatalValid : Bool := false
  fatalCause : Nat := 0
  fatalMem : Nat := 0
  /-- A fatal error is being handled (its reset is not finished); R484, R530. -/
  fatal : Bool := false
  /-- Identity read at step 3 since the domain started, and the last supply log payload since then; R547. -/
  idSeen : Bool := false
  logLast : Option SupplyRec := none
  /-- The domain kept its power through the last off interval; R137; the interval itself is an operand of DRAM_TRAINED (DESIGN CHOICE, log 12). -/
  kept : Bool := true
deriving DecidableEq, Repr

/-! ## CLK and THM -/

structure Clk where
  /-- CLK_CTRL.MODE; R477; image, DESIGN CHOICE, log 6. -/
  tree : Bool := false
  /-- CLK_STATUS; R477; 0. -/
  gatedAccess : Bool := false
  refused : Bool := false
  pcieRef : Bool := false
  locked : Bool := false
  refStable : Bool := false
  /-- CLK_GATE (image, DESIGN CHOICE, log 6) and CLK_GATE_STATE (0); 27 each; R477. -/
  gate : BitVec 27 := 0
  gateSt : BitVec 27 := 0
  /-- CLK_READY: CORES 4, DRAM 16, MEDIA 32; R477; 0. -/
  cores : BitVec 4 := 0
  dram : BitVec 16 := 0
  media : BitVec 32 := 0
  /-- CLK_REF_CNT; 32; R477; 0. -/
  refCnt : Nat := 0
deriving DecidableEq, Repr

/-- A temperature sensor (R466 to R472). -/
structure Sensor where
  /-- Last reading, 0.25 °C; 12; R478; 0. -/
  temp : Int := 0
  /-- Band of the last sample and band in force since the last course start; R467. -/
  band : Nat := 0
  bandEff : Nat := 0
  broken : Bool := false
  /-- Consecutive samples without a reading. -/
  lost : Nat := 0
  /-- The last sample was 100 °C or more. -/
  hot : Bool := false
deriving DecidableEq, Repr

structure Thm where
  sensors : Table Sensor := []
  /-- THM_STATUS.STOPPING, TIMING; R478; 0. -/
  stopping : Bool := false
  timing : Bool := false
  /-- THM_SENSOR_SEL; 7; R478; 0. -/
  sel : Nat := 0
  /-- THM_INLET.OUT_OF_GRADE; consecutive samples outside, inside; R473; 0. -/
  inletOut : Bool := false
  outRun : Nat := 0
  inRun : Nat := 0
  /-- THM_CNT_*: throttle, stop, trip, broken; 64 each; R478; 0. -/
  cntThrottle : Nat := 0
  cntStop : Nat := 0
  cntTrip : Nat := 0
  cntBroken : Nat := 0
  /-- Media channels whose strobe is re-centred in the next guard interval; R470. -/
  recentre : List Nat := []
deriving DecidableEq, Repr

/-! ## ERR -/

/-- A self-test: memory, location, command that asked for it, failed attempts, after an error, media senses made. -/
structure STest where
  mem : Nat
  loc : Nat
  cmd : Option Cmd
  tries : Nat := 0
  after : Bool
  running : Bool := false
  senses : Nat := 0
  fails : Nat := 0
deriving DecidableEq, Repr

/-- The counts of one memory (R504). -/
structure MemErr where
  ce : Nat := 0
  ue : Nat := 0
  transient : Nat := 0
  lasting : Nat := 0
  laps : Nat := 0
  lastLap : Nat := 0
  used : Nat := 0
  /-- Corrected errors of the present 24 operating hours, and whether CE_LIMIT has trapped; R485. -/
  ce24 : List Nat := []
  ceTrap : Bool := false
  /-- Operating second at which the count of 24 hours falls to the limit again, were no further error corrected. -/
  ceFall : Nat := 0
  /-- SPARES has trapped; R489. -/
  spTrap : Bool := false
deriving DecidableEq, Repr

structure Err where
  /-- ERR_STATUS; 4; R504; 0. -/
  status : BitVec 4 := 0
  /-- ERR_CTRL: CE_LIMIT 16 (default 1,024), VECTOR 8, TRAP_EN; R504; image; and the values in force. -/
  ceLimit : Nat := 1024
  vector : Nat := 0
  trapEn : Bool := false
  ceLimitEff : Nat := 1024
  vectorEff : Nat := 0
  trapEnEff : Bool := false
  /-- ERR_LOG: COUNT 16, MEMORY 4, CLASS 4, VALID; ERR_LOG_ADDR 64; R504; 0. -/
  logValid : Bool := false
  logCount : Nat := 0
  logMem : Nat := 0
  logCls : Nat := 0
  logLoc : Nat := 0
  /-- ERR_MEM_SEL; 4; R504; 0. -/
  sel : Nat := 0
  mems : Table MemErr := []
  /-- ERR_CNT_UNWRITTEN; 64; R504; 0. -/
  unwritten : Nat := 0
  tests : List STest := []
  /-- Errors recorded since module reset, and transient upsets with the operating second of each: memory, location; R488. -/
  errLocs : List (Nat × Nat) := []
  upsets : List (Nat × Nat × Nat) := []
  /-- Time of the last trap interrupt; R483. -/
  trapTime : Option Nat := none
  /-- Time (ps) at which the present DRAM scrub lap of a channel began; R490. -/
  scrubAge : Table Nat := []
deriving DecidableEq, Repr

/-! ## PMC and EVR, and the flash windows -/

/-- A counter unit (R507, R521). -/
structure Pmc1 where
  cyc : Nat := 0
  scyc : Nat := 0
  /-- PC0–PC7, their shadows and PMC_CFG[i]: OVF_INT, CHAIN, EVENT. -/
  pc : Table Nat := []
  spc : Table Nat := []
  cfg : Table (BitVec 10) := []
  ovf : BitVec 8 := 0
deriving DecidableEq, Repr

structure Pmc where
  /-- PMC_CTRL: VECTOR 8, INT_EN, FREEZE; R521; 0. -/
  vector : Nat := 0
  intEn : Bool := false
  freeze : Bool := false
  /-- PMC_SNAP_GEN: SOURCE 2, GEN 32; PMC_SNAP_TICK 64; R521; 0. -/
  source : Nat := 0
  gen : Nat := 0
  tick : Nat := 0
  /-- PMC_SAMPLE_CTRL: SEED 32, MODE, RATE 5; R521; 0. -/
  seed : BitVec 32 := 0
  mode : Nat := 0
  rate : Nat := 0
  /-- PMC_SAMPLE_STAT: WRITTEN 32, LOST 21; samples held, newest first, at most 1,024; R515; 0. -/
  written : Nat := 0
  lost : Nat := 0
  samples : List (BitVec 512) := []
  /-- PMC_SAMPLE_SEL; 10; R521; 0. -/
  sel : Nat := 0
  /-- LFSR of each ingress path; 32; R513. -/
  lfsr : Table (BitVec 32) := []
  /-- Sample number since module reset; 32; R514; 0. -/
  seq : Nat := 0
  /-- Tagged requests that have not ended: request id and the header of the sample. -/
  tagged : List (Nat × BitVec 512) := []
  units : Table Pmc1 := []
  /-- Time of the last overflow interrupt; R508. -/
  ovfTime : Option Nat := none
deriving DecidableEq, Repr

/-- The token bucket of an event code (R518). -/
structure Bucket where
  burst : Nat := 32
  rate : Nat := 10
  /-- Tokens × 10^12 (so that a refill of RATE per second is RATE × ps), full at reset; time of the last refill. -/
  level : Nat := 32000000000000
  time : Nat := 0
  /-- Events suppressed since the last record, and the last of them. -/
  supp : Nat := 0
  lastEv : Option EvRec := none
deriving DecidableEq, Repr

structure Evr where
  /-- EVR_SEL: VALUE 32, MODE; R522; 0. -/
  selVal : Nat := 0
  selMode : Nat := 0
  /-- EVR_LIMIT_SEL; 16; R522; 0. -/
  limSel : Nat := 0
  buckets : Table Bucket := []
  /-- The module's bucket: 2,000 per second, burst 4,096; R518. -/
  all : Bucket := { burst := 4096, rate := 2000, level := 4096000000000000 }
  /-- Waiting records, newest first, at most 4,096; R519. -/
  waiting : List EvRec := []
  /-- EVR_STATUS.NEWEST_SEQ is that of the newest record; EVR_CNT_WRITTEN, EVR_CNT_SUPPRESSED; 64; R522; 0. -/
  cntWritten : Nat := 0
  cntSupp : Nat := 0
deriving DecidableEq, Repr

structure Ldg where
  /-- LDG_STATUS.BUSY0, BUSY1, DEGRADED; R505; 0. -/
  busy0 : Bool := false
  busy1 : Bool := false
  degraded : Bool := false
  /-- LDG_PART_SEL, LDG_CURSOR; 24 each; R505; 0. -/
  part : Nat := 0
  cursor : Nat := 0
  /-- LDG_IMG_CTRL: OFFSET 32, STATUS 2, BUSY, SLOT; R505; 0. -/
  offset : Nat := 0
  status : Nat := 0
  busy : Bool := false
  slot : Nat := 0
  /-- The image operation under way (R503): 1 erase, 2 program; its slot and its offset. -/
  op : Nat := 0
  opSlot : Nat := 0
  opOff : Nat := 0
  /-- LDG_IMG_BUF: 256 B, bytes that are not zero; R505; DESIGN CHOICE, log 11. -/
  buf : List Host.Cell := []
deriving DecidableEq, Repr

/-! ## The machine -/

/-- The state of the module. -/
structure State where
  fuses : Fuses := {}
  medium : Medium := {}
  flash : Flash := {}
  plinth : Plinth := {}
  /-- Expert registers by BAR0 offset as written (OVR at bit 31); unlisted: the reset value of R533's table. -/
  expert : Table (BitVec 32) := []
  /-- The expert registers in force since the last course start; R27. -/
  expertEff : Table (BitVec 32) := []
  glb : Glb := {}
  tck : Tck := {}
  med : Med := {}
  drf : Drf := {}
  cch : Cch := {}
  dir : Dir := {}
  ord : Ord := {}
  stm : Stm := {}
  /-- Halyard ports 0–7 as 0–7 and Coping ports 0–3 as 8–11. -/
  links : Table Lnk := []
  grp : Grp := {}
  hst : Hst := {}
  sec : Sec := {}
  cph : Cph := {}
  pwr : Pwr := {}
  clk : Clk := {}
  thm : Thm := {}
  err : Err := {}
  pmc : Pmc := {}
  evr : Evr := {}
  ldg : Ldg := {}
  /-- DAP_EN_N is low: the debug port is enabled, and a debug session is attached; R542; DESIGN CHOICE, log 19. -/
  dap : Bool := false
  /-- The MODEL's own clock: ps, advanced at each course start by the length of the course that ended; DESIGN CHOICE, log 2. -/
  now : Nat := 0
  /-- The MODEL's own counter of free values taken; DESIGN CHOICE, log 8. -/
  fv : Nat := 0
  /-- What the module has emitted, newest first (the MODEL's own record of its outputs); DESIGN CHOICE, log 17. -/
  out : List Out := []
  /-- The commands that wait, first in, first out; the MODEL's own. -/
  pending : List Instr := []
deriving DecidableEq, Repr

/-- Why a step stops with a fault. -/
inductive Fault where
  /-- Never raised: no command of this block ends in a fault. Safe. -/
  | none
deriving DecidableEq, Repr

/-- Why a step is refused. -/
inductive Refusal where
  /-- A command that has no meaning yet; raised by its arm of `exec`. Safe: the machine stops. -/
  | notModelled (mnemonic : String)
deriving DecidableEq, Repr

/-- The module right after a module reset, on a module as it left manufacture (R558, R365). -/
def State.reset : State := {}

end Sys2Proof.Machine
end

