-- ==== Sys2Proof/Machine/Ops.lean ====
section
/-!
DEFINITION. The operations that every family of commands shares: sparse tables and byte memories, bit fields, the
update of one part of the state, free values, the counters of R507, MSI-X messages, the event recorder of R516 to
R519, the appends of the cornerstone flash, and the routes of an error (R483, R484).
-/

namespace Sys2Proof.Machine
open Sys2Proof

/-! ## Sparse tables and byte memories -/

/-- What a table holds at index `i`; `d` is what an unlisted index reads as. -/
def tget {α : Type} (d : α) : Table α → Nat → α
  | [], _ => d
  | (k, v) :: t, i => if i = k then v else tget d t i

/-- Write index `i`, keeping the indexes rising and listing nothing that equals `d`. -/
def tset {α : Type} [DecidableEq α] (d : α) : Table α → Nat → α → Table α
  | [], i, v => if v = d then [] else [(i, v)]
  | (k, w) :: t, i, v =>
    if i < k then (if v = d then (k, w) :: t else (i, v) :: (k, w) :: t)
    else if i = k then (if v = d then t else (i, v) :: t)
    else (k, w) :: tset d t i v

def tmod {α : Type} [DecidableEq α] (d : α) (t : Table α) (i : Nat) (f : α → α) : Table α :=
  tset d t i (f (tget d t i))

/-- Change every listed value, listing nothing that has become `d`. -/
def tall {α : Type} [DecidableEq α] (d : α) (t : Table α) (f : α → α) : Table α :=
  (t.map fun p => (p.1, f p.2)).filter fun p => decide (p.2 ≠ d)

/-- The indexes rise strictly. -/
def keysRise {α : Type} : Table α → Bool
  | [] => true
  | [_] => true
  | a :: b :: t => decide (a.1 < b.1) && keysRise (b :: t)

/-- The canonical form of a table whose unlisted indexes read as `d`. -/
def Table.wf {α : Type} [DecidableEq α] (d : α) (t : Table α) : Bool :=
  keysRise t && t.all fun p => decide (p.2 ≠ d)

/-- The canonical form of a byte memory whose unlisted bytes read as `d`. -/
def Memory.wf (d : Byte) (m : List Host.Cell) : Bool := Table.wf d m

/-- One byte of a memory. -/
def Memory.read (d : Byte) (m : List Host.Cell) (a : Nat) : Byte := tget d m a

def Memory.write (d : Byte) (m : List Host.Cell) (a : Nat) (b : Byte) : List Host.Cell := tset d m a b

/-- `n` bytes from `a` upward. -/
def Memory.readN (d : Byte) (m : List Host.Cell) (a : Nat) : Nat → List Byte
  | 0 => []
  | n + 1 => Memory.read d m a :: Memory.readN d m (a + 1) n

def Memory.writeN (d : Byte) (m : List Host.Cell) (a : Nat) : List Byte → List Host.Cell
  | [] => m
  | b :: bs => Memory.writeN d (Memory.write d m a b) (a + 1) bs

/-! ## Numbers, bit fields and bytes -/

/-- Bits [lo + w - 1 : lo] of a number. -/
def bits (v lo w : Nat) : Nat := v / 2 ^ lo % 2 ^ w

def bitOf (v i : Nat) : Bool := v / 2 ^ i % 2 == 1

def b2n (b : Bool) : Nat := if b then 1 else 0

/-- A counter of `w` bits that saturates. -/
def sat (w a n : Nat) : Nat := min (a + n) (2 ^ w - 1)

/-- The nearest value of `lo … hi` (R554). -/
def clamp (lo hi v : Nat) : Nat := max lo (min hi v)

/-- The value of bytes stored least significant first. -/
def leVal : List Byte → Nat
  | [] => 0
  | b :: bs => b.toNat + 256 * leVal bs

/-- `n` bytes of a value, least significant first. -/
def leBytes : Nat → Nat → List Byte
  | 0, _ => []
  | n + 1, v => BitVec.ofNat 8 v :: leBytes n (v / 256)

/-- `n` bytes of a value, most significant first. -/
def beBytes (n v : Nat) : List Byte := (leBytes n v).reverse

def beVal (l : List Byte) : Nat := leVal l.reverse

/-- Granule `g` (0–7) of a line. -/
def lineGranule (d : LineData) (g : Nat) : Granule := d.extractLsb' (512 * g) 512

def setGranule (d : LineData) (g : Nat) (v : Granule) : LineData :=
  (d &&& ~~~((BitVec.ofNat 4096 (2 ^ 512 - 1)) <<< (512 * g))) ||| (v.setWidth 4096 <<< (512 * g))

/-- Ones in every bit of the bytes that a byte mask names. -/
def spreadMask (m : BitVec 64) : Nat → Granule
  | 0 => 0
  | n + 1 => spreadMask m n ||| (if m.getLsbD n then (0xFF : Granule) <<< (8 * n) else 0)

/-- The bytes of `new` that the mask names, the others from `old`. -/
def mergeBytes (old new : Granule) (mask : BitVec 64) : Granule :=
  let k := spreadMask mask 64
  (old &&& ~~~k) ||| (new &&& k)

/-- Bytes of a granule from `off`. -/
def granuleBytes (g : Granule) (off n : Nat) : List Byte := leBytes n (g.toNat / 2 ^ (8 * off))

/-- A byte mask of `n` bytes from `off`. -/
def maskOf (off n : Nat) : BitVec 64 := BitVec.ofNat 64 ((2 ^ n - 1) * 2 ^ off)

/-- Insert `bs` at byte `off` of a granule of zeros. -/
def granuleOf (off : Nat) (bs : List Byte) : Granule := BitVec.ofNat 512 (leVal bs * 2 ^ (8 * off))

/-- The element at a position, counted from 0. -/
def nth {α : Type} : List α → Nat → Option α
  | [], _ => none
  | a :: _, 0 => some a
  | _ :: l, n + 1 => nth l n

/-- Set and clear bit `m` of an 8-bit mask. -/
def set8 (b : BitVec 8) (m : Nat) : BitVec 8 := b ||| ((1 : BitVec 8) <<< m)
def clr8 (b : BitVec 8) (m : Nat) : BitVec 8 := b &&& ~~~((1 : BitVec 8) <<< m)

/-- Indexes below `n`, rising. -/
def upto (n : Nat) : List Nat := List.range n

/-! ## One part of the state -/

def onGlb (f : Glb → Glb) (s : State) : State := { s with glb := f s.glb }
def onTck (f : Tck → Tck) (s : State) : State := { s with tck := f s.tck }
def onMed (f : Med → Med) (s : State) : State := { s with med := f s.med }
def onDrf (f : Drf → Drf) (s : State) : State := { s with drf := f s.drf }
def onCch (f : Cch → Cch) (s : State) : State := { s with cch := f s.cch }
def onDir (f : Dir → Dir) (s : State) : State := { s with dir := f s.dir }
def onOrd (f : Ord → Ord) (s : State) : State := { s with ord := f s.ord }
def onStm (f : Stm → Stm) (s : State) : State := { s with stm := f s.stm }
def onGrp (f : Grp → Grp) (s : State) : State := { s with grp := f s.grp }
def onHst (f : Hst → Hst) (s : State) : State := { s with hst := f s.hst }
def onSec (f : Sec → Sec) (s : State) : State := { s with sec := f s.sec }

/-- A request is refused for want of right (R395, R415). -/
def denied : State → State := onSec fun x => { x with cntDenied := sat 64 x.cntDenied 1 }
def onCph (f : Cph → Cph) (s : State) : State := { s with cph := f s.cph }
def onPwr (f : Pwr → Pwr) (s : State) : State := { s with pwr := f s.pwr }
def onClk (f : Clk → Clk) (s : State) : State := { s with clk := f s.clk }
def onThm (f : Thm → Thm) (s : State) : State := { s with thm := f s.thm }
def onErr (f : Err → Err) (s : State) : State := { s with err := f s.err }
def onPmc (f : Pmc → Pmc) (s : State) : State := { s with pmc := f s.pmc }
def onEvr (f : Evr → Evr) (s : State) : State := { s with evr := f s.evr }
def onLdg (f : Ldg → Ldg) (s : State) : State := { s with ldg := f s.ldg }
def onMedium (f : Medium → Medium) (s : State) : State := { s with medium := f s.medium }
def onFlash (f : Flash → Flash) (s : State) : State := { s with flash := f s.flash }
def onPlinth (f : Plinth → Plinth) (s : State) : State := { s with plinth := f s.plinth }

/-- Update link port `i` (Halyard 0–7, Coping l at 8 + l). -/
def onLink (i : Nat) (f : Lnk → Lnk) (s : State) : State := { s with links := tmod {} s.links i f }

def link (s : State) (i : Nat) : Lnk := tget {} s.links i

/-- Update stream port `i`. -/
def onPort (i : Nat) (f : StmPort → StmPort) : State → State := onStm fun m => { m with ports := tmod {} m.ports i f }

def port (s : State) (i : Nat) : StmPort := tget {} s.stm.ports i

/-- Update queue `q`. -/
def onQueue (q : Nat) (f : HQueue → HQueue) : State → State := onHst fun h => { h with queues := tmod {} h.queues q f }

def queue (s : State) (q : Nat) : HQueue := tget {} s.hst.queues q

/-- Update copy channel `j`. -/
def onCopy (j : Nat) (f : CopyCh → CopyCh) : State → State := onHst fun h => { h with copies := tmod {} h.copies j f }

def copyCh (s : State) (j : Nat) : CopyCh := tget {} s.hst.copies j

/-- Update sensor `n`. -/
def onSensor (n : Nat) (f : Sensor → Sensor) : State → State := onThm fun t => { t with sensors := tmod {} t.sensors n f }

def sensor (s : State) (n : Nat) : Sensor := tget {} s.thm.sensors n

/-- The index of a flit port. -/
def portIdx : Port → Nat
  | .hal p => p
  | .cop l => 8 + l

/-- The port of an index. -/
def portOf (i : Nat) : Port := if i < 8 then .hal i else .cop (i - 8)

/-- An output is recorded. -/
def push (o : Out) (s : State) : State := { s with out := o :: s.out }

/-- A value that no rule gives, and the state after it is taken (DESIGN CHOICE, log 8). -/
def free (s : State) : Nat × State := (Config.freeValue s.fv, { s with fv := s.fv + 1 })

/-- Apply `f` to each element in turn. -/
def each {α : Type} (l : List α) (f : α → State → State) (s : State) : State := l.foldl (fun t a => f a t) s

/-! ## Time -/

/-- 1 ms, 1 s in the picoseconds of `now`. -/
def ms : Nat := 1000000000
def sec : Nat := 1000000000000

/-! ## MSI-X (R322, R339, R359) -/

/-- A dword of the MSI-X table; at reset every vector is masked (PCI Express specification, PRESUMED, log 18). -/
def msixDword (s : State) (i : Nat) : BitVec 32 := tget (if i % 4 = 3 then 1 else 0) s.hst.msix i

/-- The vector is masked. -/
def masked (s : State) (v : Nat) : Bool := (msixDword s (4 * v + 3)).getLsbD 0

/-- Send the message of a vector, or set its pending bit while the vector is masked; nothing goes out while the link is down. -/
def sendMsix (v : Nat) (s : State) : State :=
  if !s.hst.linkUp then s
  else if masked s v then onHst (fun h => { h with msixPend := tset false h.msixPend v true }) s else push (.msix v) s

/-! ## Counters (R507 to R510) -/

def pmcUnit (s : State) (u : Nat) : Pmc1 := tget {} s.pmc.units u

def onUnit (u : Nat) (f : Pmc1 → Pmc1) : State → State := onPmc fun p => { p with units := tmod {} p.units u f }

/-- The counter units of R506. -/
def isCounterUnit (u : Nat) : Bool :=
  (1 ≤ u && u ≤ 9) || (0x10 ≤ u && u < 0x40) || (0x40 ≤ u && u < 0x4C) || (0x50 ≤ u && u < 0x58)

/-- CHAIN of PCi: no effect on an even counter. -/
def chained (p : Pmc1) (i : Nat) : Bool := i % 2 == 1 && (tget 0 p.cfg i).getLsbD 8

/-- Set bit i of PMC_OVF and send the overflow vector, at most once per 1 ms for the module (R508). -/
def pmcFlag (u i : Nat) (s : State) : State :=
  let s := onUnit u (fun p => { p with ovf := p.ovf ||| (1 <<< i) }) s
  if (tget 0 (pmcUnit s u).cfg i).getLsbD 9 && s.pmc.intEn
      && (match s.pmc.ovfTime with | none => true | some t => decide (t + ms ≤ s.now)) then
    sendMsix s.pmc.vector (onPmc (fun p => { p with ovfTime := some s.now }) s)
  else s

/-- PCi carries out of bit 31 (R508). -/
def pmcCarry (u i : Nat) (s : State) : State :=
  let p := pmcUnit s u
  if i % 2 == 0 && chained p (i + 1) then
    let v := tget 0 p.pc (i + 1) + 1
    let s := onUnit u (fun p => { p with pc := tset 0 p.pc (i + 1) (v % 2 ^ 32) }) s
    if 2 ^ 32 ≤ v then pmcFlag u (i + 1) s else s
  else pmcFlag u i s

/-- Add `n` to PCi when it counts `code`. -/
def pmcAdd (u code n i : Nat) (s : State) : State :=
  let p := pmcUnit s u
  if (tget 0 p.cfg i).toNat % 256 = code ∧ chained p i = false then
    let v := tget 0 p.pc i + n
    let s := onUnit u (fun p => { p with pc := tset 0 p.pc i (v % 2 ^ 32) }) s
    if 2 ^ 32 ≤ v then pmcCarry u i s else s
  else s

/-- The counters stand still: FREEZE, or PMC gated (bit 22 of CLK_GATE_STATE; R457, R509). -/
def pmcStopped (s : State) : Bool := s.pmc.freeze || !s.clk.gateSt.getLsbD 22

/-- An event of unit `u` with `code` occurs `n` times (R507, R510). -/
def count (u code n : Nat) (s : State) : State :=
  if pmcStopped s || (pmcUnit s u).cfg.isEmpty then s else each (upto 8) (pmcAdd u code n) s

/-- An MSI-X message as the rules send it: a TLP, which is counted (R510). The TLP of an overflow interrupt is not (DESIGN CHOICE, log 22). -/
def msix (v : Nat) (s : State) : State := sendMsix v (if masked s v then s else count 8 0x11 1 s)

/-! ## The cornerstone flash: appends (R494 to R500) -/

def part (s : State) (n : Nat) : Partition := tget {} s.flash.parts n

def onPart (n : Nat) (f : Partition → Partition) : State → State := onFlash fun p => { p with parts := tmod {} p.parts n f }

/-- The highest SEQ of a partition, with the appends that wait. -/
def partSeq (s : State) (n : Nat) : Nat :=
  (s.flash.appends.filter (·.part == n)).foldl (fun m a => max m a.r.seq)
    ((part s n).recs.foldl (fun m r => max m r.seq) 0)

/-- BUSY0 and BUSY1: the device that the appends program (R497). The first append of each partition is under way. -/
def flashBusy (s : State) (dev : Nat) : Bool :=
  s.flash.appends.any (fun a => a.phase == dev) || (s.flash.erases.take 1).any (fun e => e.2 == dev)
    || (if dev = 0 then s.flash.keyErase0 || s.ldg.busy0 else s.flash.keyErase1 || s.ldg.busy1)

/-- Ask for the append of a record (R495, R496): it takes SEQ one above the highest. -/
def append (n key : Nat) (payload : List Byte) (s : State) : State :=
  let r : FRec := { seq := partSeq s n + 1, key, payload, sgen := (part s n).sgen, slot := 0, dev0 := false, dev1 := false }
  onFlash (fun p => { p with appends := p.appends ++ [{ part := n, r, phase := if p.ok0 then 0 else 1 }] }) s

/-! ## The event recorder (R516 to R519) -/

/-- SEVERITY of a code (R517). -/
def severity (code : Nat) : Nat :=
  if code ∈ [0x0002, 0x0003] then 0
  else if code ∈ [0x0001, 0x0104, 0x0202, 0x0204, 0x0602, 0x0802, 0x0B03] then 1
  else if code ∈ [0x0203, 0x0207, 0x0301, 0x0501, 0x0502, 0x0504, 0x0506, 0x0701, 0x0702, 0x0803, 0x0A03, 0x0A04, 0x0B04] then 3
  else if code ∈ [0x0903, 0x0A06, 0x0A07, 0x0B01] then 4
  else 2

/-- SEQ of the newest record. -/
def newestSeq (s : State) : Nat :=
  match s.evr.waiting with
  | e :: _ => e.seq
  | [] => match s.flash.events with
    | e :: _ => e.seq
    | [] => 0

/-- One token, in the units of `Bucket.level`. -/
def token : Nat := sec

def refill (now : Nat) (b : Bucket) : Bucket :=
  { b with level := min (b.burst * token) (b.level + b.rate * (now - b.time)), time := now }

/-- Records that appends already hold. -/
def evInFlight (s : State) : Nat := (s.flash.appends.filter (·.part == 5)).foldl (fun n a => n + a.r.key) 0

/-- Append a slot of `n` waiting records (R519). -/
def appendSlot (n : Nat) (s : State) : State :=
  if n = 0 then s else
  onFlash (fun p => { p with appends := p.appends ++
    [{ part := 5
       r := { seq := 0, key := n, payload := [], sgen := 0, slot := 0, dev0 := false, dev1 := false }
       phase := if p.ok0 then 0 else 1 }] }) s

/-- Put a record into the waiting store; a slot is appended when it holds four (R519). -/
def recordEvent (e : EvRec) (s : State) : State :=
  let s := onEvr (fun v => { v with waiting := { e with seq := newestSeq s + 1 } :: v.waiting, cntWritten := sat 64 v.cntWritten 1 }) s
  if 4 ≤ s.evr.waiting.length - evInFlight s then appendSlot 4 s else s

def bucket (s : State) (code : Nat) : Bucket := tget {} s.evr.buckets code

/-- An event occurs: it is recorded when both buckets hold a token and the store has room, else suppressed and counted
(R518). A FATAL event takes no token and is always recorded. -/
def event (code src operand : Nat) (s : State) : State :=
  let b := refill s.now (bucket s code)
  let m := refill s.now s.evr.all
  let e : EvRec :=
    { seq := 0, cycles := s.flash.powerCycles, opSec := s.flash.opSeconds, code, source := src,
      severity := severity code, suppressed := min b.supp 65535, operand := BitVec.ofNat 64 operand, tick := s.tck.count % 2 ^ 32 }
  if severity code = 4 then
    recordEvent e (onEvr (fun v => { v with buckets := tset {} v.buckets code { b with supp := 0, lastEv := none }, all := m }) s)
  else if token ≤ b.level ∧ token ≤ m.level ∧ s.evr.waiting.length < 4096 then
    recordEvent e (onEvr (fun v => { v with
      buckets := tset {} v.buckets code { b with level := b.level - token, supp := 0, lastEv := none }
      all := { m with level := m.level - token } }) s)
  else
    onEvr (fun v => { v with
      cntSupp := sat 64 v.cntSupp 1
      all := m
      buckets := tset {} v.buckets code { b with supp := b.supp + 1, lastEv := some e } }) s

/-! ## The supply log (R428) -/

/-- The 24 B of a supply log payload. -/
def supplyBytes (r : SupplyRec) : List Byte :=
  leBytes 1 r.kind ++ leBytes 1 r.rail ++ leBytes 2 r.railMv ++ leBytes 2 r.vinMv ++ leBytes 2 r.bank ++ leBytes 3 r.cycles
    ++ leBytes 5 r.opSec ++ leBytes 8 r.data

/-- Append a record of the supply log. `rail` is 0xFF for none. -/
def supplyLog (kind rail mv data : Nat) (s : State) : State :=
  let r : SupplyRec :=
    { kind, rail, railMv := mv, vinMv := s.plinth.vin, bank := s.plinth.vbank,
      cycles := s.flash.powerCycles, opSec := s.flash.opSeconds, data }
  append 4 kind (supplyBytes r) (onPlinth (fun p => { p with logLast := some r }) s)

/-! ## Routes of an error (R482 to R485) -/

def memErr (s : State) (m : Nat) : MemErr := tget {} s.err.mems m

def onMemErr (m : Nat) (f : MemErr → MemErr) : State → State := onErr fun e => { e with mems := tmod {} e.mems m f }

/-- A trap (R483): its bit of ERR_STATUS (0 CE_LIMIT, 1 LASTING, 2 MEDIA_EXHAUSTED, 3 SPARES), and the vector when enabled,
at most once per 1 ms. -/
def trap (bit : Nat) (s : State) : State :=
  let s := onErr (fun e => { e with status := e.status ||| (1 <<< bit) }) s
  if s.err.trapEnEff && (match s.err.trapTime with | none => true | some t => decide (t + ms ≤ s.now)) then
    msix s.err.vectorEff (onErr (fun e => { e with trapTime := some s.now }) s)
  else s

/-- Fill ERR_LOG when it is empty, else count (R504): 1 UE-DATA, 2 FAULT. -/
def logError (mem loc cls : Nat) : State → State := onErr fun e =>
  if e.logValid then { e with logCount := sat 16 e.logCount 1 }
  else { e with logValid := true, logCount := 0, logMem := mem, logCls := cls, logLoc := loc }

/-- Every detection starts a self-test of the location (R481, R486). -/
def startTest (mem loc : Nat) : State → State := onErr fun e =>
  { e with errLocs := if (mem, loc) ∈ e.errLocs then e.errLocs else (mem, loc) :: e.errLocs,
           tests := if e.tests.any (fun t => t.mem == mem && t.loc == loc) then e.tests
                    else e.tests ++ [{ mem, loc, cmd := none, after := true }] }

/-- LOCATION of SELF_TEST (R357) as it is reported: the memory number in bits 63:60 is no part of it. -/
def poisonRoute (src mem loc : Nat) (s : State) : State :=
  startTest mem loc (onMemErr mem (fun m => { m with ue := sat 64 m.ue 1 }) (logError mem loc 1 (event 0x0203 src loc s)))

/-- Corrected errors of one memory; the limit of R485 traps once, and again after 24 operating hours below it. -/
def corrected (mem loc : Nat) (s : State) : State :=
  let day := 86400
  let now := s.flash.opSeconds
  let m := memErr s mem
  let recent := now :: m.ce24.filter (fun t => decide (now < t + day))
  let limit := s.err.ceLimitEff
  let above := decide (limit < recent.length)
  let fall := match nth recent limit with | some t => t + day | none => 0
  let s := startTest mem loc (onMemErr mem (fun m =>
    { m with
      ce := sat 64 m.ce 1
      ce24 := recent
      ceTrap := m.ceTrap || above
      ceFall := if above then fall else m.ceFall }) s)
  if above && (!m.ceTrap || decide (m.ceFall + day ≤ now)) then trap 0 s else s

/-- A fatal error (R484): its cause and memory, FATAL_ERROR, and a module reset requested under R236. One during the
sequence is merged into it. -/
def fatal (cause mem : Nat) (s : State) : State :=
  if s.plinth.fatal then s else
  let s := onPlinth (fun p => { p with fatalValid := true, fatalCause := cause, fatalMem := mem, fatal := true }) s
  let s := event 0x0B01 0 (0x80000000 + cause * 256 + mem) s
  onPwr (fun p => { p with drain := if p.drain = 0 then 1 else p.drain }) s

end Sys2Proof.Machine
end

