-- ==== Sys2Proof/Machine/Operands.lean ====
section
/-!
DEFINITION. The operands of the commands: group and local addresses (R312, R18 to R20), the split of a local address
for the cache and the directory (R145, R184), regions, classes and rights (R211, R212, R83, R395), physical page
numbers (R19), and the figures that follow from the tick period (R32, R38, R44).
-/

namespace Sys2Proof.Machine
open Sys2Proof

/-! ## The part -/

def isBig (s : State) : Bool := s.fuses.part == .szm7240

/-- User capacity in bytes (R2, R528). -/
def capacity (s : State) : Nat := if isBig s then 0x180000000000 else 0xC0000000000

/-- Banks per channel (R43). -/
def banksPerChannel (s : State) : Nat := if isBig s then 128 else 64

/-- Packages (R115). -/
def packages (s : State) : Nat := if isBig s then 64 else 32

/-! ## The tick period -/

/-- T in ps (R32). -/
def periodPs (s : State) : Nat := 1000000 + 250000 * s.tck.code

/-- T in quarters of 1 µs. -/
def quarters (s : State) : Nat := s.tck.code + 4

/-- The read budget B (R44). -/
def readBudget (s : State) : Nat := min 64 (2 * quarters s)

/-- The retry reserve Q (R44). -/
def retryReserve (s : State) : Nat := 3 * quarters s / 4

/-- P, the program-window senses of a bank (R38). -/
def windowSenses (s : State) : Nat := 35 * quarters s / 36

/-- Pieces are split into halves (R39). -/
def splitPieces (s : State) : Bool := decide (s.tck.code ≤ 3)

/-! ## Expert registers (R26, R533) -/

/-- The reset value of an expert register: the value the module chooses while OVR is 0. -/
def expertReset (off : Nat) : Nat :=
  if off = 0x0100040 then 60
  else if off = 0x0200008 then 64
  else if off = 0x0200010 then 200000
  else if off = 0x0200018 then 8 * 256 + 24
  else if 0x0300000 ≤ off ∧ off ≤ 0x0300028 then (nth [15, 106, 591, 2738, 5537, 14858] ((off - 0x0300000) / 8)).getD 0
  else if 0x0300040 ≤ off ∧ off ≤ 0x03000B0 then
    (nth [4, 30, 240, 1800, 7200, 28800, 86400, 259200, 604800, 1209600, 2419200, 4838400, 9676800, 19353600, 38707200]
      ((off - 0x0300040) / 8)).getD 0
  else if 0x03000C0 ≤ off ∧ off ≤ 0x0300138 then
    (nth [0, 21, 38, 56, 71, 83, 94, 103, 112, 118, 124, 130, 136, 142, 148, 153] ((off - 0x03000C0) / 8)).getD 0
  else if off = 0x0300140 then 24
  else if off = 0x0400018 then 75
  else if off = 0x0400020 then 5 * 256 + 3 * 16 + 1
  else if off = 0x0600008 then 10
  else if off = 0x0B00018 then 4
  else if off = 0x0B00038 then 4096
  else if off = 0x0E00080 then 24
  else 0

/-- An expert register as written. -/
def expertWritten (s : State) (off : Nat) : Nat := (tget (BitVec.ofNat 32 (expertReset off)) s.expert off).toNat

/-- The module's own choice for an expert register under the basic policy (R26, R103): for PWR_DIRTY_FIX the derived limit, once there is
one, in MiB (R432). -/
def expertOwn (s : State) (off : Nat) : Nat :=
  if off = 0x0200010 then (if s.med.wearEff = 1 then 50000 else 200000)
  else if off = 0x0B00038 ∧ s.glb.charged then s.cch.limit / 2048
  else expertReset off

/-- The fields of an expert register in force: as written at the last course start while OVR is 1, else the module's own. -/
def expertIn (s : State) (off : Nat) : Nat :=
  let v := (tget (BitVec.ofNat 32 (expertReset off)) s.expertEff off).toNat
  if bitOf v 31 then v % 2 ^ 31 else expertOwn s off

/-- F, the free-block floor (R94). -/
def floorF (s : State) : Nat := expertIn s 0x0200008 % 1024

/-- S, the spread limit (R103). -/
def spreadS (s : State) : Nat := expertIn s 0x0200010 % 2 ^ 20

/-! ## Addresses -/

/-- Where a group address lies: at this member, at another, or nowhere (R312). -/
inductive Home where
  | here (a : Nat)
  | remote (h a : Nat)
  | unbacked
deriving DecidableEq, Repr

/-- Decode a group byte address (R312): the home member and the local byte address. -/
def decodeAddr (s : State) (g : Nat) : Home :=
  let c := capacity s
  let n := s.grp.size
  let k := s.grp.interleave
  if n * c ≤ g then .unbacked
  else if n = 1 then .here g
  else
    let (h, a) := if k = 0 then (g / c, g % c) else (g / 2 ^ k % n, g / 2 ^ k / n * 2 ^ k + g % 2 ^ k)
    if h = s.grp.id then .here a else .remote h a

/-- The group address of a local byte address of this member. -/
def groupAddr (s : State) (a : Nat) : Nat :=
  let n := s.grp.size
  let k := s.grp.interleave
  if n = 1 then a
  else if k = 0 then s.grp.id * capacity s + a
  else (a / 2 ^ k * n + s.grp.id) * 2 ^ k + a % 2 ^ k

/-- The set index and tag of a user page in the cache (R145): page bits are A[44:9]. -/
def setOf (u : Nat) : Nat := (u / 32 % 2 ^ 17) ^^^ (u / 2 ^ 22 % 2 ^ 14)
def tagOf (u : Nat) : Nat := u / 2 ^ 22 % 2 ^ 14
def lineOf (u : Nat) : Nat := u % 32

/-- The user page of a line from its set, tag and line index. -/
def pageOf (set tag line : Nat) : Nat := (tag * 2 ^ 17 + (set ^^^ tag)) * 32 + line

/-- The directory set and tag of a granule (R184): granule bits are A[44:6]. -/
def dirSet (lg : Nat) : Nat := (lg % 2 ^ 18) ^^^ (lg / 2 ^ 18 % 2 ^ 18)
def dirTag (lg : Nat) : Nat := lg / 2 ^ 18

/-- The granule of a directory entry. -/
def dirGranule (set tag : Nat) : Nat := tag * 2 ^ 18 + (set ^^^ (tag % 2 ^ 18))

/-! ## Regions (R211, R212, R83) -/

def region (s : State) (n : Nat) : Region := tget {} s.ord.regions n

/-- ORD_REGION_ATTR (R240). -/
def Region.attrWord (r : Region) : Nat :=
  b2n r.enable + 2 * b2n r.device + 4 * b2n r.early + 8 * b2n r.durable + 16 * (r.bound % 4)

/-- Region `n` covers the local address. -/
def Region.covers (s : State) (r : Region) (a : Nat) : Bool :=
  r.enable && decide (r.base ≤ a / 2 ^ 26) && decide (a / 2 ^ 26 ≤ r.limit) && decide (a < capacity s)

/-- The lowest-numbered enabled region that contains a local address (R212). -/
def regionAt (s : State) (a : Nat) : Option Nat := (upto 64).find? fun n => (region s n).covers s a

/-- Bytes of a region that are backed. -/
def Region.size (s : State) (r : Region) : Nat :=
  if r.enable && decide (r.base ≤ r.limit) then min (capacity s) ((r.limit + 1) * 2 ^ 26) - r.base * 2 ^ 26 else 0

/-- The class A regions that are pinned: in rising number, while the next still fits within 320 GiB (R83). -/
def pinnedRegions (s : State) : List Nat :=
  ((upto 64).foldl (fun (acc : List Nat × Nat × Bool) n =>
    let r := region s n
    if r.enable && r.bound == 0 && !acc.2.2 then
      if acc.2.1 + r.size s ≤ 320 * 2 ^ 30 then (n :: acc.1, acc.2.1 + r.size s, false) else (acc.1, acc.2.1, true)
    else acc) ([], 0, false)).1

/-- The class in force of region `n`: 0 A, 1 B, 2 C; an unpinned class A region is served as class B (R83). -/
def classOfRegion (s : State) (n : Nat) : Nat :=
  let r := region s n
  if r.bound = 0 then (if n ∈ pinnedRegions s then 0 else 1) else r.bound

/-- The bound class of a user page; pages in no region are served as class C. -/
def classOf (s : State) (u : Nat) : Nat :=
  match regionAt s (u * 512) with
  | some n => classOfRegion s n
  | none => 2

/-- The attributes of the region of a user page; in no region: normal, domain, no early acknowledgement. -/
def attrOf (s : State) (u : Nat) : Region :=
  match regionAt s (u * 512) with
  | some n => region s n
  | none => {}

/-- The right bits of a requester class in SEC_RIGHTS (R415): (read, write). `port` is the Halyard port of an agent. -/
inductive RightOf where
  | host | agent (port : Nat) | copy | stream | debug | firmware
deriving DecidableEq, Repr

def RightOf.shift : RightOf → Nat
  | .host => 0
  | .agent p => 2 + 2 * p
  | .copy => 18
  | .stream => 20
  | .debug => 22
  | .firmware => 24

/-- Whether the region of a local address grants a class its read right, its write right (R395, R212). -/
def mayRead (s : State) (c : RightOf) (a : Nat) : Bool :=
  match regionAt s a with
  | some n => (region s n).rights.getLsbD c.shift
  | none => c == .firmware

def mayWrite (s : State) (c : RightOf) (a : Nat) : Bool :=
  match regionAt s a with
  | some n => (region s n).rights.getLsbD (c.shift + 1)
  | none => c == .firmware

/-- The rights class of a requester number (R181): its source field. -/
def rightOfRq (rq : Nat) : RightOf :=
  let x := rq % 16
  if x < 8 then .agent x else if x = 8 then .host else if x = 9 then .copy else if x = 10 then .stream else .firmware

/-! ## Physical pages (R19) -/

/-- The bank of a physical page or of a block index, PPN[35:24]: channel × 128 + bank within channel. -/
def bankOfPpn (ppn : Nat) : Nat := ppn / 2 ^ 24
def blockOfPpn (ppn : Nat) : Nat := ppn / 2 ^ 11
def pageInBlock (ppn : Nat) : Nat := ppn % 2 ^ 11
def bankOfBlock (b : Nat) : Nat := b / 2 ^ 13
def channelOfBank (b : Nat) : Nat := b / 128
def channelOfPpn (ppn : Nat) : Nat := ppn / 2 ^ 31

/-- The physical page number names a page of this part (R19). -/
def ppnOk (s : State) (ppn : Nat) : Bool := decide (ppn < 2 ^ 36) && (isBig s || decide (ppn / 2 ^ 28 % 8 < 4))

/-- The 14 bytes of metadata that a page's CRC covers (R72), byte 0 least significant. -/
def metaBody (kind pageId seq : Nat) (cold reloc : Bool) : Nat :=
  kind % 16 * 2 ^ 36 + pageId % 2 ^ 36 + seq % 2 ^ 64 * 2 ^ 40 + b2n cold * 2 ^ 104 + b2n reloc * 2 ^ 105

/-- A page with its metadata and their CRC (R72). -/
def mkPage (kind pageId seq : Nat) (cold reloc : Bool) (data : LineData) : MPage :=
  let v := metaBody kind pageId seq cold reloc
  { spare := BitVec.ofNat 128 (v + (Config.crc16 (leBytes 14 v)).toNat * 2 ^ 112), data }

/-- The first 32 bytes of the KDF of R299. -/
def kdf32 (key label context : Nat) : Nat := Config.kdf key label context % 2 ^ 256

/-- Exchange two data units. -/
def exchange (p : LineData × LineData) (d : LineData) : LineData := if d = p.1 then p.2 else if d = p.2 then p.1 else d

/-- The media key's XTS-AES-256 with a tweak (R393). -/
def mediaCipher (s : State) (tweak : Nat) : List (LineData × LineData) :=
  let k := s.sec.mediaKey.getD (0, 0)
  Config.xts k.1 k.2 tweak

/-- Encryption of a data unit of the medium, and its inverse (R393; `mediaOpen_mediaSeal`). -/
def mediaSeal (s : State) (tweak : Nat) (d : LineData) : LineData := (mediaCipher s tweak).foldl (fun d p => exchange p d) d

def mediaOpen (s : State) (tweak : Nat) (d : LineData) : LineData := (mediaCipher s tweak).foldr exchange d

/-- The tweak of a user data or map page: KIND and PAGE_ID as they stand in its metadata (R72, R393). -/
def pageTweak (kind pageId : Nat) : Nat := kind % 16 * 2 ^ 36 + pageId % 2 ^ 36

/-- A user data or map page as it is programmed: its data under the media key (R393). -/
def sealedPage (s : State) (kind pageId seq : Nat) (cold reloc : Bool) (data : LineData) : MPage :=
  mkPage kind pageId seq cold reloc (mediaSeal s (pageTweak kind pageId) data)

/-- KIND: 0 user data, 1 map page, 2 journal, 3 checkpoint segment, 4 dump. -/
def MPage.kind (p : MPage) : Nat := bits p.spare.toNat 36 4
def MPage.pageId (p : MPage) : Nat := bits p.spare.toNat 0 36

/-- The data of a user data or map page that has been read (R393). -/
def pagePlain (s : State) (p : MPage) : LineData := mediaOpen s (pageTweak p.kind p.pageId) p.data
def MPage.seq (p : MPage) : Nat := bits p.spare.toNat 40 64
def MPage.cold (p : MPage) : Bool := bitOf p.spare.toNat 104
def MPage.reloc (p : MPage) : Bool := bitOf p.spare.toNat 105

/-- The metadata's CRC holds. -/
def MPage.good (p : MPage) : Bool := Config.crc16 (leBytes 14 (p.spare.toNat % 2 ^ 112)) == BitVec.ofNat 16 (p.spare.toNat / 2 ^ 112)

/-- The banks of the part, in rising order. -/
def allBanks (s : State) : List Nat :=
  (upto 32).flatMap fun c => (upto (banksPerChannel s)).map fun b => c * 128 + b

/-- The bank that bounded placement gives a page, or a map page (R43, R81). -/
def placedBank (s : State) (u : Nat) : Nat := u % 32 * 128 + u / 32 % banksPerChannel s

/-- The package that holds a bank (R115). -/
def packageOfBank (s : State) (b : Nat) : Nat :=
  if isBig s then 2 * (b / 128) + b % 128 / 64 else b / 128

/-- The die of a bank: channel × dies of a channel + die (R19, R43). -/
def dieOfBank (s : State) (b : Nat) : Nat := b / 128 * (banksPerChannel s / 16) + b % 128 / 16

/-- Dies of the part. -/
def dies (s : State) : Nat := 2 * banksPerChannel s

/-- The map page of a user page and the entry within it (R79). -/
def mapPageOf (u : Nat) : Nat := u / 96

/-- User pages of the part. -/
def userPages (s : State) : Nat := capacity s / 512

end Sys2Proof.Machine
end

