-- ==== Sys2Proof/Machine/Flags.lean ====
section
/-!
DEFINITION. The conditions and levels that the module derives from its state: what is gated, the dirty amount and the
dirty limit (R173, R432), the bits of GLB_ALERT and the pin ALERT_N (R529, R530), the bands of temperature (R467) and
the ranges of the debt measures (R52).
-/

namespace Sys2Proof.Machine
open Sys2Proof

/-! ## Clocks (R457) -/

/-- Unit `u` (a bit of CLK_GATE) is clocked. -/
def clocked (s : State) (u : Nat) : Bool := s.clk.gateSt.getLsbD u

/-- The module is in Run: memory ready, and neither in Stop nor past a commit point. -/
def inRun (s : State) : Bool := s.glb.memReady && s.pwr.runSt == 0 && decide (s.plinth.st ≤ 3)

/-- A commit point has been passed, or the module is off: courses have stopped, no hoist launches and no completion is written (R64, R341,
R434). An orderly shutdown is none until its end (R444). -/
def pastCommit (s : State) : Bool := s.plinth.st == 0 || s.plinth.st == 5 || s.plinth.st == 7

/-- In Stop, for the courses (R462): no sense, pulse group or reset strip. -/
def inStop (s : State) : Bool := s.pwr.runSt == 2 || s.pwr.runSt == 3

/-- Ports have stopped accepting requests (R556): a drain, Stop entry past its start, Stop, or a shutdown from quiesce on. -/
def portsStopped (s : State) : Bool :=
  s.ord.draining || s.pwr.drain != 0 || inStop s || (s.pwr.runSt == 1 && decide (2 ≤ s.pwr.entry))

/-! ## The dirty limit (R431, R432) -/

/-- L in units of 512 B: the derived limit, and no more than a fixed limit in force. -/
def limitUnits (s : State) : Nat :=
  if bitOf (tget 0 s.expertEff 0x0B00038).toNat 31 then min s.cch.limit (expertIn s 0x0B00038 % 8192 * 2048) else s.cch.limit

/-- Every region is written through (R432): L below 256 MiB, or POLICY is 1. Not before the limit is first derived (DEDUCED, log 20). -/
def strictAll (s : State) : Bool := s.glb.charged && (decide (limitUnits s < 524288) || s.pwr.policyEff == 1)

/-- The durability point of a user page is the medium (R162, R432). -/
def writtenThrough (s : State) (u : Nat) : Bool := (attrOf s u).durable || strictAll s

/-! ## The dirty amount (R173) -/

/-- The power-fail warning, and the quiesce and the hold that may follow it (R434, R440): entries are applied without the dirty limit's hold
(R175, R259). -/
def warned (s : State) : Bool := s.plinth.st == 3 || s.plinth.st == 4

/-- A line of a user page that the first item of R173 counts: a Poisoned one no more once its MAP_SET has been entered, or while its map
entry has POISON = 1 (R148). -/
def lineCounts (s : State) (u : Nat) (l : Line) : Bool :=
  match l.st with
  | .dirty | .evicting => true
  | .poisoned => !l.written && !(tget {} s.med.map u).poison
  | _ => false

/-- The user page of line `i` of way index `k` (set × 12 + way). -/
def pageOfWay (k : Nat) (w : Way) (i : Nat) : Nat := pageOf (k / 12) w.tag i

/-- Pages counted by the first item of R173. -/
def countedPages (s : State) : List Nat :=
  s.cch.ways.flatMap fun p => p.2.lines.filterMap fun l =>
    let u := pageOfWay p.1 p.2 l.1
    if !lineCounts s u l.2 || (attrOf s u).durable || (strictAll s && l.2.through) then none else some u

/-- Pages whose line is Dirty, Poisoned or Evicting, which the last item of R173 leaves out. -/
def heldPages (s : State) : List Nat :=
  s.cch.ways.flatMap fun p => p.2.lines.filterMap fun l =>
    match l.2.st with
    | .dirty | .poisoned | .evicting => some (pageOfWay p.1 p.2 l.1)
    | _ => none

/-- User pages with a granule whose directory state is Owned, from the grant on, or whose owner's data has come back and is not yet in the
line (R173, R196). -/
def ownedPages (s : State) : List Nat :=
  let entries : List Nat := s.dir.ents.filterMap fun p =>
    match p.2 with
    | some e => match e.st with
      | .owned _ => some (dirGranule (p.1 / 16) e.tag / 8)
      | _ => none
    | none => none
  let granted : List Nat := s.dir.txns.filterMap fun t =>
    match t.stage, t.after with
    | .ack, .owned _ => some (t.req.lg / 8)
    | _, _ => none
  let back : List Nat := (s.ord.gbs.filter fun g => g.rsv != 0).map fun g => g.lg / 8
  (entries ++ granted ++ back).eraseDups

/-- D in bytes. -/
def dirtyBytes (s : State) : Nat :=
  let counted := countedPages s
  let held := heldPages s
  let owned := (ownedPages s).filter fun u => !decide (u ∈ held) && !writtenThrough s u
  let recs := (s.med.jbuf.map fun j => (j.recs.filter fun r => match r with | .mapSet _ _ _ wb => wb | _ => false).length).sum
  512 * counted.length + 512 * s.med.staging.length + 512 * recs
    + 64 * (s.ord.gbs.filter fun g => g.rsv == 0).length + 512 * owned.length

/-- D has reached the limit. -/
def atLimit (s : State) : Bool := decide (limitUnits s * 512 ≤ dirtyBytes s)

/-! ## Bands of temperature (R467): readings in units of 0.25 °C -/

/-- The band whose range holds a temperature. -/
def bandOf (q : Int) : Nat :=
  if q < 100 then 0 else if q < 180 then 1 else if q < 260 then 2 else if q < 340 then 3 else if q < 380 then 4 else 5

/-- The lower edge of a band. -/
def bandEdge : Nat → Int
  | 0 => -4096
  | 1 => 100
  | 2 => 180
  | 3 => 260
  | 4 => 340
  | _ => 380

/-- The band after a sample: it rises at once, and falls only 2 °C below its lower edge. -/
def nextBand (b : Nat) (q : Int) : Nat :=
  if b < bandOf q then bandOf q else if q ≤ bandEdge b - 8 then bandOf q else b

/-- The band of a sensor for R468 and R114: B4 when it is broken (R472). -/
def effBand (n : Sensor) : Nat := if n.broken then 4 else n.bandEff

/-- The highest band of sensors 0 to 84. -/
def topBand (s : State) : Nat := (upto 85).foldl (fun m n => max m (effBand (sensor s n))) 0

/-! ## GLB_ALERT and ALERT_N -/

/-- Bits [7:0] of GLB_ALERT (R529). -/
def alertBits (s : State) : Nat :=
  b2n (s.err.status != 0) + 2 * b2n s.pwr.degraded + 4 * b2n (strictAll s) + 8 * b2n s.plinth.high
    + 16 * b2n ((upto 85).any fun n => !(sensor s n).broken && (sensor s n).bandEff == 5)
    + 32 * b2n ((upto 86).any fun n => (sensor s n).broken) + 64 * b2n s.thm.inletOut + 128 * b2n s.glb.failed

/-- ALERT_N is asserted (R530): a bit of GLB_ALERT, LATCHED, or a fatal error being handled. -/
def alert (s : State) : Bool := alertBits s != 0 || s.plinth.latched || s.plinth.fatal

/-- GLB_ALERT as it reads. -/
def glbAlert (s : State) : Nat := alertBits s + 256 * b2n (alert s)

/-! ## Levels of the debt measures (R52): 0 idle, 1 background, 2 pressing, 3 urgent -/

/-- Reclaim: free blocks f against the floor F; at least background while a block waits (R565). -/
def reclaimLevel (f floor : Nat) (waits : Bool) : Nat :=
  let l := if 2 * floor ≤ f then 0 else if floor ≤ f then 1 else if floor ≤ 2 * f then 2 else 3
  if waits then max 1 l else l

/-- Repointing: least margin in percent among the queued blocks. -/
def repointLevel : Option Nat → Nat
  | none => 0
  | some g => if 50 ≤ g then 1 else if 25 ≤ g then 2 else 3

/-- Wear levelling: spread s against the limit S. -/
def wearLevel (sp lim : Nat) : Nat :=
  if sp ≤ lim then 0 else if 4 * sp ≤ 5 * lim then 1 else if 2 * sp ≤ 3 * lim then 2 else 3

/-- Patrol and DRAM scrub: elapsed time against the target, both in ps. -/
def lapLevel (e target : Nat) : Nat :=
  if e ≤ target then 1 else if 4 * e ≤ 5 * target then 2 else 3

/-- A level after a course start at which the measure gives `m` (R52): it rises at once; a course start below it is
counted, with the highest level among those. -/
def escStep (m : Nat) (e : Esc) : Esc :=
  if e.level ≤ m then { level := m, below := 0, high := 0 }
  else { e with below := e.below + 1, high := if e.below = 0 then m else max e.high m }

/-- A level falls after 64 consecutive course starts below it, to the highest level among them (R52). -/
def escFall (e : Esc) : Esc :=
  if 64 ≤ e.below then { level := e.high, below := 0, high := 0 } else e

/-- Key of a level: activity 0 repointing, 1 reclaim, 2 wear levelling, 3 patrol, 4 DRAM scrub; bank, channel or 0. -/
def escKey (act loc : Nat) : Nat := act * 65536 + loc

def levelOf (s : State) (act loc : Nat) : Nat := (tget {} s.tck.esc (escKey act loc)).level

end Sys2Proof.Machine
end

