-- ==== Sys2Proof/Machine/Flit.lean ====
section
/-!
DEFINITION. The lanes of the ports: a flit's CRC and FEC (R281), its bytes on the lanes, the PAM4 symbols of a byte and the scrambler of each
lane (R282), training sets (R293), and the block pairs of a stream port (R303, R304). IDLE flits and IDLE words that carry nothing new are not
shown (log 146).
-/

namespace Sys2Proof.Machine
open Sys2Proof

/-- CRC-16 with polynomial 0x1021, initial value all ones, each byte from its highest bit on (R293). -/
def crcCcitt (l : List Byte) : Nat :=
  l.foldl (fun c b => (List.range 8).foldl (fun c j =>
    let x := c * 2 % 65536
    if (c / 2 ^ 15 % 2 == 1) != b.getLsbD (7 - j) then Nat.xor x 0x1021 else x) c) 0xFFFF

/-! ## CRC and FEC of a flit (R281) -/

/-- CRC-64 with the ECMA-182 polynomial, initial value all ones, each byte from its highest bit on (the order of the bits is DESIGN CHOICE,
log 168). -/
def crc64 (l : List Byte) : Nat :=
  l.foldl (fun c b => (List.range 8).foldl (fun c j =>
    let x := c * 2 % 2 ^ 64
    if (c / 2 ^ 63 % 2 == 1) != b.getLsbD (7 - j) then Nat.xor x 0x42F0E1EBA9EA3693 else x) c) (2 ^ 64 - 1)

/-- The generator polynomial of RS(128,124), highest power apart: its four other coefficients, highest first. -/
def fecGen : List Byte :=
  (List.range 4).foldl (fun g j =>
    let r := Config.fecRoot j
    -- (x^n + g) × (x + r)
    let hi := g ++ [0]
    let lo := (r :: g.map (Config.gfMul r))
    hi.zipWith (· ^^^ ·) lo) []

/-- The parity of 124 bytes: the remainder of their polynomial, first byte highest. -/
def fecParity (l : List Byte) : List Byte :=
  l.foldl (fun r b =>
    let f := b ^^^ r.headD 0
    (r.drop 1 ++ [0]).zipWith (· ^^^ ·) (fecGen.map (Config.gfMul f))) [0, 0, 0, 0]

/-- 128 bytes are a codeword: their polynomial is zero at each root. -/
def fecOk (w : List Byte) : Bool :=
  (List.range 4).all fun j => w.foldl (fun a b => Config.gfMul a (Config.fecRoot j) ^^^ b) 0 == 0

/-- What a receiver makes of 128 bytes: the codeword that differs from them in at most two bytes, if there is one. -/
def fecCorrect (w : List Byte) : Option (List Byte) :=
  if fecOk w then some w else
  let errs := (List.range 128).flatMap fun i => (List.range 255).map fun e => (i, BitVec.ofNat 8 (e + 1))
  let put := fun (w : List Byte) (p : Nat × Byte) => w.set p.1 (w.getD p.1 0 ^^^ p.2)
  (errs.find? fun p => fecOk (put w p)).map (put w) <|>
    errs.findSome? fun p => (errs.find? fun q => fecOk (put (put w p) q)).map (put (put w p))

/-- The even, or the odd, bytes. -/
def everyOther (odd : Nat) (l : List Byte) : List Byte := (l.zipIdx.filter fun p => p.2 % 2 == odd).map (·.1)

/-- Even and odd bytes together again. -/
def interleave (a b : List Byte) : List Byte := (a.zip b).flatMap fun p => [p.1, p.2]

/-- The 256 bytes of a flit: header, slots, CRC from its lowest byte on (DESIGN CHOICE, log 168), parity of the even and of the odd bytes. -/
def flitBytes (hdr : BitVec 128) (slots : List (BitVec 128)) : List Byte :=
  let b := (hdr :: slots).flatMap fun x => leBytes 16 x.toNat
  let c := b ++ leBytes 8 (crc64 b)
  c ++ interleave (fecParity (everyOther 0 c)) (fecParity (everyOther 1 c))

/-- A received flit after correction, whether the correction changed it, and whether its CRC verifies. -/
def checkFlit (f : BitVec 2048) : BitVec 2048 × Bool × Bool :=
  let b := leBytes 256 f.toNat
  let c := match fecCorrect (everyOther 0 b), fecCorrect (everyOther 1 b) with
    | some x, some y => interleave x y
    | some x, none => interleave x (everyOther 1 b)
    | none, some y => interleave (everyOther 0 b) y
    | none, none => b
  (BitVec.ofNat 2048 (leVal c), c != b, crc64 (c.take 240) == leVal ((c.drop 240).take 8))

/-- The Gray mapping of two bits to a PAM4 level. -/
def pam4 (b : Nat) : Int := match b with
  | 0 => -3
  | 1 => -1
  | 3 => 1
  | _ => 3

/-- The four symbols of a byte, in the order sent: least significant bits first, the later bit of each pair the higher one. -/
def symbolsOf (b : Byte) : List Int := (List.range 4).map fun j => pam4 (b.toNat / 4 ^ j % 4)

/-- The registers of a port's lanes at the first flit after CONFIG: each lane's own number. -/
def scrSeeds (w : Nat) : List (BitVec 31) := (List.range w).map fun l => BitVec.ofNat 31 l

/-- One bit of the scrambler x^31 + x^28 + 1. -/
def scrNext (r : BitVec 31) : BitVec 31 := r <<< 1 ||| (BitVec.ofBool (r.getLsbD 30 ^^ r.getLsbD 27)).setWidth 31

/-- The next `n` bits of the sequence, first one lowest, and the register after them. The bit that leaves the register is the sequence's
(DESIGN CHOICE, log 146). -/
def scrBits : Nat → BitVec 31 → Nat × BitVec 31
  | 0, r => (0, r)
  | n + 1, r =>
    let (v, q) := scrBits n (scrNext r)
    (2 * v + (if r.getLsbD 30 then 1 else 0), q)

/-- Bytes of one lane, scrambled or descrambled in the order sent: the scrambler is additive. -/
def scrLane (r : BitVec 31) : List Byte → List Byte × BitVec 31
  | [] => ([], r)
  | b :: l =>
    let (v, q) := scrBits 8 r
    let (bs, q) := scrLane q l
    ((b ^^^ BitVec.ofNat 8 v) :: bs, q)

/-- The bytes of a flit that go on lane `l` of `w` lanes: byte i on lane i mod w. -/
def laneBytes (w l : Nat) (f : BitVec 2048) : List Byte :=
  ((List.range 256).filter fun i => i % w == l).map fun i => f.extractLsb' (8 * i) 8

/-- The bytes of a flit on each lane, scrambled, and the lanes' registers after it. -/
def scrLanes (w : Nat) (regs : List (BitVec 31)) (f : BitVec 2048) : List (List Byte × BitVec 31) :=
  (List.range w).map fun l => scrLane (regs.getD l 0) (laneBytes w l f)

/-- A flit scrambled or descrambled on `w` lanes, and the registers after it. -/
def scrFlit (w : Nat) (regs : List (BitVec 31)) (f : BitVec 2048) : BitVec 2048 × List (BitVec 31) :=
  let ls := scrLanes w regs f
  let bytes := (List.range 256).map fun i => ((ls.getD (i % w) ([], 0)).1.getD (i / w) 0)
  (BitVec.ofNat 2048 (bytes.foldr (fun b n => b.toNat + 256 * n) 0), ls.map (·.2))

/-- What the lanes carry for a flit: the symbols of each lane, in the order sent. -/
def wireOf (w : Nat) (regs : List (BitVec 31)) (f : BitVec 2048) : List (List Int) :=
  (scrLanes w regs f).map fun l => l.1.flatMap symbolsOf

/-- The registers after a flit, whatever it carries: 256 / w bytes of each lane. -/
def scrPast (w : Nat) (regs : List (BitVec 31)) : List (BitVec 31) := (scrFlit w regs 0).2

/-! ## Training sets (R293) -/

/-- The fields of a training set. -/
structure TrainSet where
  state : Nat
  lane : Nat
  role : Nat
  grp : Nat
  portNo : Nat
  rate : Nat
  width : Nat
  eq : Nat
deriving DecidableEq, Repr

/-- Read the 32 B of a set: none when its START or its CRC is wrong. -/
def readSet (v : BitVec 256) : Option TrainSet :=
  let l := leBytes 32 v.toNat
  let b := fun i => (l.getD i 0).toNat
  if leVal (l.take 4) = 0x4B1E4B1E ∧ crcCcitt (l.take 30) = leVal (l.drop 30) then
    some { state := b 4, lane := b 5, role := b 6 / 64, grp := b 6 % 8, portNo := b 7, rate := b 8, width := b 9, eq := b 10 }
  else none

/-- The 32 B of a set. -/
def writeSet (t : TrainSet) : List Byte :=
  let body := leBytes 4 0x4B1E4B1E ++ ([t.state, t.lane, t.role * 64 + t.grp % 8, t.portNo, t.rate, t.width, t.eq].map fun x => BitVec.ofNat 8 x)
    ++ List.replicate 19 0
  body ++ leBytes 2 (crcCcitt body)

/-! ## Stream lanes (R303, R304) -/

/-- The header pair of an egress block pair, lane 0 first: data, not-valid, poison and control words. -/
def egressHeaders (kind : Nat) : BitVec 2 × BitVec 2 :=
  match kind with
  | 0 => (1, 1)
  | 1 => (1, 2)
  | 2 => (2, 1)
  | _ => (2, 2)

/-- What an ingress block pair is: a record, a control word, or none that counts as a framing error. -/
def ingressKind (h0 h1 : BitVec 2) : Option Bool := if h0 = 1 ∧ h1 = 1 then some true else if h0 = 2 ∧ h1 = 2 then some false else none

/-- `n` bits through the self-synchronous scrambler x^58 + x^39 + 1, lowest bit first: the bits sent, and the register, which holds the last 58
of them. -/
def selfScr : Nat → BitVec 58 → Nat → Nat × BitVec 58
  | 0, r, _ => (0, r)
  | n + 1, r, d =>
    let b := (d % 2 == 1) ^^ r.getLsbD 38 ^^ r.getLsbD 57
    let (v, q) := selfScr n (r <<< 1 ||| (BitVec.ofBool b).setWidth 58) (d / 2)
    (2 * v + (if b then 1 else 0), q)

/-- A word on its two lanes: bytes 0 to 7 on lane 0, bytes 8 to 15 on lane 1; the scrambled blocks and the registers. -/
def scrPair (r : BitVec 58 × BitVec 58) (w : BitVec 128) : (Nat × Nat) × (BitVec 58 × BitVec 58) :=
  let (a, p) := selfScr 64 r.1 (w.toNat % 2 ^ 64)
  let (b, q) := selfScr 64 r.2 (w.toNat / 2 ^ 64)
  ((a, b), (p, q))

/-- `n` bits received through the self-synchronous scrambler: the bits sent, and the register of the last 58 bits received. -/
def selfDescr : Nat → BitVec 58 → Nat → Nat × BitVec 58
  | 0, r, _ => (0, r)
  | n + 1, r, d =>
    let b := d % 2 == 1
    let (v, q) := selfDescr n (r <<< 1 ||| (BitVec.ofBool b).setWidth 58) (d / 2)
    (2 * v + (if b ^^ r.getLsbD 38 ^^ r.getLsbD 57 then 1 else 0), q)

/-- The word that two received blocks carry, and the registers after them. -/
def descrPair (r : BitVec 58 × BitVec 58) (w : BitVec 128) : BitVec 128 × (BitVec 58 × BitVec 58) :=
  let (a, p) := selfDescr 64 r.1 (w.toNat % 2 ^ 64)
  let (b, q) := selfDescr 64 r.2 (w.toNat / 2 ^ 64)
  (BitVec.ofNat 128 (a + b * 2 ^ 64), (p, q))

end Sys2Proof.Machine
end

