-- ==== Sys2Proof/Machine/Send.lean ====
section
/-!
DEFINITION. Sending: the headers and slots of the messages that the module sends, their flits, the replay buffer, and the outputs that go on no
link (R189, R191, R279 to R291, R296, R299 to R301, R310, R311, R320).
-/

namespace Sys2Proof.Machine
open Sys2Proof

/-! ## Headers (R189, R284) -/

/-- The fields of a header. -/
structure Hdr where
  cls : Nat
  op : Nat
  home : Nat
  agent : Nat
  txid : Nat
  htid : Nat
  gaddr : Nat
  status : Nat
  state : Nat
  poison : Bool
  payload : Bool
  req : Nat
  arg : Nat
deriving DecidableEq, Repr

/-- A header of zeros. -/
def Hdr.zero : Hdr :=
  { cls := 0, op := 0, home := 0, agent := 0, txid := 0, htid := 0, gaddr := 0, status := 0, state := 0, poison := false, payload := false
    req := 0, arg := 0 }

/-- Read a header; REQ and TXID_HI are Coping's (R284). -/
def hdrOf (i : Nat) (h : BitVec 128) : Hdr :=
  let v := h.toNat
  { cls := bits v 125 3, op := bits v 120 5, home := bits v 117 3, agent := bits v 111 6
    txid := bits v 102 9 + (if i < 8 then 0 else 512 * bits v 32 4)
    htid := bits v 92 10, gaddr := bits v 50 42, status := bits v 47 3, state := bits v 45 2, poison := bitOf v 44
    payload := bitOf v 43, req := if i < 8 then 0 else bits v 36 7, arg := bits v 0 32 }

/-- The header slot of a message on link port `i` (R189, R284). -/
def hdrWord (i : Nat) (h : Hdr) : BitVec 128 :=
  BitVec.ofNat 128 (h.cls * 2 ^ 125 + h.op * 2 ^ 120 + h.home % 8 * 2 ^ 117 + h.agent % 64 * 2 ^ 111 + h.txid % 512 * 2 ^ 102 + h.htid % 1024 * 2 ^ 92
    + h.gaddr % 2 ^ 42 * 2 ^ 50 + h.status * 2 ^ 47 + h.state * 2 ^ 45 + b2n h.poison * 2 ^ 44 + b2n h.payload * 2 ^ 43
    + (if i < 8 then 0 else h.req % 128 * 2 ^ 36 + h.txid / 512 % 16 * 2 ^ 32) + h.arg % 2 ^ 32)

/-- Slots of a message, its header included (R283). -/
def slotsOfHdr (h : Hdr) : Nat :=
  if h.cls = 0 ∧ h.op = 5 then 6 else if h.cls = 0 ∧ h.op = 9 then 9 else if h.payload then 5 else 1

def stateOf (n : Nat) : CacheSt := if n = 0 then .i else if n = 1 then .s else if n = 2 then .e else .m

/-- The code of a state, and of a status (R189, R190). -/
def stateCode : CacheSt → Nat
  | .i => 0
  | .s => 1
  | .e => 2
  | .m => 3

def statusCode : RStat → Nat
  | .ok => 0
  | .noRight => 1
  | .type => 2
  | .integrity => 3
  | .mediaExhausted => 4
  | .memberLost => 5
  | .protocol => 6

def statusOf (n : Nat) : RStat :=
  if n = 0 then .ok else if n = 1 then .noRight else if n = 2 then .type else if n = 3 then .integrity
  else if n = 4 then .mediaExhausted else if n = 5 then .memberLost else .protocol

/-- Slots in order as one number. -/
def slotsVal : List (BitVec 128) → Nat
  | [] => 0
  | x :: l => x.toNat + 2 ^ 128 * slotsVal l

/-- The member that a message on Coping is for: the home, or the module of the agent or requester that receives it. -/
def msgDest (h : Hdr) : Nat :=
  if h.cls = 0 ∨ h.cls = 2 ∨ ((h.cls = 3 ∨ h.cls = 4) ∧ 0x10 ≤ h.op) then h.home
  else if h.cls = 1 ∨ (h.cls = 3 ∧ h.op = 2) then h.agent / 8
  else h.req / 16

/-! ## Routes of what is sent (R286, R310) -/

/-- The class of a message that a command spells: 0 Q, 1 S, 2 W, 3 P, 4 D (R189). -/
def classOfMsg : Instr → Nat
  | .wbDirty _ _ _ | .evictClean _ _ => 2
  | .ack _ _ | .snpResp _ _ _ _ => 3
  | .snpData _ _ _ _ _ => 4
  | _ => 0

/-- Coping ports that are ACTIVE. One in RECOVERY counts: its messages wait for it (DEDUCED, log 150). -/
def activeCop (s : State) : List Nat := (upto 4).filter fun l => (link s (8 + l)).st == 5 || (link s (8 + l)).st == 6

/-- The Coping port that leads to a member, for a granule (R310): in a pair the ACTIVE links are used in turn. -/
def routeFor (s : State) (h g : Nat) : Option Nat :=
  if s.grp.size = 2 then
    let l := activeCop s
    nth l (g % 4 % max 1 l.length)
  else tget none s.grp.route h

/-- The member that an agent, or the requester that an agent number from 64 stands for (R181), belongs to. -/
def memberOfAgent (a : Nat) : Nat := if a < 64 then a / 8 else (a - 64) / 16 % 8

/-- The link port that carries a message to an agent. -/
def portToAgent (s : State) (a g : Nat) : Option Nat :=
  if memberOfAgent a = s.grp.id then some (a % 8) else (routeFor s (memberOfAgent a) g).map fun l => 8 + l

/-- The link port of an output and its class (5 for a link-layer message); none for what goes on no link. -/
def outPort (s : State) : Out → Option (Option Nat × Nat)
  | .data a _ _ g _ _ _ => some (portToAgent s a g, 4)
  | .comp a _ _ g _ _ => some (portToAgent s a g, 3)
  | .wbAck a g _ => some (portToAgent s a g, 3)
  | .snoop a _ g _ => some (portToAgent s a g, 1)
  | .forward l _ _ _ c => some (some (8 + l), classOfMsg c)
  | .relay l cls _ => some (some (8 + l), cls)
  | .lctl p _ _ => some (some (portIdx p), 5)
  | _ => none

/-- The member that an output is for, when it goes over Coping; none for a message between the two ends of a link and for LINK_RESUME, which no
rerouting holds (R311). -/
def outDest (s : State) : Out → Option Nat
  | .data a _ _ _ _ _ _ | .comp a _ _ _ _ _ | .wbAck a _ _ | .snoop a _ _ _ => if memberOfAgent a = s.grp.id then none else some (memberOfAgent a)
  | .forward _ h _ _ _ => some h
  | .relay _ cls (x :: _) =>
    if cls = 5 then (if x.toNat % 256 = 0x15 then none else some (bits x.toNat 24 8)) else some (msgDest (hdrOf 8 x))
  | .lctl _ lt (_ :: d :: _) => if 0x10 ≤ lt ∧ lt ≠ 0x15 then some d else none
  | _ => none

/-- The Coping port whose loss makes messages to the member of an output wait (R311). -/
def holdPort (s : State) (o : Out) : Option Nat :=
  (outDest s o).bind fun d => ([8, 9, 10, 11] : List Nat).find? fun i => (link s i).resume && (link s i).holdFor.getLsbD d

/-! ## The slots of a message (R283, R285, R296, R301, R320) -/

/-- A number in `n` slots. -/
def slotsN (n v : Nat) : List (BitVec 128) := (upto n).map fun j => BitVec.ofNat 128 (v / 2 ^ (128 * j))

/-- The home of a granule of the group. -/
def homeNo (s : State) (g : Nat) : Nat :=
  match decodeAddr s (g * 64) with
  | .remote h _ => h
  | _ => s.grp.id

/-- AGENT and REQ of what goes to an agent or requester, as `agentOf` numbers them. -/
def toAgent (a : Nat) (h : Hdr) : Hdr :=
  { h with agent := if a < 64 then a else 0, req := if a < 64 then a / 8 * 16 + a % 8 else a - 64 }

/-- The kind of a combining word, with its code (R285). -/
def kindCode : CombKind → Nat
  | .none => 0
  | .bit => 1
  | .sat8 => 2
  | .sat16 => 3
  | .first => 4

/-- The slots of a message that goes on to a home on link port `i`; WR_NC and ACCUM say by their opcodes what follows, and PAYLOAD stands for
64 B (R189). -/
def slotsOfMsg (i home : Nat) (c : Instr) : List (BitVec 128) :=
  let hd := fun (m : Msg) (cls op : Nat) => { Hdr.zero with cls, op, home, agent := m.agent, txid := m.txid, gaddr := m.gaddr, req := m.req }
  match c with
  | .rdShared m => [hdrWord i (hd m 0 1)]
  | .rdUnique m => [hdrWord i (hd m 0 2)]
  | .upgrade m => [hdrWord i (hd m 0 3)]
  | .rdOnce m => [hdrWord i (hd m 0 4)]
  | .wrNc m mask d p => hdrWord i { hd m 0 5 with poison := p, payload := true } :: mask.setWidth 128 :: slotsN 4 d.toNat
  | .orderBarrier m arg => [hdrWord i { hd m 0 6 with arg := arg.toNat }]
  | .complBarrier m arg => [hdrWord i { hd m 0 7 with arg := arg.toNat }]
  | .atomic m op size off d =>
    let o := match op with | .fetchAdd => 0 | .swap => 1 | .cas => 2
    hdrWord i { hd m 0 8 with payload := true, arg := o + 4 * (size % 4) + 16 * (off % 64) } :: slotsN 4 d.toNat
  | .accum m ws =>
    let put := fun (n : Nat) (f : CombWord → Nat) => ws.zipIdx.foldl (fun v w => v + f w.1 * 2 ^ (n * w.2)) 0
    hdrWord i { hd m 0 9 with arg := put 3 fun w => kindCode w.kind } :: slotsN 8 (put 64 (·.a.toNat) + put 64 (·.b.toNat) * 2 ^ 512)
  | .wbDirty m d p => hdrWord i { hd m 2 1 with poison := p, payload := true } :: slotsN 4 d.toNat
  | .evictClean m st => [hdrWord i { hd m 2 2 with state := stateCode st }]
  | .ack m htid => [hdrWord i { hd m 3 0x10 with htid }]
  | .snpResp m htid st ev => [hdrWord i { hd m 3 0x11 with htid, state := stateCode st, arg := b2n ev }]
  | .snpData m htid st d p => hdrWord i { hd m 4 0x10 with htid, state := stateCode st, poison := p, payload := true } :: slotsN 4 d.toNat
  | _ => []

/-- Where the fields of a link-layer message stand: its slots, and offset, bytes and byte order (true for highest first) of each. -/
def lctlPlaces (lt : Nat) : Nat × List (Nat × Nat × Bool) :=
  let le := List.map fun (p : Nat × Nat) => (p.1, p.2, false)
  match lt with
  | 1 => (1, le [(2, 2), (4, 2), (6, 2), (8, 2), (10, 2)])
  | 2 => (1, le [(2, 2), (8, 8)])
  | 3 => (1, le [(2, 1)])
  | 4 => (14, le [(2, 1), (4, 2), (16, 16)] ++ [(32, 96, true), (128, 96, true)])
  | 5 => (10, le [(16, 40)] ++ [(64, 96, true)])
  | 6 => (1, le [(2, 2)])
  | 0x10 => (2, le [(2, 1), (3, 1), (4, 1), (5, 1), (6, 1), (8, 8), (16, 8)])
  | 0x11 => (1, le [(2, 1), (3, 1), (8, 8)])
  | 0x12 => (3, le [(2, 1), (3, 1), (4, 2), (16, 32)])
  | 0x13 => (1, le [(2, 1), (3, 1), (4, 2), (6, 1)])
  | 0x14 => (1, le [(2, 1), (3, 1), (4, 2)])
  | 0x15 => (1, le [(2, 1), (3, 1), (4, 1), (6, 2)])
  | 0x16 => (1, le [(2, 1), (3, 1), (4, 1), (5, 1), (6, 1)])
  | 0x17 => (1, le [(2, 1), (3, 1), (4, 1)])
  | _ => (1, [])

/-- The slots of a link-layer message. -/
def lctlSlots (lt : Nat) (fields : List Nat) : List (BitVec 128) :=
  let (n, places) := lctlPlaces lt
  slotsN n ((places.zip fields).foldl (fun v x =>
    let (off, w, be) := x.1
    v + (if be then leVal (beBytes w x.2) else x.2 % 2 ^ (8 * w)) * 2 ^ (8 * off)) (lt + 256 * n))

/-- The slots of what goes out on link port `i`. -/
def slotsOfOut (s : State) (i : Nat) : Out → List (BitVec 128)
  | .data a txid htid g st p d =>
    hdrWord i (toAgent a { Hdr.zero with cls := 4, op := 1, home := homeNo s g, txid, htid, gaddr := g, state := stateCode st, poison := p, payload := true })
      :: slotsN 4 d.toNat
  | .comp a txid htid g st status =>
    [hdrWord i (toAgent a { Hdr.zero with cls := 3, op := 1, home := homeNo s g, txid, htid, gaddr := g, state := stateCode st, status := statusCode status })]
  | .wbAck a g status => [hdrWord i (toAgent a { Hdr.zero with cls := 3, op := 2, home := homeNo s g, gaddr := g, status := statusCode status })]
  | .snoop a htid g k =>
    let op := match k with | .inv => 1 | .shared => 2 | .clean => 3
    [hdrWord i (toAgent a { Hdr.zero with cls := 1, op, home := homeNo s g, htid, gaddr := g })]
  | .forward _ h _ _ c => slotsOfMsg i h c
  | .relay _ _ slots => slots
  | .lctl _ lt fs => lctlSlots lt fs
  | _ => []

/-! ## Flits (R279, R280, R286, R289 to R291, R299, R300): a message has its flits to itself (DESIGN CHOICE, log 23) -/

/-- A flit header (R280); `credit` holds its CREDIT field. -/
def flitHdr (ty fseq ack : Nat) (nak : Bool) (start credit : Nat) : BitVec 128 :=
  BitVec.ofNat 128 (ty * 2 ^ 126 + fseq % 4096 * 2 ^ 114 + ack % 4096 * 2 ^ 102 + b2n nak * 2 ^ 101 + start * 2 ^ 87 + credit * 2 ^ 47)

/-- A flit as it goes on the lanes. -/
def flitVal (hdr : BitVec 128) (slots : List (BitVec 128)) : BitVec 2048 := BitVec.ofNat 2048 (leVal (flitBytes hdr slots))

/-- The slots of a flit that goes out under the traffic key: slots 0 to 12 encrypted, and the tag in slot 13 (R300). -/
def sealFlit (s : State) (i : Nat) (hdr : BitVec 128) (slots : List (BitVec 128)) : List (BitVec 128) :=
  let k := link s i
  let peer := (k.peerOffer.map (·.grp)).getD 0
  let iv := s.grp.id * 2 ^ 88 + peer * 2 ^ 80 + k.epoch * 2 ^ 64 + k.txCount
  let (ct, tag) := Config.gcmSeal k.txKey iv (leBytes 16 hdr.toNat) (slots.flatMap fun x => leBytes 16 x.toNat)
  slotsN 13 (leVal ct) ++ [BitVec.ofNat 128 tag]

/-- What this module sends on the port is encrypted: its KEY_DONE has gone (R301). -/
def sealing (i : Nat) (k : Lnk) : Bool := decide (8 ≤ i) && k.keyStage == 2

/-- Credits held for a class; P and D to an agent, and link-layer messages, take none (R287). -/
def credit (i : Nat) (k : Lnk) (cls : Nat) : Option Nat :=
  if cls = 0 then some k.crQ else if cls = 1 then some k.crS else if cls = 2 then some k.crW
  else if i < 8 then none else if cls = 3 then some k.crP else if cls = 4 then some k.crD else none

def spend (cls : Nat) (k : Lnk) : Lnk :=
  if cls = 0 then { k with crQ := k.crQ - 1 } else if cls = 1 then { k with crS := k.crS - 1 }
  else if cls = 2 then { k with crW := k.crW - 1 } else if cls = 3 then { k with crP := k.crP - 1 }
  else if cls = 4 then { k with crD := k.crD - 1 } else k

/-- A message of the class can go now: the link carries flits, nothing of its class waits, and it has a credit and room. -/
def canSend (i : Nat) (k : Lnk) (cls : Nat) : Bool :=
  (k.st == 5 || (k.st == 4 && cls == 5)) && decide (k.replay.length < 512) && (k.held.all fun h => h.1 != cls)
    && (match credit i k cls with | some n => decide (0 < n) | none => true)

/-- One sequenced flit goes out and is held for replay: type, START bits, CREDIT field, up to 14 slots, 13 on Coping, and the message that ends
in it. -/
def sendRaw (i ty start cr : Nat) (slots : List (BitVec 128)) (msg : Option Out) (s : State) : State :=
  let k := link s i
  let hdr := flitHdr ty k.txSeq k.lastAck false start cr
  let slots := if sealing i k then sealFlit s i hdr ((slots ++ slotsN 13 0).take 13) else (slots ++ slotsN 14 0).take 14
  count (0x40 + i) 0x10 1 (push (.flit (portOf i) (wireOf k.width k.scrTx (flitVal hdr slots))) (onLink i (fun k => { k with
    txSeq := (k.txSeq + 1) % 4096
    replay := k.replay ++ [{ fseq := k.txSeq, hdr, slots, msg }]
    txCount := if sealing i k then k.txCount + 1 else k.txCount
    scrTx := scrPast k.width k.scrTx }) s))

/-- An IDLE flit, with the present ACK and with or without NAK (R289, R291). -/
def sendIdle (i : Nat) (nak : Bool) (s : State) : State :=
  let k := link s i
  push (.flit (portOf i) (wireOf k.width k.scrTx (flitVal (flitHdr 0 0 k.lastAck nak 0 0) (slotsN 14 0))))
    (onLink i (fun k => { k with scrTx := scrPast k.width k.scrTx }) s)

/-- Send a message on link port `i`: in one flit, or in two when its slots do not fit. -/
def sendFlit (i cls : Nat) (o : Out) (s : State) : State :=
  let slots := slotsOfOut s i o
  let cap := if i < 8 then 14 else 13
  let ty := if cls = 5 then 2 else 1
  let s := onLink i (spend cls) s
  let s := if slots.length ≤ cap then sendRaw i ty 1 0 slots (some o) s
    else sendRaw i ty 0 0 (slots.drop cap) (some o) (sendRaw i ty 1 0 (slots.take cap) none s)
  let s := push o s
  if cls = 1 then count (0x40 + i) 0x13 1 s else s

/-! ## Emitting -/

/-- Outputs that are TLPs (R510). -/
def isTlp : Out → Bool
  | .cpl _ _ _ _ => true
  | .cqe _ _ _ _ => true
  | .sqRead _ _ _ => true
  | .aer _ => true
  | _ => false

/-- The tag of a request that a reset of the PCI Express core has discarded: no completion goes out for it (R238). -/
def noTag : Nat := 2 ^ 20

/-- The completion is of a request that still stands. -/
def wanted : Out → Bool
  | .cpl tag _ _ _ => decide (tag < noTag)
  | _ => true

/-- A message waits at a link: a link-layer message ahead of the others (R297). -/
def hold (i cls : Nat) (o : Out) : State → State := onLink i fun k => { k with
  held := if cls = 5 then (k.held.filter fun h => h.1 == 5) ++ (cls, o) :: k.held.filter fun h => h.1 != 5 else k.held ++ [(cls, o)] }

/-- Emit an output. A message for a link is sent, waits for its class or for its new route, or is lost with a link that is down. -/
def emit (o : Out) (s : State) : State :=
  match outPort s o with
  | none => if !isTlp o then push o s else if s.hst.linkUp && wanted o then push o (count 8 0x11 1 s) else s
  | some (p, cls) =>
    match holdPort s o, p with
    | some i, _ => onLink i (fun k => { k with oldHeld := k.oldHeld ++ [(cls, o)] }) s
    | none, some i =>
      let k := link s i
      if canSend i k cls then sendFlit i cls o s
      else if k.st = 5 ∨ k.st = 6 ∨ (k.st = 4 ∧ cls = 5) then hold i cls o s
      else s
    | none, none => s

/-- The messages that wait at a link are looked at again in order. -/
def releaseHeld (i : Nat) (s : State) : State :=
  each (link s i).held (fun h s =>
    let k := link s i
    if canSend i k h.1 then sendFlit i h.1 h.2 s else onLink i (fun k => { k with held := k.held ++ [h] }) s)
    (onLink i (fun k => { k with held := [] }) s)

end Sys2Proof.Machine
end

