-- ==== Sys2Proof/Machine/Drift.lean ====
section
/-!
DEFINITION. Block records (R70, R74) and drift: package clocks, cohorts, thermal age, bins and margins (R113 to R122,
R128 to R132).
-/

namespace Sys2Proof.Machine
open Sys2Proof

/-! ## Block records -/

/-- Dump blocks of a bank (R70). -/
def dumpBlocks (s : State) : Nat := if isBig s then 6 else 12

/-- A block as it left manufacture (R558, DESIGN CHOICE, log 7): the first blocks of a bank are its dump blocks, the last 300 its spares. -/
def blkDefault (s : State) (b : Nat) : Blk :=
  let i := b % 8192
  if i < dumpBlocks s then { role := 4 } else if 7892 ≤ i then { st := .spare } else {}

def blk (s : State) (b : Nat) : Blk := tget (blkDefault s b) s.med.blocks b

def addNew (x : Nat) (l : List Nat) : List Nat := if x ∈ l then l else x :: l

/-- Update a block's record; its segment of the block table has changed (R93). -/
def onBlk (b : Nat) (f : Blk → Blk) (s : State) : State :=
  onMed (fun m => { m with
    blocks := tmod (blkDefault s b) m.blocks b f
    chSegs := addNew (1000000 + b * 6 / 65536) m.chSegs }) s

/-- The code of a block state (R75). -/
def BlkSt.code : BlkSt → Nat
  | .free => 0
  | .opened => 1
  | .full => 2
  | .victim => 3
  | .pendingReset => 4
  | .failed => 5
  | .retired => 6
  | .spare => 7

/-- The 48-bit record of R74. -/
def Blk.word (b : Blk) : Nat :=
  b.st.code * 2 ^ 45 + b.role % 8 * 2 ^ 42 + min b.resets (2 ^ 24 - 1) * 2 ^ 18 + b.valid % 4096 * 2 ^ 6
    + min b.rewrites 3 * 16 + min b.heavy 15

/-- Multi-level role: user or map. -/
def Blk.multi (b : Blk) : Bool := decide (b.role ≤ 1)

/-- Counted in a bank's free count f (R94). -/
def Blk.isFree (b : Blk) : Bool := b.st == .free && b.role != 4

/-- Blocks of a bank whose record differs from manufacture. -/
def bankBlocks (s : State) (k : Nat) : List (Nat × Blk) := s.med.blocks.filter fun p => bankOfBlock p.1 == k

/-- The free count f of a bank (R94). -/
def freeCount (s : State) (k : Nat) : Nat :=
  let l := bankBlocks s k
  7892 - dumpBlocks s + (l.filter fun p => p.2.isFree && !(blkDefault s p.1).isFree).length
    - (l.filter fun p => !p.2.isFree && (blkDefault s p.1).isFree).length

/-- SPARE blocks of a bank. -/
def spareCount (s : State) (k : Nat) : Nat :=
  let l := bankBlocks s k
  300 + (l.filter fun p => p.2.st == .spare && (blkDefault s p.1).st != .spare).length
    - (l.filter fun p => p.2.st != .spare && (blkDefault s p.1).st == .spare).length

def retiredCount (s : State) (k : Nat) : Nat := ((bankBlocks s k).filter fun p => p.2.st == .retired).length

/-- A bank's over-provision (R111). -/
def overProvision (s : State) (k : Nat) : Nat := 8192 - retiredCount s k - spareCount s k - dumpBlocks s - 6208

/-- A bank's index in the module (R19's example), channel × banks per channel + bank within the channel. -/
def bankIndex (s : State) (k : Nat) : Nat := k / 128 * banksPerChannel s + k % 128

/-! ## Package clocks and cohorts -/

def pkg (s : State) (i : Nat) : Pkg := tget {} s.drf.pkgs i

def onPkg (i : Nat) (f : Pkg → Pkg) : State → State := onDrf fun d => { d with pkgs := tmod {} d.pkgs i f }

/-- The sensor of package i (R466). -/
def pkgSensor (s : State) (i : Nat) : Sensor := sensor s (4 + i)

/-- Package of a block. -/
def packageOfBlock (s : State) (b : Nat) : Nat := packageOfBank s (bankOfBlock b)

/-- One equivalent second, in units of Θ (R116). -/
def eqSec : Nat := 16000000

/-- A cohort of a package by its index. -/
def cohortOf (p : Pkg) (i : Nat) : Option Cohort := p.cohorts.find? fun c => c.idx == i

/-- Thermal age of a block in units of Θ; none without a cohort (R116, R117). -/
def ageUnits (s : State) (b : Nat) : Option Nat := do
  let i ← (blk s b).cohort
  let p := pkg s (packageOfBlock s b)
  let c ← cohortOf p i
  pure (p.theta - c.stamp)

/-- Lower edge of bin `b` (1 to 15) in equivalent seconds (R122, R143). -/
def binEdge (s : State) (b : Nat) : Nat := expertIn s (0x0300040 + 8 * (b - 1)) % 2 ^ 26

/-- The bin of an age in units of Θ (R122). -/
def binOfAge (s : State) (a : Nat) : Nat := ((upto 15).filter fun i => decide (binEdge s (i + 1) * eqSec ≤ a)).length

/-- Margin g of a block of this age, in percent, at least 0 (R129, R143); a part of a percent is dropped (DESIGN CHOICE, log 122). -/
def marginOf (s : State) (a : Nat) : Nat :=
  let w := binEdge s 15 - binEdge s 14
  if w = 0 then 0 else (binEdge s 15 * eqSec - a) * 100 / (w * eqSec)

/-- A block takes its cohort at the course start of its first page program (R117). -/
def takeCohort (b : Nat) (s : State) : State :=
  let i := packageOfBlock s b
  let p := pkg s i
  let old := match p.cohorts.getLast? with
    | some c => decide (eqSec / 2 ≤ p.theta - c.stamp) && decide (p.cohorts.length < 256)
    | none => true
  let join := if old then none else p.cohorts.getLast?
  match join with
  | some c =>
    onBlk b (fun x => { x with cohort := some c.idx })
      (onPkg i (fun p => { p with cohorts := p.cohorts.map fun d => if d.idx = c.idx then { d with count := d.count + 1 } else d }) s)
  | none =>
    let idx := ((upto 256).find? fun j => (cohortOf p j).isNone).getD 0
    onBlk b (fun x => { x with cohort := some idx })
      (onPkg i (fun p => { p with cohorts := p.cohorts ++ [{ idx, stamp := p.theta, count := 1 }] }) s)

/-- A block leaves its cohort at its reset; an entry that no block uses is freed (R117, R118). -/
def leaveCohort (b : Nat) (s : State) : State :=
  match (blk s b).cohort with
  | none => s
  | some c =>
    onBlk b (fun x => { x with cohort := none })
      (onPkg (packageOfBlock s b) (fun p => { p with
        cohorts := (p.cohorts.map fun d => if d.idx = c then { d with count := d.count - 1 } else d).filter fun d => d.count != 0 }) s)

/-- The merges of one package (R118): the cohorts that remain, and the index that replaces each freed one. Where three neighbours qualify
the merges go oldest first, and the next cohort is compared with the older stamp that the merged one keeps (DESIGN CHOICE, log 123). -/
def mergeCohorts (theta : Nat) : List Cohort → List Cohort → List (Nat × Nat) → List Cohort × List (Nat × Nat)
  | done, [], m => (done.reverse, m)
  | [], c :: cs, m => mergeCohorts theta [c] cs m
  | o :: done, c :: cs, m =>
    if 8 * (c.stamp - o.stamp) ≤ theta - c.stamp then
      mergeCohorts theta ({ o with count := o.count + c.count } :: done) cs ((c.idx, o.idx) :: m)
    else mergeCohorts theta (c :: o :: done) cs m

/-- The advance of Θ and the merges of a sample take effect for one package (R119). The index of a block of the younger cohort is
rewritten, so that its segment of the block table has changed (R118, R120). -/
def advancePkg (i n : Nat) (s : State) : State :=
  let p := pkg s i
  let (cs, m) := mergeCohorts (p.theta + n) [] p.cohorts []
  let s := onPkg i (fun _ => { theta := p.theta + n, cohorts := cs }) s
  if m.isEmpty then s else
  each s.med.blocks (fun (b, x) s =>
    if packageOfBlock s b = i then
      match x.cohort.bind fun c => m.find? fun q => q.1 == c with
      | some q => onBlk b (fun y => { y with cohort := some q.2 }) s
      | none => s
    else s) s

/-- At a course start, what the last sample found takes effect (R119). -/
def applySample (s : State) : State :=
  onDrf (fun d => { d with advance := [] }) (each s.drf.advance (fun p s => advancePkg p.1 p.2 s) s)

/-- The advance that one sample gives a package: the weight of its band × (PERIOD_CODE + 4) (R115). -/
def sampleAdvance (s : State) (band : Nat) : Nat := expertIn s (0x0300000 + 8 * band) % 65536 * quarters s

/-! ## Senses and their thresholds (R119, R122 to R125, R469) -/

/-- The bin of a block: that of its age; a block without a cohort is read as bin 0. -/
def binOfBlock (s : State) (b : Nat) : Nat := (ageUnits s b).elim 0 (binOfAge s)

/-- A seventh of a number of DAC steps, to the nearest step. -/
def seventh (x : Int) : Int := (2 * x + 7) / 14

/-- Read offset of a band in DAC steps (R468). -/
def readOffset (band : Nat) : Int := (nth [6, 3, 0, -3, -5, -7] band).getD 0

/-- The threshold j of a sense in bin `b`: the die's trim, the shift of the bin (R123), the offset of the package's band (R469), and the
shift of the ladder's slot (R125). -/
def threshold (s : State) (bank b : Nat) (shift : Int) (j : Nat) : Int :=
  (nth ((nth s.drf.trims (dieOfBank s bank)).getD []) (j - 1)).getD 0
    + seventh ((expertIn s (0x03000C0 + 8 * b) % 256 : Nat) * j) + seventh (readOffset (effBand (pkgSensor s (packageOfBank s bank))) * j) + shift

/-- The ladder's slot `d` bins above bin `b`: past either end it is the end bin, shifted by 8 DAC steps for each step (R125). -/
def ladderSlot (b : Nat) (d : Int) : Nat × Int :=
  let k := (b : Int) + d
  if k < 0 then (0, 8 * k) else if 15 < k then (15, 8 * (k - 15)) else (k.toNat, 0)

/-- Bins that no sense has taken yet, nearest to `b` first, the older at equal distance. -/
def restBins (b : Nat) (made : List (Nat × Int)) : List Nat :=
  let l := (upto 16).filter fun k => !decide ((k, 0) ∈ made)
  (upto 16).flatMap fun d => (l.filter fun k => k == b + d) ++ l.filter fun k => decide (d ≠ 0) && k + d == b

/-- The slots of an attempt in bin `b`: the first sense, or a set of the ladder; a replaced slot that an earlier sense had is skipped (R125). -/
def senseSlots (b retry : Nat) (made : List (Nat × Int)) : List (Nat × Int) :=
  let keep := fun (l : List (Nat × Int)) => l.filter fun x => !(x.2 != 0 && decide (x ∈ made))
  if retry = 0 then [(b, 0)]
  else if retry = 1 then keep [(b, -4), (b, 4), ladderSlot b 1]
  else if retry = 2 then keep [ladderSlot b (-1), ladderSlot b 2, ladderSlot b (-2)]
  else ((restBins b made).take 3).map fun k => (k, 0)

/-- The senses of the next attempt of a read, in the bin that its block has in the present course. -/
def nextSenses (s : State) (r : MRead) : List Sense :=
  let b := blockOfPpn r.ppn
  if (blk s b).multi then
    (senseSlots (binOfBlock s b) r.retry (r.made.map fun x => (x.bin, x.shift))).map fun x =>
      { bin := x.1, shift := x.2, levels := (upto 7).map fun i => threshold s (bankOfPpn r.ppn) x.1 x.2 (i + 1) }
  else [{ bin := 0, shift := 0 }]

/-! ## Program waveforms (R133) -/

/-- First-pulse current in percent of the SET current, step, width and margin of a band's waveform. -/
def waveTable : List (Nat × Nat × Nat × Nat) :=
  [(100, 4, 100, 6), (96, 4, 90, 6), (92, 3, 80, 7), (88, 3, 70, 8), (84, 2, 60, 9), (80, 2, 60, 10)]

/-- The waveform of a multi-level program in a bank, by the band of its package. -/
def waveformIn (s : State) (bank : Nat) : Waveform :=
  let n := effBand (pkgSensor s (packageOfBank s bank))
  let (pct, step, width, margin) := (nth waveTable n).getD (100, 4, 100, 6)
  { no := n, first := pct * (nth s.drf.setTrims (dieOfBank s bank)).getD 0, step, width, margin }

/-- The module reads the dies' trims (R123, R133). -/
def readTrims (s : State) : State :=
  onDrf (fun d => { d with
    trims := (upto (dies s)).map fun k => (upto 7).map fun j => Config.dieTrim k (j + 1)
    setTrims := (upto (dies s)).map Config.dieSet }) s

/-! ## Repointing queues (R128 to R131) -/

/-- Blocks queued for repointing with their ages, by bank. -/
def repointQueue (s : State) : List (Nat × Nat) :=
  s.med.blocks.filterMap fun (b, x) =>
    if x.repointQ && (x.st == .opened || x.st == .full) then (ageUnits s b).map fun a => (b, a) else none

/-- First block of a bank's queue: oldest, then the lower index (R128). One that is also queued for rewrite is left to the rewrite, which ends
in the count or the retirement of R106 and R107 (DEDUCED, log 159). -/
def repointFirst (s : State) (k : Nat) : Option Nat :=
  ((repointQueue s).filter fun p => bankOfBlock p.1 == k && (blk s p.1).rewriteQ.isNone).foldl (fun (best : Option (Nat × Nat)) p =>
    match best with
    | none => some p
    | some q => if q.2 < p.2 then some p else best) none |>.map (·.1)

/-- Least margin among the queued blocks of a bank (R129). -/
def leastMargin (s : State) (l : List (Nat × Nat)) : Option Nat :=
  l.foldl (fun m p => match m with
    | none => some (marginOf s p.2)
    | some g => some (min g (marginOf s p.2))) none

/-- At a course start, blocks in bin 14 or higher join their queue, and one that reaches bin 15 becomes overdue, once. -/
def queueRepoint (s : State) : State :=
  each s.med.blocks (fun (b, x) s =>
    if x.multi && (x.st == .opened || x.st == .full) then
      match ageUnits s b with
      | none => s
      | some a =>
        let n := binOfAge s a
        let s := if 14 ≤ n ∧ x.repointQ = false then onBlk b (fun y => { y with repointQ := true }) s else s
        if 15 ≤ n ∧ x.overdue = false then
          event 0x0301 (0x20 + channelOfBank (bankOfBlock b)) b
            (onDrf (fun d => { d with cntOverdue := sat 64 d.cntOverdue 1 }) (onBlk b (fun y => { y with overdue := true }) s))
        else s
    else s) s

end Sys2Proof.Machine
end

