-- ==== Sys2Proof/Machine/Media.lean ====
section
/-!
DEFINITION. The media engine: the journal (R90 to R92), the map (R77 to R83), streams and blocks (R87), the write path
(R84 to R88), media reads (R45, R125), retirement (R108 to R111) and checkpoints (R93).
-/

namespace Sys2Proof.Machine
open Sys2Proof

/-- The element that no other beats; the first of equals. -/
def bestOf {α : Type} (beats : α → α → Bool) (l : List α) : Option α :=
  l.foldl (fun m a => match m with
    | none => some a
    | some b => if beats a b then some a else some b) none

/-- Lexicographic order of keys. -/
def keyLt : List Nat → List Nat → Bool
  | [], _ => false
  | _, [] => false
  | a :: as, b :: bs => decide (a < b) || (a == b && keyLt as bs)

/-- Insert into a list sorted by key, after equals. -/
def insertBy {α : Type} (k : α → List Nat) (a : α) : List α → List α
  | [] => [a]
  | b :: l => if keyLt (k a) (k b) then a :: b :: l else b :: insertBy k a l

def sortBy {α : Type} (k : α → List Nat) (l : List α) : List α := l.foldl (fun m a => insertBy k a m) []

/-- Unit number of a media channel (R506). -/
def mediaUnit (ch : Nat) : Nat := 0x20 + ch

/-! ## The journal (R90 to R92) -/

/-- A map entry as 40 bits (R77). -/
def MapEnt.word (e : MapEnt) : Nat :=
  b2n e.valid * 2 ^ 39 + b2n e.poison * 2 ^ 38 + b2n e.zero * 2 ^ 37 + b2n e.cold * 2 ^ 36 + (if e.valid then e.ppn % 2 ^ 36 else 0)

/-- The fields of a record after its type and flags, as (first byte, bytes, value). -/
def JRec.fields : JRec → Nat × Nat × List (Nat × Nat × Nat)
  | .blockOpen role k b => (0x01, 0, [(2, 1, role), (3, 1, k), (8, 4, b)])
  | .relocBegin act b => (0x02, 0, [(2, 1, act), (8, 4, b)])
  | .relocCommit redo w first src tgt bm => (0x03, b2n redo, [(2, 1, w), (4, 2, first), (8, 4, src), (12, 4, tgt), (16, 8, bm.toNat)])
  | .mapSet u e seq _ => (0x04, 0, [(8, 5, u), (13, 5, e.word), (24, 8, seq)])
  | .mapPageWrite m e => (0x05, 0, [(8, 4, m), (12, 5, e.word)])
  | .pendingReset b n t => (0x06, 0, [(8, 4, b), (12, 3, n), (15, 1, t)])
  | .resetDone b => (0x07, 0, [(8, 4, b)])
  | .state st cause b => (0x08, 0, [(2, 1, st.code), (3, 1, cause), (8, 4, b)])
  | .mark gen seq => (0x09, 0, [(8, 8, gen), (16, 8, seq)])
  | .dumpRelease gen => (0x0A, 0, [(8, 8, gen)])
  | .cleanShutdown seq => (0x0B, 0, [(8, 8, seq)])

/-- The 32 B of a record (R92), as a number with byte 0 least significant: type, flags, fields, and zeros in the bytes not used. -/
def JRec.word (r : JRec) : Nat :=
  let (type, flags, l) := r.fields
  type + flags * 2 ^ 8 + (l.map fun (at', n, v) => v % 2 ^ (8 * n) * 2 ^ (8 * at')).sum

/-- The 512 B of a journal page (R91). -/
def journalPageBytes (jseq : Nat) (recs : List JRec) : LineData :=
  let body (crc : Nat) := leBytes 8 jseq ++ leBytes 1 recs.length ++ leBytes 19 0 ++ leBytes 4 crc ++ recs.flatMap fun r => leBytes 32 r.word
  let fill (l : List Byte) : List Byte := l ++ List.replicate (512 - l.length) 0
  BitVec.ofNat 4096 (leVal (fill (body (Config.crc32 (fill (body 0))).toNat)))

/-- The CRC of a journal page holds (R91). -/
def journalPageGood (d : LineData) : Bool :=
  let l := leBytes 512 d.toNat
  Config.crc32 (l.take 28 ++ [0, 0, 0, 0] ++ l.drop 32) == BitVec.ofNat 32 (leVal ((l.drop 28).take 4))

/-- The journal buffer has room for a record of work that can wait (R90): 56 of its 64 pages, and none waits before it; the rest are kept for
the records of work that cannot (DESIGN CHOICE, log 124). -/
def journalRoom (s : State) : Bool := decide (s.med.jbuf.length < 56) && s.med.jwait.isEmpty

/-- A record enters the last page of the journal buffer, or a new page; `urgent` records make their page due at once. -/
def enterPage (r : JRec) (urgent : Bool) (course : Nat) (m : Med) : Med :=
  match m.jbuf.getLast? with
  | some p =>
    if p.due || p.prog.isSome then
      { m with jbuf := m.jbuf ++ [{ jseq := m.jseq, recs := [r], first := course, due := urgent }], jseq := m.jseq + 1 }
    else
      { m with jbuf := m.jbuf.dropLast ++ [{ p with recs := p.recs ++ [r], due := urgent || decide (15 ≤ p.recs.length + 1) }] }
  | none =>
    { m with jbuf := [{ jseq := m.jseq, recs := [r], first := course, due := urgent }], jseq := m.jseq + 1 }

/-- A record finds a place in the journal buffer: a page that is still open, or one of its 64 pages. -/
def entryFits (m : Med) : Bool :=
  decide (m.jbuf.length < 64) || match m.jbuf.getLast? with
    | some p => !(p.due || p.prog.isSome)
    | none => true

/-- Enter a record into the journal (R90). One that finds the buffer's 64 pages full waits its turn (DESIGN CHOICE, log 124). -/
def enter (r : JRec) (urgent : Bool) (s : State) : State :=
  onMed (fun m => if m.jwait.isEmpty && entryFits m then enterPage r urgent s.tck.course m
    else { m with jwait := m.jwait ++ [(r, urgent)] }) s

/-- Records that wait enter, in order, as the buffer has room. -/
def enterWaiting (s : State) : State :=
  s.med.jwait.foldl (fun s x => enter x.1 x.2 s) (onMed (fun m => { m with jwait := [] }) s)

/-- JSEQ of the journal page that holds the record entered last. -/
def lastJseq (s : State) : Nat := s.med.jseq - 1

/-- Pages whose first record entered 16 courses ago are due (R90). -/
def journalTimeout : State → State := fun s =>
  onMed (fun m => { m with jbuf := m.jbuf.map fun p =>
    if p.first + 16 ≤ s.tck.course then { p with due := true } else p }) s

/-! ## The map (R77 to R83) -/

def mapEnt (s : State) (u : Nat) : MapEnt := tget {} s.med.map u

def dirOf (s : State) (m : Nat) : MapEnt := tget {} s.med.dir m

/-- The map page is in the map page cache (R82). -/
def mapResident (s : State) (m : Nat) : Bool := (tget none s.med.slots m).isSome

/-- Slots of the map page cache (R82). -/
def mapSlots (s : State) : Nat := if isBig s then 7340032 else 9961472

/-- Mark a map page used, and changed when `d`. An entry that changes while its page is not in the cache is noted (R82). -/
def touchMap (m : Nat) (d : Bool) : State → State := onMed fun x =>
  match tget none x.slots m with
  | none => if d then { x with late := addNew m x.late } else x
  | some t => { x with slots := tset none x.slots m (some { t with dirty := t.dirty || d, used := x.lru + 1 }), lru := x.lru + 1 }

/-- The queue entry of a page map page program. -/
def mapPageProgWaits (s : State) (m : Nat) : Bool := s.med.progs.any fun p => p.kind == .mapPage m

/-- VALID of a block changes. -/
def addValid (b : Nat) : State → State := onBlk b fun x => { x with valid := min 2048 (x.valid + 1) }
def dropValid (b : Nat) : State → State := onBlk b fun x => { x with valid := x.valid - 1 }

/-- Set the map entry of a user page, moving the VALID counts of the blocks (R84 step 5). -/
def setMap (u : Nat) (e : MapEnt) (s : State) : State :=
  let old := mapEnt s u
  let s := if old.valid then dropValid (blockOfPpn old.ppn) s else s
  let s := if e.valid then addValid (blockOfPpn e.ppn) s else s
  touchMap (mapPageOf u) true (onMed (fun m => { m with map := tset {} m.map u e }) s)

/-- Set the directory entry of a map page; its segment has changed (R80, R93). -/
def setDir (m : Nat) (e : MapEnt) (s : State) : State :=
  let old := dirOf s m
  let s := if old.valid then dropValid (blockOfPpn old.ppn) s else s
  let s := if e.valid then addValid (blockOfPpn e.ppn) s else s
  onMed (fun x => { x with dir := tset {} x.dir m e, chSegs := addNew (m * 5 / 65536) x.chSegs }) s

/-- The 512 B of a map page as it is written now (R79). -/
def mapPageBytes (s : State) (m : Nat) : LineData :=
  let body (crc : Nat) := leBytes 4 m ++ leBytes 4 0 ++ leBytes 8 s.med.wseq ++ leBytes 12 0 ++ leBytes 4 crc
    ++ (upto 96).flatMap fun e => leBytes 5 (mapEnt s (96 * m + e)).word
  BitVec.ofNat 4096 (leVal (body (Config.crc32 (body 0)).toNat))

/-- 512 consecutive bytes of a table of `w`-byte words, the first byte least significant. -/
def tableBytes (w start : Nat) (word : Nat → Nat) : LineData :=
  let l := (upto (512 / w + 2)).flatMap fun i => leBytes w (word (start / w + i))
  BitVec.ofNat 4096 (leVal ((l.drop (start % w)).take 512))

/-! ## Streams and blocks (R87) -/

/-- Blocks of banks that have left their state at manufacture or have work queued. -/
def touchedBanks (s : State) : List Nat :=
  ((s.med.blocks.map fun p => bankOfBlock p.1) ++ (s.med.progs.map (·.bank)) ++ (s.med.staging.map (·.bank))).eraseDups

/-- Every touched bank, and the first bank that is not: the candidates of a choice among all banks. -/
def candidateBanks (s : State) : List Nat :=
  let t := touchedBanks s
  match (allBanks s).find? fun b => !decide (b ∈ t) with
  | some b => b :: t
  | none => t

/-- The first block of a bank from index `i` whose record is that of a FREE block at manufacture. -/
def pristineFrom (s : State) (bank : Nat) : Nat → Nat → Option Nat
  | 0, _ => none
  | n + 1, i =>
    let b := bank * 8192 + i
    if (s.med.blocks.any fun p => p.1 == b) then pristineFrom s bank n (i + 1)
    else if (blkDefault s b).isFree then some b else pristineFrom s bank n (i + 1)

/-- The FREE block of a bank with the lowest, or highest, RESET_COUNT; a tie goes to the lower index (DESIGN CHOICE, log 14). -/
def chooseFree (s : State) (bank : Nat) (high : Bool) : Option Nat :=
  let own := ((bankBlocks s bank).filter fun p => p.2.isFree).map fun p => (p.1, p.2.resets)
  let all := match pristineFrom s bank 8192 0 with
    | some b => (b, 0) :: own
    | none => own
  (bestOf (fun a b => if high then keyLt [b.2, a.1] [a.2, b.1] else keyLt [a.2, a.1] [b.2, b.1]) all).map (·.1)

/-- The bank with the most FREE blocks (R87); a tie goes to the lower index. -/
def freestBank (s : State) : Option Nat :=
  bestOf (fun a b => keyLt [freeCount s b, a] [freeCount s a, b]) (candidateBanks s)

/-- Streams by number: 0 HOT, 1 RELOC, 2 COLD, 3 MAP of a bank; 4 the journal ring, 5 the checkpoint ring. -/
def stream (s : State) (bank k : Nat) : StreamBlk :=
  if k = 4 then s.med.jring else if k = 5 then s.med.cring else tget {} s.med.streams (bank * 4 + k)

def onStream (bank k : Nat) (f : StreamBlk → StreamBlk) : State → State := onMed fun m =>
  if k = 4 then { m with jring := f m.jring } else if k = 5 then { m with cring := f m.cring }
  else { m with streams := tmod {} m.streams (bank * 4 + k) f }

/-- ROLE of a stream's blocks (R74). -/
def roleOfStream (k : Nat) : Nat := if k = 3 then 1 else if k = 4 then 2 else if k = 5 then 3 else 0

/-- Open a FREE block for a stream (R87): BLOCK_OPEN is entered, and a tally left from single-level use counts (R109). -/
def openBlock (bank k : Nat) (s : State) : Option Nat × State :=
  let bank := if 4 ≤ k then (freestBank s).getD bank else bank
  match chooseFree s bank (k == 2) with
  | none => (none, s)
  | some b =>
    let s := enter (.blockOpen (roleOfStream k) (min k 4) b) false s
    let s := onMed (fun m => { m with opening := (b, m.jseq - 1) :: m.opening }) s
    let s := onBlk b (fun x => { x with
      st := .opened
      role := roleOfStream k
      next := 0
      valid := 0
      heavy := 0
      resets := if k < 4 ∧ x.tally ≠ 0 then x.resets + 1 else x.resets
      tally := if k < 4 then 0 else x.tally }) s
    (some b, s)

/-- BLOCK_OPEN of a block is not yet durable. -/
def openingYet (s : State) (b : Nat) : Bool := s.med.opening.any fun p => p.1 == b

/-- Make sure that a stream has a next block (R87, R96). -/
def ensureNext (bank k : Nat) (s : State) : State :=
  if (stream s bank k).nxt.isSome then s else
  match openBlock bank k s with
  | (some b, s) => onStream bank k (fun t => { t with nxt := some b }) s
  | (none, s) => s

/-- Make sure that a stream has a current block. -/
def ensureCur (bank k : Nat) (s : State) : State :=
  let t := stream s bank k
  match t.cur, t.nxt with
  | some _, _ => s
  | none, some n => onStream bank k (fun _ => { cur := some n, nxt := none }) s
  | none, none =>
    match openBlock bank k s with
    | (some b, s) => onStream bank k (fun t => { t with cur := some b }) s
    | (none, s) => s

/-- Pages of a block of a stream: 2,048, or 682 in single-level mode (R71). -/
def pagesOfStream (k : Nat) : Nat := if 4 ≤ k then 682 else 2048

/-- Take the next page of a stream's current block for a program. The block is usable once its BLOCK_OPEN is durable; the
journal ring's own blocks need no wait (DEDUCED, log 21). The stream's next block is opened in the last quarter (R87). -/
def takePage (bank k : Nat) (s : State) : Option Nat × State :=
  let s := if k = 4 ∨ journalRoom s then ensureCur bank k s else s
  match (stream s bank k).cur with
  | none => (none, s)
  | some b =>
    if k ≠ 4 ∧ (openingYet s b ∨ !journalRoom s) then (none, s) else
    let p := (blk s b).next
    let s := onBlk b (fun x => { x with next := p + 1 }) s
    let s := if (if 4 ≤ k then 512 else 1536) ≤ p then ensureNext bank k s else s
    let s := if pagesOfStream k ≤ p + 1 then onStream bank k (fun t => { cur := t.nxt, nxt := none }) s else s
    (some (b * 2048 + p), s)

/-- A program of the block is in progress. -/
def blockProgs (s : State) (b : Nat) : List Prog :=
  s.med.progs.filter fun p => match p.ppn with | some q => blockOfPpn q == b | none => false

/-- At a clean shutdown every OPEN block is closed (R76), but those of `keep`; the streams have none. -/
def closeOpen (keep : List Nat) (s : State) : State :=
  onMed (fun m => { m with streams := [] })
    (each (s.med.blocks.filter fun p => p.2.st == .opened && !decide (p.1 ∈ keep)) (fun p s =>
      onMed (fun m => { m with order := m.order + 1 }) (onBlk p.1 (fun y => { y with st := .full, order := s.med.order }) s)) s)

/-- A block whose last page has been taken closes when its last program has ended (R76). -/
def closeBlock (b : Nat) (s : State) : State :=
  let x := blk s b
  if x.st = .opened ∧ (if x.multi then 2048 else 682) ≤ x.next ∧ (blockProgs s b).isEmpty then
    onMed (fun m => { m with order := m.order + 1 }) (onBlk b (fun y => { y with st := .full, order := s.med.order }) s)
  else s

/-! ## Media reads (R45, R46, R557, R569) -/

/-- Media operations in flight: reads, programs and resets, at most 8,192 (R24). -/
def mediaOps (s : State) : Nat := s.med.reads.length + s.med.progs.length + s.med.resets.length

/-- A media operation may start (R24): the last 64 of the 8,192 are kept for the pages of the journal buffer (DESIGN CHOICE, log 124). -/
def mediaRoom (s : State) : Bool := decide (mediaOps s < 8128)

/-- A read by its identifier. -/
def readById (s : State) (i : Nat) : Option MRead := s.med.reads.find? fun r => r.id == i

/-- Step of R46 at which a read that is no retry is assigned. -/
def readStep (r : MRead) : Nat :=
  if r.cls ≤ 1 then (if r.inBudget then 2 else 3) else if r.warn then 3 else if r.cls = 3 then 4 else 5

/-- A read's place in the order of R46 among reads that are no retries; `level` is that of a background read. -/
def readKey (level : Nat) (r : MRead) : List Nat := [readStep r, if r.cls = 3 ∧ r.warn = false then 3 - level else r.cls, r.queued, r.ord]

/-- Reads assigned to a bank's program window in the present course. -/
def windowReads (s : State) (bank : Nat) : List MRead :=
  s.med.reads.filter fun r => r.assigned == some s.tck.course && !r.inRead && bankOfPpn r.ppn == bank

/-- A piece runs in the bank in the present course. -/
def pieceIn (s : State) (bank : Nat) : Bool :=
  (s.med.progs.any fun p => p.bank == bank && p.running) || s.med.resets.any fun x => bankOfBlock x.block == bank && x.running

/-- The piece planned in a bank's program window is displaced (R46). One that would have begun a block leaves it without a cohort (R117). -/
def displacePiece (bank : Nat) (s : State) : State :=
  if !pieceIn s bank then s else
  let s := each (s.med.progs.filter fun p => p.bank == bank && p.running && p.done == 0 && !p.half && p.groups != 1) (fun p s =>
    match p.ppn with
    | some q => if pageInBlock q = 0 then leaveCohort (blockOfPpn q) s else s
    | none => s) s
  count 1 0x14 1 (onMed (fun m => { m with
    progs := m.progs.map fun p => if p.bank = bank ∧ p.running then
      { p with running := false, first := if p.done = 0 ∧ p.half = false then none else p.first } else p
    resets := m.resets.map fun x => if bankOfBlock x.block = bank then { x with running := false } else x }) s)

/-- A read takes its window in the present course, with the senses of its attempt. -/
def putRead (i : Nat) (inRead : Bool) (s : State) : State := onMed (fun m => { m with
  reads := m.reads.map fun x => if x.id = i then { x with assigned := some s.tck.course, inRead, senses := nextSenses s x } else x }) s

/-- A late read takes its place in the course that has begun (R557): its bank's read window when that is free and a sense still fits
before 0.25 T, which the time within the course decides (a free value: DESIGN CHOICE, log 125); else the program window, within its P
senses. It displaces the piece there when it is in budget, as under R46, and reads that come after it in the order. A read that finds
no room stays queued. -/
def placeLate (i : Nat) (s : State) : State :=
  match s.med.reads.find? fun r => r.id == i with
  | none => s
  | some r =>
    let b := bankOfPpn r.ppn
    let taken := s.med.reads.any fun x => x.assigned == some s.tck.course && x.inRead && bankOfPpn x.ppn == b
    let (v, s) := if taken then (1, s) else free s
    if v % 2 = 0 then putRead i true s
    else if pieceIn s b && !r.inBudget then s
    else
      let s := displacePiece b s
      let l := windowReads s b
      if (l.map fun x => x.senses.length).sum < windowSenses s then putRead i false s
      else
        match bestOf (fun x y => keyLt (readKey y.level y) (readKey x.level x))
            (l.filter fun x => x.retry == 0 && keyLt (readKey r.level r) (readKey x.level x)) with
        | some x => putRead i false (onMed (fun m => { m with
            reads := m.reads.map fun y => if y.id = x.id then { y with assigned := none, senses := [] } else y }) s)
        | none => s

/-- Queue a media read. A class A or B read that arrived in the previous course, while program windows are not fixed, is
treated as queued in it, and is assigned at once (R557). -/
def queueRead (why : RdWhy) (ppn cls level arrived : Nat) (s : State) : State :=
  let ch := channelOfPpn ppn
  let late := decide (cls ≤ 1) && !s.tck.fixed && decide (arrived + 1 = s.tck.course)
  let n := if late then tget 0 s.med.abPrev ch else tget 0 s.med.abNow ch
  let r : MRead :=
    { id := s.med.nextId, why, ppn, cls, level, arrived, queued := if late then arrived else s.tck.course
      inBudget := decide (cls ≤ 1) && decide (n < readBudget s), rank := n, ord := s.med.nextId, retry := 0
      assigned := none, inRead := false }
  let s := onMed (fun m => { m with
    reads := m.reads ++ [r]
    nextId := m.nextId + 1
    abNow := if cls ≤ 1 ∧ late = false then tmod 0 m.abNow ch (· + 1) else m.abNow
    abPrev := if late then tmod 0 m.abPrev ch (· + 1) else m.abPrev
    bankNow := if late then m.bankNow else tmod 0 m.bankNow (bankOfPpn ppn) (· + 1)
    bankPrev := if late then tmod 0 m.bankPrev (bankOfPpn ppn) (· + 1) else m.bankPrev }) s
  let s := if cls ≤ 1 then count 1 (if r.inBudget then 0x11 else 0x12) 1 s else s
  if late then placeLate r.id s else s

/-- A read that waits is promoted to class A or B (R153, R569). Not yet assigned, it moves to its new place in the order of R46 and counts in
the budget of the course in which the promoting read arrived, the present one or the one before (an earlier one's is past: DESIGN CHOICE,
log 160); assigned, only its class changes. A read of the background that class C work wants too keeps its place at step 4 (DESIGN CHOICE,
log 161). -/
def promoteRead (i cls arrived : Nat) (s : State) : State :=
  match s.med.reads.find? fun r => r.id == i with
  | none => s
  | some r =>
    if r.cls ≤ cls ∨ 1 < cls then s
    else if r.assigned.isSome ∨ 0 < r.retry then onMed (fun m => { m with
      reads := m.reads.map fun x => if x.id = i then { x with cls, arrived } else x }) s
    else
      let ch := channelOfPpn r.ppn
      let prev := decide (arrived + 1 = s.tck.course)
      let late := prev && !s.tck.fixed
      let n := if prev then tget 0 s.med.abPrev ch else tget 0 s.med.abNow ch
      let fresh := decide (1 < r.cls)
      let x : MRead := { r with
        cls
        arrived
        queued := if prev then arrived else if fresh then s.tck.course else r.queued
        inBudget := if fresh then decide (n < readBudget s) else r.inBudget
        rank := if fresh then n else r.rank
        ord := s.med.nextId }
      let s := onMed (fun m => { m with
        reads := m.reads.map fun y => if y.id = i then x else y
        nextId := m.nextId + 1
        abNow := if fresh ∧ prev = false then tmod 0 m.abNow ch (· + 1) else m.abNow
        abPrev := if fresh ∧ prev then tmod 0 m.abPrev ch (· + 1) else m.abPrev }) s
      let s := if fresh then count 1 (if x.inBudget then 0x11 else 0x12) 1 s else s
      if late then placeLate i s else s

/-- The read of a fill of an accumulate takes the place of step 3 of R46 from the power-fail warning on (R259). -/
def warnRead (why : RdWhy) : State → State := onMed fun m =>
  { m with reads := m.reads.map fun r => if r.why = why then { r with warn := true } else r }

/-- A map page comes into the map page cache; one whose entries changed meanwhile is dirty (R82). -/
def loadMap (m : Nat) (pinned : Bool) : State → State := onMed fun x =>
  { x with
    slots := tset none x.slots m (some { pinned, dirty := decide (m ∈ x.late), used := x.lru + 1 })
    late := x.late.filter (· != m)
    lru := x.lru + 1 }

/-- Map page reads under way, each of which has a slot kept for it. -/
def mapReads (s : State) : Nat := (s.med.reads.filter fun r => match r.why with | .mapPage _ => true | _ => false).length

/-- Room for one more map page: the least recently used unpinned page is dropped; a dirty one is written out first (R82). -/
def roomForMap (s : State) : Bool × State :=
  if s.med.slots.length + mapReads s < mapSlots s then (true, s) else
  let l := s.med.slots.filterMap fun p => match p.2 with
    | some t => if t.pinned then none else some (p.1, t)
    | none => none
  match bestOf (fun a b => decide (a.2.used < b.2.used)) l with
  | none => (false, s)
  | some (m, t) =>
    if t.dirty then
      if mapPageProgWaits s m || !mediaRoom s then (false, s) else
      (false, onMed (fun x => { x with
        nextId := x.nextId + 1
        progs := x.progs ++ [{ id := x.nextId, kind := .mapPage m, bank := placedBank s m, groups := 8
                               page := mkPage 1 m x.wseq false false 0 }] }) s)
    else (true, onMed (fun x => { x with slots := tset none x.slots m none }) s)

/-- Make the map page resident: at once when it has no physical copy, else by a read of the class given; a read that already waits for it
serves, in the higher of the two classes (R45, R153, R569). -/
def needMap (m cls level arrived : Nat) (s : State) : State :=
  if mapResident s m then s else
  let e := dirOf s m
  match s.med.reads.find? fun r => r.why == .mapPage m with
  | some r => promoteRead r.id cls arrived s
  | none => match roomForMap s with
    | (false, s) => s
    | (true, s) =>
      if !e.valid then loadMap m false s else if mediaRoom s then queueRead (.mapPage m) e.ppn cls level arrived s else s

/-! ## The write path (R84 to R88) -/

/-- Mean RESET_COUNT of a bank, compared through its sum: banks have equally many blocks. -/
def bankResets (s : State) (k : Nat) : Nat := ((bankBlocks s k).map fun p => p.2.resets).sum

/-- Programs of every kind, and staged pages, queued for a bank. -/
def queuedPrograms (s : State) (k : Nat) : Nat :=
  (s.med.staging.filter fun g => g.bank == k).length + (s.med.progs.filter fun p => p.bank == k &&
    (match p.kind with | .write _ => false | _ => true)).length

/-- The bank that receives a write-path page (R84 step 4). -/
def bankForWrite (s : State) (u : Nat) : Nat :=
  if classOf s u ≤ 1 then placedBank s u else
  let all := candidateBanks s
  let ok := all.filter fun b => !decide (b ∈ s.med.worn) && !decide (b ∈ s.med.readOnly)
  let mid := all.filter fun b => !decide (b ∈ s.med.readOnly)
  let l := if ok.isEmpty then (if mid.isEmpty then all else mid) else ok
  let rich := l.filter fun b => decide (2 * floorF s < freeCount s b)
  let pick := if rich.isEmpty then bestOf (fun a b => keyLt [freeCount s b, bankResets s a, a] [freeCount s a, bankResets s b, b]) l
    else bestOf (fun a b => keyLt [queuedPrograms s a, bankResets s a, a] [queuedPrograms s b, bankResets s b, b]) rich
  pick.getD (placedBank s u)

/-- Staging slots of a channel that relocation copies take, each from the sense of its source page until its program has verified (R85). -/
def copySlots (s : State) (ch : Nat) : Nat :=
  (s.med.relocs.filter fun r => r.busy.isSome && channelOfBank (bankOfBlock r.src) == ch).length

/-- The write staging of a channel has a slot for the write path: 128 slots less 32 for relocation copies (R85). -/
def stagingRoom (s : State) (ch : Nat) : Bool :=
  let n := (s.med.staging.filter fun g => channelOfBank g.bank == ch).length
  decide (n < 96) && decide (n + copySlots s ch < 128)

/-- A staging slot is free for a relocation copy: the write path leaves 32 of the 128 (R85). -/
def copyRoom (s : State) (ch : Nat) : Bool :=
  decide ((s.med.staging.filter fun g => channelOfBank g.bank == ch).length + copySlots s ch < 128)

/-- An earlier write-back of the user page has not made its map change (R86). -/
def writePending (s : State) (u : Nat) : Bool :=
  (s.med.staging.any fun g => g.upage == u) || s.med.pend.any fun p => p.upage == u

/-- A zero or poisoned line is written back (R84 steps 1 and 2): MAP_SET enters; the entry changes at once, or after the
earlier program of the page (R86). -/
def writeFlag (u : Nat) (e : MapEnt) (wb : Bool) (s : State) : State :=
  let s := onMed (fun m => { m with wseq := m.wseq + 1 }) s
  let s := enter (.mapSet u e s.med.wseq wb) false s
  if writePending s u then onMed (fun m => { m with pend := m.pend ++ [{ upage := u, ent := e, seq := m.wseq }] }) s
  else setMap u e s

/-- A line's data enters the write staging (R84 step 3). -/
def stageWrite (u bank : Nat) (d : LineData) : State → State := onMed fun m =>
  { m with wseq := m.wseq + 1, staging := m.staging ++ [{ upage := u, bank, data := d, seq := m.wseq + 1 }] }

/-- A staged page whose program was abandoned is placed afresh (R41, R84 step 4), once the staging of its new channel has a slot (R85). -/
def placeAfresh (g : Stage) (s : State) : State :=
  if !g.afresh then s else
  let b := bankForWrite s g.upage
  if channelOfBank b != channelOfBank g.bank && !stagingRoom s (channelOfBank b) then s else
  onMed (fun m => { m with
    staging := m.staging.map fun x => if x.seq = g.seq then { x with bank := b, afresh := false } else x
    progs := m.progs.map fun p => if some p.id = g.prog then { p with bank := b } else p }) s

/-- A staged page gets its program when its map page is resident and no earlier write of the page waits (R84, R86). -/
def stageProgram (g : Stage) (s : State) : State :=
  let first := (s.med.staging.find? fun x => x.upage == g.upage) == some g
  if g.prog.isSome || !first || (s.med.pend.any fun p => p.upage == g.upage && decide (p.seq < g.seq)) then s else
  let s := needMap (mapPageOf g.upage) 2 0 s.tck.course s
  if !mapResident s (mapPageOf g.upage) || !mediaRoom s then s else
  onMed (fun m => { m with
    nextId := m.nextId + 1
    staging := m.staging.map fun x => if x.seq = g.seq then { x with prog := some m.nextId } else x
    progs := m.progs ++ [{ id := m.nextId, kind := .write g.upage, bank := g.bank, groups := 8
                           page := sealedPage s 0 g.upage g.seq false false g.data }] }) s

/-- Pending zero and poisoned write-backs of a page take effect once no earlier write of it waits (R86). -/
def settlePend (u : Nat) (s : State) : State :=
  match s.med.pend.find? fun p => p.upage == u with
  | none => s
  | some p =>
    if (s.med.staging.any fun g => g.upage == u && decide (g.seq < p.seq)) then s
    else setMap u p.ent (onMed (fun m => { m with pend := m.pend.filter fun q => q.seq != p.seq }) s)

/-- The latest write-back of a page that has left the cache and not reached the map (R151 item 1): its sequence and its
data, zeros or poison. -/
def pendingData (s : State) (u : Nat) : Option (Option LineData) :=
  let a := (s.med.staging.filter fun g => g.upage == u).map fun g => (g.seq, some g.data)
  let b := (s.med.pend.filter fun p => p.upage == u).map fun p => (p.seq, if p.ent.poison then none else some 0)
  (bestOf (fun x y => decide (y.1 < x.1)) (a ++ b)).map (·.2)

/-! ## Retirement (R108 to R111) -/

/-- A bank becomes worn or read-only, for good (R111; that the medium keeps it from this moment on is DEDUCED, log 162). -/
def checkWorn (k : Nat) (s : State) : State :=
  let op := overProvision s k
  let s := if op < 512 ∧ k ∉ s.med.worn then
    event 0x0206 (mediaUnit (channelOfBank k)) (bankIndex s k)
      (onMedium (fun m => { m with worn := addNew k m.worn }) (onMed (fun m => { m with worn := k :: m.worn }) s)) else s
  if op < 2 * floorF s ∧ k ∉ s.med.readOnly then
    trap 2 (onMedium (fun m => { m with readOnly := addNew k m.readOnly }) (onMed (fun m => { m with readOnly := k :: m.readOnly }) s)) else s

/-- A block is retired with its cause (R92 STATE); a SPARE block of the bank becomes FREE, else the over-provision falls
(R110). SPARES_EXHAUSTED comes with the first retirement that finds no spare (DESIGN CHOICE, log 126). It keeps its cohort, which only a
reset ends (R117). -/
def retire (b cause : Nat) (s : State) : State :=
  let k := bankOfBlock b
  let s := enter (.state .retired cause b) false s
  let s := onBlk b (fun x => { x with st := .retired, repointQ := false, rewriteQ := none }) s
  let s := onMed (fun m => { m with cntRetired := sat 64 m.cntRetired 1 }) s
  let s := event 0x0204 (mediaUnit (channelOfBank k)) (b + cause * 2 ^ 32) s
  let own := ((bankBlocks s k).filter fun p => p.2.st == .spare).map (·.1)
  let rest := (upto 300).map fun i => k * 8192 + 7892 + i
  let spare := match rest.find? fun x => (blk s x).st == .spare with
    | some x => some x
    | none => own.head?
  match spare with
  | some x => onBlk x (fun y => { y with st := .free }) (enter (.state .free 5 x) false s)
  | none =>
    let s := if k ∈ s.med.noSpare then s else
      event 0x0205 (mediaUnit (channelOfBank k)) (bankIndex s k) (onMed (fun m => { m with noSpare := k :: m.noSpare }) s)
    let s := if (memErr s 7).spTrap then s else trap 3 (onMemErr 7 (fun m => { m with spTrap := true }) s)
    checkWorn k s

/-- An OPEN, FULL or VICTIM block fails (R76, R88, R108): STATE is entered; the cause is kept for its retirement. Streams stop using it. -/
def failBlock (b cause : Nat) (s : State) : State :=
  let x := blk s b
  if x.st ≠ .opened ∧ x.st ≠ .full ∧ x.st ≠ .victim then s else
  let s := enter (.state .failed cause b) false s
  let s := onBlk b (fun y => { y with st := .failed, doom := cause, repointQ := false, rewriteQ := none, order := s.med.order }) s
  let s := onMed (fun m => { m with order := m.order + 1 }) s
  let k := bankOfBlock b
  let s := each (upto 6) (fun j s => if (stream s k j).cur = some b then onStream k j (fun t => { cur := t.nxt, nxt := none }) s else s) s
  each (upto 6) (fun j s => if (stream s k j).nxt = some b then onStream k j (fun t => { t with nxt := none }) s else s) s

/-- A read holds an address in the block (R89). -/
def readHolds (s : State) (b : Nat) : Bool := s.med.reads.any fun r => blockOfPpn r.ppn == b

/-- A FAILED block that holds nothing more is retired (R76). -/
def retireEmpty (s : State) : State :=
  each s.med.blocks (fun (b, x) s =>
    if x.st = .failed ∧ x.valid = 0 ∧ readHolds s b = false ∧ (blockProgs s b).isEmpty ∧ (s.med.relocs.all fun r => r.src != b) then
      retire b x.doom s
    else s) s

/-- A block's count of heavy reads (R106): at HEAVY_COUNT it is queued for rewrite, and at the rewrite limit its
relocation ends in retirement (R107). -/
def heavyRead (b : Nat) (s : State) : State :=
  let x := blk s b
  if x.st = .opened ∨ x.st = .full then
    let n := min 15 (x.heavy + 1)
    let lim := expertIn s 0x0200018 / 256 % 16
    let s := count (mediaUnit (channelOfBank (bankOfBlock b))) 0x15 1 (onBlk b (fun y => { y with heavy := n }) s)
    if lim ≤ n ∧ x.rewriteQ = none ∧ x.multi then
      onMed (fun m => { m with order := m.order + 1 })
        (onBlk b (fun y => { y with rewriteQ := some s.med.order, doom := if y.rewrites = 3 then 4 else y.doom }) s)
    else s
  else s

/-- A block drifts ahead (R136): it is queued for rewrite at once. -/
def driftAhead (b : Nat) (s : State) : State :=
  let x := blk s b
  let s := onDrf (fun d => { d with cntAhead := sat 64 d.cntAhead 1 }) s
  let s := event 0x0302 (mediaUnit (channelOfBank (bankOfBlock b))) b s
  if x.rewriteQ = none ∧ (x.st = .opened ∨ x.st = .full) then
    onMed (fun m => { m with order := m.order + 1 })
      (onBlk b (fun y => { y with rewriteQ := some s.med.order, doom := if y.rewrites = 3 then 4 else y.doom }) s)
  else s

/-! ## Checkpoints (R93) -/

/-- Map pages of the cache that have changed. -/
def dirtyMaps (s : State) : List Nat :=
  s.med.slots.filterMap fun p => match p.2 with
    | some t => if t.dirty then some p.1 else none
    | none => none

/-- The program of a map page. -/
def mapPageProg (m : Nat) (s : State) : State :=
  if mapPageProgWaits s m || !mediaRoom s then s else
  onMed (fun x => { x with
    nextId := x.nextId + 1
    progs := x.progs ++ [{ id := x.nextId, kind := .mapPage m, bank := placedBank s m, groups := 8
                           page := mkPage 1 m x.wseq false false 0 }] }) s

/-- Page `n` of those a checkpoint writes, as it stands now (R93): 128 pages to each 64 KiB segment of the directory (5 B entries) or of the
block table (6 B records). The additional segment of R120 comes last; no rule lays it out: a page for each package, with Θ in its first
8 bytes (DESIGN CHOICE, log 129). -/
def segmentBytes (s : State) (n : Nat) : LineData :=
  match s.med.ckpt with
  | none => 0
  | some c => match nth c.list (n / 128) with
    | some k =>
      if k < 1000000 then tableBytes 5 (65536 * k + 512 * (n % 128)) fun i => (dirOf s i).word
      else tableBytes 6 (65536 * (k - 1000000) + 512 * (n % 128)) fun i => (blk s i).word
    | none => BitVec.ofNat 4096 (pkg s (n % 128)).theta

/-- A segment page program of the checkpoint ring. -/
def segmentProg (n gen : Nat) (s : State) : State :=
  onMed (fun x => { x with
    nextId := x.nextId + 1
    progs := x.progs ++ [{ id := x.nextId, kind := .segment n, bank := (freestBank s).getD 0, groups := 1
                           page := mkPage 3 0 gen false false 0 }] }) s

/-- Segments of the directory and of the block table: 64 KiB each (R93). -/
def allSegments (s : State) : List Nat :=
  upto (((userPages s + 95) / 96 * 5 + 65535) / 65536) ++
    ((upto (32 * 128 * 8192 * 6 / 65536)).filter fun n => isBig s || decide (n * 65536 / 6 / 8192 % 128 < 64)).map (1000000 + ·)

/-- Segments that have not been rewritten for 30 equivalent days, by the clock of the package that holds them (R124). -/
def agedSegments (s : State) : List Nat :=
  let month := 30 * 86400 * eqSec
  if (s.drf.pkgs.any fun p => decide (month ≤ p.2.theta)) then
    (allSegments s).filter fun n =>
      let (p, t) := tget (0, 0) s.med.segAt n
      decide (month ≤ (pkg s p).theta - t)
  else []

/-- A checkpoint starts: every dirty map page, pinned or not, is to be written (R93 step 1). -/
def startCkpt (why : Nat) (s : State) : State :=
  if s.med.ckpt.isSome then s else
  let maps := dirtyMaps s ++ s.med.late
  let gen := s.med.ckptGen + 1
  let begun := fun (m : Nat) => s.med.progs.any fun p => p.kind == .mapPage m && p.first.isSome
  onMed (fun m => { m with ckpt := some { gen, maps, why, twice := maps.filter begun }, ckptGen := gen }) s

/-- Step 2 of R93 once the map pages have verified: 128 pages for each segment that has changed by then or is 30 equivalent days old
(R124), and for the package clocks (R120). -/
def ckptSegments (c : CkptRun) (s : State) : State :=
  let list := s.med.chSegs ++ (agedSegments s).filter fun n => !decide (n ∈ s.med.chSegs)
  let n := 128 * (list.length + 1)
  onMed (fun m => { m with ckpt := some { c with segs := some n, unmade := n, list }, chSegs := [] }) s

/-- Segment pages get their programs while media operations may start (R24). -/
def ckptPrograms (c : CkptRun) (s : State) : State :=
  let n := min c.unmade (8128 - mediaOps s)
  each (upto n) (fun i => segmentProg (c.unmade - 1 - i) c.gen)
    (onMed (fun m => { m with ckpt := some { c with unmade := c.unmade - n } }) s)

/-- A checkpoint goes on: programs for its map pages as they come into the map page cache, then the segments, and when every page has
verified CHECKPOINT_MARK, on a page due at once. -/
def ckptAdvance (s : State) : State :=
  match s.med.ckpt with
  | none => s
  | some c =>
    if !c.maps.isEmpty then each (c.maps.filter (mapResident s)) mapPageProg s
    else match c.segs with
      | none => ckptSegments c s
      | some 0 =>
        if c.mark.isSome || !journalRoom s then s else
        let s := enter (.mark c.gen s.med.wseq) true s
        onMed (fun m => { m with ckpt := some { c with mark := some (m.jseq - 1) } }) s
      | some _ => if c.unmade = 0 then s else ckptPrograms c s

end Sys2Proof.Machine
end

