-- ==== Sys2Proof/Machine/Reloc.lean ====
section
/-!
DEFINITION. Relocation (R94 to R100), wear levelling (R102 to R104), the effects of a durable journal page, and the
end of page programs and block resets (R84, R88, R90, R96, R108).
-/

namespace Sys2Proof.Machine
open Sys2Proof

def onReloc (i : Nat) (f : Reloc → Reloc) : State → State := onMed fun m =>
  { m with relocs := m.relocs.map fun r => if r.id = i then f r else r }

def dropReloc (i : Nat) : State → State := onMed fun m => { m with relocs := m.relocs.filter fun r => r.id != i }

/-- A programmed page of the medium. -/
def mediumPage (s : State) (ppn : Nat) : Option MPage := tget none s.medium.pages ppn

/-- The activity of an owner of pieces, for R53: 0 repointing, 1 reclaim, 2 wear levelling. -/
def actOfReloc (a : Nat) : Nat := if a = 1 then 0 else if a = 2 then 2 else 1

/-- `Prog.owner` of an activity of R92. -/
def ownerOfReloc (a : Nat) : Nat := if a = 1 then 1 else if a = 2 then 3 else 2

/-- The level of an owner's activity in a bank; owner 5 is patrol. -/
def ownerLevel (s : State) (owner bank : Nat) : Nat :=
  if owner = 1 then levelOf s 0 bank else if owner = 2 then levelOf s 1 bank else if owner = 3 then levelOf s 2 0
  else if owner = 5 then levelOf s 3 (channelOfBank bank) else 0

/-! ## The choice of a source (R95, R104, R130) -/

/-- The block holds a relocation copy that no durable RELOC_COMMIT covers (R76). -/
def uncovered (s : State) (b : Nat) : Bool :=
  (s.med.relocs.any fun r => (r.copied.any fun c => blockOfPpn c.tgt == b)
    || r.commits.any fun c => c.2.2.any fun x => blockOfPpn x.tgt == b)
  || (blockProgs s b).any fun p => match p.kind with | .copy _ _ => true | _ => false

/-- No other activity has chosen the block. -/
def choosable (s : State) (b : Nat) : Bool := (s.med.relocs.all fun r => r.src != b) && !uncovered s b

/-- A FAILED block with valid pages, or a block queued for rewrite, waits in the bank (R565). -/
def reclaimWaits (s : State) (k : Nat) : Bool :=
  (bankBlocks s k).any fun p => (p.2.st == .failed && p.2.valid != 0) || p.2.rewriteQ.isSome

/-- Reclaim's next source in a bank and its activity of R92 (R95). -/
def reclaimSource (s : State) (k : Nat) : Option (Nat × Nat) :=
  let l := (bankBlocks s k).filter fun p => p.2.multi && choosable s p.1
  let failed := (bankBlocks s k).filter fun p => p.2.st == .failed && p.2.valid != 0 && (s.med.relocs.all fun r => r.src != p.1)
  let rew := l.filter fun p => p.2.rewriteQ.isSome && (p.2.st == .opened || p.2.st == .full)
  let full := l.filter fun p => p.2.st == .full
  match bestOf (fun a b => decide (a.2.order < b.2.order)) failed with
  | some p => some (p.1, 3)
  | none => match bestOf (fun a b => decide (a.2.rewriteQ.getD 0 < b.2.rewriteQ.getD 0)) rew with
    | some p => some (p.1, 3)
    | none => (bestOf (fun a b => keyLt [a.2.valid, a.2.order] [b.2.valid, b.2.order]) full).map fun p => (p.1, 0)

/-- The reset-count spread of a bank (R102). -/
def bankSpread (s : State) (k : Nat) : Nat :=
  let l := ((bankBlocks s k).filter fun p => decide (p.2.role ≤ 1) &&
    (p.2.st == .free || p.2.st == .opened || p.2.st == .full || p.2.st == .victim)).map fun p => p.2.resets
  let l := if (pristineFrom s k 8192 0).isSome then 0 :: l else l
  l.foldl max 0 - l.foldl min (l.headD 0)

/-- Banks with blocks of their own, in rising order of first appearance. -/
def ownBanks (s : State) : List Nat := (s.med.blocks.map fun p => bankOfBlock p.1).eraseDups

/-- The module's spread s (R102). -/
def moduleSpread (s : State) : Nat := (ownBanks s).foldl (fun m k => max m (bankSpread s k)) 0

/-- The block that wear levelling moves in a bank: the FULL block with the smallest RESET_COUNT (R104). One queued for rewrite is left to the
rewrite (DEDUCED, log 159). -/
def wearSource (s : State) (k : Nat) : Option Nat :=
  (bestOf (fun a b => keyLt [a.2.resets, a.1] [b.2.resets, b.1])
    ((bankBlocks s k).filter fun p => p.2.st == .full && p.2.multi && p.2.rewriteQ.isNone && choosable s p.1)).map (·.1)

/-! ## The procedure of R96 -/

/-- The source enters VICTIM: RELOC_BEGIN is entered; a stream that was filling it goes on in its next block. -/
def beginReloc (r : Reloc) (s : State) : State :=
  let x := blk s r.src
  let k := bankOfBlock r.src
  if !journalRoom s then s else
  let go (s : State) : State :=
    let s := enter (.relocBegin r.act r.src) false s
    let s := if x.st = .failed then s else
      onBlk r.src (fun y => { y with st := .victim, repointQ := false, rewriteQ := none }) s
    onReloc r.id (fun r => { r with begun := true }) s
  if x.st = .opened then
    match (upto 4).find? fun j => (stream s k j).cur == some r.src || (stream s k j).nxt == some r.src with
    | none => go s
    | some j =>
      let s := ensureNext k j s
      match (stream s k j).nxt with
      | some n => if openingYet s n || n == r.src then s else go (onStream k j (fun t => { cur := t.nxt, nxt := none }) s)
      | none => s
  else go s

/-- Start a relocation of a block by an activity of R92. -/
def startReloc (b act : Nat) (s : State) : State :=
  let r : Reloc := { id := s.med.nextId, src := b, act }
  beginReloc r (onMed (fun m => { m with nextId := m.nextId + 1, relocs := m.relocs ++ [r] }) s)

/-- What names page `i` of the source: KIND, page number and COLD of the entry that names it (R98, R99). A page that is
copied again is also taken when its entry names the failed target's copy. -/
def namedBy (s : State) (r : Reloc) (i : Nat) : Option (Nat × Nat × Bool) :=
  let ppn := r.src * 2048 + i
  match mediumPage s ppn with
  | none => none
  | some p =>
    let e := if p.kind = 0 then mapEnt s p.pageId else if p.kind = 1 then dirOf s p.pageId else {}
    let old := decide (i ∈ r.again) && r.made.any fun c => c.page == i && c.tgt == e.ppn
    if e.valid && (e.ppn == ppn || old) then some (p.kind, p.pageId, e.cold) else none

/-- Source pages of which a copy stands that needs no second one (R99). -/
def copiedPages (r : Reloc) : List Nat :=
  ((r.made ++ r.copied ++ r.commits.flatMap fun c => c.2.2).map (·.page)).filter fun i => !decide (i ∈ r.again)

/-- The next page of the source, from `i` and for `n` pages, that is still to be copied. -/
def nextPage (s : State) (r : Reloc) : Nat → Nat → Option Nat
  | 0, _ => none
  | n + 1, i => if (namedBy s r i).isSome && !decide (i ∈ copiedPages r) then some i else nextPage s r n (i + 1)

/-- A window's programs begun in the source have ended. -/
def windowQuiet (s : State) (r : Reloc) : Bool :=
  (blockProgs s r.src).all fun p => p.first.isNone || match p.ppn with
    | some q => decide (pageInBlock q / 64 ≠ r.win)
    | none => true

/-- Copies cut into runs of consecutive pages of one target, all first copies or all second copies: a RELOC_COMMIT covers one run. A run
ends where the target was full, failed, or left an abandoned page behind (R41, R97, R99). -/
def copyRuns (l : List Copied) : List (List Copied) :=
  l.foldr (fun c rs => match rs with
    | (d :: run) :: rest =>
      if d.tgt = c.tgt + 1 ∧ blockOfPpn d.tgt = blockOfPpn c.tgt ∧ d.redo = c.redo then (c :: d :: run) :: rest else [c] :: (d :: run) :: rest
    | _ => [[c]]) []

/-- Enter the RELOC_COMMIT record of a run. -/
def commitRun (r : Reloc) (urgent : Bool) (l : List Copied) (s : State) : State :=
  match l with
  | [] => s
  | c :: _ =>
    let bm := l.foldl (fun m c => m ||| ((1 : BitVec 64) <<< (c.page % 64))) (0 : BitVec 64)
    let s := enter (.relocCommit c.redo r.win (pageInBlock c.tgt) r.src (blockOfPpn c.tgt) bm) urgent s
    onReloc r.id (fun q => { q with commits := q.commits ++ [(lastJseq s, c.redo, l)] }) s

/-- Enter the RELOC_COMMIT records of copies of the present window; the last of a relocation makes its page due (R90). -/
def commitCopied (r : Reloc) (l : List Copied) (last : Bool) (s : State) : State :=
  let runs := copyRuns (sortBy (fun c => [c.tgt]) l)
  let s := each runs.dropLast (commitRun r false) s
  let s := match runs.getLast? with
    | some run => commitRun r last run s
    | none => s
  onReloc r.id (fun q => { q with copied := q.copied.filter fun c => !decide (c ∈ l) }) s

/-- A window is committed, and the relocation goes on to the next (R97). -/
def commitWindow (r : Reloc) (last : Bool) (s : State) : State :=
  onReloc r.id (fun q => { q with win := q.win + 1, page := 64 * (q.win + 1) }) (commitCopied r r.copied last s)

/-- RESET_COUNT and single-level tally that a reset of a block gives it (R109). -/
def resetCounts (x : Blk) : Nat × Nat :=
  if x.multi then (min (2 ^ 24 - 1) (x.resets + 1), x.tally)
  else if (x.tally + 1) % 5 = 0 then (x.resets + 1, 0) else (x.resets, x.tally + 1)

/-- The PENDING_RESET record of a block. -/
def pendingRec (b : Nat) (x : Blk) : JRec := .pendingReset b (resetCounts x).1 (resetCounts x).2

/-- PENDING_RESET of a block is durable: it takes the state, and the counts of the record (R100, DEDUCED, log 127). -/
def toPending (b : Nat) : State → State :=
  onBlk b fun y => { y with st := .pendingReset, resets := (resetCounts y).1, tally := (resetCounts y).2, repointQ := false, rewriteQ := none }

/-- A relocation advances: the next page is read, a finished window is committed, a finished source is passed on to its
reset or its retirement (R96). -/
def relocStep (r : Reloc) (s : State) : State :=
  if !r.begun then beginReloc r s
  else if r.win < 32 then
    if r.busy.isSome || !windowQuiet s r || !journalRoom s then s else
    match nextPage s r (64 * (r.win + 1) - r.page) r.page with
    | some i =>
      if !copyRoom s (channelOfBank (bankOfBlock r.src)) || !mediaRoom s then s else
      let lev := max 1 (levelOf s (actOfReloc r.act) (if r.act = 2 then 0 else bankOfBlock r.src))
      queueRead (.reloc r.id i) (r.src * 2048 + i) 3 lev s.tck.course (onReloc r.id (fun q => { q with busy := some i, page := i }) s)
    | none =>
      -- commits move map entries: their map pages are made resident first (R569)
      let maps := (r.copied.filterMap fun c => match mediumPage s c.tgt with
        | some p => if p.kind = 0 then some (mapPageOf p.pageId) else none
        | none => none).eraseDups
      let s := each maps (fun m => needMap m 2 0 s.tck.course) s
      if maps.all (mapResident s) then
        let last := (nextPage s r (2048 - 64 * (r.win + 1)) (64 * (r.win + 1))).isNone && (blockProgs s r.src).all (·.first.isNone)
        let s := commitWindow r last s
        if last then onReloc r.id (fun q => { q with win := 32 }) s else s
      else s
  else if !r.commits.isEmpty then
    -- the last commits are made durable at once (R90)
    if (s.med.jbuf.any fun p => (r.commits.any fun c => c.1 == p.jseq) && !p.due) then
      onMed (fun m => { m with
        jbuf := m.jbuf.map fun p => if r.commits.any (fun c => c.1 == p.jseq) then { p with due := true } else p }) s
    else s
  else
    let x := blk s r.src
    let fin := fun (s : State) => dropReloc r.id (if r.act = 1 then onDrf (fun d => { d with cntRepoint := sat 64 d.cntRepoint 1 }) s else s)
    if x.st = .failed then fin s
    else if x.doom = 4 ∧ r.act = 3 then (if readHolds s r.src then s else retire r.src 4 (fin s))
    else match r.pendSeq with
      | none =>
        if !journalRoom s || !mediaRoom s then s else
        let s := enter (pendingRec r.src x) true s
        onReloc r.id (fun q => { q with pendSeq := some (lastJseq s) }) s
      | some j =>
        if s.med.jbuf.any (fun p => p.jseq == j) || !mediaRoom s then s
        else onMed (fun m => { m with
            resets := m.resets ++ [{ block := r.src, owner := ownerOfReloc r.act, rewrite := r.act == 3 }] }) (toPending r.src (fin s))

/-- A correctable source page has been read: its copy is to be programmed (R96). -/
def copyRead (i page : Nat) (s : State) : State :=
  match s.med.relocs.find? fun r => r.id == i with
  | none => s
  | some r =>
    match namedBy s r page, mediumPage s (r.src * 2048 + page) with
    | some (_, _, cold), some p =>
      onMed (fun m => { m with
        nextId := m.nextId + 1
        progs := m.progs ++ [{ id := m.nextId, kind := .copy r.id page, bank := bankOfBlock r.src, groups := 8
                               owner := ownerOfReloc r.act
                               page := mkPage p.kind p.pageId p.seq (cold || r.act == 2) true p.data }] }) s
    | _, _ => onReloc i (fun q => { q with busy := none, page := page + 1 }) s

/-- A map page is lost: its directory entry takes POISON, and every user page it translates reads as poison (R80). A page that is not in the
map page cache comes there as it can (R82). -/
def loseMap (m : Nat) (s : State) : State :=
  each (upto 96) (fun i s => setMap (m * 96 + i) { poison := true } s) (setDir m { poison := true } s)

/-- An uncorrectable source page (R99): its entry is poisoned, and the relocation goes on without it. -/
def copyLost (i page : Nat) (s : State) : State :=
  match s.med.relocs.find? fun r => r.id == i with
  | none => s
  | some r =>
    let s := match namedBy s r page with
      | some (0, u, _) => writeFlag u { poison := true } false s
      | some (_, m, _) => loseMap m s
      | none => s
    onReloc i (fun q => { q with busy := none, page := page + 1 }) s

/-- The stream that a copy goes to: COLD when its flag is set, else RELOC (R96); a map page stays in blocks of role map, those of the MAP
stream (R81, DEDUCED, log 128). -/
def copyStream (p : Prog) : Nat := if p.page.kind = 1 then 3 else if p.page.cold then 2 else 1

/-- A stream of a bank is held back from a program of the relocation `own`, or of no relocation: the copies of a window stand together in
their targets, and others place theirs between whole windows (R97). Of the relocations of a bank, one at a time is within a window, since
its copies may go to several streams (DESIGN CHOICE, log 132). -/
def streamHeld (s : State) (own : Option Nat) (bank k : Nat) : Bool :=
  match own with
  | some i =>
    (s.med.relocs.any fun r => r.id != i && bankOfBlock r.src == bank && !r.copied.isEmpty)
    || s.med.progs.any fun p => p.bank == bank && p.ppn.isSome && match p.kind with | .copy q _ => q != i | _ => false
  | none => match (stream s bank k).cur with
    | none => false
    | some b =>
      (s.med.relocs.any fun r => r.copied.any fun c => blockOfPpn c.tgt == b)
      || (blockProgs s b).any fun p => match p.kind with | .copy _ _ => true | _ => false

/-! ## Durable journal pages (R90) -/

/-- A RELOC_COMMIT is durable: each entry that still names the source, or for REDO the failed target's copy, moves to the
copy (R98, R99). -/
def moveCopies (r : Reloc) (redo : Bool) (l : List Copied) (s : State) : State :=
  each l (fun c s =>
    match mediumPage s c.tgt with
    | none => s
    | some p =>
      let e := if p.kind = 0 then mapEnt s p.pageId else dirOf s p.pageId
      let old := redo && r.made.any fun d => d.page == c.page && d.tgt == e.ppn
      if e.valid && (e.ppn == r.src * 2048 + c.page || old) then
        let e' : MapEnt := { valid := true, cold := p.cold && p.kind == 0, ppn := c.tgt }
        if p.kind = 0 then setMap p.pageId e' s else setDir p.pageId e' s
      else s) s

/-- Blocks of the journal ring all of whose pages are older than the second most recent mark are reset (R93). Blocks of the checkpoint
ring are never reset: R93 names journal blocks alone, and an older block may hold the latest copy of a segment (DESIGN CHOICE, log 129). -/
def recycleJournal (s : State) : State :=
  match s.medium.ckpts with
  | _ :: c :: _ =>
    each s.med.blocks (fun (b, x) s =>
      if x.role = 2 ∧ x.st = .full ∧ journalRoom s ∧ mediaRoom s ∧ (s.med.resets.all fun r => r.block != b)
          ∧ (s.medium.pages.all fun p => blockOfPpn p.1 != b || (match p.2 with | some q => decide (q.seq < c.jseq) | none => true)) then
        let s := enter (pendingRec b x) true s
        onMed (fun m => { m with resets := m.resets ++ [{ block := b, owner := 0, rewrite := false, after := some (m.jseq - 1) }] }) s
      else s) s
  | _ => s

/-- The durable journal pages whose CRC holds; a page whose CRC fails ends the journal (R91). -/
def journalPages (s : State) : List JDur :=
  s.medium.journal.takeWhile fun j => s.medium.pages.all fun p => match p.2 with
    | some q => q.kind != 2 || q.seq != j.jseq || journalPageGood q.data
    | none => true

/-- Their records. -/
def journalRecs (s : State) : List JRec := (journalPages s).flatMap (·.recs)

/-- The map as a checkpoint keeps it: a pending write-back (R86) whose MAP_SET is durable stands in it, since replay starts after that
record (DEDUCED, log 28). -/
def ckptMap (s : State) : Table MapEnt :=
  s.med.pend.foldl (fun t p =>
    if s.medium.journal.any fun j => j.recs.any fun r => match r with | .mapSet u _ q _ => u == p.upage && q == p.seq | _ => false
    then tset {} t p.upage p.ent else t) s.med.map

/-- DATA_SEQ of the latest durable zero or poisoned write-back of each page, by the journal and the checkpoint before. -/
def flagSeqs (s : State) : Table Nat :=
  (s.medium.journal.flatMap (·.recs)).foldl (fun t r => match r with
    | .mapSet u e q _ => if e.zero || e.poison then tset 0 t u q else t
    | _ => t) (match s.medium.ckpts with | c :: _ => c.flags | [] => [])

/-- CHECKPOINT_MARK is durable: the checkpoint is in force (R93). Its segments were written in the checkpoint ring's package (R124). -/
def ckptDone (c : CkptRun) (jseq : Nat) (s : State) : State :=
  let map := ckptMap s
  let seqs := flagSeqs s
  let flags := map.foldl (fun t p => if p.2.zero || p.2.poison then
    tset 0 t p.1 (if tget 0 seqs p.1 = 0 then s.med.wseq else tget 0 seqs p.1) else t) []
  let p := packageOfBank s (bankOfBlock ((stream s 0 5).cur.getD 0))
  let at' := (p, (pkg s p).theta)
  let s := onMed (fun m => { m with ckpt := none, segAt := c.list.foldl (fun t n => tset (0, 0) t n at') m.segAt }) s
  let k : Ckpt :=
    { gen := c.gen, seq := s.med.wseq, jseq, map, flags, dir := s.med.dir, blocks := s.med.blocks, pkgs := s.drf.pkgs
      segAt := s.med.segAt }
  onMedium (fun m => { m with ckpts := k :: m.ckpts.take 1 }) s

/-- A journal page has verified: its records are durable. -/
def journalDurable (j : Nat) (s : State) : State :=
  match s.med.jbuf.find? fun p => p.jseq == j with
  | none => s
  | some p =>
    let s := onMedium (fun m => { m with
      journal := m.journal ++ [{ jseq := j, recs := p.recs }]
      released := p.recs.foldl (fun a r => match r with | .dumpRelease g => some g | _ => a) m.released }) s
    let s := onMed (fun m => { m with
      jbuf := m.jbuf.filter fun q => q.jseq != j
      opening := m.opening.filter fun q => q.2 != j }) s
    let s := each s.med.relocs (fun r s =>
      let (now, rest) := r.commits.partition fun c => c.1 == j
      let s := each now (fun c => moveCopies r c.2.1 c.2.2) s
      onReloc r.id (fun q => { q with commits := rest, made := q.made ++ now.flatMap fun c => c.2.2 }) s) s
    let s := each (s.med.resets.filter fun r => r.after == some j) (fun r s => toPending r.block s) s
    let s := onMed (fun m => { m with resets := m.resets.map fun r => if r.after = some j then { r with after := none } else r }) s
    match s.med.ckpt with
    | some c => if c.mark = some j then ckptDone c j s else s
    | none => s

/-! ## The end of a program (R84 step 5, R88, R99, R41) -/

def onProg (i : Nat) (f : Prog → Prog) : State → State := onMed fun m =>
  { m with progs := m.progs.map fun p => if p.id = i then f p else p }

def dropProg (i : Nat) : State → State := onMed fun m => { m with progs := m.progs.filter fun p => p.id != i }

/-- A program returns to the queue to be made again in another page. -/
def requeue (p : Prog) (bank : Nat) : State → State :=
  onProg p.id fun q => { q with ppn := none, bank, done := 0, half := false, first := none, running := false }

/-- The last pulse group of a program has verified. -/
def progVerified (p : Prog) (ppn : Nat) (s : State) : State :=
  let s := onMedium (fun m => { m with pages := tset none m.pages ppn (some p.page) }) (dropProg p.id s)
  let s := match p.kind with
    | .write u =>
      let s := setMap u { valid := true, ppn } s
      let s := onMed (fun m => { m with
        staging := m.staging.filter fun g => g.prog != some p.id
        cntHost := sat 64 m.cntHost 1 }) s
      settlePend u s
    | .copy r i =>
      let s := onMed (fun m => { m with cntReloc := sat 64 m.cntReloc 1 }) s
      onReloc r (fun q => { q with
        busy := none
        page := i + 1
        again := q.again.filter (· != i)
        copied := q.copied ++ [{ page := i, tgt := ppn, id := p.page.pageId, cold := p.page.cold, redo := decide (i ∈ q.again) }] }) s
    | .mapPage m =>
      let s := setDir m { valid := true, ppn } s
      onMed (fun x => { x with ckpt := x.ckpt.map fun c =>
        if m ∈ c.twice then { c with twice := c.twice.filter (· != m) } else { c with maps := c.maps.filter (· != m) } }) s
    | .journal j => journalDurable j s
    | .segment _ => onMed (fun x => { x with ckpt := x.ckpt.map fun c => { c with segs := c.segs.map (· - 1) } }) s
    | .imported u => onCph (fun c => { c with imp := c.imp.map fun m => { m with pages := m.pages ++ [(u, ppn, p.page.seq)] } }) s
  closeBlock (blockOfPpn ppn) s

/-- A copy's target has failed (R99): what the relocation copied into it is copied again under REDO. Copies of the present window that stand
in another target are committed under that window first. -/
def targetFailed (r i t : Nat) (s : State) : State :=
  match s.med.relocs.find? fun q => q.id == r with
  | none => s
  | some q =>
    let inT := fun (c : Copied) => blockOfPpn c.tgt == t
    let pages := (i :: ((q.copied ++ q.made ++ q.commits.flatMap fun c => c.2.2).filter inT).map (·.page)).eraseDups
    let w := pages.foldl (fun m x => min m (x / 64)) q.win
    let s := commitCopied q (q.copied.filter fun c => !inT c) false s
    onReloc r (fun q => { q with busy := none, again := (q.again ++ pages).eraseDups, win := w, page := 64 * w, copied := [] }) s

/-- A program has failed its verify (R88). -/
def progFailed (p : Prog) (ppn : Nat) (s : State) : State :=
  let b := blockOfPpn ppn
  let s := event 0x0201 (mediaUnit (channelOfPpn ppn)) ppn s
  let s := failBlock b 0 s
  match p.kind with
  | .copy r i => targetFailed r i b (dropProg p.id s)
  | _ => requeue p p.bank s

/-- A program unfinished 256 courses after its first piece is abandoned (R41); a class C page is then placed afresh. -/
def progAbandon (p : Prog) (ppn : Nat) (s : State) : State :=
  let s := event 0x0202 (mediaUnit (channelOfPpn ppn)) ppn s
  let s := onMed (fun m => { m with cntAbandon := sat 64 m.cntAbandon 1 }) s
  let s := match p.kind with
    | .write u => if classOf s u ≤ 1 then requeue p p.bank s else requeue p p.bank (onMed (fun m => { m with
        staging := m.staging.map fun g => if g.prog = some p.id then { g with afresh := true } else g }) s)
    | _ => requeue p p.bank s
  closeBlock (blockOfPpn ppn) s

/-! ## Block resets (R96, R106 to R109) -/

def onRst (b : Nat) (f : Rst → Rst) : State → State := onMed fun m =>
  { m with resets := m.resets.map fun r => if r.block = b then f r else r }

/-- The record of a block whose reset has verified (R106); its counts were taken with its PENDING_RESET record (R100, R109). -/
def freedBlk (rewrite : Bool) (y : Blk) : Blk :=
  { y with
    st := .free
    role := if y.role = 4 then 4 else 0
    valid := 0
    heavy := 0
    next := 0
    doom := 0
    overdue := false
    rewrites := if rewrite then min 3 (y.rewrites + 1) else y.rewrites }

/-- Strip 256 has verified: the block is FREE. -/
def resetVerified (r : Rst) (s : State) : State :=
  let s := onMed (fun m => { m with resets := m.resets.filter fun q => q.block != r.block, cntReset := sat 64 m.cntReset 1 }) s
  let s := enter (.resetDone r.block) false (leaveCohort r.block s)
  let s := onBlk r.block (freedBlk r.rewrite) s
  onMedium (fun m => { m with pages := m.pages.filter fun p => blockOfPpn p.1 != r.block }) s

/-- A reset fails its verify: the block is retired at once (R108). -/
def resetFailed (r : Rst) (s : State) : State :=
  retire r.block 1 (onMed (fun m => { m with resets := m.resets.filter fun q => q.block != r.block }) s)

/-- RESET_COUNT of a block in PENDING_RESET before the reset that is due. -/
def countBefore (x : Blk) : Nat := if x.multi || x.tally == 0 then x.resets - 1 else x.resets

/-- A reset that is due on a block at its rated endurance retires it instead (R108). -/
def enduranceEnd (s : State) : State :=
  each s.med.resets (fun r s =>
    if r.strip = 0 ∧ r.half = false ∧ r.after = none ∧ 10000000 ≤ countBefore (blk s r.block) ∧ readHolds s r.block = false then
      retire r.block 2 (onMed (fun m => { m with resets := m.resets.filter fun q => q.block != r.block }) s)
    else s) s

/-! ## What the media engine does by itself -/

/-- Journal pages that are due get their programs, in order. -/
def journalPrograms (s : State) : State :=
  match s.med.jbuf.find? fun p => p.prog.isNone with
  | none => s
  | some p =>
    if !p.due then s else
    match takePage 0 4 s with
    | (none, s) => s
    | (some ppn, s) =>
      onMed (fun m => { m with
        nextId := m.nextId + 1
        jbuf := m.jbuf.map fun q => if q.jseq = p.jseq then { q with due := true, prog := some m.nextId } else q
        progs := m.progs ++ [{ id := m.nextId, kind := .journal p.jseq, bank := bankOfPpn ppn, ppn := some ppn, groups := 1, owner := 4
                               page := mkPage 2 0 p.jseq false false (journalPageBytes p.jseq p.recs) }] }) s

/-- One round of the media engine's own work. -/
def mediaStep (s : State) : State :=
  let s := journalPrograms (enterWaiting s)
  let s := each s.med.staging placeAfresh s
  let s := each s.med.staging stageProgram s
  let s := each (s.med.pend.map (·.upage)).eraseDups settlePend s
  let s := each s.med.late (fun m => needMap m 2 0 s.tck.course) s
  let s := each s.med.relocs relocStep s
  let s := recycleJournal (retireEmpty s)
  ckptAdvance (enduranceEnd s)

end Sys2Proof.Machine
end

