-- ==== Sys2Proof/Machine/Cache.lean ====
section
/-!
DEFINITION. The DRAM cache (R144 to R176): lookups, fills, replacement, eviction and cleaning, the write of bytes into a
line with its integrity tag and cover mask (R169 to R172), the inline counters (R398 to R402), and the dirty limit's hold.
-/

namespace Sys2Proof.Machine
open Sys2Proof

/-! ## Tag entries -/

def way (s : State) (k : Nat) : Way := tget {} s.cch.ways k

def onWay (k : Nat) (f : Way → Way) : State → State := onCch fun c => { c with ways := tmod {} c.ways k f }

def lineIn (w : Way) (i : Nat) : Line := tget {} w.lines i

def onLine (k i : Nat) (f : Line → Line) : State → State := onWay k fun w => { w with lines := tmod {} w.lines i f }

/-- The way that holds the sector of a user page, RETIRING ways included: set × 12 + way. -/
def findWay (s : State) (u : Nat) : Option Nat :=
  ((upto 12).map fun j => setOf u * 12 + j).find? fun k => (way s k).valid && (way s k).tag == tagOf u

/-- The line of a user page, Invalid when its sector is not in the cache. -/
def lineOfPage (s : State) (u : Nat) : Line :=
  match findWay s u with
  | some k => lineIn (way s k) (lineOf u)
  | none => {}

def onPageLine (u : Nat) (f : Line → Line) (s : State) : State :=
  match findWay s u with
  | some k => onLine k (lineOf u) f s
  | none => s

/-- Lines of a way in a state. -/
def linesIn (w : Way) (p : LineSt → Bool) : List Nat := (w.lines.filter fun l => p l.2.st).map (·.1)

/-! ## The inline cipher and its counters (R392, R397 to R402). A unit is numbered as its way × 32 + its line, which are DRAM address bits
[34:9] with the data partition at address 0 (DESIGN CHOICE, log 172) -/

/-- A key derived from the boot key: label 7 "DRAM data", 8 "DRAM tag", 9 "DRAM meta" (R392). -/
def dramKey (s : State) (label : Nat) : BitVec 256 := BitVec.ofNat 256 (kdf32 s.sec.bootKey label 0)

def unitRec (s : State) (n : Nat) : URec := tget {} s.sec.ctrs n

/-- The counter block of chunk j of a unit, bit 127 being 0 (R399): j in the low bits, then MINOR, MAJOR and the address bits (DESIGN CHOICE,
log 172). -/
def counterBlock (n major minor j : Nat) : BitVec 128 :=
  BitVec.ofNat 128 (j % 32 + minor % 2 ^ 28 * 2 ^ 5 + major % 2 ^ 36 * 2 ^ 33 + n % 2 ^ 26 * 2 ^ 69)

/-- The key stream of a unit: AES-256 counter mode over its 32 chunks (R399). -/
def unitPad (s : State) (n major minor : Nat) : LineData :=
  (upto 32).foldl (fun p j => p ||| (Config.aes (dramKey s 7) (counterBlock n major minor j)).setWidth 4096 <<< (128 * j)) 0

/-- TAG of a unit's ciphertext (R399): its low 56 bits, the counter block encrypted under the data key (DESIGN CHOICE, log 172). -/
def unitTag (s : State) (n major minor : Nat) (ct : LineData) : BitVec 56 :=
  (Config.ghash (dramKey s 8) ct ^^^ Config.aes (dramKey s 7) (counterBlock n major minor 0 ||| BitVec.ofNat 128 (2 ^ 127))).setWidth 56

/-- The data of a line, decrypted (R397). -/
def plain (s : State) (k i : Nat) : LineData :=
  let r := unitRec s (k * 32 + i)
  (lineIn (way s k) i).ct ^^^ unitPad s (k * 32 + i) r.major r.minor

/-- The 16 B of a unit's record (R398). -/
def recordOf (s : State) (n : Nat) : BitVec 128 :=
  let r := unitRec s n
  let l := lineIn (way s (n / 32)) (n % 32)
  let c := if l.st = .poisoned then l.cover.toNat else 0
  BitVec.ofNat 128 (c + r.minor % 2 ^ 28 * 2 ^ 8 + r.major % 2 ^ 36 * 2 ^ 36) ||| r.tag.setWidth 128 <<< 72

/-- The MAC of a metadata block (R400). It is resident and follows every change of a record, so it is a function of them; `badMeta` names
the blocks whose copy in the DRAM no longer agrees with it. -/
def blockMac (s : State) (b : Nat) : BitVec 64 := Config.metaMac (dramKey s 9) ((upto 256).map fun j => recordOf s (256 * b + j))

/-- A unit is written under the given counters: its ciphertext and a new TAG (R399); `f` is what else becomes of its line. -/
def putUnit (k i major minor : Nat) (d : LineData) (f : Line → Line) (s : State) : State :=
  let n := k * 32 + i
  let ct := d ^^^ unitPad s n major minor
  onLine k i (fun l => { f l with ct })
    (onSec (fun c => { c with ctrs := tset {} c.ctrs n { minor, major, tag := unitTag s n major minor ct } }) (count 6 0x10 1 s))

/-- A metadata block fails its MAC: every unit it covers fails its tag (R400, R403). -/
def metaFails (b : Nat) (s : State) : State :=
  let s := onSec (fun c => { c with cntMeta := sat 64 c.cntMeta 1, badMeta := c.badMeta.erase b }) s
  each (upto 256) (fun j s =>
    let n := 256 * b + j
    if (lineIn (way s (n / 32)) (n % 32)).st ∈ [.clean, .dirty, .poisoned, .evicting] then
      onLine (n / 32) (n % 32) (fun l => { l with tagOk := false }) s
    else s) s

/-- The record of a unit is used: one that is not cached comes with its metadata block, which is checked against its MAC first (R400). The
cache keeps the records used last (DESIGN CHOICE, log 147). -/
def useRecord (k i : Nat) (s : State) : State :=
  let n := k * 32 + i
  if n ∈ s.sec.recs then onSec (fun c => { c with recs := n :: c.recs.erase n }) s
  else
    let s := count 6 0x12 1 s
    let s := if n / 256 ∈ s.sec.badMeta then metaFails (n / 256) s else s
    onSec (fun c => { c with recs := (n :: c.recs).take 135168 }) s

/-- The counters under which a unit is written next (R399, R401): MINOR + 1; a unit at its wrap takes the new MAJOR of its sector, whose
re-encryption starts, or goes on with this unit when it is running already. -/
def bumpUnit (k i : Nat) (s : State) : (Nat × Nat) × State :=
  let s := useRecord k i s
  let r := unitRec s (k * 32 + i)
  if r.minor + 1 < 2 ^ 28 then ((r.major, r.minor + 1), s) else
  match s.sec.reenc.find? fun p => p.way == k && decide (i ∈ p.left) with
  | some p =>
    ((p.major, 0), onSec (fun c => { c with reenc := c.reenc.map fun q => if q.way = k then { q with left := q.left.erase i } else q }) s)
  | none =>
    let major := r.major + 1
    let s := count 6 0x13 1 (onSec (fun c => { c with
      reenc := (c.reenc.filter fun q => q.way != k) ++ [{ way := k, major, left := (upto 32).erase i }]
      cntReenc := sat 64 c.cntReenc 1 }) s)
    ((major, 0), if 2 ^ 36 - 2 ≤ major then fatal 2 6 s else s)

/-- A unit is written with data (R397, R399). -/
def writeUnit (k i : Nat) (d : LineData) (f : Line → Line) (s : State) : State :=
  let ((major, minor), s) := bumpUnit k i s
  putUnit k i major minor d f s

/-- The re-encryption under way takes the next unit of its sector (R401 step 2). -/
def reencStep (s : State) : State :=
  match s.sec.reenc with
  | [] => s
  | p :: rest =>
    match p.left with
    | [] => onSec (fun c => { c with reenc := rest }) s
    | i :: l =>
      let s := putUnit p.way i p.major 0 (plain s p.way i) id s
      onSec (fun c => { c with reenc := if l.isEmpty then rest else { p with left := l } :: rest }) s

/-! ## Fills (R151, R152) -/

/-- A fill's data reaches its line. -/
def fillData (u : Nat) (d : LineData) (s : State) : State :=
  match findWay s u with
  | none => s
  | some k => writeUnit k (lineOf u) d (fun _ => { st := .clean }) s

/-- A fill finds poison: the line becomes Poisoned (R169). It is not counted when the poison's MAP_SET has been entered (R148), nor while every
region is written through (R176). -/
def fillPoison (u : Nat) (s : State) : State :=
  match findWay s u with
  | none => s
  | some k =>
    onCch (fun c => { c with cntPoison := sat 64 c.cntPoison 1 })
      (onLine k (lineOf u) (fun _ => {
        st := .poisoned
        through := writtenThrough s u
        written := (mapEnt s u).poison || pendingData s u == some none }) s)

/-- A Filling line without a read takes its data from the first source of R151 that applies. -/
def resolveFill (u : Nat) (s : State) : State :=
  let l := lineOfPage s u
  if l.st ≠ .filling ∨ (s.med.reads.any fun r => r.why == .fill u) then s else
  match pendingData s u with
  | some (some d) => fillData u d s
  | some none => fillPoison u s
  | none =>
    let m := mapPageOf u
    let s := needMap m l.fillCls 1 l.arrived s
    let s := if l.fillWarn then warnRead (.mapPage m) s else s
    if !mapResident s m then s else
    let s := touchMap m false s
    let e := mapEnt s u
    if e.valid && !e.poison && !e.zero then
      if !mediaRoom s then s else
      let s := queueRead (.fill u) e.ppn l.fillCls 1 l.arrived s
      if l.fillWarn then warnRead (.fill u) s else s
    else if !e.valid && !e.poison then fillData u 0 s
    else if !e.valid && !e.zero then fillPoison u s
    else fillPoison u (event 0x0207 2 u s)

/-- Promote a fill to the class of a read that waits on it (R153): of a write-allocate fill, and of a preload's fill too (DESIGN CHOICE,
log 134). -/
def promoteFill (k i u cls arrived : Nat) (s : State) : State :=
  if cls ≤ 1 ∧ cls < (lineIn (way s k) i).fillCls then
    let s := onLine k i (fun l => { l with fillCls := cls, arrived }) s
    match s.med.reads.find? fun r => r.why == .fill u with
    | some r => promoteRead r.id cls arrived s
    | none => s
  else s

/-- An accumulate of a power-fail warning waits on a fill (R259). -/
def warnFill (k i u : Nat) (s : State) : State := warnRead (.fill u) (onLine k i (fun l => { l with fillWarn := true }) s)

/-- Start the fill of an Invalid line; `warn` is that of an accumulate in a power-fail warning. -/
def startFill (k i u cls arrived : Nat) (s : State) (warn : Bool := false) : State :=
  resolveFill u (onLine k i (fun _ => { st := .filling, fillCls := cls, fillWarn := warn, arrived }) s)

/-! ## Replacement and eviction (R154 to R158) -/

/-- AGE at which a class is inserted (R156). -/
def insertAge (s : State) (cls : Nat) : Nat :=
  let v := expertIn s 0x0400020
  if cls = 0 then v % 8 else if cls = 1 then v / 16 % 8 else v / 256 % 8

/-- Reads that waited on a fill of the line have still to receive its data (R152, R168). -/
def fillWaits (s : State) (u : Nat) : Bool := s.dir.txns.any fun t => t.fillWait && t.stage == .line && t.req.lg / 8 == u

/-- A way can be a victim (R154). -/
def eligible (s : State) (k : Nat) : Bool :=
  let w := way s k
  w.valid && !w.lock && !w.retiring && !w.off && (linesIn w fun t => t == .filling || t == .evicting).isEmpty
    && w.lines.all fun l => !fillWaits s (pageOfWay k w l.1)

/-- The victim among the candidate ways of a set, after the ageing of R154 step 2. -/
def pickVictim (set : Nat) (cands : List Nat) (s : State) : Option Nat × State :=
  let el := cands.filter (eligible s)
  if el.isEmpty then (none, s) else
  let top := el.foldl (fun m k => max m (way s k).age) 0
  let s := if top < 7 then
      each ((upto 12).map fun j => set * 12 + j) (fun k s =>
        if (way s k).valid && !(way s k).lock then onWay k (fun w => { w with age := min 7 (w.age + (7 - top)) }) s else s) s
    else s
  let l := (el.filter fun k => (way s k).age == 7).map fun k =>
    (k, (linesIn (way s k) fun t => t == .dirty || t == .poisoned).length)
  ((bestOf (fun a b => keyLt [a.2, b.1] [b.2, a.1]) l).map (·.1), s)

/-- The user page whose line lock a maintenance command holds: from its snoops until the operation applies (R168). -/
def lockedPage (s : State) (j : CacheJob) : Option Nat :=
  if j.op = 0 ∨ !j.snooped then none
  else if j.bySet then j.sector.map (· + j.next % 32)
  else match decodeAddr s (j.next * 512) with
    | .here a => some (a / 512)
    | _ => none

/-- A maintenance command that took the line lock before this request reached the home holds the line of the page (R168). -/
def lockedBefore (s : State) (u id : Nat) : Bool := s.cch.jobs.any fun j => lockedPage s j == some u && decide (j.lockAt ≤ id)

/-- A maintenance command holds a line of the way (R168). -/
def wayHeld (s : State) (k : Nat) : Bool := s.cch.jobs.any fun j => match lockedPage s j with
  | some u => findWay s u == some k
  | none => false

/-- A way takes its new sector when nothing of the old one is left (R157 step 4), and no maintenance command holds a line of it (R168). -/
def finishEvict (k : Nat) (s : State) : State :=
  let w := way s k
  if w.retiring && (linesIn w fun t => t == .evicting).isEmpty && !wayHeld s k then
    onWay k (fun w =>
      match w.incoming with
      | some (tag, cls, age, lock) => { valid := true, tag, cls, age, lock, off := w.off }
      | none => { off := w.off }) s
  else s

/-- Eviction of a victim way begins (R157 steps 1 to 3, R172). -/
def startEvict (k : Nat) (inc : Nat × Nat × Nat × Bool) (s : State) : State :=
  let w := way s k
  let lines := w.lines.filterMap fun (i, l) =>
    match l.st with
    | .dirty => some (i, { l with st := .evicting })
    | .poisoned => if (mapEnt s (pageOfWay k w i)).poison then none else some (i, { l with st := .evicting, pz := true, cleaning := false })
    | _ => none
  let s := onCch (fun c => { c with cntEvict := sat 64 c.cntEvict lines.length }) s
  let s := count 3 0x13 lines.length s
  finishEvict k (onWay k (fun w => { w with retiring := true, incoming := some inc, lines }) s)

/-- Allocate a way for the sector of a user page: a way that is not VALID at once, else by eviction (R154). `lock`
restricts the choice to ways 0 to 9. -/
def allocate (u cls age : Nat) (lock : Bool) (s : State) : State :=
  let set := setOf u
  let cands := (upto (if lock then 10 else 12)).map fun j => set * 12 + j
  match cands.find? fun k => !(way s k).valid && !(way s k).off && !(way s k).retiring with
  | some k => onWay k (fun w => { valid := true, tag := tagOf u, cls, age, lock, off := w.off }) s
  | none =>
    match pickVictim set cands s with
    | (some k, s) => startEvict k (tagOf u, cls, age, lock) s
    | (none, s) => s

/-- A RETIRING way is being emptied for the sector of a user page. -/
def incomingFor (s : State) (u : Nat) : Bool :=
  ((upto 12).map fun j => setOf u * 12 + j).any fun k =>
    (way s k).retiring && match (way s k).incoming with | some (t, _) => t == tagOf u | none => false

/-- An older sector miss waits for a way of the page's set (R155): the misses keep their order of arrival, by their numbers. A transaction
that waits for returned data of its own granule first is no such miss. -/
def missBefore (s : State) (u id : Nat) : Bool :=
  let waits := fun (v : Nat) => setOf v == setOf u && tagOf v != tagOf u && (findWay s v).isNone && !incomingFor s v
  (s.dir.txns.any fun t => t.stage == .line && t.look != 4 && decide (t.req.id < id) && waits (t.req.lg / 8)
      && s.ord.gbs.all fun g => !(g.lg == t.req.lg && g.rsv != 0))
    || (s.ord.gbs.any fun g => g.rsv != 0 && g.looked && decide (g.id < id) && waits (g.lg / 8))
    || s.cch.jobs.any fun j => match j.miss with
      | some (v, i) => decide (i < id) && waits v
      | none => false

/-! ## Lookups (R150, R152, R153, R159) -/

/-- What a lookup found: the way once the line can be used, and whether it was a hit (0), a line miss (1), a sector miss
(2) or had to wait for a line or a way in transit (3). -/
structure Look where
  way : Option Nat
  kind : Nat
deriving DecidableEq, Repr

/-- Look a user page up for a request of number `id`: a read (`mode` 0), a write that needs the line's old bytes (1; 3 for an accumulate of a
power-fail warning) or a write of the whole line (2), in class `cls`. A write waits for the reads that have still to receive a fill's data
(R152). A sector that is still coming into a RETIRING way has no VALID way with its tag (R150). A Poisoned line that is being cleaned is in transit for a write, as an Evicting one is
(DEDUCED, log 136). -/
def lookup (id u mode cls arrived : Nat) (s : State) : Look × State :=
  let i := lineOf u
  match findWay s u with
  | some k =>
    let w := way s k
    let l := lineIn w i
    if w.retiring then
      if mode = 0 ∧ l.st = .evicting then (⟨some k, 0⟩, s) else (⟨none, 3⟩, s)
    else if mode != 0 && l.st != .filling && fillWaits s u then (⟨none, 3⟩, s)
    else match l.st with
      | .clean | .dirty => (⟨some k, 0⟩, s)
      | .poisoned => if l.cleaning && mode != 0 then (⟨none, 3⟩, s) else (⟨some k, 0⟩, s)
      | .evicting => if mode = 0 then (⟨some k, 0⟩, s) else (⟨none, 3⟩, s)
      | .filling => (⟨none, 3⟩, if mode = 0 then promoteFill k i u cls arrived s else if mode = 3 then warnFill k i u s else s)
      | .invalid =>
        if mode = 2 then (⟨some k, 1⟩, s) else
        let s := startFill k i u (if mode = 0 then cls else 2) arrived s (mode == 3)
        let s := if mode % 2 = 1 then count 3 0x15 1 s else s
        if (lineOfPage s u).st = .filling then (⟨none, 1⟩, s) else (⟨some k, 1⟩, s)
  | none =>
    if incomingFor s u || missBefore s u id then (⟨none, 2⟩, s) else
    let c := classOf s u
    let s := allocate u c (insertAge s c) false s
    match findWay s u with
    | none => (⟨none, 2⟩, s)
    | some k =>
      if (way s k).retiring then (⟨none, 2⟩, s)
      else if mode = 2 then (⟨some k, 2⟩, s)
      else
        let s := startFill k i u (if mode = 0 then cls else 2) arrived s (mode == 3)
        let s := if mode % 2 = 1 then count 3 0x15 1 s else s
        if (lineOfPage s u).st = .filling then (⟨none, 2⟩, s) else (⟨some k, 2⟩, s)

/-- Count a lookup once, and age the sector on a hit (R156, R179). -/
def countLook (l : Look) (s : State) : State :=
  if l.kind = 0 then
    let s := count 3 0x10 1 (onCch (fun c => { c with cntHit := sat 64 c.cntHit 1 }) s)
    match l.way with
    | some k => onWay k (fun w => { w with age := 0 }) s
    | none => s
  else if l.kind = 1 then count 3 0x12 1 (onCch (fun c => { c with cntMissLine := sat 64 c.cntMissLine 1 }) s)
  else if l.kind = 2 then count 3 0x11 1 (onCch (fun c => { c with cntMissSec := sat 64 c.cntMissSec 1 }) s)
  else s

/-! ## Reading and writing a line (R169 to R171) -/

/-- Poison the line of a way. In a region written through it is recorded as one (R162, R176). -/
def poisonLine (k i : Nat) (cover : BitVec 8) (s : State) : State :=
  onCch (fun c => { c with cntPoison := sat 64 c.cntPoison 1 })
    (onLine k i (fun l => { l with
      st := .poisoned
      cover
      tagOk := true
      cleaning := false
      through := writtenThrough s (pageOfWay k (way s k) i)
      written := l.st == .poisoned && l.written }) s)

def tagFail : State → State := onSec fun c => { c with cntTag := sat 64 c.cntTag 1 }

/-- Read a granule of a line that is in the cache: its data, or poison; none while the line is refilled (R170). -/
def readLine (k u g : Nat) (s : State) : Option (Granule × Bool) × State :=
  let i := lineOf u
  let s := count 6 0x11 1 (useRecord k i s)
  let l := lineIn (way s k) i
  match l.st with
  | .poisoned => (some (0, true), s)
  | .clean =>
    if l.tagOk then (some (lineGranule (plain s k i) g, false), s) else
    let s := event 0x0401 3 (u * 512) (tagFail (onCch (fun c => { c with cntRefill := sat 64 c.cntRefill 1 }) s))
    let s := startFill k i u (classOf s u) s.tck.course s
    match lineOfPage s u with
    | { st := .clean, .. } => (some (lineGranule (plain s k i) g, false), s)
    | { st := .poisoned, .. } => (some (0, true), s)
    | _ => (none, s)
  | .dirty =>
    if l.tagOk then (some (lineGranule (plain s k i) g, false), s)
    else (some (0, true), poisonLine k i 0 (event 0x0402 3 (u * 512) (tagFail s)))
  | .evicting =>
    if l.pz then (some (0, true), s)
    else if l.tagOk then (some (lineGranule (plain s k i) g, false), s)
    else (some (0, true), onCch (fun c => { c with cntPoison := sat 64 c.cntPoison 1 })
      (onLine k i (fun x => { x with pz := true, tagOk := true }) (event 0x0402 3 (u * 512) (tagFail s))))
  | _ => (none, s)

/-- Cleaning of a Dirty or Poisoned line begins (R160); a line that is written back is counted as cleaned without eviction. -/
def cleanLine (k i : Nat) (drop : Bool) (s : State) : State :=
  let l := lineIn (way s k) i
  let counted := onCch fun c => { c with cntClean := sat 64 c.cntClean 1 }
  match l.st with
  | .dirty => counted (onLine k i (fun x => { x with st := .evicting, cleaning := true, drop }) s)
  | .poisoned =>
    if l.cleaning then (if drop then onLine k i (fun x => { x with drop }) s else s)
    else if (mapEnt s (pageOfWay k (way s k) i)).poison then (if drop then onLine k i (fun _ => {}) s else onLine k i (fun x => { x with written := true }) s)
    else if drop then counted (onLine k i (fun x => { x with st := .evicting, pz := true, cleaning := true, drop }) s)
    else counted (onLine k i (fun x => { x with cleaning := true }) s)
  | _ => s

/-- Write bytes into a granule of a line of the cache, whose tag is verified first (R170, R171). The answer is INTEGRITY for a partial write
that is discarded. A write-through region's line starts to leave at once (R162). -/
def writeLine (k u g : Nat) (data : Granule) (mask : BitVec 64) (poison : Bool) (s : State) : RStat × State :=
  let i := lineOf u
  let s := useRecord k i s
  let l := lineIn (way s k) i
  let s := if l.st = .invalid then s else count 6 0x11 1 s
  let full := mask == BitVec.allOnes 64
  let bit : BitVec 8 := 1 <<< g
  let old := plain s k i
  let put := setGranule old g (mergeBytes (lineGranule old g) data mask)
  let after (s : State) : State :=
    if writtenThrough s u && (lineOfPage s u).st == .dirty then
      cleanLine k i false (onLine k i (fun x => { x with through := true }) s) else s
  if l.tagOk = false then
    let s := event 0x0402 3 (u * 512) (tagFail s)
    if !full then (.integrity, poisonLine k i 0 s)
    else if poison then (.ok, poisonLine k i 0 s)
    else (.ok, poisonLine k i bit (writeUnit k i put id s))
  else if l.st = .poisoned then
    if !full then (.integrity, s)
    else if poison then (.ok, onLine k i (fun x => { x with cover := 0 }) s)
    else if l.cover ||| bit = 0xFF then (.ok, after (writeUnit k i put (fun _ => { st := .dirty }) s))
    else (.ok, writeUnit k i put (fun x => { x with cover := x.cover ||| bit }) s)
  else if poison then (.ok, poisonLine k i 0 s)
  else (.ok, after (writeUnit k i put (fun _ => { st := .dirty }) s))

/-- Write a whole line in one request (R149, R153, R171); a poisoned one leaves the line Poisoned (R169). -/
def writeWhole (k u : Nat) (d : LineData) (poison : Bool) (s : State) : State :=
  let i := lineOf u
  if poison then
    if (lineIn (way s k) i).st = .poisoned then onLine k i (fun x => { x with cover := 0, tagOk := true }) s else poisonLine k i 0 s
  else
    let s := writeUnit k i d (fun _ => { st := .dirty }) s
    if writtenThrough s u then cleanLine k i false (onLine k i (fun x => { x with through := true }) s) else s

/-! ## A line's data leaves the DRAM (R157, R158, R160, R84) -/

/-- DATA_SEQ of the write-back that has just left is told to everything that waits for its map update. -/
def tellSeq (u seq : Nat) (s : State) : State :=
  let f := fun (l : List (Nat × Option Nat)) => l.map fun p => if p.1 = u ∧ p.2 = none then (u, some seq) else p
  let s := onDir (fun d => { d with
    txns := d.txns.map fun t => if t.stage = .media ∧ t.req.lg / 8 = u ∧ t.wseq = none then { t with wseq := some seq } else t }) s
  let s := onCch (fun c => { c with jobs := c.jobs.map fun j => { j with waits := f j.waits } }) s
  onMed (fun m => { m with hoistCkpt := m.hoistCkpt.map fun h => { h with waits := f h.waits } }) s

/-- The write-back of this DATA_SEQ of a page has reached the map (R161). -/
def mapReached (s : State) (u : Nat) (seq : Option Nat) : Bool :=
  match seq with
  | none => false
  | some n => !(s.med.staging.any fun g => g.upage == u && decide (g.seq ≤ n)) && !(s.med.pend.any fun p => p.upage == u && decide (p.seq ≤ n))

/-- The data of an Evicting line, or of a Poisoned line being cleaned, has left the DRAM (R84, R157, R160). It waits while
the write staging of its channel is full, and for room in the journal buffer. A line that cannot be read is written back as poison (R236;
for every write-back DEDUCED, log 141). -/
def lineLeaves (u : Nat) (s : State) : State :=
  match findWay s u with
  | none => s
  | some k =>
    let i := lineOf u
    let s := useRecord k i s
    let w := way s k
    let l := lineIn w i
    let d := plain s k i
    let flag (e : MapEnt) (s : State) : Option State := if journalRoom s then some (writeFlag u e true s) else none
    let out (poison : Bool) (s : State) : Option State :=
      if poison then flag { poison := true } s
      else if d = 0 then flag { zero := true } s
      else
        let b := bankForWrite s u
        if stagingRoom s (channelOfBank b) then some (stageWrite u b d s) else none
    if l.st = .evicting then
      let bad := !l.pz && !l.tagOk
      match out (l.pz || bad) s with
      | none => s
      | some s =>
        let s := tellSeq u s.med.wseq s
        let s := if bad then event 0x0402 3 (u * 512) (tagFail (onCch (fun c => { c with cntPoison := sat 64 c.cntPoison 1 }) s)) else s
        let s := onLine k i (fun x =>
          if w.retiring || x.drop || !x.cleaning then {}
          else if x.pz || bad then { x with st := .poisoned, tagOk := true, pz := false, cleaning := false, written := true }
          else { st := .clean, ct := x.ct }) s
        finishEvict k s
    else if l.st = .poisoned ∧ l.cleaning then
      match out true s with
      | none => s
      | some s => tellSeq u s.med.wseq (onLine k i (fun x =>
        if x.drop then {} else { x with cleaning := false, written := true }) s)
    else s

/-! ## The dirty limit at work (R174 to R176) -/

/-- The hold of R175 begins when D reaches L and ends when D is at L × 15 / 16 or below; it never begins while every
region is written through (R176). -/
def holdStep (s : State) : State :=
  if !s.glb.memReady then s else
  let d := dirtyBytes s
  let l := limitUnits s * 512
  onCch (fun c => { c with
    cleanForced := decide (l ≤ d)
    holding := if strictAll s then false else if l ≤ d then true else if 16 * d ≤ 15 * l then false else c.holding }) s

/-- The cleaner (R174): it starts at START_PCT of L and stops below it; it cleans the next set from its pointer. -/
def cleanerStep (s : State) : State :=
  if !inRun s then s else
  let d := dirtyBytes s
  let l := limitUnits s * 512
  let on := decide (l * (expertIn s 0x0400018 % 128) ≤ d * 100) && d != 0
  let sets := (s.cch.ways.map fun p => p.1 / 12).eraseDups
  if !on then s else
  match (sets.find? fun x => decide (s.cch.ptr ≤ x)).or sets.head? with
  | none => s
  | some x =>
    let s := onCch (fun c => { c with ptr := (x + 1) % 131072 }) s
    each ((upto 12).map fun j => x * 12 + j) (fun k s =>
      let w := way s k
      if w.valid && !w.retiring && (decide (4 ≤ w.age) || w.lock || decide (l ≤ d)) then
        each (linesIn w fun t => t == .dirty) (fun i s => cleanLine k i false s) s
      else s) s

/-- Lines dirtied before every region was written through are cleaned at once (R176). -/
def strictStep (s : State) : State :=
  if !(strictAll s && inRun s) then s else
  each s.cch.ways (fun (k, w) s =>
    if w.valid && !w.retiring then each (linesIn w fun t => t == .dirty) (fun i s => cleanLine k i false s) s else s) s

/-- Filling lines that wait for their map page or for a source go on (R151). -/
def fillStep (s : State) : State :=
  each s.cch.ways (fun (k, w) s => each (linesIn w fun t => t == .filling) (fun i s => resolveFill (pageOfWay k w i) s) s) s

/-- A tag entry's 120 bits (R147). -/
def LineSt.code : LineSt → Nat
  | .invalid => 0
  | .clean => 1
  | .dirty => 2
  | .poisoned => 3
  | .filling => 4
  | .evicting => 5

def Way.word (w : Way) : Nat :=
  if !w.valid then 0 else
  b2n w.retiring * 4 + 8 + w.age % 8 * 16 + w.cls % 4 * 128 + b2n w.lock * 512 + w.tag % 2 ^ 14 * 1024
    + (w.lines.map fun l => l.2.st.code * 2 ^ (24 + 3 * l.1)).sum

end Sys2Proof.Machine
end

