-- ==== Sys2Proof/Machine/Home.lean ====
section
/-!
DEFINITION. The home (R180 to R209) and the ordering rules (R210 to R231): how a request enters, what holds it, the gather
buffers, the directory and its snoops, the service of a request from its line, and the answers in the form of each
interface.
-/

namespace Sys2Proof.Machine
open Sys2Proof

/-! ## Requesters -/

/-- The agent behind a message: the port's own on Halyard (R180), the one named on Coping; a requester that is no agent is
named by 64 + its requester number. -/
def agentOf (s : State) (m : Msg) : Nat :=
  match m.port with
  | .hal p => s.grp.id * 8 + p % 8
  | .cop _ => if m.req % 16 < 8 then m.agent % 64 else 64 + m.req % 128

/-- The requester number of a message (R181). -/
def rqOf (s : State) (m : Msg) : Nat :=
  match m.port with
  | .hal p => s.grp.id * 16 + p % 8
  | .cop _ => m.req % 128

/-- The requester number of a source inside this module (R181); the debug port counts as firmware of the home. -/
def rqOfSrc (s : State) : Src → Nat
  | .hal p => s.grp.id * 16 + p % 8
  | .cop _ => s.grp.id * 16 + 11
  | .host => s.grp.id * 16 + 8
  | .copy _ => s.grp.id * 16 + 9
  | .stream _ => s.grp.id * 16 + 10
  | .fw => s.grp.id * 16 + 11
  | .dbg => s.grp.id * 16 + 11

/-- The rights class of a request (R14, R395). -/
def classOfSrc (src : Src) (rq : Nat) : RightOf :=
  match src with
  | .hal p => .agent (p % 8)
  | .cop _ => rightOfRq rq
  | .host => .host
  | .copy _ => .copy
  | .stream _ => .stream
  | .fw => .firmware
  | .dbg => .debug

/-- The port of an agent of this module that is up: ACTIVE or in RECOVERY (R567). -/
def agentUp (s : State) (p : Nat) : Bool := (link s p).st == 5 || (link s p).st == 6

/-- A member that takes part: present and not lost (R316). This module always does. -/
def memberUp (s : State) (h : Nat) : Bool := h == s.grp.id || (s.grp.present.getLsbD h && !s.grp.gone.getLsbD h)

/-- A snoop can be sent to the agent (R567). -/
def reachable (s : State) (a : Nat) : Bool :=
  if a / 8 = s.grp.id then agentUp s (a % 8) else memberUp s (a / 8)

/-! ## The directory -/

/-- Index (set × 16 + way) of the entry of a local granule. -/
def dirFind (s : State) (lg : Nat) : Option Nat :=
  ((upto 16).map fun w => dirSet lg * 16 + w).find? fun k =>
    match tget none s.dir.ents k with
    | some e => e.tag == dirTag lg
    | none => false

def dirEnt (s : State) (k : Nat) : Option DirEnt := tget none s.dir.ents k

def setDirEnt (k : Nat) (e : Option DirEnt) : State → State := onDir fun d => { d with ents := tset none d.ents k e }

/-- The recorded state of a granule (R185). -/
def dirState (s : State) (lg : Nat) : DirSt :=
  match dirFind s lg with
  | some k => match dirEnt s k with
    | some e => e.st
    | none => .uncached
  | none => .uncached

/-- Every agent that a state covers (R186). -/
def holders : DirSt → List Nat
  | .uncached => []
  | .shared l => l
  | .coarse ms ps => (upto 64).filter fun a => bitOf ms (a / 8) && bitOf ps (a % 8)
  | .owned a => [a]

/-- A holder leaves an exact entry; a coarse entry is unchanged (R200). -/
def removeHolder (a : Nat) : DirSt → DirSt
  | .shared l => if (l.filter (· != a)).isEmpty then .uncached else .shared (l.filter (· != a))
  | .owned b => if a = b then .uncached else .owned b
  | d => d

/-- An agent joins a Shared state; the seventh holder makes it coarse (R186). -/
def addHolder (a : Nat) : DirSt → DirSt
  | .shared l =>
    if a ∈ l then .shared l
    else if l.length < 6 then .shared (l ++ [a])
    else .coarse ((a :: l).foldl (fun m x => m ||| 2 ^ (x / 8)) 0) ((a :: l).foldl (fun m x => m ||| 2 ^ (x % 8)) 0)
  | .coarse ms ps => .coarse (ms ||| 2 ^ (a / 8)) (ps ||| 2 ^ (a % 8))
  | _ => .shared [a]

def isCoarse : DirSt → Bool
  | .coarse _ _ => true
  | _ => false

/-- Record a granule's state, freeing the entry of an Uncached one. -/
def record (lg : Nat) (st : DirSt) (s : State) : State :=
  match dirFind s lg with
  | some k =>
    let s := if isCoarse st && !isCoarse (dirState s lg) then
      count 4 0x13 1 (onDir (fun d => { d with cntCoarse := sat 64 d.cntCoarse 1 }) s) else s
    setDirEnt k (if st = .uncached then none else some { tag := dirTag lg, st, busy := false }) s
  | none => s

/-- The bits of an entry under R184 and R186, without the ECC. The holders stand in the slots in their order of joining, with no gap when one
has left (DESIGN CHOICE, log 166). -/
def DirEnt.word (e : DirEnt) : Nat :=
  let (st, fmt, h) := match e.st with
    | .uncached => (0, 0, 0)
    | .shared l => (1, 0, (l.zipIdx.map fun p => (64 + p.1 % 64) * 2 ^ (7 * p.2)).sum)
    | .coarse ms ps => (1, 1, ms % 256 * 256 + ps % 256)
    | .owned a => (2, 0, 64 + a % 64)
  e.tag % 2 ^ 21 * 2 ^ 51 + (if e.busy then 3 else st) * 2 ^ 49 + fmt * 2 ^ 48 + h

/-! ## Transactions -/

def onTxn (i : Nat) (f : Txn → Txn) : State → State := onDir fun d =>
  { d with txns := d.txns.map fun t => if t.req.id = i then f t else t }

def txnOf (s : State) (i : Nat) : Option Txn := s.dir.txns.find? fun t => t.req.id == i

def dropTxn (i : Nat) : State → State := onDir fun d => { d with txns := d.txns.filter fun t => t.req.id != i }

/-- The stages in which a transaction makes its granule Busy (R199). -/
def Txn.busy (t : Txn) : Bool := t.stage != .queued && t.stage != .media

def isReadKind : ReqKind → Bool
  | .rdShared | .rdUnique | .upgrade | .rdOnce => true
  | _ => false

def isWriteKind : ReqKind → Bool
  | .write | .atomic _ _ _ _ | .accum _ => true
  | _ => false

/-- A caching request. -/
def isCaching : ReqKind → Bool
  | .rdShared | .rdUnique | .upgrade => true
  | _ => false

/-- The first free snoop slot (R197). -/
def freeSlot (s : State) : Option Nat :=
  let used := s.dir.txns.filterMap (·.slot)
  if 1024 ≤ used.length then none else (upto 1024).find? fun i => !decide (i ∈ used)

/-- Send a snoop, or take it as answered when the agent cannot receive it (R567). -/
def sendSnoop (i slot lg : Nat) (k : SnpKind) (a : Nat) (s : State) : State :=
  let up := reachable s a
  let s := onTxn i (fun t => { t with snoops := t.snoops ++ [{ agent := a, lg, kind := k, resp := !up }] }) s
  if up then
    emit (.snoop a slot (groupAddr s (lg * 64) / 64) k) (onDir (fun d => { d with cntSnoop := sat 64 d.cntSnoop 1 }) s)
  else onTxn i (fun t => { t with after := if t.victim.isSome then t.after else removeHolder a t.after }) s

/-- Every snoop has been answered, with the W messages that were announced (R194, R197). -/
def snoopsDone (t : Txn) : Bool := t.snoops.all fun x => x.resp && (!x.evicted || x.w)

/-! ## Gather buffers (R220 to R224) -/

def onGb (i : Nat) (f : GbEnt → GbEnt) : State → State := onOrd fun o =>
  { o with gbs := o.gbs.map fun g => if g.id = i then f g else g }

def dropGb (i : Nat) : State → State := onOrd fun o => { o with gbs := o.gbs.filter fun g => g.id != i }

/-- Buffer number of a source: Halyard 0–7, Coping 8–11, PCIe 12; 13 stands for the home itself, whose writes in a lost agent's name lie in
no port's buffer (R208). -/
def bufOf : Src → Nat
  | .hal p => p
  | .cop l => 8 + l
  | .host => 12
  | _ => 13

/-- Unreserved entries in use, and unreserved entries of a buffer. -/
def gbUsed (s : State) (b : Nat) : Nat := (s.ord.gbs.filter fun g => g.buf == b && g.rsv == 0).length
def gbRoom (b : Nat) : Nat := if b = 12 then 64 else 32

/-- W messages (`rsv` 1) or SNP_DATA (2) of a port that have arrived and are not yet in the line, oldest first. -/
def sinkList (s : State) (b rsv : Nat) : List GbEnt := s.ord.gbs.filter fun g => g.buf == b && g.rsv == rsv

/-- A W message or SNP_DATA that still lies in its Coping port's sink-class receive buffer: the 16 reserved entries of its class are taken by
older ones (R195). -/
def inSink (s : State) (g : GbEnt) : Bool :=
  decide (8 ≤ g.buf) && decide (g.buf < 12) && g.rsv != 0 && ((sinkList s g.buf g.rsv).take 16).all fun x => x.id != g.id

/-- Reserved entries in use of a buffer (R195, R240). -/
def rsvUsed (s : State) (b : Nat) : Nat := min 16 (sinkList s b 1).length + min 16 (sinkList s b 2).length

/-- Note the most entries in use of a port's buffer (R240). -/
def notePeak (b : Nat) (s : State) : State :=
  if 13 ≤ b then s else onOrd (fun o => { o with peaks := tmod 0 o.peaks b (max (gbUsed s b + rsvUsed s b)) }) s

def nextReq (s : State) : Nat := s.dir.nextId

def takeId : State → State := onDir fun d => { d with nextId := d.nextId + 1 }

/-- A request passes the ordering point of this home and takes its place in the order (R198). -/
def order (r : Req) (s : State) : State :=
  count 2 0x10 1 (onDir (fun d => { d with txns := d.txns ++ [{ req := r, stage := .queued }] }) s)

/-- An entry passes the ordering point: its write joins the order (R222). -/
def passEntry (g : GbEnt) (s : State) : State :=
  if g.drained then s else
  let id := nextReq s
  let r : Req :=
    { id, src := g.src, rq := g.rq, kind := .write, txid := g.txid, agent := g.agent, gaddr := g.gaddr, lg := g.lg, mask := g.mask
      data := g.data, poison := g.poison, tick := s.tck.course, gb := some g.id, acked := g.acked, whole := g.whole, ids := g.reqs }
  order r (onGb g.id (fun x => { x with drained := true }) (takeId s))

/-- Drain an entry. Entries of the PCIe buffer without Relaxed Ordering pass in allocation order (R224), and none passes a posted write that
arrived before it (R218). -/
def drainEntry (i : Nat) (s : State) : State :=
  match s.ord.gbs.find? fun g => g.id == i with
  | none => s
  | some g =>
    if g.buf = 12 ∧ g.relaxed = false then
      each (s.ord.gbs.filter fun x => x.buf == 12 && !x.drained && decide (x.id ≤ i)) passEntry s
    else passEntry g s

/-- Drain every unreserved entry that `p` picks. -/
def drainWhere (p : GbEnt → Bool) (s : State) : State :=
  each ((s.ord.gbs.filter fun g => g.rsv == 0 && !g.drained && p g).map (·.id)) drainEntry s

/-- After a write has been placed: a full mask drains, and a nearly full buffer drains its oldest entry (R224). -/
def afterPlace (i b : Nat) (s : State) : State :=
  let s := match s.ord.gbs.find? fun g => g.id == i with
    | some g => if g.device || g.mask == BitVec.allOnes 64 then drainEntry i s else s
    | none => s
  if gbRoom b < gbUsed s b + 8 then
    match s.ord.gbs.find? fun g => g.buf == b && g.rsv == 0 && !g.drained with
    | some g => drainEntry g.id s
    | none => s
  else s

/-! ## Samples (R513 to R515) -/

/-- A request enters by an ingress path (0 PCIe, 1 to 8 Halyard, 9 to 24 copy, 25 to 32 egress): the path steps its LFSR and
tags one request in 2^RATE. -/
def tagRequest (path id : Nat) (kind rq gaddr : Nat) (s : State) : State :=
  if s.pmc.rate = 0 then s else
  let (ph, s) := free s
  let v := Config.lfsrNext (tget 0 s.pmc.lfsr path)
  let s := onPmc (fun p => { p with lfsr := tset 0 p.lfsr path v }) s
  if v.toNat % 2 ^ s.pmc.rate = 0 then
    let w := s.tck.count + (ph % 2 ^ 32) * 2 ^ 64 + rq % 256 * 2 ^ 96 + kind * 2 ^ 104 + gaddr * 64 % 2 ^ 48 * 2 ^ 128
    onPmc (fun p => { p with tagged := (id, BitVec.ofNat 512 w) :: p.tagged }) s
  else s

/-- A sample's stage times: a free value up to 0xFF_FFFE for a stage passed, else 0xFF_FFFF (R514). -/
def stageTimes (passed : List Bool) (s : State) : Nat × State :=
  (passed.zipIdx.foldl (fun (a : Nat × State) p =>
    if p.1 then
      let (v, s) := free a.2
      (a.1 + v % (2 ^ 24 - 1) * 2 ^ (24 * p.2), s)
    else (a.1 + (2 ^ 24 - 1) * 2 ^ (24 * p.2), a.2)) (0, s))

/-- A tagged request ends: its sample is written into the circle (R514, R515). `flags` and `info` are FLAGS and INFO. -/
def endSample (id flags info : Nat) (passed : List Bool) (s : State) : State :=
  match s.pmc.tagged.find? fun p => p.1 == id with
  | none => s
  | some (_, h) =>
    let (st, s) := stageTimes passed s
    let w := h ||| BitVec.ofNat 512 (flags % 256 * 2 ^ 112 + info % 256 * 2 ^ 120 + st * 2 ^ 192 + s.pmc.seq % 2 ^ 32 * 2 ^ 384)
    onPmc (fun p =>
      let p := { p with tagged := p.tagged.filter fun q => q.1 != id, seq := p.seq + 1 }
      if p.samples.length < 1024 then { p with samples := w :: p.samples, written := sat 32 p.written 1 }
      else if p.mode = 0 then { p with lost := sat 21 p.lost 1 }
      else { p with samples := w :: p.samples.take 1023, written := sat 32 p.written 1 }) s

/-! ## Arrival -/

/-- The ingress path of a source for the samples of R513: 0 PCIe, 1 to 8 Halyard, 9 to 24 copy, 25 to 32 egress. -/
def pathOf : Src → Option Nat
  | .host => some 0
  | .hal p => some (1 + p)
  | .copy j => some (9 + j)
  | .stream s => some (25 + s)
  | _ => none

/-- KIND of a sample (R514), and the group granule of the request. -/
def sampleOf (src : Src) : Instr → Nat × Nat
  | .rdShared m | .rdUnique m | .upgrade m => (2, m.gaddr)
  | .rdOnce m => (match src with | .stream _ => 4 | _ => 0, m.gaddr)
  | .wrNc m _ _ _ => (1, m.gaddr)
  | .atomic m _ _ _ _ => (3, m.gaddr)
  | .bar2Read a _ _ => (0, a / 64)
  | .bar2Write a _ _ _ => (1, a / 64)
  | .bar2Atomic a _ _ _ _ _ _ => (3, a / 64)
  | _ => (3, 0)

/-- A request arrives at its port; its ingress path may tag it. Ingress records are never tagged (R513). -/
def arrive (src : Src) (c : Instr) (s : State) : State :=
  let id := s.dir.nextId
  let s := onDir (fun d => { d with
    nextId := d.nextId + 1
    held := d.held ++ [{ id := d.nextId, src, cmd := c, tick := s.tck.course }] }) s
  match pathOf src, c with
  | _, .accum _ _ => s
  | _, .orderBarrier _ _ => s
  | _, .complBarrier _ _ => s
  | some path, c => tagRequest path id (sampleOf src c).1 (rqOfSrc s src) (sampleOf src c).2 s
  | none, _ => s

/-! ## Answers in the form of each interface -/

/-- STATUS codes of R190 as commands and streams report them: the cause code of R328 and R272, and the code of R344. -/
def RStat.host : RStat → Nat
  | .ok => 0
  | .noRight => 2
  | .type => 2
  | .integrity => 5
  | .mediaExhausted => 6
  | .memberLost => 7
  | .protocol => 0

def RStat.stream : RStat → Nat
  | .ok => 0
  | .noRight => 2
  | .type => 3
  | .integrity => 5
  | .mediaExhausted => 6
  | .memberLost => 7
  | .protocol => 0

def RStat.cmd : RStat → Nat
  | .memberLost => 5
  | .mediaExhausted => 6
  | .noRight => 4
  | _ => 7

/-- A BAR2 refusal (R328): the first is kept in HST_ERR, and each records HOST_ACCESS. KIND: 0 read, 1 write, 2 AtomicOp. -/
def hostErr (kind cause addr : Nat) (bar4 : Bool) (s : State) : State :=
  let s := onHst (fun h =>
    if h.errValid then { h with errCount := sat 16 h.errCount 1 }
    else { h with
      errValid := true
      errCount := 0
      errBar4 := bar4
      errKind := kind
      errCause := cause
      errAddr := addr % 2 ^ 48 }) s
  let s := match cause with
    | 1 | 3 => emit (.aer 0) s
    | 2 | 6 | 7 => emit (.aer 1) s
    | 5 => emit (.aer 2) s
    | 8 => emit (.aer 3) s
    | _ => s
  count 8 0x14 1 (event 0x0801 8 (addr % 2 ^ 48 + cause * 2 ^ 60) s)

def cplOfCause (cause : Nat) : CplStat := if cause = 1 ∨ cause = 3 then .ur else .ca

/-- Write, or read, a granule for an internal source: a request that enters like any other (R221). -/
def internalWrite (src : Src) (parent gaddr : Nat) (d : Granule) (poison : Bool) (s : State) : State :=
  arrive src (.wrNc { port := .hal 0, agent := 0, txid := parent, gaddr, req := rqOfSrc s src } (BitVec.allOnes 64) d poison) s

def internalRead (src : Src) (parent gaddr : Nat) (s : State) : State :=
  arrive src (.rdOnce { port := .hal 0, agent := 0, txid := parent, gaddr, req := rqOfSrc s src }) s

def onRun (j : Nat) (f : CopyRun → CopyRun) : State → State := onCopy j fun c => { c with run := c.run.map f }

/-- A source granule of a COPY has been read (R348, R349). -/
def copyGot (j off : Nat) (d : Granule) (poison : Bool) (s : State) : State :=
  match (copyCh s j).run with
  | none => s
  | some r =>
    let s := onRun j (fun r => { r with back := r.back + 1 }) s
    let a := r.src / 64 + off
    let put := fun (z : Bool) (s : State) =>
      internalWrite (.copy j) off (r.dst / 64 + off) d z (onRun j (fun r => { r with wrIssued := r.wrIssued + 1 }) s)
    if !poison then count 9 0x10 1 (put false s)
    else if r.poisonOk then put true (onRun j (fun r => { r with poisoned := r.poisoned + 1 }) s)
    else onRun j (fun r => { r with
      ending := if r.ending = 0 then 7 else r.ending
      low := some (min (64 * a) (r.low.getD (64 * a))) }) s

/-- A granule of a COPY has been refused: the lowest address refused is reported (R344, R349). -/
def copyRefused (j off : Nat) (write : Bool) (st : RStat) (s : State) : State :=
  onRun j (fun r =>
    let a := (if write then r.dst else r.src) + 64 * off
    { r with
      back := if write then r.back else r.back + 1
      wrDone := if write then r.wrDone + 1 else r.wrDone
      resAddr := if r.ending = 0 then a else min a r.resAddr
      ending := if r.ending = 0 then st.cmd else r.ending }) s

/-- Fill or count the error log of a stream port, and record STREAM_ERROR (R274). -/
def streamError (p cause dir tag addr : Nat) (s : State) : State :=
  let s := onPort p (fun x =>
    if x.errValid then { x with errCount := sat 16 x.errCount 1 }
    else { x with
      errValid := true
      errCount := 0
      errTag := tag
      errCause := cause
      errDir := dir
      errTick := s.tck.count % 65536
      errAddr := addr % 2 ^ 48 }) s
  event 0x0601 (0x50 + p) (addr % 2 ^ 48 + cause * 2 ^ 60) s

def onEgRead (p i : Nat) (f : EgRead → EgRead) : State → State := onPort p fun x =>
  { x with inFlight := x.inFlight.map fun r => if r.id = i then f r else r }

/-- A granule of a playback read has been answered: `none` is poison. A line read that fails is logged once, with its cause and the first
granule that failed (R273, R274; DESIGN CHOICE, log 164). One whose words are no longer wanted is dropped on arrival (R268). -/
def egressGot (p i g : Nat) (d : Option Granule) (cause : Nat) (s : State) : State :=
  match (port s p).inFlight.find? fun r => r.id == i with
  | none => s
  | some r =>
    let s := onPort p (fun x => { x with inFlight := x.inFlight.filter fun q => q.id != i || !(r.dropped && decide (8 ≤ r.got.length + 1)) })
      (onEgRead p i (fun r => { r with got := r.got ++ [(g, d)] }) s)
    if d.isSome || r.dropped || (r.got.any fun q => q.2.isNone) then s
    else streamError p cause 1 0 ((r.gaddr + g) * 64) s

/-- The application of a combining entry has ended, with the cause of R272 when it was discarded: each of its records is logged and dropped on
its own port (R250, R272, R274). -/
def combDone (i cause : Nat) (s : State) : State :=
  match s.stm.comb.find? fun c => c.id == i with
  | none => s
  | some c =>
    let s := onStm (fun m => { m with comb := m.comb.filter fun x => x.id != i }) s
    if cause = 0 then count 5 0x11 1 (onStm (fun m => { m with cntApplied := sat 64 m.cntApplied 1 }) s)
    else
      each c.log (fun r s => streamError r.1 cause 0 r.2.1 r.2.2 (onPort r.1 (fun x => { x with cntDrop := sat 64 x.cntDrop 1 }) s)) s

/-- A granule of ciphertext has been read for the sealed import (R411). -/
def importGot (g : Nat) (d : Option Granule) : State → State := onCph fun c =>
  { c with imp := c.imp.map fun m => { m with got := tset none m.got g d, rd := m.rd + 1 } }

/-- Complete a host read whose granules have all been answered (R328). -/
def hostReadDone (tag : Nat) (s : State) : State :=
  match s.dir.hostRds.find? fun r => r.tag == tag with
  | none => s
  | some r =>
    let first := r.addr / 64
    let n := if r.len = 0 then 0 else (r.addr + r.len - 1) / 64 + 1 - first
    if r.got.length < n then s else
    let s := onDir (fun d => { d with hostRds := d.hostRds.filter fun x => x.tag != tag }) s
    let s := endSample r.id (32 * b2n (r.got.any fun p => match p.2 with | some (_, z) => z | none => false)) 0
      [true, true, false, false, false, false, true, true] s
    match r.bad with
    | some (cause, i) => emit (.cpl tag (cplOfCause cause) false []) (hostErr 0 cause ((first + i) * 64) false s)
    | none =>
      let bytes := (upto n).flatMap fun i =>
        match tget none r.got i with
        | some (g, _) => granuleBytes g 0 64
        | none => granuleBytes 0 0 64
      let ep := (upto n).find? fun i => (tget none r.got i).any (·.2)
      let s := match ep with
        | some i => hostErr 0 4 ((first + i) * 64) false s
        | none => s
      emit (.cpl tag .sc ep.isSome ((bytes.drop (r.addr % 64)).take r.len)) s

def hostGot (parent : Nat) (d : Granule) (poison : Bool) (s : State) : State :=
  let tag := parent / 128
  hostReadDone tag (onDir (fun x => { x with
    hostRds := x.hostRds.map fun r =>
      if r.tag = tag then { r with got := tset none r.got (parent % 128) (some (if poison then 0 else d, poison)) } else r }) s)

def hostBad (parent cause : Nat) (s : State) : State :=
  let tag := parent / 128
  hostReadDone tag (onDir (fun x => { x with
    hostRds := x.hostRds.map fun r =>
      if r.tag = tag then { r with got := tset none r.got (parent % 128) (some (0, false)), bad := r.bad <|> some (cause, parent % 128) } else r }) s)

/-! ## Answering a transaction -/

/-- The sample of a transaction that ends here. -/
def sampleTxn (t : Txn) (poison : Bool) (s : State) : State :=
  let fill := t.look == 1 || t.look == 2
  let flags := b2n (t.look == 0) + 2 * b2n (t.look == 2) + 4 * b2n t.mapRead + 8 * b2n t.overBudget + 32 * b2n poison
  let info := classOf s (t.req.lg / 8) + min 6 t.retry * 4
  each (t.req.id :: t.req.ids) (fun i s => endSample i flags info [true, t.look != 4, fill, fill, fill, fill, true, true] s) s

/-- A class A or B read whose data leaves after the limit of R49, 0.6 µs after the start of course c + 3 or c + 5, is counted (R50). Within
that course the commands mark 0.25 T and 0.95 T: what they leave open of the 0.6 µs is a free value (DESIGN CHOICE, log 8). -/
def checkBound (t : Txn) (s : State) : State :=
  let u := t.req.lg / 8
  let c := classOf s u
  let lim := t.req.tick + (if c = 0 then 3 else 5)
  let late := fun (s : State) => event 0x0105 1 (u % 32) (onTck (fun k => { k with viol := sat 32 k.viol 1 }) s)
  -- T / 16 µs is 0.25 T: 0.6 µs is 9.6 of those sixteenths
  let quarterLate := decide (96 ≤ 10 * quarters s)
  if 2 ≤ c ∨ s.tck.course < lim then s
  else if lim < s.tck.course ∨ s.tck.guard ∨ (s.tck.fixed ∧ quarterLate) then late s
  else if s.tck.fixed = false ∧ 10 * quarters s ≤ 96 then s
  else
    let (v, s) := free s
    if v % 2 = 0 then s else late s

/-- Send the data of a read to its requester (R201, R207). -/
def answerRead (t : Txn) (st : CacheSt) (d : Granule) (poison : Bool) (s : State) : State :=
  let r := t.req
  let s := checkBound t (sampleTxn t poison s)
  match r.src with
  | .hal _ => emit (.data r.agent r.txid (if st = .i then 0 else t.slot.getD 0) r.gaddr st poison (if poison then 0 else d)) s
  | .cop _ =>
    -- the notice that the line has been read goes to the requester's port (R227)
    emit (.data r.agent r.txid (if st = .i then 0 else t.slot.getD 0) r.gaddr st poison (if poison then 0 else d))
      (push (.notice r.agent r.txid r.gaddr) s)
  | .host => hostGot r.parent d poison s
  | .copy j => copyGot j r.parent d poison s
  | .stream p => egressGot p (r.parent / 8) (r.parent % 8) (if poison then none else some d) 4 s
  | .fw => importGot r.parent (if poison then none else some d) s
  | .dbg => emit (.debug (some (if poison then granuleBytes 0 (r.parent / 128 % 64) (r.parent % 128)
      else granuleBytes d (r.parent / 128 % 64) (r.parent % 128)))) s

/-- Refuse a request with a STATUS (R190) in the form of its interface; for media exhausted also with a trap (R482). -/
def refuse (src : Src) (id agent txid parent gaddr : Nat) (k : ReqKind) (st : RStat) (s : State) : State :=
  let s := endSample id 0 0 [true, false, false, false, false, false, false, true] s
  let s := if st = .noRight then denied s else if st = .mediaExhausted then trap 2 s else s
  match src with
  | .hal _ | .cop _ =>
    let s := if st = .protocol then onDir (fun d => { d with cntProto := sat 64 d.cntProto 1 }) s else s
    emit (.comp agent txid 0 gaddr .i st) s
  | .host =>
    match k with
    | .write => hostErr 1 st.host (gaddr * 64) false s
    | .atomic _ _ _ _ => emit (.cpl parent .ca false []) (hostErr 2 st.host (gaddr * 64) false s)
    | _ => hostBad parent st.host s
  | .copy j => copyRefused j parent (isWriteKind k) st s
  | .stream p =>
    match k with
    | .accum _ => combDone parent st.stream s
    | _ => egressGot p (parent / 8) (parent % 8) none st.stream s
  | .fw => importGot parent none s
  | .dbg => emit (.debug none) s

/-- Acknowledge a write, atomic or accumulate (R214); one that the home refuses as media exhausted only now is also a trap (R111, R482). -/
def answerWrite (t : Txn) (st : RStat) (s : State) : State :=
  let r := t.req
  let s := sampleTxn t false s
  let s := if st = .mediaExhausted then trap 2 s else s
  match r.src with
  | .hal _ | .cop _ => if r.acked then s else emit (.comp r.agent r.txid 0 r.gaddr .i st) s
  | .host => if st = .ok then s else hostErr 1 st.host (r.gaddr * 64) false s
  | .copy j =>
    if st = .ok then count 9 0x11 1 (onRun j (fun c => { c with wrDone := c.wrDone + 1 }) s)
    else copyRefused j r.parent true st s
  | .stream _ => combDone r.parent st.stream s
  | .fw => s
  | .dbg => emit (.debug (if st = .ok then some [] else none)) s

/-! ## The service of a transaction -/

/-- The transaction closes: the entry takes the recorded state, and the granule's queue moves on (R199). -/
def close (t : Txn) (s : State) : State := dropTxn t.req.id (record t.req.lg t.after s)

/-- The first transaction of the order for its granule, those that wait for their map update apart (R198). -/
def headOf (s : State) (t : Txn) : Bool :=
  match s.dir.txns.find? fun x => x.req.lg == t.req.lg && x.stage != .media with
  | some x => x.req.id == t.req.id
  | none => false

/-- The granule's entry is being evicted for another granule (R188). -/
def beingEvicted (s : State) (lg : Nat) : Bool :=
  match dirFind s lg with
  | some k => s.dir.txns.any fun t => t.victim == some k && t.stage == .snooping
  | none => false

/-- A read, or an AtomicOp's, that the home has not performed yet (R215). -/
def readPending (t : Txn) : Bool :=
  (isReadKind t.req.kind || (match t.req.kind with | .atomic _ _ _ _ => true | _ => false)) && t.stage != .ack && t.stage != .media

/-- A read to device memory that is not yet performed, of the same requester, before `t` in the order (R217, R231). -/
def deviceBefore (s : State) (t : Txn) : Bool :=
  (attrOf s (t.req.lg / 8)).device &&
    (s.dir.txns.takeWhile fun x => x.req.id != t.req.id).any fun x =>
      x.req.src == t.req.src && x.req.rq == t.req.rq && readPending x && (attrOf s (x.req.lg / 8)).device

/-- The state a granule takes when its snoops have been answered, and the answer's granted state (R201). -/
def afterSnoops (s : State) (t : Txn) : DirSt × CacheSt :=
  let a := t.req.agent
  let grantS := s.dir.readGrantEff == 1 || s.cch.holding
  let fresh : DirSt × CacheSt := if grantS then (.shared [a], .s) else (.owned a, .e)
  let own := t.snoops.find? fun x => x.lg == t.req.lg
  match t.req.kind with
  | .rdShared => match own with
    | some x =>
      if x.agent = a then fresh
      else if x.st = .i then (.shared [a], .s) else (.shared [x.agent, a], .s)
    | none => match t.after with
      | .uncached => fresh
      | d => (addHolder a d, .s)
  | .rdUnique | .upgrade => (.owned a, .e)
  | .rdOnce => match own with
    | some x => if x.st = .i then (.uncached, .i) else if x.st = .s then (.shared [x.agent], .i) else (.owned x.agent, .i)
    | none => (t.after, .i)
  | .maint 1 => match own with
    | some x => if x.st = .i then (.uncached, .i) else if x.st = .s then (.shared [x.agent], .i) else (.owned x.agent, .i)
    | none => (t.after, .i)
  | _ => (.uncached, .i)

/-- The snoops that a request calls for in a state (R201, R202). -/
def snoopPlan (k : ReqKind) (a : Nat) (d : DirSt) : List Nat × SnpKind :=
  match k, d with
  | .rdShared, .owned b => ([b], if a = b then .inv else .shared)
  | .rdShared, _ => ([], .shared)
  | .rdOnce, .owned b => ([b], .clean)
  | .rdOnce, _ => ([], .clean)
  | .maint 1, .owned b => ([b], .clean)
  | .maint 1, _ => ([], .clean)
  | .rdUnique, .owned b => ([b], .inv)
  | .rdUnique, d => ((holders d).filter (· != a), .inv)
  | .upgrade, .owned b => ([b], .inv)
  | .upgrade, d => ((holders d).filter (· != a), .inv)
  | _, d => (holders d, .inv)

/-- An upgrade of an exact holder is answered with COMP (R201). -/
def compUpgrade (k : ReqKind) (a : Nat) (d : DirSt) : Bool :=
  match k, d with
  | .upgrade, .shared l => decide (a ∈ l)
  | _, _ => false

/-- The victim entry of R188 in a set, when every way is valid. -/
def dirVictim (s : State) (set : Nat) : Option Nat :=
  let p := tget 0 s.dir.rr set
  let ways := ((upto 16).map fun i => (p + i) % 16).filterMap fun w =>
    let k := set * 16 + w
    match dirEnt s k with
    | some e =>
      if e.busy || decide (k ∈ s.dir.off) then none else
      let g := match e.st with
        | .shared l => (0, l.length)
        | .coarse _ _ => (1, (holders e.st).length)
        | _ => (2, 1)
      some (k, g)
    | none => none
  (bestOf (fun a b => keyLt [a.2.1, a.2.2] [b.2.1, b.2.2]) ways).map (·.1)

/-- A way of the set without an entry. -/
def dirFree (s : State) (set : Nat) : Option Nat :=
  ((upto 16).map fun w => set * 16 + w).find? fun k => (dirEnt s k).isNone && !decide (k ∈ s.dir.off)

/-- A transaction starts (R199): it takes its snoop slot, its directory way, and sends its snoops. -/
def startTxn (t : Txn) (s : State) : State :=
  let r := t.req
  let lg := r.lg
  let d := dirState s lg
  let (list, kind) := snoopPlan r.kind r.agent d
  let entry := isCaching r.kind && (dirFind s lg).isNone
  let needs := isCaching r.kind || !list.isEmpty
  let slot := if needs then freeSlot s else none
  if needs && slot.isNone then s else
  let s := count 4 0x10 1 s
  if entry then
    match dirFree s (dirSet lg) with
    | some k =>
      setDirEnt k (some { tag := dirTag lg, st := .uncached, busy := true })
        (onTxn r.id (fun t => { t with stage := .snooping, slot, after := .uncached }) s)
    | none => match dirVictim s (dirSet lg) with
      | none => s
      | some k =>
        match dirEnt s k with
        | none => s
        | some e =>
          let vg := dirGranule (dirSet lg) e.tag
          let s := setDirEnt k (some { e with busy := true }) s
          let s := onTxn r.id (fun t => { t with stage := .snooping, slot, after := .uncached, victim := some k }) s
          let s := onDir (fun x => { x with rr := tset 0 x.rr (dirSet lg) ((k + 1) % 16), cntEvict := sat 64 x.cntEvict 1 }) s
          each (holders e.st) (sendSnoop r.id (slot.getD 0) vg .inv) (count 4 0x11 1 s)
  else
    let s := match dirFind s lg with
      | some k => match dirEnt s k with
        | some e => setDirEnt k (some { e with busy := true }) s
        | none => s
      | none => s
    let s := onTxn r.id (fun t => { t with stage := .snooping, slot, after := d }) s
    each list (sendSnoop r.id (slot.getD 0) lg kind) s

/-- A reserved entry of the granule has still to be merged (R198). -/
def mergeWaits (s : State) (lg : Nat) : Bool := s.ord.gbs.any fun g => g.lg == lg && g.rsv != 0

/-- Every snoop has been answered: a victim's way is taken, and the state is recorded in the slot. -/
def endSnoops (t : Txn) (s : State) : State :=
  let s := match t.victim with
    | some k => setDirEnt k (some { tag := dirTag t.req.lg, st := .uncached, busy := true }) s
    | none => s
  onTxn t.req.id (fun x => { x with stage := .line, after := (afterSnoops s t).1 }) s

/-- A page is refused writes and ownership because its banks are read-only (R111). -/
def exhausted (s : State) (u : Nat) : Bool :=
  if s.med.readOnly.isEmpty then false
  else if classOf s u ≤ 1 then decide (placedBank s u ∈ s.med.readOnly)
  else (allBanks s).all fun b => decide (b ∈ s.med.readOnly)

/-- One word of an accumulate applied to its old value (R248). -/
def applyWord (c : CombWord) (w : BitVec 64) : BitVec 64 :=
  match c.kind with
  | .none => w
  | .bit => (w &&& ~~~c.b) ||| c.a
  | .sat8 => BitVec.ofNat 64 (leVal ((upto 8).map fun i =>
      BitVec.ofNat 8 (min 255 ((w.extractLsb' (8 * i) 8).toNat + (c.a.extractLsb' (8 * i) 8).toNat))))
  | .sat16 => (upto 4).foldl (fun (v : BitVec 64) i =>
      v ||| (BitVec.ofNat 64 (min 65535 ((w.extractLsb' (16 * i) 16).toNat + (c.a.extractLsb' (16 * i) 16).toNat)) <<< (16 * i))) 0
  | .first => if w = 0 then c.a else w

/-- An accumulate applied to a granule. -/
def applyAccum (ws : List CombWord) (g : Granule) : Granule :=
  (upto 8).foldl (fun (v : Granule) i =>
    let w : BitVec 64 := g.extractLsb' (64 * i) 64
    v ||| ((applyWord ((nth ws i).getD {}) w).setWidth 512 <<< (64 * i))) 0

/-- The result of an AtomicOp (R322): operand and, for CAS, compare value; `size` 0 to 2 for 32, 64 and 128 bits. -/
def applyAtomic (op : AtomicOp) (size : Nat) (old operand cmp : Nat) : Nat :=
  let n := 2 ^ (32 * 2 ^ size)
  match op with
  | .fetchAdd => (old + operand) % n
  | .swap => operand % n
  | .cas => if old % n = cmp % n then operand % n else old

/-- A write merged in region memory: acknowledged now, or at the map update while its data leaves (R214, R162). A line that
stays Poisoned has no map update to wait for. -/
def finishWrite (t : Txn) (st : RStat) (s : State) : State :=
  let u := t.req.lg / 8
  let s := match t.req.gb with | some i => dropGb i s | none => s
  let s := record t.req.lg t.after s
  if st = .ok && writtenThrough s u && (lineOfPage s u).st == .evicting then onTxn t.req.id (fun x => { x with stage := .media, slot := none }) s
  else dropTxn t.req.id (answerWrite t st s)

/-- Look the line up for a transaction: what writes waits for a maintenance command that took the line lock before it (R168). Its lookup is counted once, and a read that has to wait for a fill is noted (R152). A read that found
the line Filling counts when the fill ends, as a hit (DESIGN CHOICE, log 135). -/
def lookTxn (t : Txn) (mode cls : Nat) (s : State) : Option Nat × State :=
  if mode != 0 && lockedBefore s (t.req.lg / 8) t.req.id then (none, s) else
  let (l, s) := lookup t.req.id (t.req.lg / 8) mode cls t.req.tick s
  let s := if mode = 0 ∧ l.way = none ∧ (lineOfPage s (t.req.lg / 8)).st = .filling then onTxn t.req.id (fun x => { x with fillWait := true }) s else s
  if t.look = 4 ∧ l.kind ≠ 3 then (l.way, onTxn t.req.id (fun x => { x with look := l.kind }) (countLook l s)) else (l.way, s)

/-- A home atomic or accumulate at its line (R205, R206): `f` gives the new granule from the old one. What is not applied is not counted
(R209). -/
def homeAtomic (t : Txn) (k : Nat) (f : Granule → Granule) (ans : Granule → Bool → RStat → State → State) (s : State) : State :=
  let u := t.req.lg / 8
  let g := t.req.lg % 8
  let i := lineOf u
  let s := useRecord k i s
  let l := lineIn (way s k) i
  let done := fun (s : State) => dropTxn t.req.id (record t.req.lg t.after s)
  if l.st = .poisoned then done (ans 0 true .ok s)
  else if l.tagOk = false then
    let s := poisonLine k i 0 (event 0x0402 3 (u * 512) (tagFail s))
    done (ans 0 true .integrity s)
  else
    let old := lineGranule (plain s k i) g
    let s := count 2 0x15 1 (onDir (fun d => { d with cntAtomic := sat 64 d.cntAtomic 1 }) s)
    let (st, s) := writeLine k u g (f old) (BitVec.allOnes 64) false s
    let s := record t.req.lg t.after s
    if writtenThrough s u && (lineOfPage s u).st == .evicting then
      onTxn t.req.id (fun x => { x with stage := .media, slot := none, req := { x.req with data := old } }) s
    else dropTxn t.req.id (ans old false st s)

/-- The answer of an AtomicOp: the original value, or poison (R206, R285, R328). -/
def answerAtomic (t : Txn) (size off : Nat) (old : Granule) (poison : Bool) (st : RStat) (s : State) : State :=
  let n := 4 * 2 ^ size
  let v := granuleOf off (granuleBytes old off n)
  match t.req.src with
  | .host =>
    if st = .integrity then emit (.cpl t.req.parent .ca false []) (hostErr 2 5 (t.req.gaddr * 64) false s)
    else if poison then emit (.cpl t.req.parent .sc true (leBytes n 0)) (hostErr 2 4 (t.req.gaddr * 64) false s)
    else emit (.cpl t.req.parent .sc false (granuleBytes old off n)) s
  | _ =>
    if st = .integrity then emit (.comp t.req.agent t.req.txid 0 t.req.gaddr .i st) s
    else emit (.data t.req.agent t.req.txid 0 t.req.gaddr .i poison (if poison then 0 else v)) s

/-- The answer of an accumulate: COMP, or the cause of R272; POISONED is cause 4. -/
def answerAccum (t : Txn) (poison : Bool) (st : RStat) (s : State) : State :=
  match t.req.src with
  | .stream _ => combDone t.req.parent (if st = .integrity then 5 else if poison then 4 else 0) s
  | _ => emit (.comp t.req.agent t.req.txid 0 t.req.gaddr .i (if poison then .integrity else st)) s

/-- The state that a granule keeps when its transaction ends without its grant: what the snoop answers left (R190, R208). -/
def ungranted (s : State) (t : Txn) : DirSt :=
  match t.req.kind, dirState s t.req.lg with
  | .rdShared, .owned b =>
    match t.snoops.find? fun x => x.lg == t.req.lg && x.agent == b with
    | some x => if x.st = .i then .uncached else .shared [b]
    | none => .owned b
  | .rdShared, d => d
  | _, .shared l => if t.req.agent ∈ l then .shared [t.req.agent] else .uncached
  | _, .coarse ms ps => if t.req.agent ∈ holders (.coarse ms ps) then .coarse ms ps else .uncached
  | _, _ => .uncached

/-- A started read whose agent has been lost ends without an answer or a grant (R208; DEDUCED, log 138). -/
def closeLost (t : Txn) (s : State) : State :=
  let d := if t.req.kind = .rdOnce then t.after else ungranted s t
  close { t with after := match d with | .coarse ms ps => .coarse ms ps | d => removeHolder t.req.agent d } s

/-- A request of this kind would add the line of a page to D (R173, R175): no line of a region that is written through, none that an owner's
grant has added already, no Dirty one; a Poisoned one only when a write may complete its cover. A line whose data is leaving is Clean, or not
counted, by the time the request reaches it (DEDUCED, log 137). -/
def raisesD (s : State) (k : ReqKind) (u : Nat) : Bool :=
  let l := lineOfPage s u
  !writtenThrough s u && !decide (u ∈ ownedPages s) && match l.st with
    | .invalid | .clean | .filling | .evicting => true
    | .dirty => false
    | .poisoned => k == .write && (l.cleaning || !lineCounts s u l)

/-- A request of this kind makes its line count in D once it is served. -/
def willDirty : ReqKind → Bool
  | .rdUnique | .upgrade | .write | .atomic _ _ _ _ | .accum _ => true
  | _ => false

/-- Bytes that requests already admitted will add to D (DEDUCED, log 137): R175 lets D reach L and no further, so they are counted from their
admission on. Gather entries count for themselves (R173, R222). -/
def comingBytes (s : State) : Nat :=
  512 * ((s.dir.txns.filter fun t => t.req.gb.isNone && willDirty t.req.kind && t.stage != .ack && t.stage != .media
    && raisesD s t.req.kind (t.req.lg / 8)).map fun t => t.req.lg / 8).eraseDups.length

/-- The hold of R175 is in force for a request that is looked at now. -/
def holdNow (s : State) : Bool :=
  s.cch.holding || (s.glb.memReady && !strictAll s && decide (limitUnits s * 512 ≤ dirtyBytes s + comingBytes s))

/-- A transaction reads or writes its line (R198, R205). -/
def lineTxn (t : Txn) (s : State) : State :=
  let r := t.req
  let u := r.lg / 8
  let g := r.lg % 8
  -- a read that waits on a fill receives the fill's data (R152): what its granule's owner has written back since comes after it
  if !t.fillWait && mergeWaits s r.lg then s else
  match r.kind with
  | .rdShared | .rdUnique | .upgrade | .rdOnce =>
    -- the hold of R175 may have come into force since the snoops were answered: no new ownership is granted then (R196)
    let t := if r.kind == .rdShared && t.after == .owned r.agent && (s.cch.holding || (holdNow s && raisesD s .rdShared u)) then
      { t with after := .shared [r.agent] } else t
    let s := onTxn r.id (fun x => { x with after := t.after }) s
    let st : CacheSt := match r.kind with
      | .rdOnce => .i
      | .rdShared => match t.after with | .owned _ => .e | _ => .s
      | _ => .e
    if t.lost then closeLost t s
    else if (match r.kind with | .rdUnique | .upgrade => exhausted s u | _ => false) then
      -- found read-only meanwhile: the snoops stand, and nothing is granted (R190)
      close { t with after := ungranted s t } (refuse r.src r.id r.agent r.txid r.parent r.gaddr r.kind .mediaExhausted s)
    else if compUpgrade r.kind r.agent (dirState s r.lg) then
      onTxn r.id (fun x => { x with stage := .ack }) (emit (.comp r.agent r.txid (t.slot.getD 0) r.gaddr .e .ok) s)
    else
      match lookTxn t 0 (classOf s u) s with
      | (none, s) => s
      | (some k, s) =>
        match readLine k u g s with
        | (none, s) => s
        | (some (d, poison), s) =>
          let t := (txnOf s r.id).getD t
          let s := answerRead t st d poison s
          if st = .i then close t s else onTxn r.id (fun x => { x with stage := .ack }) s
  | .write =>
    if exhausted s u && r.gb.isNone then finishWrite t .mediaExhausted s
    else if r.whole.isSome then
      let all := s.dir.txns.filter fun x => x.req.whole == r.whole && x.req.lg / 8 == u && x.stage == .line
      if all.length < 8 then s else
      match lookTxn t 2 2 s with
      | (none, s) => s
      | (some k, s) =>
        let d := all.foldl (fun d x => setGranule d (x.req.lg % 8) x.req.data) (0 : LineData)
        let s := writeWhole k u d r.poison s
        each all (fun x s => finishWrite x .ok s) s
    else
      match lookTxn t 1 2 s with
      | (none, s) => s
      | (some k, s) =>
        let (st, s) := writeLine k u g r.data r.mask r.poison s
        finishWrite ((txnOf s r.id).getD t) st s
  | .atomic op size off cmp =>
    match lookTxn t 1 2 s with
    | (none, s) => s
    | (some k, s) =>
      let n := 4 * 2 ^ size
      let f := fun (old : Granule) =>
        let v := applyAtomic op size (leVal (granuleBytes old off n)) (leVal (granuleBytes r.data off n)) cmp.toNat
        mergeBytes old (granuleOf off (leBytes n v)) (maskOf off n)
      homeAtomic t k f (fun old p st s => answerAtomic t size off old p st s) s
  | .accum ws =>
    match lookTxn t (if warned s then 3 else 1) 2 s with
    | (none, s) => s
    | (some k, s) => homeAtomic t k (applyAccum ws) (fun _ p st s => answerAccum t p st s) s
  | .maint _ => close t s

/-- One step of a transaction. -/
def txnStep (i : Nat) (s : State) : State :=
  match txnOf s i with
  | none => s
  | some t =>
    match t.stage with
    | .queued => if headOf s t && !deviceBefore s t && !beingEvicted s t.req.lg then startTxn t s else s
    | .snooping => if snoopsDone t then endSnoops t s else s
    | .line => lineTxn t s
    | .media =>
      if mapReached s (t.req.lg / 8) t.wseq then
        match t.req.kind with
        | .atomic _ size off _ => dropTxn i (answerAtomic t size off t.req.data false .ok s)
        | .accum _ => dropTxn i (answerAccum t false .ok s)
        | .maint _ => dropTxn i (emit (.wbAck t.req.agent t.req.gaddr .ok) s)
        | _ => dropTxn i (answerWrite t .ok s)
      else s
    | .ack => s

/-! ## W messages and snoop data (R194, R195, R200) -/

/-- An open snoop waits for the response of the sender of this entry. -/
def wHeld (s : State) (g : GbEnt) : Bool :=
  g.rsv == 1 && s.dir.txns.any fun t => t.snoops.any fun x => x.agent == g.agent && x.lg == g.lg && x.w && !x.resp

/-- A reserved entry's data is written into its line as a write of one whole granule (R198). An INVALIDATE discards it
(R202). WB_ACK follows the region's rule (R200, R214). In Stop it waits for the wake (R462). Its lookup is counted once. What has arrived, or
was sent, earlier for the granule is written first. -/
def mergeEntry (g : GbEnt) (s : State) : State :=
  if g.rsv = 0 ∨ wHeld s g ∨ inStop s ∨ inSink s g ∨ ((s.ord.gbs.takeWhile fun x => x.id != g.id).any fun x => x.rsv != 0 && x.lg == g.lg) then s else
  let u := g.lg / 8
  let early := (attrOf s u).early && !(attrOf s u).device && !writtenThrough s u
  let s := if g.rsv = 1 ∧ g.acked = false ∧ early then
    emit (.wbAck g.agent g.gaddr .ok) (onGb g.id (fun x => { x with acked := true }) s) else s
  let acked := g.acked || (g.rsv == 1 && early)
  let toss := s.dir.txns.any fun t => t.req.kind == .maint 3 && t.req.lg == g.lg && t.busy
  if toss then
    let s := if g.rsv = 1 ∧ !acked then emit (.wbAck g.agent g.gaddr .ok) s else s
    dropGb g.id s
  else
    let (l, s) := lookup g.id u 1 2 s.tck.course s
    let s := if g.looked || l.kind == 3 then s else onGb g.id (fun x => { x with looked := true }) (countLook l s)
    match l.way with
    | none => s
    | some k =>
      let (_, s) := writeLine k u (g.lg % 8) g.data (BitVec.allOnes 64) g.poison s
      let s := dropGb g.id s
      if g.rsv = 1 ∧ !acked then
        if writtenThrough s u && (lineOfPage s u).st == .evicting then
          let r : Req :=
            { id := nextReq s, src := g.src, rq := g.rq, kind := .maint 0, txid := 0, agent := g.agent, gaddr := g.gaddr, lg := g.lg
              tick := s.tck.course, ids := g.reqs }
          onDir (fun d => { d with txns := d.txns ++ [{ req := r, stage := .media }] }) (takeId s)
        else emit (.wbAck g.agent g.gaddr .ok) s
      else s

/-- Put data into a reserved entry: 1 a W message, 2 SNP_DATA (R195). An agent's SNP_DATA is older than its W message for the granule, which
may have overtaken it (R189): it stands before that one. -/
def reserve (src : Src) (agent gaddr lg rsv : Nat) (d : Granule) (poison : Bool) (s : State) : State :=
  let id := nextReq s
  let g : GbEnt :=
    { id, buf := bufOf src, rq := agent / 8 * 16 + agent % 8, lg, gaddr, mask := BitVec.allOnes 64, data := d, poison, device := false
      relaxed := true, rsv, drained := true, txid := 0, agent, acked := false, src, reqs := [id] }
  let newer := fun (x : GbEnt) => rsv == 2 && x.rsv == 1 && x.agent == agent && x.lg == lg
  notePeak (bufOf src) (onOrd (fun o => { o with
    gbs := o.gbs.takeWhile (fun x => !newer x) ++ [g] ++ o.gbs.dropWhile fun x => !newer x }) (takeId s))

/-- The transaction with a snoop to the agent for the granule still open. -/
def openSnoop (s : State) (a lg : Nat) : Option Txn :=
  s.dir.txns.find? fun t => t.snoops.any fun x => x.agent == a && x.lg == lg && !(x.resp && (!x.evicted || x.w))

/-- The recorded state of a granule: in its open transaction's slot, else in its entry (R200). -/
def recordedState (s : State) (lg : Nat) : DirSt :=
  match s.dir.txns.find? fun t => t.busy && t.req.lg == lg with
  | some t => t.after
  | none => dirState s lg

/-- An agent leaves the state that a granule's entry holds, also while the granule is Busy: an exact entry loses the holder. -/
def leaveEnt (a lg : Nat) (s : State) : State :=
  match dirFind s lg with
  | some k => match dirEnt s k with
    | some e => setDirEnt k (some { e with st := removeHolder a e.st }) s
    | none => s
  | none => s

/-- An agent leaves the recorded state of a granule (R200): in its open transaction's slot, and in its entry. An entry that is being evicted is
freed with its snoops (R188). -/
def leaveRecorded (a lg : Nat) (s : State) : State :=
  match s.dir.txns.find? fun t => t.busy && t.req.lg == lg with
  | some t => leaveEnt a lg (onTxn t.req.id (fun x => { x with after := removeHolder a x.after }) s)
  | none => if beingEvicted s lg then s else record lg (removeHolder a (dirState s lg)) s

def onSnoop (i a lg : Nat) (f : Snoop → Snoop) : State → State := onTxn i fun t =>
  { t with snoops := t.snoops.map fun x => if x.agent = a ∧ x.lg = lg then f x else x }

/-- WB_DIRTY arrives (R200). -/
def takeWb (src : Src) (a gaddr lg : Nat) (d : Granule) (poison : Bool) (s : State) : State :=
  let s := count 2 0x11 1 s
  match openSnoop s a lg with
  | some t =>
    reserve src a gaddr lg 1 d poison (onSnoop t.req.id a lg (fun x => { x with w := true, st := .i }) s)
  | none =>
    if recordedState s lg = .owned a then
      reserve src a gaddr lg 1 d poison (leaveRecorded a lg s)
    else
      emit (.wbAck a gaddr .protocol) (event 0x0501 2 a (onDir (fun x => { x with cntProto := sat 64 x.cntProto 1 }) s))

/-- EVICT_CLEAN arrives (R200). -/
def takeEvict (a gaddr lg : Nat) (s : State) : State :=
  let s := count 2 0x11 1 s
  match openSnoop s a lg with
  | some t =>
    let answered := t.snoops.any fun x => x.agent == a && x.lg == lg && x.resp
    let s := onSnoop t.req.id a lg (fun x => { x with w := true, st := .i }) s
    if answered then emit (.wbAck a gaddr .ok) s else s
  | none =>
    let d := recordedState s lg
    emit (.wbAck a gaddr .ok) (if a ∈ holders d then leaveRecorded a lg s else s)

/-- A snoop response arrives for a snoop slot (R192, R194). `data` is that of SNP_DATA. -/
def takeResp (src : Src) (a htid gaddr lg : Nat) (st : CacheSt) (evicted : Bool) (data : Option (Granule × Bool)) (s : State) : State :=
  match s.dir.txns.find? fun t => t.slot == some htid && t.snoops.any fun x => x.agent == a && x.lg == lg && !x.resp with
  | none => s
  | some t =>
    match t.snoops.find? fun x => x.agent == a && x.lg == lg && !x.resp with
    | none => s
    | some x =>
      let s := if evicted then count 4 0x12 1 (onDir (fun d => { d with cntCross := sat 64 d.cntCross 1 }) s) else s
      let s := if st = .i ∧ evicted = false ∧ data = none ∧ x.kind ≠ .inv then
        onDir (fun d => { d with cntSpur := sat 64 d.cntSpur 1 }) s else s
      let s := onSnoop t.req.id a lg (fun y => { y with resp := true, evicted, st := if y.w then .i else st }) s
      let s := if t.victim.isNone ∧ st = .i then onTxn t.req.id (fun t => { t with after := removeHolder a t.after }) s else s
      match data with
      | some (d, p) => reserve src a gaddr lg 2 d p s
      | none =>
        -- a held WB_ACK of EVICT_CLEAN is sent now; that of WB_DIRTY follows its data (R200)
        if x.w && (s.ord.gbs.all fun g => !(g.rsv == 1 && g.agent == a && g.lg == lg)) then emit (.wbAck a gaddr .ok) s else s

/-- ACK: the snoop slot is released and the transaction closes (R197). -/
def takeAck (a htid : Nat) (s : State) : State :=
  match s.dir.txns.find? fun t => t.slot == some htid && t.stage == .ack && t.req.agent == a with
  | some t => close t s
  | none => s

/-! ## Lost agents (R208) -/

/-- A snoop to the agent is not answered yet, or its W message has not come. -/
def snoopOpen (a : Nat) (x : Snoop) : Bool := x.agent == a && !(x.resp && (!x.evicted || x.w))

/-- Granules whose recorded state is Owned by the agent: of entries, of open transactions, and of entries being evicted (R208). A transaction
that has had the agent's W message, or its answer to SNP_SHARED, or has yet to grant it, does not record it as owner. -/
def ownedBy (s : State) (a : Nat) : List Nat :=
  (s.dir.ents.filterMap fun p => match p.2 with
    | some e => if e.st = .owned a ∧ e.busy = false then some (dirGranule (p.1 / 16) e.tag) else none
    | none => none)
  ++ (s.dir.txns.filterMap fun t =>
    if t.busy ∧ t.after = .owned a ∧ !(t.stage == .line && isCaching t.req.kind && t.req.agent == a)
      ∧ !(t.snoops.any fun x => x.agent == a && x.lg == t.req.lg && (x.w || (x.resp && x.st != .e))) then some t.req.lg else none)
  ++ (s.dir.txns.filterMap fun t => match t.victim with
    | some k => match dirEnt s k with
      | some e =>
        let lg := dirGranule (k / 16) e.tag
        if t.stage = .snooping ∧ e.st = .owned a ∧ (t.snoops.any fun x => snoopOpen a x && !x.w && x.lg == lg) then some lg else none
      | none => none
    | none => none)

/-- An agent is lost (R208): its requests that are still queued are dropped, those that have started end without an answer, what it owes is
taken as received, and what it owns is poisoned. A WR_NC that waits in its granule's queue was performed when it joined it (R198, R215): it is no
request still queued, and stays (DESIGN CHOICE, log 167). Its port then finds nothing of it outstanding (R562). -/
def loseAgent (a : Nat) (s : State) : State :=
  let link := fun (r : Src) => match r with | .hal _ | .cop _ => true | _ => false
  let s := onDir (fun d => { d with
    held := d.held.filter fun h => match h.cmd with
      | .rdShared m | .rdUnique m | .upgrade m | .rdOnce m | .wrNc m _ _ _ | .orderBarrier m _ | .complBarrier m _ =>
        !(link h.src && agentOf s m == a)
      | _ => true
    barriers := d.barriers.filter fun b => b.agent != a
    fwds := d.fwds.filter fun f => !(link f.src && f.agent == a)
    txns := d.txns.filter fun t => !(t.stage == .queued && isReadKind t.req.kind && t.req.agent == a && link t.req.src) }) s
  let s := each (s.dir.txns.filter fun t => t.stage == .ack && t.req.agent == a) close s
  let owned := ownedBy s a
  let s := onDir (fun d => { d with
    txns := d.txns.map fun t => { t with
      snoops := t.snoops.map fun x => if snoopOpen a x then { x with resp := true, evicted := false, st := .i } else x
      after := match t.after with
        | .shared l => if t.busy then removeHolder a (.shared l) else t.after
        | _ => t.after
      lost := t.lost || (isReadKind t.req.kind && t.req.agent == a && link t.req.src)
      req := if t.req.agent = a ∧ link t.req.src then { t.req with acked := true } else t.req } }) s
  let s := onOrd (fun o => { o with
    gbs := o.gbs.map fun g => if g.rsv = 0 ∧ g.agent = a ∧ link g.src then { g with acked := true } else g
    away := o.away.filter fun w => !(link w.src && w.agent == a) }) s
  let s := each owned (fun lg s => reserve .fw a (groupAddr s (lg * 64) / 64) lg 2 0 true (leaveRecorded a lg s)) s
  let s := each s.dir.ents (fun p s => match p.2 with
    | some e => match e.st with
      | .shared _ => if e.busy then setDirEnt p.1 (some { e with st := removeHolder a e.st }) s else record (dirGranule (p.1 / 16) e.tag) (removeHolder a e.st) s
      | _ => s
    | none => s) s
  let s := onDir (fun d => { d with lost := d.lost ||| (1 <<< a) }) s
  event 0x0502 2 (a + 256 * owned.length) s

/-! ## Entry of requests -/

/-- A forwarded W message, which waits for its WB_ACK and takes no slot (R195, R226). -/
def isWFwd (f : Fwd) : Bool :=
  match f.cmd with
  | .wbDirty _ _ _ | .evictClean _ _ => true
  | _ => false

/-- Requests of a class in flight (R14, R15). A host request that spans several granules counts once for each of them (DESIGN CHOICE,
log 142). -/
def inFlight (s : State) (src : Src) : Nat :=
  (s.dir.txns.filter fun t => t.req.src == src && !t.req.acked && t.req.kind != .maint 0).length
    + (s.ord.gbs.filter fun g => g.src == src && g.rsv == 0 && !g.acked && !g.drained).length
    + (s.dir.fwds.filter fun f => f.src == src && !isWFwd f).length
    + (s.dir.barriers.filter fun b => match src with | .hal p => b.port == p | .cop l => b.port == 8 + l | _ => false).length

/-- Slots of a class (R14). The 512 of a Coping port, which R14 does not give, are DESIGN CHOICE, log 142. The slots of the stream ports are
counted where their requests begin, one for each line or combining entry (R243). -/
def slotsOf : Src → Nat
  | .host => 1024
  | .hal _ | .cop _ => 512
  | .copy _ => 64
  | .stream _ => 1000000
  | .dbg => 1
  | .fw => 1000000

/-- An earlier read, by number, is not yet performed (R215, R227). -/
def readWaits (s : State) (i : Nat) : Bool :=
  (s.dir.held.any fun h => h.id == i)
    || (s.dir.txns.any fun t => t.req.id == i && t.stage != .ack && t.stage != .media)
    || s.dir.fwds.any fun f => f.req == i && !f.noticed

/-- An earlier read has not delivered its data (R228). -/
def readOpen (s : State) (i : Nat) : Bool :=
  (s.dir.held.any fun h => h.id == i)
    || (s.dir.txns.any fun t => t.req.id == i && t.stage != .ack && t.stage != .media) || s.dir.fwds.any fun f => f.req == i

/-- An earlier write is not yet performed. -/
def writeWaits (s : State) (i : Nat) : Bool :=
  (s.dir.held.any fun h => h.id == i) || (s.ord.gbs.any fun g => decide (i ∈ g.reqs) && !g.drained)
    || (s.dir.fwds.any fun f => f.req == i) || s.ord.away.any fun w => w.req == i && !w.performed

/-- An earlier write has not reached its durability point (R228). -/
def writeOpen (s : State) (i : Nat) : Bool :=
  writeWaits s i || (s.ord.gbs.any fun g => decide (i ∈ g.reqs)) || (s.dir.txns.any fun t => decide (i ∈ t.req.ids) || t.req.id == i)
    || s.ord.away.any fun w => w.req == i

/-- The message of a request on a link. -/
def msgOf : Instr → Option Msg
  | .rdShared m | .rdUnique m | .upgrade m | .rdOnce m | .wrNc m _ _ _ | .orderBarrier m _ | .complBarrier m _
  | .atomic m _ _ _ _ | .accum m _ => some m
  | _ => none

def isReadCmd : Instr → Bool
  | .rdShared _ | .rdUnique _ | .upgrade _ | .rdOnce _ => true
  | _ => false

def isBarrierCmd : Instr → Bool
  | .orderBarrier _ _ | .complBarrier _ _ => true
  | _ => false

def coversHome (homes h : Nat) : Bool := homes == 0 || bitOf homes h

/-- A barrier of the agent holds the request (R227): `sel` selects the pairs. -/
def barrierHolds (s : State) (src : Src) (a : Nat) (h : Held) : Bool :=
  s.dir.barriers.any fun b =>
    b.agent == a && (match src with | .hal p => b.port == p | .cop l => b.port == 8 + l | _ => false) && decide (b.id < h.id) &&
    (if isReadCmd h.cmd then
        (bitOf b.sel 1 && b.reads.any (readWaits s)) || (bitOf b.sel 2 && b.writes.any (writeWaits s))
      else
        (bitOf b.sel 3 && b.reads.any (readWaits s)) || (bitOf b.sel 0 && b.writes.any (writeWaits s)))

/-- The import of R411 holds writes and ownership of its destination. -/
def importHolds (s : State) (u : Nat) : Bool :=
  match s.cph.imp with
  | some m => match decodeAddr s m.dst with
    | .here a => decide (a / 512 ≤ u) && decide (u < (a + m.len) / 512)
    | _ => false
  | none => false

/-- The hold of R175 stands against a request of this kind to a page; `fresh` when it would take a new gather entry. -/
def dirtyHolds (s : State) (k : ReqKind) (u : Nat) (fresh : Bool) : Bool :=
  holdNow s && match k with
    | .write => !writtenThrough s u && (fresh || raisesD s k u)
    | .accum _ => raisesD s k u && !warned s
    | k => willDirty k && raisesD s k u

/-- An earlier request of the agent for the granule has no answer yet (R193). -/
def outstanding (s : State) (h : Held) (a gaddr : Nat) : Bool :=
  (s.dir.txns.any fun t => t.req.agent == a && t.req.gaddr == gaddr && t.stage != .ack && !t.req.acked && !t.lost && t.req.kind != .maint 0
      && (match t.req.src with | .hal _ | .cop _ => true | _ => false))
    || (s.ord.gbs.any fun g => g.rsv == 0 && g.agent == a && g.gaddr == gaddr && !g.acked && !g.drained
      && (match g.src with | .hal _ | .cop _ => true | _ => false))
    || (s.dir.fwds.any fun f => f.agent == a && f.gaddr == gaddr && !isWFwd f && (match f.src with | .hal _ | .cop _ => true | _ => false))
    || s.dir.held.any fun x => decide (x.id < h.id) && x.src == h.src && match msgOf x.cmd with
      | some m => !isBarrierCmd x.cmd && m.gaddr == gaddr && agentOf s m == a
      | none => false

/-- An address of group memory is device memory (R210). -/
def isDevice (s : State) (gaddr : Nat) : Bool :=
  match decodeAddr s (gaddr * 64) with
  | .here a => (attrOf s (a / 512)).device
  | .remote h a => Config.remoteDevice (h * 2 ^ 19 + a / 2 ^ 26)
  | .unbacked => false

/-- The granules of a byte range, with the bytes of each: granule number, byte offset, bytes. -/
def pieces (addr len : Nat) : List (Nat × Nat × Nat) :=
  if len = 0 then [] else
  (upto ((addr + len - 1) / 64 + 1 - addr / 64)).map fun i =>
    let g := addr / 64 + i
    let lo := max addr (g * 64)
    let hi := min (addr + len) (g * 64 + 64)
    (g, lo - g * 64, hi - lo)

/-- A waiting request accesses device memory; every other access of the host is one to BAR0 or BAR4 (R210). -/
def heldDevice (s : State) (x : Held) : Bool :=
  match x.cmd with
  | .bar2Read a n _ => (pieces a n).any fun p => isDevice s p.1
  | .bar2Write a d _ _ => (pieces a d.length).any fun p => isDevice s p.1
  | .bar2Atomic a _ _ _ _ _ _ => isDevice s (a / 64)
  | c => match msgOf c with
    | some m => !isBarrierCmd c && isDevice s m.gaddr
    | none => x.src == .host

/-- The requester number of a waiting request. -/
def heldRq (s : State) (x : Held) : Nat :=
  match x.src with
  | .hal _ | .cop _ => (msgOf x.cmd).elim 0 (rqOf s)
  | src => rqOfSrc s src

/-- An earlier device access of the requester has not been performed yet: it waits, is on its way to another home, or is a read that its home
has not made (R215, R217). -/
def earlierDevice (s : State) (src : Src) (rq id : Nat) : Bool :=
  (s.dir.held.any fun x => x.src == src && decide (x.id < id) && heldRq s x == rq && heldDevice s x)
    || (s.dir.txns.any fun t => t.req.src == src && t.req.rq == rq && readPending t && (attrOf s (t.req.lg / 8)).device)
    || (s.ord.gbs.any fun g => g.src == src && g.rq == rq && g.device && !g.drained)
    || s.dir.fwds.any fun f => f.src == src && !f.noticed && !isWFwd f && isDevice s f.gaddr

/-- A request to device memory waits for the requester's previous device access, across all homes (R217). -/
def deviceWaits (s : State) (src : Src) (rq id gaddr : Nat) : Bool := isDevice s gaddr && earlierDevice s src rq id

/-- An earlier request of the requester for the same granule still waits, or is on its way to another home: the later one waits for it (R216). -/
def earlierSame (s : State) (src : Src) (rq id gaddr : Nat) : Bool :=
  (s.dir.held.any fun x => x.src == src && decide (x.id < id) && heldRq s x == rq && !isBarrierCmd x.cmd
      && match msgOf x.cmd with | some m => m.gaddr == gaddr | none => false)
    || s.dir.fwds.any fun f => f.src == src && f.gaddr == gaddr && !f.noticed && !isWFwd f

/-- What the home answers a request with when it reaches it (R190, R395, R213, R111); `ok` when it is served. -/
def checkReq (s : State) (cls : RightOf) (k : ReqKind) (a : Nat) : RStat :=
  let u := a / 512
  let rd := mayRead s cls a
  let wr := mayWrite s cls a
  let right := match k with
    | .rdShared | .rdOnce => rd
    | .rdUnique | .upgrade | .atomic _ _ _ _ => rd && wr
    | .write | .accum _ => wr
    | .maint _ => true
  if !right then .noRight
  else if (attrOf s u).device && (isCaching k || (match k with | .accum _ => true | _ => false)) then .type
  else if (match k with | .rdUnique | .upgrade | .write | .atomic _ _ _ _ | .accum _ => true | _ => false) && exhausted s u then .mediaExhausted
  else .ok

/-- A member's addresses cannot be reached: it is lost, absent or waiting, or this module is isolated (R315 to R317). -/
def unreachable (s : State) (h : Nat) : Bool :=
  s.grp.isolated || s.grp.gone.getLsbD h || s.grp.waiting.getLsbD h || s.grp.waiting.getLsbD s.grp.id || !s.grp.present.getLsbD h

/-- A command with another message. -/
def withMsg (m : Msg) : Instr → Instr
  | .rdShared _ => .rdShared m
  | .rdUnique _ => .rdUnique m
  | .upgrade _ => .upgrade m
  | .rdOnce _ => .rdOnce m
  | .wrNc _ mask d p => .wrNc m mask d p
  | .atomic _ op size off d => .atomic m op size off d
  | .accum _ ws => .accum m ws
  | .wbDirty _ d p => .wbDirty m d p
  | .evictClean _ g => .evictClean m g
  | .ack _ h => .ack m h
  | .snpResp _ h st e => .snpResp m h st e
  | .snpData _ h st d p => .snpData m h st d p
  | c => c

/-- Forward a request to the member that is its home (R17, R314). On Coping it names its requester, and its tag has 13 bits: an agent's own tag,
or the number of another requester's request (R284). -/
def forward (id : Nat) (src : Src) (h agent txid parent gaddr : Nat) (write : Bool) (c : Instr) (s : State) : State :=
  let l := (routeFor s h gaddr).getD 0
  let link := match src with | .hal _ | .cop _ => true | _ => false
  let m : Msg := { port := .cop l, agent := if link then agent % 64 else 0, txid := if link then txid else id % 8192, gaddr, req := rqOfSrc s src }
  let c := withMsg m c
  let s := onDir (fun d => { d with
    fwds := d.fwds ++ [{ home := h, port := l, req := id, txid, gaddr, agent, src, write, parent, cmd := c }] }) s
  emit (.forward l h id gaddr c) (onGrp (fun g => { g with cntFwd := sat 64 g.cntFwd 1 }) s)

def dropHeld (i : Nat) : State → State := onDir fun d => { d with held := d.held.filter fun h => h.id != i }

/-- The request is counted in CCH_CNT_HELD once, while the dirty limit holds it (R179). -/
def noteHeld (h : Held) (s : State) : State :=
  if h.dheld then s else
  onCch (fun c => { c with cntHeld := sat 64 c.cntHeld 1 })
    (onDir (fun d => { d with held := d.held.map fun x => if x.id = h.id then { x with dheld := true } else x }) s)

/-- The entry that a write of the requester merges into (R222). -/
def mergeTarget (s : State) (b rq lg : Nat) : Option GbEnt :=
  if (attrOf s (lg / 8)).device then none else
  s.ord.gbs.find? fun g => g.buf == b && g.rq == rq && g.lg == lg && g.rsv == 0 && !g.drained && !g.device

/-- Place a write of the requester into a gather buffer (R222, R214). A merged entry is poisoned when one of its writes was, unless the last
one covers the granule (DEDUCED, log 80). -/
def placeWrite (id : Nat) (src : Src) (rq agent txid gaddr lg : Nat) (mask : BitVec 64) (data : Granule) (poison relaxed : Bool)
    (whole : Option Nat) (reqs : List Nat) (s : State) : State :=
  let u := lg / 8
  let r := attrOf s u
  let b := bufOf src
  let early := r.early && !r.device && !writtenThrough s u
  let s := if early then
    let s := onOrd (fun o => { o with cntEarly := sat 64 o.cntEarly 1 }) s
    match src with
    | .hal _ | .cop _ => emit (.comp agent txid 0 gaddr .i .ok) (endSample id 0 (classOf s u) [false, false, false, false, false, false, false, true] s)
    | _ => s
  else s
  match mergeTarget s b rq lg with
  | some g =>
    let s := onGb g.id (fun x => { x with
      data := mergeBytes x.data data mask
      mask := x.mask ||| mask
      poison := poison || (x.poison && mask != BitVec.allOnes 64)
      relaxed := x.relaxed && relaxed
      txid
      acked := early
      reqs := reqs ++ x.reqs
      whole := whole }) s
    afterPlace g.id b s
  | none =>
    let g : GbEnt :=
      { id, buf := b, rq, lg, gaddr, mask, data, poison, device := r.device, relaxed := relaxed && !r.device, rsv := 0, drained := false
        txid, agent, acked := early, src, reqs, whole, tick := s.tck.course }
    afterPlace id b (notePeak b (onOrd (fun o => { o with gbs := o.gbs ++ [g] }) s))

/-- The kind of a request message. -/
def kindOf : Instr → ReqKind
  | .rdShared _ => .rdShared
  | .rdUnique _ => .rdUnique
  | .upgrade _ => .upgrade
  | .wrNc _ _ _ _ => .write
  | .atomic _ op size off payload =>
    -- for CAS the payload holds the compare value, then the swap value (R285)
    .atomic op size off (match op with
      | .cas => BitVec.ofNat 128 (leVal (granuleBytes payload 0 (4 * 2 ^ size)))
      | _ => 0)
  | .accum _ ws => .accum ws
  | _ => .rdOnce

/-- The operand of an ATOMIC message, moved to the operand's place in its granule. -/
def atomicOperand (op : AtomicOp) (size off : Nat) (payload : Granule) : Granule :=
  let n := 4 * 2 ^ size
  granuleOf off (granuleBytes payload (match op with | .cas => n | _ => 0) n)

/-- A granule request is served at its home, forwarded, refused or held. True when it has left the port. -/
def admitGranule (h : Held) (rq agent txid parent gaddr : Nat) (k : ReqKind) (mask : BitVec 64) (data : Granule)
    (poison : Bool) (s : State) : Bool × State :=
  let cls := classOfSrc h.src rq
  let link := match h.src with | .hal _ | .cop _ => true | _ => false
  let gone := fun (s : State) => (true, dropHeld h.id s)
  let refused := fun (st : RStat) (s : State) => gone (refuse h.src h.id agent txid parent gaddr k st s)
  match decodeAddr s (gaddr * 64) with
  | .unbacked => refused .noRight s
  | .remote m _ =>
    match h.src with
    | .cop _ => gone s
    | _ =>
      if link && outstanding s h agent gaddr then refused .protocol s
      else if earlierSame s h.src rq h.id gaddr || deviceWaits s h.src rq h.id gaddr then (false, s)
      else if !s.grp.formed && !s.grp.isolated then (false, s)
      else if unreachable s m then refused .memberLost s
      else gone (forward h.id h.src m agent txid parent gaddr (isWriteKind k) h.cmd s)
  | .here a =>
    let u := a / 512
    let lg := a / 64
    -- copy-channel and firmware writes of another member pass no gather buffer (R221)
    let gather := k == .write && link && rq % 16 != 9 && rq % 16 != 11
    let isAgent := link && decide (rq % 16 < 8)
    -- a host of another member has all its entries drained before its read, whichever port of a pair they came by (R223, R224)
    let mine : List GbEnt := s.ord.gbs.filter fun g => g.rq == rq && g.rsv == 0 && if isAgent then g.buf == bufOf h.src && g.lg == lg else true
    let fresh := gather && (mergeTarget s (bufOf h.src) rq lg).isNone
    if isAgent && outstanding s h agent gaddr then refused .protocol s
    else if earlierSame s h.src rq h.id gaddr then (false, s)
    else match checkReq s cls k a with
    | .ok =>
      if importHolds s u && (match k with | .rdUnique | .upgrade | .write | .atomic _ _ _ _ | .accum _ => true | _ => false) then (false, s)
      else if deviceWaits s h.src rq h.id gaddr then (false, s)
      else if dirtyHolds s k u fresh then (false, if isWriteKind k then noteHeld h s else s)
      else if gather then
        if fresh && decide (gbRoom (bufOf h.src) ≤ gbUsed s (bufOf h.src)) then (false, s)
        else gone (placeWrite h.id h.src rq agent txid gaddr lg mask data poison true none [h.id] s)
      else
        -- a read is answered from the requester's own full entry, else its entries drain before it (R223)
        match (mine.getLast?).filter fun g => isAgent && k == ReqKind.rdOnce && g.mask == BitVec.allOnes 64 with
        | some g =>
          gone (emit (.data agent txid 0 gaddr .i g.poison (if g.poison then 0 else g.data))
            (onOrd (fun o => { o with cntFwd := sat 64 o.cntFwd 1 })
              (endSample h.id (32 * b2n g.poison) 0 [false, false, false, false, false, false, false, true] s)))
        | none =>
          let s := each (mine.map (·.id)) drainEntry s
          gone (order { id := h.id, src := h.src, rq, kind := k, txid, agent, gaddr, lg, mask, data, poison, tick := h.tick, parent
                        ids := if isReadKind k then [] else [h.id] } s)
    | st => refused st s

/-- A barrier reaches its port (R225 to R228). -/
def admitBarrier (h : Held) (m : Msg) (arg : BitVec 32) (compl : Bool) (s : State) : State :=
  let a := agentOf s m
  let v := arg.toNat
  let s := dropHeld h.id s
  if bits v 17 15 ≠ 0 ∨ bits v 4 4 ≠ 0 then
    emit (.comp a m.txid 0 m.gaddr .i .protocol) (onDir (fun d => { d with cntProto := sat 64 d.cntProto 1 }) s)
  else
    let homes := bits v 8 8
    let mineH := s.dir.held.filter fun x => x.src == h.src && decide (x.id < h.id) && !isBarrierCmd x.cmd
      && match msgOf x.cmd with | some q => agentOf s q == a && coversHome homes (homeNo s q.gaddr) | none => false
    let mineT := s.dir.txns.filter fun t => t.req.src == h.src && t.req.agent == a && coversHome homes s.grp.id
    let mineF := s.dir.fwds.filter fun f => f.src == h.src && f.agent == a && coversHome homes f.home
    let mineG := s.ord.gbs.filter fun g => g.src == h.src && g.agent == a && coversHome homes s.grp.id
    let reads := (mineH.filter fun x => isReadCmd x.cmd).map (·.id)
      ++ (mineT.filter fun t => isReadKind t.req.kind).map (·.req.id) ++ (mineF.filter fun f => !f.write).map (·.req)
    let writes := (mineH.filter fun x => !isReadCmd x.cmd).map (·.id)
      ++ ((mineT.filter fun t => !isReadKind t.req.kind).flatMap fun t => t.req.id :: t.req.ids)
      ++ (mineF.filter (·.write)).map (·.req) ++ (mineG.flatMap (·.reqs))
      ++ (s.ord.away.filter fun w => w.src == h.src && w.agent == a && coversHome homes w.home).map (·.req)
    let sel := if compl then 15 else bits v 0 4
    onDir (fun d => { d with
      barriers := d.barriers ++ [{ port := bufOf h.src, agent := a, txid := m.txid, sel, compl, id := h.id, reads, writes }] }) s

/-- A barrier completes when every earlier request of its selected first kinds has been performed; a COMPL_BARRIER when every
earlier write is durable and every earlier read delivered (R227, R228). The entries of the writes that it orders drain (R224). -/
def barrierStep (b : Barrier) (s : State) : State :=
  let wr := bitOf b.sel 0 || bitOf b.sel 2
  let rd := bitOf b.sel 1 || bitOf b.sel 3
  let s := if wr then drainWhere (fun g => g.reqs.any fun i => decide (i ∈ b.writes)) s else s
  let open' := if b.compl then b.writes.any (writeOpen s) || b.reads.any (readOpen s)
    else (wr && b.writes.any (writeWaits s)) || (rd && b.reads.any (readWaits s))
  if open' then s else
  let s := onDir (fun d => { d with barriers := d.barriers.filter fun x => x.id != b.id }) s
  emit (.comp b.agent b.txid 0 0 .i .ok) (onOrd (fun o => { o with cntBarrier := sat 64 o.cntBarrier 1 }) s)

/-- Granule `g` of a BAR2 request meets the condition of a row of R328; `rd`, `wr` are the rights that the request needs. -/
def meetsCause (s : State) (rd wr : Bool) (cause g : Nat) : Bool :=
  match cause, decodeAddr s (g * 64) with
  | 1, a => a == .unbacked
  | 2, .here a => (rd && !mayRead s .host a) || (wr && !mayWrite s .host a)
  | 6, .here a => wr && exhausted s (a / 512)
  | 7, .remote m _ => unreachable s m && (s.grp.formed || s.grp.isolated)
  | _, _ => false

/-- A condition of R328 that a BAR2 request meets in some byte: its cause code; `wr`, `at` for a write, an AtomicOp. -/
def hostCause (s : State) (addr len : Nat) (rd wr : Bool) : Option Nat :=
  if !s.hst.ready then some 3
  else [1, 2, 6, 7].find? fun c => (pieces addr (max 1 len)).any fun p => meetsCause s rd wr c p.1

/-- The first byte of the granule that HST_ERR_ADDR names for a request refused whole (R359): the first that meets the condition, else the first
of the request (DEDUCED, log 78). -/
def refusedAt (s : State) (addr len : Nat) (rd wr : Bool) (cause : Nat) : Nat :=
  (((pieces addr (max 1 len)).find? fun p => meetsCause s rd wr cause p.1).elim (addr / 64) (·.1)) * 64

/-- Every posted host write that has left its port has been performed (R218). -/
def hostWritesDone (s : State) : Bool :=
  (s.ord.gbs.all fun g => g.buf != 12 || g.drained) && (s.dir.fwds.all fun f => !(f.src == .host && f.write))
    && s.ord.away.all fun w => w.src != .host || w.performed

/-- A posted write at another home is not known to be performed: a later one without Relaxed Ordering waits for it (R218). -/
def hostFwdOpen (s : State) : Bool :=
  (s.dir.fwds.any fun f => f.src == .host && f.write) || s.ord.away.any fun w => w.src == .host && !w.performed

/-- The PCIe entry that a write without Relaxed Ordering would merge into has a newer one after it: those up to it drain first, so that the
write does not pass the newer one (R218; DESIGN CHOICE, log 139). -/
def drainOlder (relaxed : Bool) (rq lg : Nat) (s : State) : State :=
  match mergeTarget s 12 rq lg with
  | some g => if relaxed || ((s.ord.gbs.filter fun x => x.buf == 12 && !x.drained).getLast?.map (·.id)) == some g.id then s else drainEntry g.id s
  | none => s

/-- The granule lies in a line that the host write covers whole (R153): the first granule of the line sees that 512 B are left, the
others follow it. -/
def wholeLine (s : State) (id len g : Nat) : Bool :=
  match decodeAddr s (g * 64) with
  | .here a =>
    if g % 8 = 0 then decide (512 ≤ len)
    else s.dir.txns.any fun t => t.req.whole == some id && t.req.lg / 8 == a / 512
  | _ => false

/-- The next granule of a posted host write, in ascending address order (R218, R231); `addr` and `data` name what is left of it. -/
def admitHostWrite (h : Held) (addr : Nat) (data : List Byte) (relaxed poisoned : Bool) (s : State) : Bool × State :=
  let rq := rqOfSrc s .host
  match pieces addr data.length with
  | [] => (true, dropHeld h.id s)
  | (g, off, n) :: rest =>
    let later := fun (s : State) =>
      if rest.isEmpty then (true, dropHeld h.id s)
      else (true, onDir (fun d => { d with
        held := d.held.map fun x => if x.id = h.id then { x with cmd := .bar2Write (addr + n) (data.drop n) relaxed poisoned } else x }) s)
    let d := granuleOf off (data.take n)
    let mask := maskOf off n
    match decodeAddr s (g * 64) with
    | .unbacked => later s
    | .remote m _ =>
      if !s.grp.formed && !s.grp.isolated then (false, s)
      else if deviceWaits s .host rq h.id g || earlierSame s .host rq h.id g then (false, s)
      else if !relaxed && !hostWritesDone s then
        -- the posted writes before it are performed first, those of other homes too
        (false, drainWhere (fun x => x.buf == 12) s)
      else if unreachable s m then later (hostErr 1 7 (g * 64) false s)
      else
        let msg : Msg := { port := .hal 0, agent := 0, txid := 0, gaddr := g, req := rq }
        later (forward h.id .host m 0 0 0 g true (.wrNc msg mask d poisoned) s)
    | .here a =>
      let u := a / 512
      let lg := a / 64
      if deviceWaits s .host rq h.id g || importHolds s u || (!relaxed && hostFwdOpen s) then (false, s) else
      let s := drainOlder relaxed rq lg s
      let fresh := (mergeTarget s 12 rq lg).isNone
      if dirtyHolds s .write u fresh then (false, noteHeld h s)
      else if fresh && decide (64 ≤ gbUsed s 12) then (false, s)
      else
        -- a granule's entry takes its own number; the request's number stays with every granule for the fences
        let whole := if wholeLine s h.id data.length g then some h.id else none
        later (placeWrite (nextReq s) .host rq 0 0 g lg mask d poisoned relaxed whole [h.id] (takeId s))

/-- A host request refused whole (R328): NO_RIGHT is counted, MEDIA_EXHAUSTED is also a trap (R482). -/
def hostDenied (cause : Nat) (s : State) : State := if cause = 2 then denied s else if cause = 6 then trap 2 s else s

/-- Pass the granule reads of a host read to their homes, in ascending order; what is left waits for an earlier device access (R217, R231). -/
def issueReads (h : Held) (rq tag first : Nat) : List (Nat × Nat × Nat) → State → List (Nat × Nat × Nat) × State
  | [], s => ([], s)
  | p :: rest, s =>
    let g := p.1
    if deviceWaits s .host rq h.id g then (p :: rest, s) else
    let par := tag * 128 + (g - first)
    issueReads h rq tag first rest (match decodeAddr s (g * 64) with
      | .here a => order { id := nextReq s, src := .host, rq, kind := .rdOnce, txid := 0, agent := 0, gaddr := g, lg := a / 64
                           tick := h.tick, parent := par } (takeId s)
      | .remote m _ => forward (nextReq s) .host m 0 0 par g false
          (.rdOnce { port := .hal 0, agent := 0, txid := 0, gaddr := g, req := rq }) (takeId s)
      | .unbacked => s)

/-- A host request is served, refused or held. An access to BAR0 or BAR4 that waits is made by `barStep` (R210). -/
def admitHost (h : Held) (s : State) : Bool × State :=
  let rq := rqOfSrc s .host
  match h.cmd with
  | .bar2Read addr len tag =>
    let begun := s.dir.hostRds.any fun r => r.id == h.id
    match (if begun then none else hostCause s addr len true false) with
    | some c => (true, emit (.cpl tag (cplOfCause c) false []) (hostErr 0 c (refusedAt s addr len true false c) false (hostDenied c (dropHeld h.id s))))
    | none =>
      -- the host's entries drain first, and earlier posted writes are performed before it (R218, R223)
      let s := drainWhere (fun g => g.buf == 12) s
      if !hostWritesDone s then (false, s)
      else if (pieces addr len).any (fun p => match decodeAddr s (p.1 * 64) with
          | .remote _ _ => !s.grp.formed && !s.grp.isolated
          | _ => false) then (false, s)
      else
        let s := if begun then s else
          onDir (fun d => { d with hostRds := d.hostRds ++ [{ id := h.id, tag, addr, len, got := [], tick := h.tick }] }) s
        let first := (s.dir.hostRds.find? fun r => r.id == h.id).elim 0 fun r => r.addr / 64
        match issueReads h rq tag first (pieces addr len) s with
        | ([], s) => (true, hostReadDone tag (dropHeld h.id s))
        | (p :: _, s) =>
          let rest := p.1 * 64 + p.2.1
          (true, onDir (fun d => { d with
            held := d.held.map fun x => if x.id = h.id then { x with cmd := .bar2Read rest (addr + len - rest) tag } else x }) s)
  | .bar2Atomic addr op size operand compare poisoned tag =>
    let n := 4 * 2 ^ size
    match (hostCause s addr n true true).or (if poisoned then some 8 else none) with
    | some c => (true, emit (.cpl tag (cplOfCause c) false []) (hostErr 2 c (refusedAt s addr n true true c) false (hostDenied c (dropHeld h.id s))))
    | none =>
      let s := drainWhere (fun g => g.buf == 12) s
      let g := addr / 64
      let off := addr % 64
      let data := granuleOf off (leBytes n operand.toNat)
      match decodeAddr s (g * 64) with
      | .here a =>
        let u := a / 512
        if deviceWaits s .host rq h.id g || importHolds s u then (false, s)
        else if dirtyHolds s (.atomic op size off compare) u false then (false, noteHeld h s)
        else (true, order { id := h.id, src := .host, rq, kind := .atomic op size off compare, txid := 0, agent := 0, gaddr := g, lg := a / 64
                            data, tick := h.tick, parent := tag } (dropHeld h.id s))
      | .remote m _ =>
        if (!s.grp.formed && !s.grp.isolated) || deviceWaits s .host rq h.id g || earlierSame s .host rq h.id g then (false, s)
        else
          let payload := match op with
            | .cas => granuleOf 0 (leBytes n compare.toNat ++ leBytes n operand.toNat)
            | _ => granuleOf 0 (leBytes n operand.toNat)
          (true, forward h.id .host m 0 0 tag g true
            (.atomic { port := .hal 0, agent := 0, txid := 0, gaddr := g, req := rq } op size off payload) (dropHeld h.id s))
      | .unbacked => (true, dropHeld h.id s)
  | .bar2Write addr data relaxed poisoned =>
    if h.checked then admitHostWrite h addr data relaxed poisoned s else
    -- a posted write is checked whole (R328): what refuses it is recorded, a poisoned one is taken
    match hostCause s addr data.length false true with
    | some c => (true, hostErr 1 c (refusedAt s addr data.length false true c) false (hostDenied c (dropHeld h.id s)))
    | none =>
      let s := if poisoned then hostErr 1 8 (addr / 64 * 64) false s else s
      let s := onDir (fun d => { d with held := d.held.map fun x => if x.id = h.id then { x with checked := true } else x }) s
      admitHostWrite { h with checked := true } addr data relaxed poisoned s
  | _ => (false, s)

/-- One held request is looked at. Stopped ports take nothing new (R556); combining entries go on being applied, and firmware goes on. -/
def admitOne (h : Held) (s : State) : State :=
  let s := holdStep s
  if portsStopped s && (match h.src, h.cmd with | .stream _, .accum _ _ => false | .fw, _ => false | _, _ => true) then s
  else if slotsOf h.src ≤ inFlight s h.src then s
  else
    match h.src with
    | .host =>
      -- the host's requests are taken in their order of arrival
      if (s.dir.held.any fun x => x.src == .host && decide (x.id < h.id)) then s else (admitHost h s).2
    | src =>
      match msgOf h.cmd with
      | none => dropHeld h.id s
      | some m =>
        let link := match src with | .hal _ | .cop _ => true | _ => false
        let a := if link then agentOf s m else 0
        let rq := if link then rqOf s m else rqOfSrc s src
        if link && ((s.dir.held.any fun x => x.src == src && decide (x.id < h.id) && isBarrierCmd x.cmd)
            || (!isBarrierCmd h.cmd && barrierHolds s src a h)) then s
        else
          let par := if link then 0 else m.txid
          match h.cmd with
          | .orderBarrier m arg => admitBarrier h m arg false s
          | .complBarrier m arg => admitBarrier h m arg true s
          | .wrNc _ mask d p => (admitGranule h rq a m.txid par m.gaddr .write mask d p s).2
          | .atomic _ op size off payload =>
            (admitGranule h rq a m.txid par m.gaddr (kindOf h.cmd) 0 (atomicOperand op size off payload) false s).2
          | c => (admitGranule h rq a m.txid par m.gaddr (kindOf c) 0 0 false s).2

/-- Requests that wait at their ports are looked at in order of arrival. -/
def admitStep (s : State) : State :=
  each (s.dir.held.map (·.id)) (fun i s =>
    match s.dir.held.find? fun h => h.id == i with
    | some h => admitOne h s
    | none => s) s

/-- One round of the home: held requests, transactions, reserved entries and barriers. -/
def homeStep (s : State) : State :=
  let s := admitStep s
  let s := each s.ord.gbs mergeEntry s
  let s := each (s.dir.txns.map (·.req.id)) txnStep s
  each s.dir.barriers barrierStep s

/-! ## Answers from other homes (R314, R227) -/

/-- When a write that another home has acknowledged is known to be performed and durable there: R214 lets that home acknowledge it on
acceptance, and no rule says how this module learns the rest. It learns it at once, or later, at a moment of no rule (DESIGN CHOICE, log 82). -/
def writeAway (w : Away) (s : State) : State :=
  let (v, s) := free s
  if v % 3 = 0 then s
  else onOrd (fun o => { o with away := o.away ++ [{ w with performed := w.performed || v % 3 == 1 }] }) s

/-- What has become of the writes of other homes meanwhile. -/
def awayStep (s : State) : State :=
  each s.ord.away writeAway (onOrd (fun o => { o with away := [] }) s)

/-- A forwarded request is answered: data or completion (R190, R201). A WR_NC or a posted write that is acknowledged may still have to be
performed. -/
def fwdAnswer (f : Fwd) (st : RStat) (htid : Nat) (grant : CacheSt) (d : Option (Granule × Bool)) (s : State) : State :=
  let s := onDir (fun x => { x with fwds := x.fwds.filter fun y => y.req != f.req }) s
  let s := match f.src, f.cmd with
    | .hal _, .wrNc _ _ _ _ | .host, .wrNc _ _ _ _ =>
      if st = .ok then writeAway { req := f.req, home := f.home, src := f.src, agent := f.agent } s else s
    | _, _ => s
  let flags := 16 + 32 * b2n (match d with | some (_, p) => p | none => false)
  let s := endSample f.req flags 0 [true, false, false, false, false, false, false, true] s
  match f.src with
  | .hal _ | .cop _ => match d with
    | some (g, p) => emit (.data f.agent f.txid htid f.gaddr grant p g) s
    | none => if isWFwd f then emit (.wbAck f.agent f.gaddr st) s else emit (.comp f.agent f.txid htid f.gaddr grant st) s
  | .host =>
    match f.cmd with
    | .wrNc _ _ _ _ => if st = .ok then s else hostErr 1 st.host (f.gaddr * 64) false s
    | .atomic _ _ size off _ => match d with
      | some (g, p) =>
        let n := 4 * 2 ^ size
        if p then emit (.cpl f.parent .sc true (leBytes n 0)) (hostErr 2 4 (f.gaddr * 64) false s)
        else emit (.cpl f.parent .sc false (granuleBytes g off n)) s
      | none => emit (.cpl f.parent .ca false []) (hostErr 2 st.host (f.gaddr * 64) false s)
    | _ => match d with
      | some (g, p) => hostGot f.parent g p s
      | none => hostBad f.parent st.host s
  | .copy j => match d with
    | some (g, p) => copyGot j f.parent g p s
    | none => if f.write && st = .ok then onRun j (fun c => { c with wrDone := c.wrDone + 1 }) s else copyRefused j f.parent f.write st s
  | .stream p => match f.cmd with
    | .accum _ _ => combDone f.parent st.stream s
    | _ => match d with
      | some (g, z) => egressGot p (f.parent / 8) (f.parent % 8) (if z then none else some g) 4 s
      | none => egressGot p (f.parent / 8) (f.parent % 8) none st.stream s
  | .fw => importGot f.parent (match d with | some (g, false) => some g | _ => none) s
  | .dbg => match d with
    | some (g, z) => emit (.debug (some (granuleBytes (if z then 0 else g) (f.parent / 128 % 64) (f.parent % 128)))) s
    | none => emit (.debug (if f.write && st = .ok then some [] else none)) s

end Sys2Proof.Machine
end

