-- ==== Sys2Proof/Machine/Stream.lean ====
section
/-!
DEFINITION. The stream ports (R241 to R276, R303 to R306): records and the combining buffer, STM_STOP_N, capture commit,
playback lists, prefetch and the word positions of a course.
-/

namespace Sys2Proof.Machine
open Sys2Proof

/-! ## STM_STOP_N (R253) -/

/-- The condition that asserts STM_STOP_N. A stopped port holds its sender back by the same pin (R556, R14; DEDUCED, log 140). -/
def stopWanted (s : State) (p : Nat) : Bool :=
  let x := port s p
  x.inSt == 0 || x.full || s.plinth.pfw || portsStopped s

/-- The occupancy and the pin after a change; a least time once begun runs out first. -/
def updStop (p : Nat) (s : State) : State :=
  let s := onPort p (fun x => { x with
    full := if x.highEff ≤ x.fifo.length then true else if x.fifo.length ≤ x.lowEff then false else x.full }) s
  if (port s p).stopHold || (port s p).stop == stopWanted s p then s
  else onPort p (fun x => { x with stop := !x.stop, stopHold := true }) s

/-! ## Records (R244, R245) -/

def recData (r : BitVec 128) : BitVec 64 := r.extractLsb' 0 64
def recAddr (r : BitVec 128) : Nat := (r.extractLsb' 64 48).toNat
def recOp (r : BitVec 128) : Nat := (r.extractLsb' 112 8).toNat
def recTag (r : BitVec 128) : Nat := (r.extractLsb' 120 8).toNat

/-- The pending state that a record gives its word (R248). -/
def recWord (op : Nat) (d : BitVec 64) : CombWord :=
  if op = 1 then { kind := .bit, a := d, b := 0 }
  else if op = 2 then { kind := .bit, a := 0, b := d }
  else if op = 5 then { kind := .bit, a := d, b := BitVec.allOnes 64 }
  else if op = 3 then { kind := .sat8, a := d }
  else if op = 4 then { kind := .sat16, a := d }
  else { kind := .first, a := d }

/-- Fold a record's state into a word of the same kind (R248). -/
def foldWord (w r : CombWord) : CombWord :=
  match w.kind with
  | .none => r
  | .bit => { kind := .bit, a := (w.a &&& ~~~r.b) ||| r.a, b := w.b ||| r.b }
  | .sat8 => { kind := .sat8, a := applyWord r w.a }
  | .sat16 => { kind := .sat16, a := applyWord r w.a }
  | .first => w

/-- Why a record cannot be applied, as far as this module can tell before its entry is applied (R272). -/
def recordCause (s : State) (addr : Nat) : Nat :=
  match decodeAddr s (addr / 64 * 64) with
  | .unbacked => 2
  | .remote m _ => if unreachable s m && (s.grp.formed || s.grp.isolated) then 7 else 0
  | .here a => match checkReq s .stream (.accum []) a with
    | .ok => 0
    | st => st.stream

/-- A record is discarded: it is counted and logged (R272, R274). -/
def dropRecord (p cause : Nat) (r : BitVec 128) (s : State) : State :=
  count (0x50 + p) 0x11 1 (streamError p cause 0 (recTag r) (recAddr r)
    (onPort p (fun x => { x with cntDrop := sat 64 x.cntDrop 1 }) s))

/-- An entry is to be applied; records for its granule wait from now on (R250). -/
def applyEntry (i : Nat) : State → State := onStm fun m =>
  { m with comb := m.comb.map fun x => if x.id = i then { x with due := true } else x }

/-- A slot of a port is free: each line read in flight and each entry being applied takes one (R243). -/
def egSlots (s : State) (p : Nat) : Bool :=
  decide ((port s p).inFlight.length + (s.stm.comb.filter fun c => c.busy && c.port == p).length < 128)

/-- Reads of a port whose words are no longer wanted: those still in service keep their slots until they arrive (R243, R268). -/
def dropReads (old : EgRead → Bool) (x : StmPort) : StmPort :=
  { x with inFlight := x.inFlight.filterMap fun r =>
      if !old r then some r else if 8 ≤ r.got.length then none else some { r with dropped := true } }

/-- A read of which words wait in a list. -/
def waitsFor (l : List EgWord) (r : EgRead) : Bool := l.any fun w => match w with | .wait i _ => i == r.id | _ => false

/-- The application of an entry that is due begins once its port has a slot: its words go to its home as ACCUM carries them. -/
def beginEntry (i : Nat) (s : State) : State :=
  match s.stm.comb.find? fun c => c.id == i with
  | none => s
  | some c =>
    if c.busy || !c.due || !egSlots s c.port then s else
    let s := onStm (fun m => { m with comb := m.comb.map fun x => if x.id = i then { x with busy := true } else x }) s
    arrive (.stream c.port) (.accum { port := .hal 0, agent := 0, txid := i, gaddr := c.gaddr, req := rqOfSrc s (.stream c.port) } c.words) s

/-- Combining entries in use, and room for one more (R247, R489). -/
def combRoom (s : State) : Bool := decide (s.stm.comb.length + s.stm.combOff.length < 65536)

/-- The front record of a port's FIFO leaves it: it is dropped, folded into the entry of its granule, takes a free entry, or
waits while its entry is being applied or no entry is free (R247 to R250). -/
def combineOne (p : Nat) (s : State) : State :=
  match (port s p).fifo with
  | [] => s
  | (r, tick) :: _ =>
    let pop := fun (s : State) => onPort p (fun x => { x with fifo := x.fifo.drop 1 }) s
    let op := recOp r
    let addr := recAddr r
    let d := recData r
    if 7 ≤ op ∨ addr % 8 ≠ 0 then dropRecord p 1 r (pop s)
    else if op = 0 ∨ (op = 6 ∧ d = 0) then pop s
    else
      let cause := recordCause s addr
      if cause ≠ 0 then dropRecord p cause r (pop (if cause = 2 then denied s else s)) else
      let g := addr / 64
      let w := addr / 8 % 8
      let rw := recWord op d
      match s.stm.comb.find? fun c => c.gaddr == g with
      | some c =>
        if c.due then s else
        let old := (nth c.words w).getD {}
        if old.kind ≠ .none ∧ old.kind ≠ rw.kind then
          applyEntry c.id (count 5 0x12 1 (onStm (fun m => { m with cntConflict := sat 64 m.cntConflict 1 }) s))
        else
          count 5 0x10 1 (onStm (fun m => { m with
            cntMerged := sat 64 m.cntMerged 1
            comb := m.comb.map fun x => if x.id = c.id then { x with
                words := x.words.zipIdx.map fun q => if q.2 = w then foldWord q.1 rw else q.1
                log := x.log ++ [(p, recTag r, addr)]
                ports := if (tget none x.ports p).isSome then x.ports else tset none x.ports p (some tick) } else x }) (pop s))
      | none =>
        if combRoom s then
          let id := nextReq s
          let c : Comb :=
            { id, gaddr := g, words := (upto 8).map fun i => if i = w then rw else {}, port := p, tick, ports := [(p, some tick)]
              log := [(p, recTag r, addr)] }
          onStm (fun m => { m with comb := m.comb ++ [c] }) (takeId (pop s))
        else
          -- the entry with the oldest first record goes (R250)
          match bestOf (fun a b => a.tick < b.tick) (s.stm.comb.filter fun c => !c.due) with
          | some c => applyEntry c.id s
          | none => s

/-- Entries that must be applied: ingress of every port they hold records of has stopped, a power-fail shutdown has begun, or a drain (R250,
R259; for a drain DEDUCED, log 140). Those that are due begin as slots allow. Application stops at the commit point (R259). -/
def applyStep (s : State) : State :=
  if pastCommit s then s else
  let all := warned s || s.ord.draining
  let s := each s.stm.comb (fun c s =>
    if !c.due && (all || c.ports.all fun q => (port s q.1).inSt == 0) then applyEntry c.id s else s) s
  each (s.stm.comb.map (·.id)) beginEntry s

/-- Entries that a course start schedules (R257). -/
def scheduleComb (s : State) : State :=
  each s.stm.comb (fun c s => if !c.due && decide (c.tick + s.stm.commitEff ≤ s.tck.count) then applyEntry c.id s else s) s

/-- The courses of the oldest records of a port that are not yet applied. -/
def pendingTicks (s : State) (p : Nat) : List Nat :=
  ((port s p).fifo.map (·.2)) ++ s.stm.comb.filterMap fun c => tget none c.ports p

/-- STM_CAP_COMMIT of a port (R258): every record of the courses before the first one that still has a record to apply. -/
def commitPort (p : Nat) (s : State) : State :=
  let x := port s p
  if !x.capOpen then s else
  let l := pendingTicks s p
  let v := match l with
    | [] => s.tck.count - 1
    | t :: ts => ts.foldl min t - 1
  onPort p (fun x => { x with commit := max x.commit v, capOpen := x.inSt == 2 || !l.isEmpty }) s

/-! ## Playback (R260 to R267) -/

def playEnt (s : State) (p l e : Nat) : PlEnt := tget {} (port s p).lists (l * 16 + e)

/-- Move a place past entries without words and past the end of the list (R260). -/
def normPos (s : State) (p l : Nat) : Nat → PlPos → PlPos
  | 0, q => { q with ended := true }
  | n + 1, q =>
    if q.ended then q else
    let e := playEnt s p l q.ent
    let next : PlPos :=
      if e.last then (if e.wrap then ({} : PlPos) else ({ q with ended := true } : PlPos))
      else if q.ent = 15 then ({ q with ended := true } : PlPos) else ({ ent := q.ent + 1 } : PlPos)
    if e.len = 0 then normPos s p l n next
    else if q.word < e.len then q
    else if q.rep < e.rep then { q with rep := q.rep + 1, word := 0 }
    else normPos s p l n next

/-- The places after `n` words within one entry. -/
def advPos (s : State) (p l n : Nat) (q : PlPos) : PlPos := normPos s p l 33 { q with word := q.word + n }

/-- Read the next line of a list, and put its words as waiting into the FIFO or the standby buffer. -/
def prefetchLine (p : Nat) (standby : Bool) (s : State) : State :=
  let x := port s p
  let l := if standby then 1 - x.cur else x.cur
  let q := normPos s p l 33 (if standby then x.sbPos else x.pos)
  let room := 16384 - (if standby then x.standby.length else x.egFifo.length)
  if q.ended then onPort p (fun x => if standby then { x with sbPos := q } else { x with pos := q }) s
  else if room = 0 ∨ !egSlots s p then s
  else
    let e := playEnt s p l q.ent
    let a := e.addr * 64 + q.word * 16
    let i := a % 512 / 16
    let n := min (min (32 - i) (e.len - q.word)) room
    let id := x.nextRd
    let ws := (upto n).map fun j => EgWord.wait id (i + j)
    let s := onPort p (fun x =>
      let x := { x with nextRd := id + 1, inFlight := x.inFlight ++ [({ id, gaddr := a / 512 * 8 } : EgRead)] }
      if standby then { x with standby := x.standby ++ ws, sbPos := advPos s p l n q }
      else { x with egFifo := x.egFifo ++ ws, pos := advPos s p l n q }) s
    each (upto 8) (fun g s => internalRead (.stream p) (id * 8 + g) (a / 512 * 8 + g) s) s

/-- The standby buffer is full, or holds the whole standby list (R261). -/
def updStandby (p : Nat) (s : State) : State :=
  let x := port s p
  let ready := x.standby.all fun w => match w with | .wait _ _ => false | _ => true
  if x.egSt ≠ 0 ∧ !x.standbyFull ∧ ready ∧ (16384 ≤ x.standby.length ∨ x.sbPos.ended) then
    onPort p (fun x => { x with standbyFull := true }) s
  else s

/-- Lines are read until no further one can be. -/
def prefetchLoop (p : Nat) (standby : Bool) : Nat → State → State
  | 0, s => s
  | n + 1, s =>
    let t := prefetchLine p standby s
    if (port t p).nextRd = (port s p).nextRd then t else prefetchLoop p standby n t

/-- Prefetch of one port, as far as its slots and space allow (R262); a stopped port makes no new request (R556). -/
def prefetchPort (p : Nat) (s : State) : State :=
  if (port s p).egSt = 0 ∨ portsStopped s then s else updStandby p (prefetchLoop p true 512 (prefetchLoop p false 512 s))

/-- The data of a playback read is placed in list order (R262); granules that returned poison become poison words (R273). -/
def placeRead (p i : Nat) (s : State) : State :=
  match (port s p).inFlight.find? fun r => r.id == i with
  | none => s
  | some r =>
    if r.got.length < 8 then s else
    let word := fun (k : Nat) => match r.got.find? fun q => q.1 == k / 4 with
      | some (_, some d) => EgWord.data (d.extractLsb' (128 * (k % 4)) 128)
      | _ => .poison
    let f := fun (w : EgWord) => match w with
      | .wait j k => if j = i then word k else w
      | w => w
    onPort p (fun x => { x with
      egFifo := x.egFifo.map f
      standby := x.standby.map f
      inFlight := x.inFlight.filter fun r => r.id != i }) s

/-- A block pair goes out: its kind of R304 and its payload, with its headers, through the lanes' scramblers (R303). -/
def sendPair (p kind : Nat) (w : BitVec 128) (s : State) : State :=
  let (b, r) := scrPair (port s p).scrOut w
  let h := egressHeaders kind
  emit (.egress p kind w h.1 h.2 (BitVec.ofNat 64 b.1) (BitVec.ofNat 64 b.2)) (onPort p (fun x => { x with scrOut := r }) s)

/-- A header that R304 knows. -/
def headerValid (h : BitVec 2) : Bool := h == 1 || h == 2

/-- A block pair comes off the lanes: the word it carries, and the state with the descramblers, the headers and the run of aligned pairs moved on
(R303, R306). -/
def receivePair (p : Nat) (h0 h1 : BitVec 2) (wire : BitVec 128) (s : State) : BitVec 128 × State :=
  let x := port s p
  let (w, r) := descrPair x.scrIn wire
  (w, onPort p (fun x => { x with
    scrIn := r
    headers := ((headerValid h0, headerValid h1) :: x.headers).take 64
    run := if x.aligned && (ingressKind h0 h1).isSome then x.run + 1 else 0 }) s)

/-- The lanes leave operation: both directions stop at the next course start. `st` is the state of the lanes after it. -/
def lanesDown (p st : Nat) : State → State := onPort p fun x => { x with
  stopNext := x.stopNext || x.linkUp
  lanesLost := x.lanesLost || x.linkUp
  linkUp := false
  aligned := false
  run := 0
  headers := []
  lnkSt := st }

/-- The lanes leave operation, which counts as a loss of lock (R275, R307). -/
def loseLanes (p : Nat) (s : State) : State := onPort p (fun x => { x with cntLost := sat 64 x.cntLost 1 }) (lanesDown p 2 s)

/-- The lanes are in operation. -/
def lanesUp (p : Nat) : State → State := onPort p fun x => { x with lnkSt := 5, linkUp := true, lanesLost := false }

/-- The thresholds of R306: 16 invalid headers of a lane among 64, and 1,024 aligned pairs. The words whose arrival no command shows count in
STREAM_LANES_DOWN and STREAM_LANES_UP (DESIGN CHOICE, log 169). -/
def judgeLanes (p : Nat) (s : State) : State :=
  let x := port s p
  if x.linkUp ∧ (16 ≤ (x.headers.filter (!·.1)).length ∨ 16 ≤ (x.headers.filter (!·.2)).length) then loseLanes p s
  else if x.lnkSt = 2 ∧ x.aligned ∧ 1024 ≤ x.run then lanesUp p s
  else s

/-- One word position (R263, R304). -/
def wordPosition (p : Nat) (s : State) : State :=
  let x := port s p
  let notValid := fun (s : State) =>
    count (0x50 + p) 0x13 1 (sendPair p 1 0 (onPort p (fun x => { x with cntNv := sat 64 x.cntNv 1 }) s))
  let step := fun (s : State) => onPort p (fun x => { x with egFifo := x.egFifo.drop 1, play := advPos s p x.cur 1 x.play }) s
  match x.egFifo with
  | .data w :: _ =>
    count (0x50 + p) 0x12 1 (sendPair p 0 w (step (onPort p (fun x => { x with
      cntWords := sat 64 x.cntWords 1, outCrc := x.outCrc ++ [w] }) s)))
  | .poison :: _ => sendPair p 2 0 (step (onPort p (fun x => { x with cntPoison := sat 64 x.cntPoison 1 }) s))
  | _ => notValid s

/-- The bytes of words, for their CRC (R305). -/
def wordBytes (l : List (BitVec 128)) : List Byte := l.flatMap fun w => leBytes 16 w.toNat

/-- The word positions of a course, and its CHECK (R263, R305). -/
def sendCourse (p : Nat) (s : State) : State :=
  let x := port s p
  let s := each (upto x.wpt) (fun _ s => wordPosition p s) s
  let crc := (Config.crc32 (wordBytes (port s p).outCrc)).toNat
  let w := BitVec.ofNat 128 (0x4B + crc * 2 ^ 32 + s.tck.count % 2 ^ 64 * 2 ^ 64)
  onPort p (fun x => { x with outCrc := [], egSent := some s.tck.course }) (sendPair p 3 w s)

/-- WPT_MAX of the period in force (R264). -/
def wptMax (s : State) : Nat := 475 * quarters s / 4 - 50

/-- Write WPT, clamped with its event. -/
def setWpt (p v : Nat) (s : State) : State :=
  let w := clamp 1 (wptMax s) v
  let s := onPort p (fun x => { x with wpt := w }) s
  if w = v then s else event 0x0001 0 (0x0700000 + 0x1000 + 0x1000 * p + 0x100) s

/-- ARM: IDLE to READY with the list that LIST_INIT names (R261). -/
def armPort (p : Nat) (s : State) : State :=
  if (port s p).egSt ≠ 0 then s else
  prefetchPort p (onPort p (fun x => { x with
    egSt := 1
    cur := x.listInit
    egFifo := []
    standby := []
    standbyFull := false
    pos := {}
    sbPos := {}
    play := normPos s p x.listInit 33 {} }) s)

/-! ## Starting and stopping (R268, R269) -/

def stopIn (p : Nat) (s : State) : State :=
  if (port s p).inSt = 0 then s else
  applyStep (updStop p (onPort p (fun x => { x with
    inSt := 0, inPrev := if s.plinth.pfw then x.inPrev else true, flushed := false, stopAt := some s.tck.course }) s))

def stopEg (p : Nat) (s : State) : State :=
  onPort p (fun x => { dropReads (fun _ => true) x with egSt := 0, egFifo := [], standby := [], standbyFull := false }) s

/-- STREAM_START of ingress, when no loss of its lanes stands (R275). After a STREAM_STOP of the same
course start it leaves no gap: what was accepted before still is (R269); else what began before it is discarded (R268). -/
def startIn (p : Nat) (s : State) : State :=
  if (port s p).inSt = 2 ∨ (port s p).lanesLost then s else
  updStop p (onPort p (fun x => { x with
    inSt := 2
    capOpen := true
    inPrev := x.inPrev && x.stopAt == some s.tck.course
    flushed := false }) s)

def startEg (p : Nat) (s : State) : State :=
  if (port s p).lanesLost then s else
  let s := if (port s p).egSt = 0 then armPort p s else s
  onPort p (fun x => { x with egSt := 2 }) s

/-- PLAYLIST_SWITCH acts when the named list is the standby list (R266). -/
def switchList (p l : Nat) (s : State) : State :=
  let x := port s p
  if x.egSt = 0 ∨ x.cur = l then s else
  prefetchPort p (onPort p (fun x => { dropReads (waitsFor x.egFifo) x with
    cur := l
    egFifo := x.standby
    standby := []
    standbyFull := false
    pos := x.sbPos
    sbPos := {}
    play := normPos s p l 33 {} }) s)

/-- Every record in the FIFOs moves into the combining buffer. -/
def emptyFifos (s : State) : State := each (upto 8) (fun p s => each (port s p).fifo (fun _ s => combineOne p s) s) s

/-- At the warning every record in the FIFOs moves into the combining buffer, and every entry is applied (R259). -/
def warnStreams (s : State) : State :=
  let s := each (upto 8) (fun p s => updStop p (onPort p (fun x => { x with inPrev := x.inSt == 2, flushed := false }) s)) s
  applyStep (emptyFifos s)

/-- PFW_N is deasserted again: what began while it was asserted is still discarded (R259, R440). -/
def unwarnStreams (s : State) : State :=
  each (upto 8) (fun p s => updStop p (onPort p (fun x => { x with inPrev := false, flushed := false }) s)) s

/-- The pins and the commit numbers of every port follow what has happened (R253, R258). -/
def updPorts (s : State) : State := each (upto 8) (fun p s => commitPort p (updStop p s)) s

end Sys2Proof.Machine
end

