-- ==== Sys2Proof/Machine/Quoin.lean ====
section
/-!
DEFINITION. The queue pairs (R331 to R342), the generic checks of a Quoin command (R343, R344), the copy channels (R348 to
R350) and the cache commands at work (R163 to R168).
-/

namespace Sys2Proof.Machine
open Sys2Proof

/-! ## Ranges and rights of commands -/

/-- Every byte of a group range is backed (R344 BAD_ADDRESS). -/
def backed (s : State) (a len : Nat) : Bool := decide (a + len ≤ s.grp.size * capacity s)

/-- The part of a group range that this member homes, as the lines of it, one after another, is decided line by line; the
rights are those of the regions of the range. A range is checked at its first byte and at every 64 MiB unit, or chunk, in it. -/
def rangeStarts (s : State) (a len : Nat) : List Nat :=
  let step := if s.grp.size = 1 ∨ s.grp.interleave = 0 then 2 ^ 26 else min (2 ^ 26) (2 ^ s.grp.interleave)
  if len = 0 then [] else
  a :: ((upto ((a + len - 1) / step - a / step)).map fun i => (a / step + 1 + i) * step)

/-- A class has the read, or the write, right over the part of the range that this member homes. -/
def rangeRight (s : State) (c : RightOf) (write : Bool) (a len : Nat) : Bool :=
  (rangeStarts s a len).all fun x => match decodeAddr s x with
    | .here l => if write then mayWrite s c l else mayRead s c l
    | _ => true

/-- The first group address of a range that lies at a member that cannot be reached (R344 MEMBER_LOST). -/
def lostIn (s : State) (a len : Nat) : Option Nat :=
  (rangeStarts s a len).find? fun x => match decodeAddr s x with
    | .remote m _ => unreachable s m
    | _ => false

/-! ## The generic checks (R343, R344) -/

/-- The common fields of an entry (R332). -/
def entryCmd (q e : Nat) : Cmd := { q, cid := bits e 16 16, fence := bitOf e 8, noInt := bitOf e 9 }

/-- Bytes `lo` to 63 of an entry are zero, and the reserved bytes 4 to 7. -/
def unusedZero (e lo : Nat) : Bool := e / 2 ^ (8 * lo) == 0 && bits e 32 32 == 0

/-- The common fields of a Quoin command; none for what is none. -/
def cmdOf : Instr → Option Cmd
  | .nop c | .cachePreload c _ _ _ | .cacheUnlock c _ _ | .cacheMaintClean c _ _ | .cacheMaintFlush c _ _
  | .cacheMaintInvalidate c _ _ | .cacheMaintSetClean c _ _ _ | .cacheMaintSetFlush c _ _ _ | .cacheMaintSetInvalidate c _ _ _
  | .copy c _ _ _ _ _ | .hoistSubmit c _ | .hoistCancel c _ | .snapshot c | .sealedImport c _ _ _ _ _ | .attestCert c _
  | .attestIdentity c _ | .attestConfig c _ | .attestGroup c _ | .lifecycleOwned c _ _ | .lifecycleSealed c _ _
  | .lifecycleReturn c _ _ | .lifecycleEnd c _ _ | .selfTest c _ _ | .stop c | .run c => some c
  | _ => none

/-- Commands accepted on queue 0 only (R343). -/
def queueZero : Instr → Bool
  | .lifecycleOwned _ _ _ | .lifecycleSealed _ _ _ | .lifecycleReturn _ _ _ | .lifecycleEnd _ _ _ | .selfTest _ _ _ | .stop _ | .run _ => true
  | _ => false

/-- Commands that the module serves in Stop (R358). -/
def servedInStop : Instr → Bool
  | .stop _ | .run _ | .attestCert _ _ | .attestIdentity _ _ | .attestConfig _ _ | .attestGroup _ _ => true
  | _ => false

/-- Bytes of each memory, or its number of locations, for SELF_TEST (R357). -/
def testLocOk (s : State) (m l : Nat) : Bool :=
  if m = 0 then decide (l < capacity s) && l % 64 == 0
  else if m = 1 then decide (l < 131072 * 12)
  else if m = 2 then decide (l < 262144 * 16)
  else if m = 3 then decide (l < 65536)
  else if m = 4 then l % 64 == 0 && decide (l < 4 * 2 ^ 20)
  else if m = 5 then l % 64 == 0 && decide (l < 4 * 2 ^ 20)
  else if m = 6 then l % 64 == 0 && decide (l < 4 * 2 ^ 20)
  else m == 7 && ppnOk s l

/-- A range command's address and length: alignment, and bits [63:48] zero. -/
def rangeOk (a len unit : Nat) : Bool := decide (a < 2 ^ 48) && a % unit == 0 && len % unit == 0 && len != 0

/-- CACHE_MAINT_SET names sets of a present member (R346). -/
def setsOk (s : State) (g first n : Nat) : Bool :=
  n != 0 && decide (first + n ≤ 131072) && (g == s.grp.id || (decide (g < 8) && s.grp.present.getLsbD g))

/-- The authorisation record lies in BAR4 (R356). -/
def authOk (off len : Nat) : Bool := decide (off + len ≤ 2 ^ 22)

/-- A group range lies within one home and one region of it (R354). -/
def oneRegion (s : State) (a len : Nat) : Bool :=
  match decodeAddr s a, decodeAddr s (a + len - 1) with
  | .here x, .here y => regionAt s x == regionAt s y && (y + 1 - x == len)
  | .remote m x, .remote n y => m == n && (y + 1 - x == len)
  | _, _ => false

/-- INVALID_FIELD, BAD_ADDRESS or NO_RIGHT, in that order (R344); 0 for none of them. -/
def fieldStatus (s : State) : Instr → Nat
  | .cachePreload _ a len _ =>
    if !rangeOk a len 16384 then 2 else if !backed s a len then 3 else if !rangeRight s .host false a len then 4 else 0
  | .cacheUnlock _ a len => if !rangeOk a len 16384 then 2 else if !backed s a len then 3 else 0
  | .cacheMaintClean _ a len | .cacheMaintFlush _ a len => if !rangeOk a len 512 then 2 else if !backed s a len then 3 else 0
  | .cacheMaintInvalidate _ a len =>
    if !rangeOk a len 512 then 2 else if !backed s a len then 3 else if !rangeRight s .host true a len then 4 else 0
  | .cacheMaintSetClean _ g first n | .cacheMaintSetFlush _ g first n | .cacheMaintSetInvalidate _ g first n =>
    if setsOk s g first n then 0 else 2
  | .copy _ src dst len ch _ =>
    if !rangeOk src len 64 || !rangeOk dst len 64 || decide (2 ^ 40 < len) || decide (15 < ch)
        || (decide (src < dst + len) && decide (dst < src + len)) then 2
    else if !backed s src len || !backed s dst len then 3
    else if !rangeRight s .copy false src len || !rangeRight s .copy true dst len then 4 else 0
  | .sealedImport _ src dst len _ slot =>
    if !rangeOk dst len 512 || decide (2 ^ 48 ≤ src) || decide (2 ^ 30 < len) || decide (15 < slot)
        || (backed s dst len && !oneRegion s dst len) then 2
    else if !backed s src (len + 16) || !backed s dst len then 3
    else if !rangeRight s .host true dst len then 4 else 0
  | .lifecycleOwned _ off len | .lifecycleSealed _ off len | .lifecycleReturn _ off len | .lifecycleEnd _ off len =>
    if authOk off len then 0 else 2
  | .selfTest _ m l => if testLocOk s m l then 0 else 2
  | _ => 0

/-- The transitions of R386. -/
def lcAllowed (frm dst : Nat) : Bool :=
  decide ((frm, dst) ∈ [(0, 1), (0, 4), (1, 2), (1, 3), (2, 3), (1, 4), (2, 4), (3, 4)])

/-- The command is not allowed in the module's present state (R344 STATE): in Stop (R358), or by the life cycle (R386). -/
def stateBars (s : State) (i : Instr) : Bool :=
  (inStop s || s.pwr.runSt == 1) && !servedInStop i || match i with
    | .lifecycleOwned _ _ _ => !lcAllowed s.flash.lc 1
    | .lifecycleSealed _ _ _ => !lcAllowed s.flash.lc 2
    | .lifecycleReturn _ _ _ => !lcAllowed s.flash.lc 3
    | .lifecycleEnd _ _ _ => !lcAllowed s.flash.lc 4
    | _ => false

/-- The status that ends a command before it starts, by the order of R344; 0 for none. -/
def cmdStatus (s : State) (i : Instr) : Nat :=
  match cmdOf i with
  | none => 0x0001
  | some c =>
    if queueZero i && c.q != 0 then 0x000B
    else if stateBars s i then 0x0009
    else fieldStatus s i

/-- The command of an entry, and whether each byte that it leaves unused is zero and each selector names something; none for an opcode
that is not in the table or a reserved flag (R332, R343). -/
def entryInstr (c : Cmd) (e : Nat) : Option (Instr × Bool) :=
  let a8 := bits e 64 64
  let a16 := bits e 128 64
  if bits e 10 6 ≠ 0 then none else
  match bits e 0 8 with
  | 0x00 => some (.nop c, unusedZero e 8)
  | 0x10 => some (.cachePreload c a8 a16 (bitOf e 192), unusedZero e 25 && bits e 193 7 == 0)
  | 0x11 => some (.cacheUnlock c a8 a16, unusedZero e 24)
  | 0x12 =>
    let ok := unusedZero e 25
    match bits e 192 8 with
    | 0 => some (.cacheMaintClean c a8 a16, ok)
    | 1 => some (.cacheMaintFlush c a8 a16, ok)
    | k => some (.cacheMaintInvalidate c a8 a16, ok && k == 2)
  | 0x13 =>
    let g := bits e 64 8
    let first := bits e 96 32
    let n := bits e 128 32
    let ok := bits e 72 24 == 0 && bits e 160 32 == 0 && unusedZero e 25
    match bits e 192 8 with
    | 0 => some (.cacheMaintSetClean c g first n, ok)
    | 1 => some (.cacheMaintSetFlush c g first n, ok)
    | k => some (.cacheMaintSetInvalidate c g first n, ok && k == 2)
  | 0x20 => some (.copy c a8 a16 (bits e 192 64) (bits e 256 8) (bitOf e 264), bits e 265 7 == 0 && unusedZero e 34)
  | 0x30 => some (.hoistSubmit c (BitVec.ofNat 256 (bits e 64 256)), unusedZero e 40)
  | 0x31 => some (.hoistCancel c (bits e 64 16), unusedZero e 10)
  | 0x38 => some (.snapshot c, unusedZero e 8)
  | 0x40 => some (.sealedImport c a8 a16 (bits e 192 32) (BitVec.ofNat 96 (bits e 224 96)) (bits e 320 8), unusedZero e 41)
  | 0x41 =>
    let n := BitVec.ofNat 256 (bits e 64 256)
    let ok := unusedZero e 41
    match bits e 320 8 with
    | 0 => some (.attestCert c n, ok)
    | 1 => some (.attestIdentity c n, ok)
    | 2 => some (.attestConfig c n, ok)
    | k => some (.attestGroup c n, ok && k == 3)
  | 0x42 =>
    let off := bits e 128 64
    let len := bits e 192 32
    let ok := bits e 72 56 == 0 && unusedZero e 28
    match bits e 64 8 with
    | 1 => some (.lifecycleOwned c off len, ok)
    | 2 => some (.lifecycleSealed c off len, ok)
    | 3 => some (.lifecycleReturn c off len, ok)
    | k => some (.lifecycleEnd c off len, ok && k == 4)
  | 0x50 => some (.selfTest c (bits e 64 8) a16, bits e 72 56 == 0 && unusedZero e 24)
  | 0x60 => some (.stop c, unusedZero e 8)
  | 0x61 => some (.run c, unusedZero e 8)
  | _ => none

/-- Read a submission entry: the command, or the status of R344 that ends it. -/
def readEntry (s : State) (q : Nat) (ev : BitVec 512) : Cmd × (Nat ⊕ Instr) :=
  let c := entryCmd q ev.toNat
  match entryInstr c ev.toNat with
  | none => (c, .inl 0x0001)
  | some (i, ok) =>
    let st := cmdStatus s i
    if st = 0x000B ∨ st = 0x0009 then (c, .inl st)
    else if !ok then (c, .inl 2)
    else if st ≠ 0 then (c, .inl st) else (c, .inr i)

/-! ## Completions (R333, R334, R338, R339) -/

/-- The 16 B of a completion entry. -/
def cqEntry (d : Done) (sqHead : Nat) (phase : Bool) : BitVec 128 :=
  BitVec.ofNat 128 (d.result.toNat + sqHead % 65536 * 2 ^ 64 + d.cid % 65536 * 2 ^ 80 + d.status % 65536 * 2 ^ 96
    + d.kind % 256 * 2 ^ 112 + b2n phase * 2 ^ 120)

/-- The completion queue has a free slot (R338). -/
def cqRoom (h : HQueue) : Bool := (h.cqTail + 1) % (h.cqSize + 1) != h.cqHead

/-- Send the vector of a queue, or note that one is due when its gap ends (R339). -/
def queueInt (q : Nat) (s : State) : State :=
  let h := queue s q
  if h.gap then onQueue q (fun h => { h with gapPend := true }) s
  else msix h.vector (onQueue q (fun h => { h with gap := decide (0 < h.intGap) }) s)

/-- Write one completion entry. -/
def writeCqe (q : Nat) (d : Done) (s : State) : State :=
  let h := queue s q
  let s := count 8 0x13 1 (emit (.cqe q h.cqTail (h.cqBase * 4096 + 16 * h.cqTail) (cqEntry d h.sqHead h.phase)) s)
  let s := onQueue q (fun h => { h with
    cqTail := (h.cqTail + 1) % (h.cqSize + 1)
    phase := if h.cqTail = h.cqSize then !h.phase else h.phase }) s
  if h.intEn && !d.noInt then queueInt q s else s

/-- Write the entries that wait, while the queue has room. -/
def writeCqes (q : Nat) (s : State) : State :=
  each (queue s q).dones (fun d s =>
    if (queue s q).dones.head? = some d ∧ cqRoom (queue s q) then
      writeCqe q d (onQueue q (fun h => { h with dones := h.dones.drop 1 }) s)
    else s) s

/-- An entry for a queue: written at once when there is room; nothing is written past a commit point, or for a queue that is
disabled (R325, R340, R341). -/
def postDone (q : Nat) (d : Done) (s : State) : State :=
  if !(queue s q).enable || pastCommit s then s
  else writeCqes q (onQueue q (fun h => { h with dones := h.dones ++ [d] }) s)

/-- A command that ends with NO_RIGHT (R344) is counted. -/
def cmdDenied (status : Nat) (s : State) : State := if status = 4 then denied s else s

/-- The command is a COPY of the queue. -/
def copyOf (q : Nat) : Instr → Bool
  | .copy c _ _ _ _ _ => c.q == q
  | _ => false

/-- Every command of the queue that was started, or waits at a copy channel, has completed: its entry is written (R332). -/
def earlierDone (s : State) (q : Nat) : Bool :=
  (queue s q).started.isEmpty && (queue s q).dones.isEmpty && s.hst.copies.all fun p => !p.2.queue.any (copyOf q)

/-- An entry with FENCE is checked as soon as every earlier command has completed (R332, R344): it then waits to start, or ends with its
status. -/
def checkFenced (q : Nat) (s : State) : State :=
  match (queue s q).fenced with
  | none => s
  | some e =>
    if !(queue s q).fetched.isEmpty || !earlierDone s q then s else
    let s := onQueue q (fun h => { h with fenced := none }) s
    match readEntry s q e with
    | (c, .inl status) => postDone q { kind := 0, cid := c.cid, status, result := 0, noInt := c.noInt } (cmdDenied status s)
    | (_, .inr i) => onQueue q (fun h => { h with fetched := [i] }) s

/-- A started command ends. One of a queue that was disabled or reset since has no entry (R325, R340). -/
def finish (c : Cmd) (status : Nat) (result : Nat) (s : State) : State :=
  if 64 ≤ c.q then onQueue (c.q % 64) (fun h => { h with mute := h.mute.erase c, winRun := if h.winRun = some c then none else h.winRun }) s
  else
    let win := decide ((queue s c.q).winRun = some c)
    let s := onQueue c.q (fun h => { h with started := h.started.erase c, winRun := if win then none else h.winRun }) s
    checkFenced c.q (postDone c.q { kind := 0, cid := c.cid, status, result := BitVec.ofNat 64 result, noInt := c.noInt, win } s)

/-- The result window of a queue (R342). -/
def openWindow (c : Cmd) : State → State := onQueue c.q fun h => { h with winCid := c.cid, winSt := 1, winData := [], winRun := some c }

/-- The result is placed in the window that awaits it; after a reset of the host interface it is EMPTY (R325). -/
def fillWindow (c : Cmd) (d : List Byte) : State → State := onQueue (c.q % 64) fun h =>
  if h.winSt = 1 ∧ h.winCid = c.cid ∧ h.winRun = some c then { h with winSt := 2, winData := d } else h

/-- A command of a queue under the number that it has once the queue is disabled or reset. -/
def muteCmd (q : Nat) (c : Cmd) : Cmd := if c.q = q then { c with q := q + 64 } else c

/-- The commands of a queue that have started go on without an entry, wherever the module holds them. -/
def muteQueue (q : Nat) (s : State) : State :=
  let f := muteCmd q
  let s := onCch (fun x => { x with jobs := x.jobs.map fun j => { j with cmd := f j.cmd } }) s
  let s := onCph (fun x => { x with imp := x.imp.map fun m => { m with cmd := f m.cmd } }) s
  let s := onTck (fun x => { x with groupHoists := x.groupHoists.map fun g => { g with cmd := f g.cmd } }) s
  let s := onErr (fun x => { x with tests := x.tests.map fun t => { t with cmd := t.cmd.map f } }) s
  let s := onHst (fun h => { h with
    copies := tall {} h.copies fun c => { c with run := c.run.map fun r => { r with cmd := f r.cmd } }
    snaps := h.snaps.map f, stops := h.stops.map f, runs := h.runs.map f
    attests := h.attests.map fun a => (f a.1, a.2) }) s
  onQueue q (fun h => { h with mute := h.mute ++ h.started.map f, started := [], winRun := h.winRun.map f }) s

/-! ## Fetching and starting (R336, R340) -/

/-- Entries of a queue may be fetched (R336 to R338, R341, R358). -/
def mayFetch (s : State) (q : Nat) : Bool :=
  let h := queue s q
  h.enable && !h.error && s.hst.ready && h.dones.isEmpty && h.fenced.isNone && cqRoom h && !s.hst.pfw && s.hst.lc.isNone
    && ((s.pwr.runSt == 0 && s.pwr.entry == 0) || q == 0) && s.pwr.drain == 0 && s.hst.linkUp

/-- A queue that can be fetched, with an entry. -/
def canFetch (s : State) (q : Nat) : Bool := mayFetch s q && (queue s q).sqHead != (queue s q).sqTail

/-- The queue whose turn it is (R336). -/
def nextQueue (s : State) : Option Nat := ((upto 64).map fun i => (s.hst.turn + i) % 64).find? (canFetch s)

/-- Commands that use the result window (R342). -/
def isWindowCmd : Instr → Bool
  | .attestCert _ _ | .attestIdentity _ _ | .attestConfig _ _ | .attestGroup _ _ | .selfTest _ _ _ => true
  | _ => false

/-- No Stop, life-cycle change or drain keeps a command from starting (R356, R358). -/
def cmdFree (s : State) (c : Cmd) : Bool :=
  (c.q == 0 || (s.pwr.runSt == 0 && s.pwr.entry == 0)) && s.hst.lc.isNone && s.pwr.drain == 0

/-- The command is the next of its queue to start, and nothing holds it: FENCE, an earlier window command, Stop. -/
def canStart (s : State) (c : Cmd) (i : Instr) : Bool :=
  let h := queue s c.q
  h.fetched.head? == some i && (!c.fence || earlierDone s c.q) && (!isWindowCmd i || (h.winRun.isNone && !h.dones.any (·.win)))
    && cmdFree s c

/-- A command that no entry brought is fetched with its start: it is checked as its entry would be (DEDUCED, log 51). -/
def takeCmd (c : Cmd) (i : Instr) (s : State) : State :=
  if decide (i ∈ (queue s c.q).fetched) || decide (64 ≤ c.q) || !mayFetch s c.q || (c.fence && !earlierDone s c.q) then s
  else
    let st := cmdStatus s i
    let s := count 8 0x12 1 s
    if st ≠ 0 then postDone c.q { kind := 0, cid := c.cid, status := st, result := 0, noInt := c.noInt } (cmdDenied st s)
    else onQueue c.q (fun h => { h with fetched := h.fetched ++ [i] }) s

/-- A command starts: it leaves the fetched commands. In Stop only STOP, RUN and ATTEST are served (R358). -/
def startCmd (c : Cmd) (i : Instr) (f : State → State) (s : State) : State :=
  let s := takeCmd c i s
  if !canStart s c i then s else
  let s := onQueue c.q (fun h => { h with fetched := h.fetched.drop 1, started := h.started ++ [c] }) s
  if (inStop s || s.pwr.runSt == 1) && !servedInStop i then finish c 0x0009 0 s else f s

/-! ## Copy channels (R348 to R350) -/

/-- A COPY reaches its channel: it starts when the channel takes it, and is held while the channel is halted (R348, R350). -/
def startCopy (c : Cmd) (j : Nat) (i : Instr) (s : State) : State :=
  let s := takeCmd c i s
  if !canStart s c i then s else
  let s := onQueue c.q (fun h => { h with fetched := h.fetched.drop 1 }) s
  if inStop s || s.pwr.runSt == 1 then finish c 0x0009 0 s else onCopy j (fun x => { x with queue := x.queue ++ [i] }) s

/-- Issue the reads of a COPY, up to the channel's slots. -/
def copyReads (j : Nat) : Nat → State → State
  | 0, s => s
  | n + 1, s =>
    match (copyCh s j).run with
    | none => s
    | some r =>
      if r.ending = 0 ∧ r.rd < r.len / 64 ∧ (r.rd - r.back) + (r.wrIssued - r.wrDone) < 64 then
        copyReads j n (internalRead (.copy j) r.rd (r.src / 64 + r.rd) (onRun j (fun x => { x with rd := x.rd + 1 }) s))
      else s

/-- A copy channel goes on: its command ends when every write has been acknowledged, or halts; the next one starts. -/
def copyStep (j : Nat) (s : State) : State :=
  let c := copyCh s j
  match c.run with
  | some r =>
    if r.back = r.rd ∧ r.wrDone = r.wrIssued ∧ (r.ending ≠ 0 ∨ r.len / 64 ≤ r.rd) then
      let s := onCopy j (fun c => { c with run := none }) s
      if r.ending = 0 then finish r.cmd 0 r.poisoned s
      else if r.ending = 7 then
        let a := r.low.getD 0
        count 9 0x12 1 (finish r.cmd 7 a (onCopy j (fun c => { c with halted := true, addr := a % 2 ^ 48 }) s))
      else finish r.cmd r.ending r.resAddr s
    else if s.pwr.runSt = 2 then s else copyReads j 64 s
  | none =>
    if c.halted then s else
    match c.queue with
    | .copy cmd src dst len _ pk :: rest =>
      if !cmdFree s cmd then s else
      copyReads j 64 (onCopy j (fun c => { c with run := some { cmd, src, dst, len, poisonOk := pk }, queue := rest })
        (onQueue cmd.q (fun h => { h with started := h.started ++ [cmd] }) s))
    | _ => s

/-! ## Cache commands (R163 to R168) -/

def onJob (id : Nat) (f : CacheJob → CacheJob) : State → State := onCch fun x =>
  { x with jobs := x.jobs.map fun j => if j.id = id then f j else j }

def endJob (j : CacheJob) (status result : Nat) (s : State) : State :=
  finish j.cmd status result (onCch (fun x => { x with jobs := x.jobs.filter fun k => k.id != j.id }) s)

/-- The snoops of a line for CACHE_MAINT (R202): one transaction for each granule that has an entry. -/
def snoopLine (u op : Nat) (s : State) : State :=
  each (upto 8) (fun g s =>
    let lg := u * 8 + g
    if (dirFind s lg).isSome then
      order { id := nextReq s, src := .fw, rq := rqOfSrc s .fw, kind := .maint op, txid := 0, agent := 64, gaddr := groupAddr s (lg * 64) / 64
              lg, tick := s.tck.course } (takeId s)
    else s) s

/-- Snoops, or returned data, of the line are still under way. -/
def lineSnooping (s : State) (u : Nat) : Bool :=
  (s.dir.txns.any fun t => t.req.lg / 8 == u && match t.req.kind with | .maint 0 => false | .maint _ => true | _ => false)
    || s.ord.gbs.any fun g => g.lg / 8 == u && g.rsv != 0

/-- Apply a maintenance operation to a line that is not in transit (R166): 1 CLEAN, 2 FLUSH, 3 INVALIDATE. -/
def maintLine (j : CacheJob) (u : Nat) (s : State) : State :=
  match findWay s u with
  | none => s
  | some k =>
    let i := lineOf u
    let l := lineIn (way s k) i
    if j.op = 3 then onLine k i (fun _ => {}) s
    else
      let s := if l.st = .dirty ∨ l.st = .poisoned then cleanLine k i (j.op == 2) s else s
      let l' := lineIn (way s k) i
      let s := if l'.st = .evicting ∨ (l'.st = .poisoned ∧ l'.cleaning) then onJob j.id (fun x => { x with waits := (u, none) :: x.waits }) s else s
      if j.op = 2 ∧ l.st = .clean then onLine k i (fun _ => {}) s else s

/-- The line of a maintenance command is in transit: it waits (R168). -/
def inTransit (s : State) (u : Nat) : Bool :=
  let l := lineOfPage s u
  l.st == .filling || l.st == .evicting || l.cleaning

/-- The command goes on past `n` lines; in the set form the next way's sector is looked at when its turn comes. -/
def nextLine (j : CacheJob) (n : Nat) : State → State := onJob j.id fun x =>
  { x with next := x.next + n, snooped := false, done := [], miss := none, sector := if (x.next + n) % 32 = 0 then none else x.sector }

/-- A granule of the line has a directory entry. -/
def lineHeld (s : State) (u : Nat) : Bool := (upto 8).any fun g => (dirFind s (u * 8 + g)).isSome

/-- One line of CLEAN, FLUSH or INVALIDATE (R168): it waits while the line is in transit, or reads have still to receive its fill's data; then
it takes the line lock and the agents' copies are recalled, again where one was granted meanwhile, and the operation applies. -/
def maintOne (j : CacheJob) (u : Nat) (s : State) : State :=
  if inTransit s u || fillWaits s u || lineSnooping s u then s
  else if !j.snooped || (decide (2 ≤ j.op) && lineHeld s u) then
    snoopLine u j.op (onJob j.id (fun x => { x with snooped := true, lockAt := nextReq s }) s)
  else
    let k := findWay s u
    let s := nextLine j 1 (maintLine j u s)
    match k with
    | some k => finishEvict k s
    | none => s

/-- Every one of ways 0 to 9 of a set is locked (R164). -/
def lockFull (s : State) (set : Nat) : Bool := (upto 10).all fun w => (way s (set * 12 + w)).lock || (way s (set * 12 + w)).off

/-- The lines of a 16 KiB piece that lie together at one home: all 32, or those of one chunk of the interleave (R16, R163). -/
def pieceLines (s : State) : Nat :=
  if s.grp.size = 1 ∨ s.grp.interleave = 0 then 32 else min 32 (2 ^ s.grp.interleave / 512)

/-- `n` lines from user page `u` that CACHE_PRELOAD has done: those found with data, those that are being filled, and those that it fills now
(R163). -/
def preloadLines (j : CacheJob) (k u n : Nat) (s : State) : State :=
  each ((upto n).map fun i => lineOf u + i) (fun i s =>
    let l := lineIn (way s k) i
    if i ∈ j.done ∨ l.st = .evicting then s else
    let s := onJob j.id (fun x => { x with done := i :: x.done }) s
    if l.st = .invalid then startFill k i (u - lineOf u + i) 3 s.tck.course s else s) (onJob j.id (fun x => { x with snooped := true }) s)

/-- One sector of CACHE_PRELOAD (R163, R164), or the part of it that the range has at this home; `u` is its first user page there. It ends when
every line is done and none is Filling; a line that is Evicting is awaited. A sector that is locked already in ways 0 to 9 takes no way: it goes
on although every one of them is locked (DESIGN CHOICE, log 165). -/
def preloadOne (j : CacheJob) (g u : Nat) (s : State) : State :=
  let set := setOf u
  let n := pieceLines s
  match findWay s u with
  | some k =>
    let w := way s k
    if w.retiring then s
    else if j.lock && decide (10 ≤ k % 12) && !w.lock then
      if lockFull s set then endJob j 0x0020 (g * 512) s else
      -- cleaned and invalidated there, then allocated again
      let s := each (linesIn w fun t => t == .dirty || t == .poisoned) (fun i s => cleanLine k i true s) s
      let w := way s k
      if w.lines.all fun l => !(l.2.st == .evicting || l.2.st == .filling || l.2.cleaning || fillWaits s (pageOfWay k w l.1)) then
        onWay k (fun w => { off := w.off }) s
      else s
    else
      let s := preloadLines j k u n (if j.lock then onWay k (fun w => { w with lock := true }) s else s)
      let all := (s.cch.jobs.find? fun x => x.id == j.id).any fun x => decide (n ≤ x.done.length)
      if all && (linesIn (way s k) fun t => t == .filling).isEmpty then nextLine j n s else s
  | none =>
    if j.snooped then nextLine j n s
    else if incomingFor s u then s
    else if j.lock && lockFull s set then endJob j 0x0020 (g * 512) s
    else
      -- its miss takes its place behind those that wait for a way of the set (R155)
      let id := j.miss.elim (nextReq s) (·.2)
      let s := if j.miss.isSome then s else takeId (onJob j.id (fun x => { x with miss := some (u, id) }) s)
      if missBefore s u id then s else allocate u (classOf s u) 0 j.lock s

/-- A cache command goes on with its next line, set or sector, and ends when its write-backs have reached the map (R167). -/
def jobStep (j : CacheJob) (s : State) : State :=
  if j.next < j.last then
    if j.bySet then
      let k := j.next / 32
      let w := way s k
      -- the sector that the way holds when the operation reaches it (R166)
      match j.sector with
      | some u => maintOne j (u + j.next % 32) s
      | none =>
        if !w.valid then nextLine j (32 - j.next % 32) s
        else if j.op = 3 ∧ !mayWrite s .host (pageOfWay k w 0 * 512) then
          nextLine j 32 (onJob j.id (fun x => { x with skipped := x.skipped + 1 }) s)
        else onJob j.id (fun x => { x with sector := some (pageOfWay k w 0) }) s
    else match decodeAddr s (j.next * 512) with
      | .here a => if j.op = 0 then preloadOne j j.next (a / 512) s else maintOne j (a / 512) s
      | .remote m _ =>
        -- the other home does its part (R345)
        if unreachable s m then endJob j 0x0005 (j.next * 512) s else nextLine j (if j.op = 0 then pieceLines s else 1) s
      | .unbacked => nextLine j 1 s
  else if j.waits.all fun p => mapReached s p.1 p.2 then endJob j 0 j.skipped s
  else s

/-- Start a cache command on a group range, or on sets. -/
def startJob (j : CacheJob) (s : State) : State := takeId (onCch (fun x => { x with jobs := x.jobs ++ [{ j with id := nextReq s }] }) s)

/-- CACHE_UNLOCK clears LOCK on every resident sector of the range (R165). -/
def unlockRange (a len : Nat) (s : State) : State :=
  onCch (fun c => { c with ways := c.ways.map fun (k, w) =>
    let g := groupAddr s (pageOfWay k w 0 * 512)
    (k, if w.valid ∧ a ≤ g ∧ g < a + len then { w with lock := false } else w) }) s

/-! ## The host's barriers (R229) -/

/-- Every read of ORD_HOST_FENCE whose writes are all durable completes with DONE = 1. -/
def fenceStep (s : State) : State :=
  each (s.ord.fences.filter fun l => !l.any (writeOpen s)) (fun l s =>
    emit (.reg 0x0600010 1) (onOrd (fun o => { o with fences := o.fences.erase l }) s)) s

/-- The host writes that arrived before now. -/
def hostWriteIds (s : State) : List Nat :=
  let held := s.dir.held.filter fun h => h.src == .host && match h.cmd with | .bar2Write _ _ _ _ => true | _ => false
  held.map (·.id) ++ ((s.ord.gbs.filter fun g => g.buf == 12).flatMap (·.reqs))
    ++ ((s.dir.txns.filter fun t => t.req.src == .host && isWriteKind t.req.kind).flatMap fun t => t.req.id :: t.req.ids)
    ++ (s.dir.fwds.filter fun f => f.src == .host && f.write).map (·.req) ++ (s.ord.away.filter fun w => w.src == .host).map (·.req)

end Sys2Proof.Machine
end

