-- ==== Sys2Proof/Machine/Course.lean ====
section
/-!
DEFINITION. Courses and hoists (R33 to R68): the assignment of reads and pieces at a course start (R46, R53), the levels of
background work (R52), the conditions of R48, and the launch of hoists (R57 to R64).
-/

namespace Sys2Proof.Machine
open Sys2Proof

/-! ## Time and counters of a course -/

/-- Clocked counter units: a gated port or engine does not count (R457, R507). -/
def unitClocked (s : State) (u : Nat) : Bool :=
  if 0x40 ≤ u ∧ u < 0x4C then clocked s (u - 0x40)
  else if 0x50 ≤ u ∧ u < 0x58 then clocked s (12 + (u - 0x50))
  else if u = 7 then clocked s 20
  else if u = 9 then clocked s 21
  else true

/-- The counter units in rising order (R506). -/
def counterUnits : List Nat := (upto 0x58).filter isCounterUnit

/-- Events of a unit (R510) whose amounts no rule gives command by command: level events, ties, DRAM accesses and refreshes. -/
def levelCodes (u : Nat) : List Nat :=
  if u = 2 then [0x12, 0x13, 0x14] else if u = 3 then [0x14, 0x16] else if u = 5 then [0x13]
  else if 0x10 ≤ u ∧ u < 0x20 then [0x10, 0x11, 0x12, 0x13]
  else if 0x20 ≤ u ∧ u < 0x40 then [0x16, 0x17]
  else if 0x40 ≤ u ∧ u < 0x4C then [0x14]
  else if 0x50 ≤ u ∧ u < 0x58 then [0x14, 0x15] else []

/-- A time of `ps` picoseconds passes: cycles of 625 ps are counted. What the level events, and the cycles of back-pressure, add
over the time is no part of the model's state: a free value each (DESIGN CHOICE, log 22). -/
def timePasses (ps : Nat) (s : State) : State :=
  let cyc := ps * 8 / 5000
  let s := { s with now := s.now + ps }
  if pmcStopped s then s else
  each counterUnits (fun u s =>
    if !unitClocked s u then s else
    let s := onUnit u (fun p => { p with cyc := (p.cyc + cyc) % 2 ^ 64 }) s
    let s := count u 0x01 cyc s
    if (pmcUnit s u).cfg.isEmpty then s else
    each (0x02 :: levelCodes u) (fun c s =>
      if (pmcUnit s u).cfg.any fun q => q.2.toNat % 256 == c then
        let (v, s) := free s
        count u c (v % 2 ^ 32) s
      else s) s) s

/-- A snapshot (R511): every counter goes to its shadow. SOURCE: 0 a local hoist, 1 a group hoist, 2 the command (R521). -/
def takeSnapshot (src : Nat) (s : State) : State :=
  onPmc (fun p => { p with
    units := tall {} p.units fun x => { x with scyc := x.cyc, spc := x.pc }
    gen := (p.gen + 1) % 2 ^ 32
    source := src
    tick := s.tck.count }) s

/-! ## The channels' windows (R46) -/

/-- What a channel's windows hold while a course is planned: banks whose read window is taken, senses in the program windows,
banks that carry a piece, pieces so far. -/
structure Plan where
  rw : List Nat := []
  pw : List (Nat × Nat) := []
  pieces : List Nat := []
  urgent : Nat := 0
deriving DecidableEq, Repr

def pwSenses (p : Plan) (b : Nat) : Nat := (p.pw.filter fun q => q.1 == b).foldl (fun n q => n + q.2) 0

/-- Assign a read if it finds room: its bank's read window, else the program window (R46); the senses of a retry stand together in one
program window (R47). -/
def assignRead (r : MRead) (ps : Plan × State) : Plan × State :=
  let (p, s) := ps
  let b := bankOfPpn r.ppn
  let need := (nextSenses s r).length
  if r.retry = 0 ∧ b ∉ p.rw then ({ p with rw := b :: p.rw }, putRead r.id true s)
  else if b ∉ p.pieces ∧ pwSenses p b + need ≤ windowSenses s then ({ p with pw := (b, need) :: p.pw }, putRead r.id false s)
  else (p, s)

/-- The class of a retry for R127: class A and B, then relocation and patrol, then class C. -/
def retryRank (r : MRead) : Nat := if r.cls ≤ 1 then 0 else if r.cls = 3 then 1 else 2

/-- The retries of a channel that wait, in their order: first those that found no place within Q before, then by class, each oldest first
(R127). -/
def waitingRetries (s : State) (ch : Nat) : List MRead :=
  sortBy (fun r => [1 - b2n r.passed, retryRank r, r.queued, r.ord])
    (s.med.reads.filter fun r => channelOfPpn r.ppn == ch && r.assigned.isNone && decide (0 < r.retry))

/-- The other reads of a channel that wait, in the order of R46. -/
def waitingReads (s : State) (ch : Nat) : List MRead :=
  sortBy (fun r => readKey r.level r)
    (s.med.reads.filter fun r => channelOfPpn r.ppn == ch && r.assigned.isNone && r.retry == 0)

/-- The level of a background read is that of its activity at this course start (R46, R52); a relocation that has begun goes on at
background while its activity is idle (R565). -/
def readLevel (s : State) (r : MRead) : Nat :=
  match r.why with
  | .reloc i _ => match s.med.relocs.find? fun x => x.id == i with
    | some x => max 1 (levelOf s (actOfReloc x.act) (if x.act = 2 then 0 else bankOfBlock x.src))
    | none => r.level
  | .patrol _ _ => max 1 (levelOf s 3 (channelOfPpn r.ppn))
  | _ => r.level

def relevelReads (s : State) : State :=
  onMed (fun m => { m with reads := m.reads.map fun r => { r with level := readLevel s r } }) s

/-! ## Pieces (R39 to R42, R53) -/

/-- Admission limit A in force: the lower of R420's and the cap of R471. -/
def admission (s : State) : Nat :=
  let t := topBand s
  min s.pwr.admLim (if t = 5 then 8 else if t = 4 then 32 else 128)

/-- Multi-level programs and resets may start (R434 step 2). -/
def mayStart (s : State) (p : Prog) : Bool := !s.pwr.noStart || p.groups == 1

/-- The page of a program is taken from its stream when its first piece is planned (R87, R96). One whose first piece was displaced keeps its
page while the block is still OPEN: no program starts in a block that is VICTIM or FAILED (R96). -/
def givePage (p : Prog) (s : State) : Option Nat × State :=
  match p.ppn.filter fun q => (blk s (blockOfPpn q)).st == .opened with
  | some q => (some q, s)
  | none => match p.kind with
    | .write _ => takePage p.bank 0 s
    | .mapPage _ => if streamHeld s none p.bank 3 then (none, s) else takePage p.bank 3 s
    | .segment _ => takePage p.bank 5 s
    | .imported _ => if streamHeld s none p.bank 1 then (none, s) else takePage p.bank 1 s
    | .journal _ => takePage p.bank 4 s
    | .copy r _ => if streamHeld s (some r) p.bank (copyStream p) then (none, s) else takePage p.bank (copyStream p) s

/-- A program's first piece is planned: its page, its waveform (R133, R134; single-level programs have one waveform in every band), and for a
map page the data as it now stands and, for each page it is given, its journal record (R79, R92). Page 0 of a block gives the block its
cohort (R117). -/
def firstPiece (p : Prog) (s : State) : Bool × State :=
  match givePage p s with
  | (none, s) => (false, s)
  | (some q, s) =>
    let wave := if p.groups = 1 then none else some (waveformIn s (bankOfPpn q))
    let s := onProg p.id (fun x => { x with ppn := some q, bank := bankOfPpn q, first := some s.tck.course, wave, running := true }) s
    let s := if pageInBlock q = 0 ∧ p.groups ≠ 1 then takeCohort (blockOfPpn q) (leaveCohort (blockOfPpn q) s) else s
    match p.kind with
    | .segment n => (true, onProg p.id (fun y => { y with page := mkPage 3 0 p.page.seq false false (segmentBytes s n) }) s)
    | .mapPage m =>
      let page := sealedPage s 1 m s.med.wseq false false (mapPageBytes s m)
      let s := if p.ppn = some q then s else enter (.mapPageWrite m { valid := true, ppn := q }) false s
      (true, onMed (fun x => { x with
        progs := x.progs.map fun y => if y.id = p.id then { y with page } else y
        slots := match tget none x.slots m with
          | some t => tset none x.slots m (some { t with dirty := false })
          | none => x.slots }) s)
    | _ => (true, s)

/-- The first of these programs that gets its page begins. -/
def beginFirst : List Prog → State → Bool × State
  | [], s => (false, s)
  | p :: l, s => match firstPiece p s with
    | (true, s) => (true, s)
    | (false, s) => beginFirst l s

/-- Give a bank's slot to a piece of the owner: of the first program that can begin there, or of a reset, whose PENDING_RESET is durable
and of whose block no read holds an address (R89, R96). False when none can run. -/
def giveSlot (b owner : Nat) (s : State) : Bool × State :=
  match beginFirst (s.med.progs.filter fun p => p.bank == b && p.owner == owner && p.first.isNone && !p.running && mayStart s p
      && !(s.med.staging.any fun g => g.prog == some p.id && g.afresh)) s with
  | (true, s) => (true, s)
  | (false, s) =>
    match s.med.resets.find? fun r => bankOfBlock r.block == b && r.owner == owner && !r.running && r.after.isNone && !readHolds s r.block with
    | some r => if s.pwr.noStart && r.strip == 0 then (false, s) else (true, onRst r.block (fun x => { x with running := true }) s)
    | none => (false, s)

/-- The bank's program window is free in the plan. -/
def slotFree (p : Plan) (b : Nat) : Bool := !decide (b ∈ p.pieces) && !(p.pw.any fun q => q.1 == b)

/-- A bank's slot goes to patrol: up to P of its waiting senses. One that comes next in the order of R46 takes the read window if that is
free, and when no other waits the slot stays free (DEDUCED, log 130). -/
def patrolSlot (b : Nat) (ps : Plan × State) : Bool × Plan × State :=
  let (p, s) := ps
  let all := (waitingReads s (channelOfBank b)).filter fun r => bankOfPpn r.ppn == b
  let isPatrol := fun (r : MRead) => match r.why with | .patrol _ _ => true | _ => false
  let (p, s) := match all with
    | r :: _ => if isPatrol r then (if b ∈ p.rw then (p, s) else assignRead r (p, s)) else (p, s)
    | [] => (p, s)
  let rest := ((waitingReads s (channelOfBank b)).filter fun r => bankOfPpn r.ppn == b && isPatrol r).take (windowSenses s)
  if rest.isEmpty then (false, p, s)
  else (true, { p with pw := (b, rest.length) :: p.pw }, each rest (fun r s => putRead r.id false s) s)

/-- Give a free slot to an owner: a piece within the admission limit, or patrol's senses, which no limit bounds (R55). -/
def takeSlot (b owner : Nat) (ps : Plan × State) : Bool × Plan × State :=
  let (p, s) := ps
  if !slotFree p b then (false, p, s)
  else if owner = 5 then patrolSlot b (p, s)
  else if admission s ≤ p.pieces.length then (false, p, s)
  else match giveSlot b owner s with
    | (true, s) => (true, { p with pieces := b :: p.pieces }, s)
    | (false, s) => (false, p, s)

/-- Try to give a bank's slot to one of these owners in turn; the owner that takes it. -/
def tryOwners (b : Nat) : List Nat → Plan × State → Option Nat × Plan × State
  | [], ps => (none, ps)
  | o :: os, ps => match takeSlot b o ps with
    | (true, ps) => (some o, ps)
    | (false, ps) => tryOwners b os ps

/-- Banks of a channel that have programs, resets or waiting patrol senses. -/
def workBanks (s : State) (ch : Nat) : List Nat :=
  let patrol := s.med.reads.filterMap fun r => match r.why with
    | .patrol _ _ => if r.assigned.isNone then some (bankOfPpn r.ppn) else none
    | _ => none
  sortBy (fun b => [b]) (((s.med.progs.map (·.bank) ++ (s.med.resets.map fun r => bankOfBlock r.block) ++ patrol).filter
    fun b => channelOfBank b == ch).eraseDups)

/-- The banks in order from last course's start bank on (R53). -/
def rotate (start : Nat) (l : List Nat) : List Nat := (l.filter fun b => decide (start ≤ b)) ++ l.filter fun b => decide (b < start)

/-- Pieces of work already started: programs between their pieces, and half-done strips (R40, R42). -/
def continuing (s : State) (ch : Nat) : List (Nat × Nat × (Nat ⊕ Nat)) :=
  (s.med.progs.filterMap fun p => if p.first.isSome && channelOfBank p.bank == ch then some (p.bank, p.owner, .inl p.id) else none)
    ++ s.med.resets.filterMap fun r =>
      if r.half && channelOfBank (bankOfBlock r.block) == ch then some (bankOfBlock r.block, r.owner, .inr r.block) else none

/-- Give continuing pieces their slots. -/
def placeContinuing (l : List (Nat × Nat × (Nat ⊕ Nat))) (ps : Plan × State) : Plan × State :=
  l.foldl (fun ps (b, o, w) =>
    let (p, s) := ps
    if b ∈ p.pieces ∨ p.pw.any (fun q => q.1 == b) then (p, count 1 0x14 1 s)
    else if admission s ≤ p.pieces.length then (p, count 1 0x16 1 s)
    else
      let s := match w with
        | .inl i => onProg i (fun x => { x with running := true }) s
        | .inr k => onRst k (fun x => { x with running := true }) s
      ({ p with
        pieces := b :: p.pieces
        urgent := if o ≠ 0 ∧ o ≠ 4 ∧ ownerLevel s o b = 3 then p.urgent + 1 else p.urgent }, s)) ps

/-- Urgent activities in the order repointing, reclaim, wear levelling, patrol, within the cap; each walk starts one bank further than in the
course before (R53). -/
def placeUrgent (cap ch : Nat) (ps : Plan × State) : Plan × State :=
  [1, 2, 3, 5].foldl (fun ps o =>
    (rotate (ch * 128 + ps.2.tck.walk) (workBanks ps.2 ch)).foldl (fun (ps : Plan × State) b =>
      if ownerLevel ps.2 o b = 3 ∧ ps.1.urgent < cap then
        match takeSlot b o ps with
        | (true, p, s) => ({ p with urgent := p.urgent + 1 }, count 1 0x15 1 s)
        | (false, ps) => ps
      else ps) ps) ps

/-- One for one: the write path and a pressing activity of the bank alternate; urgent beyond the cap counts as pressing (R53, R566). Of
several such activities the first in the order of the urgent ones takes it, and the first turn of a bank is the write path's (DESIGN CHOICE,
log 130). -/
def placeShared (ch : Nat) (ps : Plan × State) : Plan × State :=
  (workBanks ps.2 ch).foldl (fun (ps : Plan × State) b =>
    let press := [1, 2, 3, 5].filter fun o => decide (2 ≤ ownerLevel ps.2 o b)
    match tryOwners b (if tget false ps.2.tck.alt b then press ++ [0] else 0 :: press) ps with
    | (some o, p, s) => (p, if press.isEmpty then s else onTck (fun t => { t with alt := tset false t.alt b (o == 0) }) s)
    | (none, ps) => ps) ps

/-- Background activities, and begun relocations whose activity is idle (R53, R565). -/
def placeBackground (ch : Nat) (ps : Plan × State) : Plan × State :=
  (workBanks ps.2 ch).foldl (fun (ps : Plan × State) b => (tryOwners b [1, 2, 3, 5] ps).2) ps

/-- Assign waiting retries until Q have found room (R46, R127); how many have. -/
def placeRetries (q : Nat) (l : List MRead) (ps : Plan × State) : Nat × Plan × State :=
  l.foldl (fun (n, p, s) r =>
    if q ≤ n then (n, p, s) else
    let (p', s') := assignRead r (p, s)
    (if p.pw.length < p'.pw.length then n + 1 else n, p', s')) (0, ps)

/-- Plan one channel's course (R46, R53). Where Q was used up, the retries that still wait go first in the next course (R127). -/
def planChannel (ch : Nat) (s : State) : State :=
  let q := retryReserve s
  let retries := waitingRetries s ch
  let s := if q < retries.length then onMed (fun m => { m with retryNow := addNew ch m.retryNow }) s else s
  let (n, ps) := placeRetries q retries ({}, s)
  let ps := (ps.1, count 1 0x13 n (if n < q then ps.2 else onMed (fun m => { m with
    reads := m.reads.map fun r => if r.assigned.isNone && retries.any (fun x => x.id == r.id) then { r with passed := true } else r }) ps.2))
  let ps := ((waitingReads ps.2 ch).filter fun r => decide (readStep r ≤ 2)).foldl (fun ps r => assignRead r ps) ps
  let slots := banksPerChannel s - (ps.1.pw.map (·.1)).eraseDups.length
  let cap := slots * (expertIn ps.2 0x0100040 % 128) / 100
  let ps := placeContinuing (continuing ps.2 ch) ps
  let ps := (workBanks ps.2 ch).foldl (fun (ps : Plan × State) b => (tryOwners b [4] ps).2) ps
  let ps := placeUrgent cap ch ps
  let ps := placeShared ch ps
  let ps := placeBackground ch ps
  (((waitingReads ps.2 ch).filter fun r => decide (2 < readStep r)).foldl (fun ps r => assignRead r ps) ps).2

/-- Channels with work. -/
def workChannels (s : State) : List Nat :=
  sortBy (fun c => [c]) (((s.med.reads.map fun r => channelOfPpn r.ppn) ++ (s.med.progs.map fun p => channelOfBank p.bank)
    ++ s.med.resets.map fun r => channelOfBank (bankOfBlock r.block)).eraseDups)

/-- Checkpoint segments take their pages as they come, so that each waits in the bank of its block (R87, R93). -/
def segmentPages (s : State) : State :=
  each (s.med.progs.filter fun p => p.ppn.isNone && match p.kind with | .segment _ => true | _ => false) (fun p s =>
    match takePage p.bank 5 s with
    | (some q, s) => onProg p.id (fun x => { x with ppn := some q, bank := bankOfPpn q }) s
    | (none, s) => s) s

/-- Pieces of the course that ended run no more. -/
def clearRunning : State → State := onMed fun m =>
  { m with
    progs := m.progs.map fun p => { p with running := false }
    resets := m.resets.map fun r => { r with running := false } }

/-! ## Levels of background work (R52, R565) -/

def stepLevel (key m : Nat) : State → State := onTck fun t =>
  { t with esc := tmod {} t.esc key (escStep m) }

/-- Every level at a course start; laps run from memory ready on. -/
def stepLevels (s : State) : State :=
  let banks := ownBanks s
  let s := each banks (fun b s =>
    let s := stepLevel (escKey 1 b) (reclaimLevel (freeCount s b) (floorF s) (reclaimWaits s b)) s
    stepLevel (escKey 0 b) (repointLevel (leastMargin s ((repointQueue s).filter fun p => bankOfBlock p.1 == b))) s) s
  let sp := moduleSpread s
  let s := onMed (fun m => { m with spread := sp }) s
  let s := stepLevel (escKey 2 0) (wearLevel sp (spreadS s)) s
  if !s.glb.memReady then s else
  let lap := expertIn s 0x0300140 % 256 * 3600 * sec
  let s := each (upto 32) (fun c s => stepLevel (escKey 3 c) (lapLevel (s.now - tget 0 s.med.patrolAge c) lap) s) s
  let scrub := expertIn s 0x0E00080 % 256 * 3600 * sec
  each (upto 16) (fun k s => stepLevel (escKey 4 k) (lapLevel (s.now - tget 0 s.err.scrubAge k) scrub) s) s

/-- Background work chooses its sources (R95, R104, R130): one relocation of each activity in a bank at a time. Where R76 excludes the first
block of a bank's repointing queue, the bank waits for it and does not go on to the next (DESIGN CHOICE, log 133). Wear levelling starts
with the bank of largest spread. -/
def chooseSources (s : State) : State :=
  let has := fun (s : State) (a b : Nat) => s.med.relocs.any fun r => bankOfBlock r.src == b && actOfReloc r.act == a
  let s := each (ownBanks s) (fun b s =>
    let s := if 1 ≤ levelOf s 0 b ∧ has s 0 b = false then
      match repointFirst s b with
      | some k => if choosable s k then startReloc k 1 s else s
      | none => s
    else s
    if (1 ≤ levelOf s 1 b ∨ reclaimWaits s b) ∧ has s 1 b = false then
      match reclaimSource s b with
      | some (k, act) => startReloc k act s
      | none => s
    else s) s
  if levelOf s 2 0 = 0 then s else
  each (sortBy (fun b => [2 ^ 24 - bankSpread s b, b]) (ownBanks s)) (fun b s =>
    if spreadS s < bankSpread s b ∧ has s 2 b = false then
      match wearSource s b with
      | some k => startReloc k 2 s
      | none => s
    else s) s

/-! ## Patrol (R135) -/

/-- Blocks that patrol visits in a channel, from `from` on. -/
def patrolNext (s : State) (ch start : Nat) : Option Nat :=
  ((s.med.blocks.filter fun (b, x) => channelOfBank (bankOfBlock b) == ch && x.multi && (x.st == .opened || x.st == .full) && decide (start ≤ b)).head?).map (·.1)

/-- Patrol goes on to the next block of a channel when none of its senses waits; a finished lap starts the next, and one with no block to
visit ends at once. -/
def patrolChannel (ch : Nat) (s : State) : State :=
  if (s.med.reads.any fun r => channelOfPpn r.ppn == ch && match r.why with | .patrol _ _ => true | _ => false) then s else
  match patrolNext s ch (tget 0 s.med.patrolPos ch) with
  | some b =>
    let x := blk s b
    -- the block waits for room for all of its senses (R24)
    if 8128 < mediaOps s + 4 then s else
    let s := onMed (fun m => { m with patrolPos := tset 0 m.patrolPos ch (b + 1) }) s
    each ([0, 683, 1365, 2047].filter fun p => decide (p < x.next) && (mediumPage s (b * 2048 + p)).isSome)
      (fun p => queueRead (.patrol b p) (b * 2048 + p) 3 (max 1 (levelOf s 3 ch)) s.tck.course) s
  | none => onMed (fun m => { m with patrolPos := tset 0 m.patrolPos ch 0, patrolAge := tset 0 m.patrolAge ch s.now }) s

def patrolStep (s : State) : State := each (upto 32) patrolChannel s

/-! ## The conditions of R48 -/

/-- Count the channel-courses of the previous course in which (a), (b) or (c) failed (R50). -/
def countConditions (s : State) : State :=
  let m := s.med
  let chs := (m.abPrev.map (·.1) ++ (m.bankPrev.map fun p => channelOfBank p.1) ++ m.retryPrev).eraseDups
  let bad := chs.filter fun c => decide (readBudget s < tget 0 m.abPrev c) || decide (c ∈ m.retryPrev)
    || m.bankPrev.any fun p => channelOfBank p.1 == c && decide (windowSenses s < p.2)
  let s := each bad (fun c s => event 0x0105 1 c (onTck (fun t => { t with cond := sat 32 t.cond 1 }) s)) s
  onMed (fun m => { m with bankPrev := [], retryPrev := [] }) s

/-- The program windows are fixed, once every late read has been assigned (R557). -/
def fixWindows (s : State) : State :=
  if s.tck.fixed then s else countConditions (onTck (fun t => { t with fixed := true }) s)

/-- The counts of the course that ended become those of the previous course. -/
def shiftCounts : State → State := onMed fun m =>
  { m with
    abPrev := m.abNow
    abNow := []
    bankPrev := m.bankNow
    bankNow := []
    retryPrev := m.retryNow
    retryNow := [] }

/-! ## Hoists (R56 to R64) -/

def hoistList (s : State) : List (Nat × Hoist) := s.tck.hoists.filterMap fun p => p.2.map fun h => (p.1, h)

def setHoist (i : Nat) (h : Option Hoist) : State → State := onTck fun t => { t with hoists := tset none t.hoists i h }

/-- Read a hoist entry of 32 B (R56); bits [15:13] of HOIST_ID are the given GRP_ID. -/
def hoistOf (e : Nat) (grp : Option Nat) : Hoist :=
  let id := bits e 80 16
  { launch := bits e 0 64
    action := bits e 64 8
    group := bitOf e 72
    notify := bitOf e 73
    id := match grp with | some g => g % 8 * 8192 + id % 8192 | none => id
    rep := bits e 96 32
    arg := BitVec.ofNat 128 (bits e 128 128) }

/-- Bits of ARG that an action uses (R57). -/
def argBits (a : Nat) : Nat :=
  if a = 2 ∨ a = 4 ∨ a = 7 then 2 ^ 16 - 1 else if a = 3 then 2 ^ 9 - 1 else if a = 5 ∨ a = 6 then 2 ^ 64 - 1 else if a = 8 then 31 else 0

/-- The module is in a group (R560). -/
def inGroup (s : State) : Bool := decide (1 < s.grp.size)

/-- The checks of R58, in order; 0 is SUCCESS. -/
def checkHoist (s : State) (e : Nat) (h : Hoist) : Nat :=
  let c := s.tck.count
  if h.action = 0 ∨ 8 < h.action ∨ bits e 74 6 ≠ 0 ∨ h.arg.toNat &&& argBits h.action ≠ h.arg.toNat then 0x0010
  else if h.action = 8 ∧ (h.rep ≠ 0 ∨ (!h.group ∧ inGroup s) ∨ 28 < h.arg.toNat) then 0x0010
  else if h.launch < c + (if h.group then 4 else 2) then 0x0011
  else if (hoistList s).any (fun p => p.2.id == h.id) then 0x0012
  else if h.action = 8 ∧ (hoistList s).any (fun p => p.2.action == 8 && p.2.launch == h.launch) then 0x0013
  else if 64 ≤ (hoistList s).length then 0x0014
  else 0

/-- Arm an entry in the first free place. -/
def armHoist (h : Hoist) (s : State) : State :=
  let s := onTck (fun t => { t with launched := t.launched.filter (· != h.id) }) s
  match (upto 64).find? fun i => (tget none s.tck.hoists i).isNone with
  | some i => setHoist i (some h) s
  | none => s

def findHoist (s : State) (id : Nat) : Option (Nat × Hoist) := (hoistList s).find? fun p => p.2.id == id

/-- A cancel of a group hoist (R63): it frees the armed entry. After the freeze of its tick the hoist launches nevertheless, once (DEDUCED,
log 131), and is recorded as missed, as is a copy that has launched. -/
def takeHoistCancel (id : Nat) (s : State) : State :=
  let s := onTck (fun t => { t with refusedArms := t.refusedArms.filter fun a => a.1 != id }) s
  match findHoist s id with
  | some (i, h) =>
    if h.launch ≤ s.tck.count + 1 then event 0x0103 1 id (setHoist i (some { h with cancelled := true }) s) else setHoist i none s
  | none =>
    if id ∈ s.tck.launched then event 0x0103 1 id (onTck (fun t => { t with launched := t.launched.filter (· != id) }) s) else s

/-- User pages of the regions of a mask that have a Dirty line or a granule that an agent owns (R57, R166). -/
def ckptPages (s : State) (mask : BitVec 64) : List Nat :=
  let dirty := s.cch.ways.flatMap fun (k, w) => (linesIn w fun t => t == .dirty || t == .poisoned).map fun i => pageOfWay k w i
  (sortBy (fun u => [u]) ((dirty ++ ownedPages s).eraseDups)).filter fun u =>
    (upto 64).any fun n => mask.getLsbD n && (region s n).covers s (u * 512)

/-- A new period comes into force (R67, R264, R68): the reads queued in the course before, which this course start assigns, are in budget
by the new B. -/
def newPeriod (code : Nat) (s : State) : State :=
  let s := onTck (fun t => { t with code, mismatch := false, avgSum := 0, avgCnt := 0 }) s
  let s := onMed (fun m => { m with reads := m.reads.map fun r =>
    if r.cls ≤ 1 ∧ r.assigned = none ∧ r.queued + 1 = s.tck.course then { r with inBudget := decide (r.rank < readBudget s) } else r }) s
  each (upto 8) (fun p s => if wptMax s < (port s p).wpt then setWpt p (port s p).wpt s else s) s

/-- The effect of one hoist at its launch (R57). -/
def hoistEffect (h : Hoist) (s : State) : State :=
  let a := h.arg.toNat
  let ports (m : Nat) := (upto 8).filter fun p => bitOf m p && clocked s (12 + p)
  match h.action with
  | 1 => takeSnapshot (b2n h.group) s
  | 2 => each (ports (a / 256)) stopEg (each (ports a) stopIn s)
  | 3 => each (ports a) (fun p => switchList p (b2n (bitOf a 8))) s
  | 4 => each (ports (a / 256)) startEg (each (ports a) startIn s)
  | 5 =>
    let mask := BitVec.ofNat 64 a
    onMed (fun m => { m with hoistCkpt := m.hoistCkpt ++ [{ mask, todo := ckptPages s mask }] }) s
  | 6 => event 0x0002 0 (a % 2 ^ 64) s
  | 7 =>
    let s := msix (a % 256) s
    each ((upto 8).filter fun p => bitOf a (8 + p) && clocked s p && agentUp s p) (fun p =>
      emit (.lctl (.hal p) 2 [h.id, h.launch])) s
  | 8 => newPeriod (a % 32) s
  | _ => s

/-- Launch one armed entry: its effect, its notice (R352), and its next launch or its end (R62). -/
def launchHoist (i : Nat) (h : Hoist) (s : State) : State :=
  let s := setHoist i (if h.rep = 0 ∨ h.cancelled then none else some { h with launch := h.launch + h.rep, onTime := true }) s
  let s := if h.rep = 0 ∧ h.group ∧ h.queue = none ∧ h.cancelled = false then onTck (fun t => { t with launched := addNew h.id t.launched }) s else s
  let s := count 1 0x17 1 (hoistEffect h (onTck (fun t => { t with last := t.count }) s))
  match h.queue with
  | some q => if h.notify then
      postDone q { kind := 1, cid := h.id, status := 0, result := BitVec.ofNat 64 s.tck.count, noInt := false } s else s
  | none => s

/-- The entries of a tick, in ascending code and HOIST_ID order (R59). -/
def dueHoists (s : State) : List (Nat × Hoist) :=
  sortBy (fun p => [p.2.action, p.2.id]) ((hoistList s).filter fun p => p.2.launch == s.tck.count)

/-- The freeze of the next tick (R59): a group hoist for it that this member refused, and does not hold, is missed (R63). -/
def freezeHoists (s : State) : State :=
  let (now, rest) := s.tck.refusedArms.partition fun a => decide (a.2 ≤ s.tck.count + 1)
  each now (fun a s => if (hoistList s).any (fun p => p.2.id == a.1 && p.2.launch == a.2) then s else event 0x0103 1 a.1 s)
    (onTck (fun t => { t with refusedArms := rest }) s)

/-- From Stop entry until the wake completes, and after a commit point, hoists do not launch (R64). -/
def hoistsLapse (s : State) : Bool := s.pwr.runSt != 0

/-- Launch, or let lapse, the hoists of this tick. -/
def launchHoists (s : State) : State :=
  if pastCommit s || !s.tck.running then s
  else if hoistsLapse s then
    each (dueHoists s) (fun p s => onPwr (fun x => { x with lapsed := x.lapsed ++ [p.2.id] }) (setHoist p.1 none s)) s
  else each (dueHoists s) (fun p s => if p.2.onTime then launchHoist p.1 p.2 s else setHoist p.1 none s) s

/-- The pages of a CHECKPOINT hoist are cleaned one after another; its event is recorded when the last has verified (R57). -/
def ckptStep (s : State) : State :=
  let (hs, s) := s.med.hoistCkpt.foldl (fun (a : List HCkpt × State) h =>
    let (out, s) := a
    -- the list is written back after each so that DATA_SEQ reaches it
    match h.todo with
    | u :: rest =>
      if lineSnooping s u || inTransit s u then (out ++ [h], s)
      else if !h.snooped then (out ++ [{ h with snooped := true }], snoopLine u 1 s)
      else
        let l := lineOfPage s u
        let s := match findWay s u with
          | some k => if l.st = .dirty ∨ l.st = .poisoned then cleanLine k (lineOf u) false s else s
          | none => s
        let l' := lineOfPage s u
        (out ++ [{ h with
          todo := rest
          snooped := false
          waits := if l'.st = .evicting ∨ l'.cleaning then (u, none) :: h.waits else h.waits }], s)
    | [] =>
      if h.waits.all fun p => mapReached s p.1 p.2 then (out, event 0x0003 0 h.mask.toNat s) else (out ++ [h], s)) ([], s)
  onMed (fun m => { m with hoistCkpt := hs }) s

/-! ## The start of a course -/

/-- Settings take effect at the course start (R27); a higher floor F may leave banks read-only (R111). -/
def applySettings (s : State) : State :=
  let f := floorF s
  let s := { s with expertEff := s.expert }
  let s := if f < floorF s then each (touchedBanks s) checkWorn s else s
  let s := onMed (fun m => { m with wearEff := m.wear }) s
  let s := onDir (fun d => { d with readGrantEff := d.readGrant }) s
  let s := onStm (fun m => { m with
    commitEff := m.commitTicks
    ports := tall {} m.ports fun p => { p with lowEff := p.low, highEff := p.high } }) s
  let s := onErr (fun e => { e with ceLimitEff := e.ceLimit, vectorEff := e.vector, trapEnEff := e.trapEn }) s
  let s := onPwr (fun p => { p with policyEff := p.policy, capEff := p.cap }) s
  onThm (fun t => { t with sensors := tall {} t.sensors fun x => { x with bandEff := x.band } }) s

/-- The power budget in 0.1 W (R419): CAP, 320 W, and 30.6 W for each volt of the input. -/
def budget (s : State) : Nat := min (min (100 * s.pwr.capEff) 3200) (306 * s.pwr.vin / 1000)

/-- The admission limit after a course start's comparison (R420). It is 1 from the course start after a limiting until INPUT_LIMIT has cleared
(R421, DEDUCED, log 94). -/
def stepAdmit (m : CourseMeas) (s : State) : State :=
  let s := onPlinth (fun p => { p with vin := m.vin }) s
  let s := onPwr (fun p => { p with pin := m.pin, iin := m.iin, vin := m.vin, hist := (m.pin :: p.hist).take 16 }) s
  let b := budget s
  let s := onPwr (fun p => { p with inForce := b / 10 }) s
  let n := s.pwr.hist.length
  let sum := s.pwr.hist.foldl (· + ·) 0
  let step := max 1 (expertIn s 0x0B00018 % 16)
  let low := if 100 * sum < 85 * b * n then s.pwr.low + 1 else 0
  if s.pwr.limitNext then onPwr (fun p => { p with admLim := 1, limitNext := false, low := 0 }) s
  else if s.pwr.inputLimit then onPwr (fun p => { p with admLim := 1, low }) s
  else if 95 * b * n < 100 * sum then onPwr (fun p => { p with admLim := max 1 (p.admLim - step), low }) s
  else if 16 ≤ low then onPwr (fun p => { p with admLim := min 128 (p.admLim + step), low }) s
  else onPwr (fun p => { p with low }) s

/-- PTM is latched at course starts whose tick number is a multiple of 4,096 (R330). -/
def latchPtm (m : CourseMeas) (s : State) : State :=
  match m.ptm with
  | some t => if s.tck.count % 4096 = 0 then onHst (fun h => { h with ptmTime := t, ptmTick := s.tck.count }) s else s
  | none => onHst (fun h => { h with ptmTime := 0 }) s

/-- The course that ended closes, and TCK_COUNT moves on (R33, R36). -/
def turnCourse (len : Nat) (s : State) : State :=
  let s := if s.tck.fixed then s else countConditions s
  let s := timePasses len (shiftCounts (clearRunning s))
  onTck (fun t => { t with
    count := t.count + 1
    course := t.course + 1
    fixed := false
    guard := false
    outEdges := if t.outEn then t.outEdges + 1 else t.outEdges }) s

/-- The media channels' work of the course that starts; none in Stop or before memory ready (R462). No level is looked at then, so the counts
of R52 stand still in Stop (DESIGN CHOICE, log 158). -/
def planCourse (s : State) : State :=
  if inStop s || !s.tck.running || pastCommit s then s else
  let s := stepLevels (queueRepoint s)
  let s := if inRun s && s.pwr.drain == 0 then patrolStep (chooseSources s) else s
  let s := relevelReads (segmentPages s)
  onTck (fun t => { t with walk := (t.walk + 1) % banksPerChannel s }) (each (workChannels s) planChannel s)

end Sys2Proof.Machine
end

