-- ==== Sys2Proof/Machine/Secure.lean ====
section
/-!
DEFINITION. Keys, the cipher engine, sealed import, attestation and the check of a life-cycle change (R385 to R414).
-/

namespace Sys2Proof.Machine
open Sys2Proof

/-! ## Keys (R391 to R394): the labels of the KDF are numbered 1 identity signing, 2 identity agreement, 3 Coping, 4 Coping
wrap, 5 transport, 6 media wrap, 7 DRAM data, 8 DRAM tag, 9 DRAM meta -/

def idPriv (s : State) : Nat := Config.kdf s.fuses.rootKey 1 0

def agreePriv (s : State) : Nat := Config.kdf s.fuses.rootKey 2 0

/-- A P-384 public key as 96 bytes, x then y, big-endian. -/
def pubBytes (pub : Nat) : List Byte := beBytes 96 pub

/-- The hash that GROUP_KEYS lists for a member (R391). -/
def keyHash (pub : Nat) : Nat := Config.sha384 (pubBytes pub)

/-- The key that wraps the media key: from the root key and the fuse count (R388). -/
def mediaWrapKey (s : State) : Nat := kdf32 s.fuses.rootKey 6 s.fuses.transitions

/-- The transport key: from the shared secret of the identity agreement key and the owner key (R394). -/
def transportKey (s : State) : Nat := kdf32 (Config.ecdh (agreePriv s) (Config.keyOfHash (s.flash.ownerHash.getD 0))) 5 0

/-- The bytes of a SHA-384 hash. -/
def hashBytes (h : Nat) : List Byte := beBytes 48 h

/-! ## The lock (R404, R405) -/

def CphClass.code : CphClass → Nat
  | .host => 1
  | .debug => 2
  | .firmware => 3

/-- Freeing the lock zeroes the windows, the nonce, the tag and the result; STATE becomes IDLE. -/
def freeLock : State → State := onCph fun c =>
  { c with holder := 0, ticket := 0, inp := [], out := [], nonce := 0, tag := 0, st := 0, cause := 0, run := none }

/-- A read of CPH_LOCK: the value it returns, and the grant (R404). -/
def lockRead (cls : Nat) (s : State) : Nat × State :=
  if s.cph.holder = 0 then
    let (v, s) := free s
    let t := v % 65536
    (2 ^ 31 + cls * 2 ^ 28 + t, onCph (fun c => { c with holder := cls, ticket := t }) s)
  else (s.cph.holder * 2 ^ 28, s)

/-- A write of CPH_RELEASE: the ticket in force frees the lock; another value has no effect (R404, R416). -/
def releaseLock (ticket : Nat) (s : State) : State :=
  if s.cph.holder ≠ 0 ∧ s.cph.ticket = ticket then freeLock s else s

/-! ## Operations (R406 to R409) -/

/-- The class of a slot: 0 empty; slot 0 is the module's when the transport key is present. -/
def slotClass (s : State) (i : Nat) : Nat :=
  if i = 0 then (if s.sec.transport.isSome then 3 else 0) else (tget (0, 0) s.cph.slots i).1

def slotKey (s : State) (i : Nat) : Nat := if i = 0 then s.sec.transport.getD 0 else (tget (0, 0) s.cph.slots i).2

/-- A slot that the class may use as it stands: 1 to 15, loaded by the class; the firmware's operations count as the host's. -/
def slotOk (s : State) (cls i : Nat) : Bool := i != 0 && slotClass s i == (if cls = 3 then 1 else cls)

/-- The cause with which the engine refuses an operation, 0 for none: DISABLED, then SLOT, LENGTH, NONCE_END. -/
def cphCause (s : State) (cls op key subj : Nat) : Nat :=
  let cls' := if cls = 3 then 1 else cls
  let aad := s.cph.aadLen
  let text := s.cph.textLen
  let room := decide (4096 < aad) || decide (65536 < aad + text)
  if s.cph.disabled then 4
  else if op = 1 ∨ op = 2 then
    if !slotOk s cls key then 1 else if room then 2
    else if op = 1 ∧ 2 ^ 64 - 2 ^ 20 ≤ s.cph.nonceCtr then 3 else 0
  else if op = 3 then
    let kek := if key = 0 then s.sec.transport.isSome && cls' == 1 else slotOk s cls key
    let into := subj != 0 && (slotClass s subj == 0 || slotClass s subj == cls')
    if !kek || !into then 1 else if text ≠ 40 ∨ aad ≠ 0 then 2 else 0
  else if op = 4 then
    if !slotOk s cls key || !slotOk s cls subj then 1 else if text ≠ 0 then 2 else 0
  else if op = 5 then (if slotOk s cls subj then 0 else 1)
  else 2

/-- A write of CPH_CMD (R404, R406). One that comes while an operation runs is ignored (DEDUCED, log 41). -/
def cphCommand (cls ticket op key subj : Nat) (s : State) : State :=
  if s.cph.holder ≠ cls ∨ s.cph.ticket ≠ ticket then onCph (fun c => { c with badTicket := sat 16 c.badTicket 1 }) s
  else if s.cph.run.isSome then s
  else
    let k := cphCause s cls op key subj
    if k ≠ 0 then onCph (fun c => { c with st := 5, cause := k }) s
    else onCph (fun c => { c with
      st := 1
      cause := 0
      out := []
      nonce := if op = 1 then 0 else c.nonce
      tag := if op = 1 then 0 else c.tag
      run := some { op, keySlot := key, subj, cls, nonce := c.nonceCtr, iv := c.nonce, tag := c.tag
                    aad := Memory.readN 0 c.inp 0 c.aadLen, text := Memory.readN 0 c.inp c.aadLen c.textLen } }) s

/-- The nonce of an encryption: serial number and counter, big-endian, byte 0 in [7:0] (R407). -/
def nonceOf (s : State) (ctr : Nat) : Nat := leVal (beBytes 4 s.fuses.serial.toNat ++ beBytes 8 ctr)

/-- Ask for the next block of 2^20 nonce values: partition 3, key 1, the end of the block (R407, R498). -/
def reserveNonces (s : State) : State :=
  let e := s.flash.nonceAsked + 2 ^ 20
  append 3 1 (leBytes 8 e) (onFlash (fun f => { f with nonceAsked := e }) s)

/-- A nonce value is consumed; the next reservation follows when half of the block is used. -/
def takeNonce (s : State) : State :=
  let s := onCph (fun c => { c with nonceCtr := c.nonceCtr + 1 }) s
  if s.flash.nonceAsked < s.cph.nonceCtr + 2 ^ 19 then reserveNonces s else s

/-- A fault of the duplicate computation (R408). -/
def cipherFault (op : Nat) (s : State) : State :=
  let recent := s.now :: s.cph.faults.filter fun t => decide (s.now < t + sec)
  event 0x0803 7 op (onCph (fun c => { c with
    st := 4
    run := none
    out := []
    faults := recent
    disabled := c.disabled || decide (3 ≤ recent.length) }) s)

/-- The result of an operation is released (R409). -/
def cipherRelease (r : CphOp) (s : State) : State :=
  let aad := r.aad
  let text := r.text
  let done (f : Cph → Cph) (s : State) : State := onCph (fun c => f { c with st := 2, run := none }) s
  let s := count 7 0x11 ((aad.length + text.length + 63) / 64) (count 7 0x10 1 s)
  if r.op = 1 then
    let n := nonceOf s r.nonce
    let (ct, tag) := Config.gcmSeal (slotKey s r.keySlot) n aad text
    takeNonce (done (fun c => { c with out := Memory.writeN 0 [] 0 (ct.take 65536), nonce := n % 2 ^ 96, tag := tag % 2 ^ 128 }) s)
  else if r.op = 2 then
    let (pt, tag) := Config.gcmOpen (slotKey s r.keySlot) r.iv aad text
    if tag = r.tag then done (fun c => { c with out := Memory.writeN 0 [] 0 (pt.take 65536) }) s
    else onCph (fun c => { c with st := 3, run := none, out := [] }) s
  else if r.op = 3 then
    match Config.keyUnwrap (slotKey s r.keySlot) (leVal text) with
    | some k => done (fun c => { c with slots := tset (0, 0) c.slots r.subj (if r.cls = 3 then 1 else r.cls, k) }) s
    | none => onCph (fun c => { c with st := 3, run := none }) s  -- no key comes out: AUTH_FAIL (DEDUCED, log 176)
  else if r.op = 4 then
    done (fun c => { c with
      out := Memory.writeN 0 [] 0 (leBytes 40 (Config.keyWrap (slotKey s r.keySlot) (slotKey s r.subj))) }) s
  else done (fun c => { c with slots := tset (0, 0) c.slots r.subj (0, 0) }) s

/-! ## Sealed import (R410, R411) -/

def onImp (f : Import → Import) : State → State := onCph fun c => { c with imp := c.imp.map f }

/-- The command that stands for the import's own flush; no queue has its number. -/
def impCmd : Cmd := { q := 200, cid := 0, fence := false, noInt := true }

/-- The import ends: the hold and the lock, while it is still the firmware's, are released and the command completes, with LENGTH as its
RESULT on SUCCESS (R343). -/
def endImport (m : Import) (status : Nat) (s : State) : State :=
  finish m.cmd status (if status = 0 then m.len else 0) ((if s.cph.holder = 3 then freeLock else id) (onCph (fun c => { c with imp := none }) s))

/-- First granule of the source, and how many hold the ciphertext and its tag. -/
def impFirst (m : Import) : Nat := m.src / 64
def impGranules (m : Import) : Nat := (m.src + m.len + 16 + 63) / 64 - m.src / 64

/-- The bytes read: ciphertext and tag; a granule that could not be read reads zero. -/
def impBytes (m : Import) : List Byte :=
  ((((upto (impGranules m)).flatMap fun i => granuleBytes ((tget none m.got (impFirst m + i)).getD 0) 0 64)).drop (m.src % 64)).take (m.len + 16)

/-- Issue reads of the source, 64 at a time. -/
def impReads : Nat → State → State
  | 0, s => s
  | n + 1, s =>
    match s.cph.imp with
    | none => s
    | some m =>
      if m.phase = 1 ∧ m.issued < impGranules m ∧ m.issued < m.rd + 64 then
        impReads n (internalRead .fw (impFirst m + m.issued) (impFirst m + m.issued) (onImp (fun m => { m with issued := m.issued + 1 }) s))
      else s

/-- Decrypted pages get their programs, in the RELOC stream of their bank with RELOC = 1 and a new DATA_SEQ, as media operations may start
(R24, R411). -/
def impPrograms (s : State) : State :=
  match s.cph.imp with
  | none => s
  | some m =>
    let n := 8128 - mediaOps s
    each (m.todo.take n) (fun (u, d) s => onMed (fun x => { x with
        wseq := x.wseq + 1
        nextId := x.nextId + 1
        progs := x.progs ++ [{ id := x.nextId, kind := .imported u, bank := bankForWrite s u, groups := 8
                               page := sealedPage s 0 u (x.wseq + 1) false true d }] }) s)
      (onImp (fun m => { m with todo := m.todo.drop n }) s)

/-- Both computations agree: the pages are decrypted and their programs begin. -/
def impDecrypt (m : Import) (s : State) : State :=
  let bytes := impBytes m
  let aad := leBytes 8 m.dst ++ leBytes 4 m.len ++ beBytes 4 s.fuses.serial.toNat
  let (pt, tag) := Config.gcmOpen (slotKey s m.slot) m.iv aad (bytes.take m.len)
  let whole := (upto (impGranules m)).all fun i => (tget none m.got (impFirst m + i)).isSome
  let s := onImp (fun m => { m with phase := 3, good := whole && tag == leVal (bytes.drop m.len) }) s
  let s := count 7 0x11 (m.len / 64) (count 7 0x10 1 s)
  match decodeAddr s m.dst with
  | .here a => impPrograms (onImp (fun m => { m with
      todo := (upto (m.len / 512)).map fun i => (a / 512 + i, BitVec.ofNat 4096 (leVal ((pt.drop (512 * i)).take 512))) }) s)
  | _ => s

/-- Commit the next page, in ascending address order: snoop its holders, invalidate its line, enter MAP_SET. -/
def impCommit (m : Import) (s : State) : State :=
  match (sortBy (fun p => [p.1]) m.pages).drop m.setDone with
  | [] => endImport m 0 s
  | (u, ppn, seq) :: _ =>
    if !m.snooped then onImp (fun m => { m with snooped := true }) (snoopLine u 3 s)
    else if lineSnooping s u || inTransit s u || !journalRoom s then s
    else
      let s := match findWay s u with
        | some k => finishEvict k (onLine k (lineOf u) (fun _ => {}) s)
        | none => s
      let e : MapEnt := { valid := true, ppn }
      let s := setMap u e (enter (.mapSet u e seq false) false s)
      onImp (fun m => { m with setDone := m.setDone + 1, snooped := false }) s

/-- The import goes on. A destination at another member is that member's to program (DEDUCED, log 34). -/
def importStep (s : State) : State :=
  match s.cph.imp with
  | none => s
  | some m =>
    if m.phase = 0 then
      if s.cch.jobs.any fun j => j.cmd == impCmd then s else onImp (fun m => { m with phase := 1 }) s
    else if m.phase = 1 then
      if m.rd < impGranules m then impReads 64 s else onImp (fun m => { m with phase := 2 }) s
    else if m.phase = 3 then
      let here := match decodeAddr s m.dst with | .here _ => true | _ => false
      if !here then endImport m (if m.good then 0 else 0x000C) s
      else if !m.todo.isEmpty then impPrograms s
      else if m.pages.length < m.len / 512 then s
      else if m.good then onImp (fun m => { m with phase := 4 }) s
      else endImport m 0x000C s
    else if m.phase = 4 then impCommit m s
    else s

/-- SEALED_IMPORT starts: the slot must be one of 1 to 15 loaded by the host, and the lock free (R354, R410). -/
def startImport (c : Cmd) (src dst len iv slot : Nat) (s : State) : State :=
  if !slotOk s 1 slot then finish c 2 0 s
  else if s.cph.holder ≠ 0 then finish c 0x000A 0 s
  else if s.cph.disabled then finish c 0x000C 0 s
  else match (lostIn s src (len + 16)).or (lostIn s dst len) with
  | some a => finish c 0x0005 a s
  | none =>
    let s := (lockRead 3 s).2
    let s := onCph (fun c' => { c' with imp := some { cmd := c, src, dst, len, iv, slot } }) s
    match decodeAddr s dst with
    | .here _ => startJob { cmd := impCmd, op := 2, next := dst / 512, last := (dst + len) / 512, base := dst } s
    | _ => s

/-! ## Attestation (R413, R414) -/

/-- The body of a report. -/
def reportBody (s : State) (kind : Nat) : List Byte :=
  if kind = 1 then pubBytes (Config.pubOf (idPriv s)) ++ pubBytes (Config.pubOf (agreePriv s))
  else if kind = 2 then
    hashBytes s.glb.imgHash ++ (upto 64).flatMap fun n =>
      let r := region s n
      leBytes 8 r.rights.toNat ++ leBytes 8 r.base ++ leBytes 8 r.limit
        ++ leBytes 8 (Region.attrWord r)
  else
    ((upto 8).filter fun m => s.grp.present.getLsbD m).flatMap fun m =>
      leBytes 1 m ++ hashBytes (if m = s.grp.id then keyHash (Config.pubOf (idPriv s)) else (tget none s.grp.proven m).getD 0)

/-- The header of R414. -/
def reportHeader (s : State) (kind nonce : Nat) (body : List Byte) : List Byte :=
  leBytes 4 0x54415A53 ++ leBytes 1 kind ++ leBytes 1 s.flash.lc ++ leBytes 2 (if isBig s then 0x7240 else 0x7212)
    ++ leBytes 4 s.fuses.serial.toNat ++ leBytes 4 s.fuses.fwLevel.toNat ++ leBytes 4 s.fuses.transitions
    ++ leBytes 4 s.glb.imgVersion ++ leBytes 8 s.tck.count ++ leBytes 32 nonce
    ++ (match s.flash.ownerHash with | some h => hashBytes h | none => leBytes 48 0)
    ++ leBytes 4 body.length ++ leBytes 12 0

def report (s : State) (kind nonce : Nat) : List Byte :=
  if kind = 0 then Config.certificate s.fuses.serial.toNat
  else
    let body := reportBody s kind
    let hb := reportHeader s kind nonce body ++ body
    hb ++ beBytes 96 (Config.ecdsaSign (idPriv s) (Config.sha384 hb))

/-- An ATTEST command starts: its report is built within 5 ms. -/
def startAttest (c : Cmd) (kind : Nat) (nonce : BitVec 256) (s : State) : State :=
  onHst (fun h => { h with attests := h.attests ++ [(c, kind, nonce.toNat)] }) (openWindow c s)

/-- The oldest report is placed in its window, and its command completes with its length. -/
def attestReady (s : State) : State :=
  match s.hst.attests with
  | [] => s
  | (c, kind, nonce) :: rest =>
    let r := report s kind nonce
    finish c 0 r.length (fillWindow c r (onHst (fun h => { h with attests := rest }) s))

/-! ## The check of a life-cycle change (R386, R387) -/

/-- The hash that the signer's key must have, except for BLANK to OWNED: the owner's, or the Rilhaus authorisation key's (R386). -/
def lcSigner (s : State) (frm : Nat) : Nat := if frm = 0 ∨ frm = 3 then Config.authKeyHash else s.flash.ownerHash.getD 0

/-- The status of a LIFECYCLE command, and the owner hash that the record brings. -/
def lcCheck (s : State) (dst off len : Nat) : Nat × Option Nat :=
  let frm := s.flash.lc
  let b := Memory.readN 0 s.hst.scratch off 304
  let f := fun lo n => leVal ((b.drop lo).take n)
  let owner := beVal ((b.drop 16).take 96)
  let signer := beVal ((b.drop 112).take 96)
  if !lcAllowed frm dst then (9, none)
  else if len ≠ 304 then (2, none)
  else if f 0 4 ≠ 0x4C435A53 ∨ f 4 1 ≠ dst ∨ f 5 1 ≠ frm ∨ f 8 4 ≠ s.fuses.serial.toNat ∨ f 12 4 ≠ s.fuses.transitions
      ∨ (if dst = 1 then signer ≠ owner else keyHash signer ≠ lcSigner s frm)
      ∨ !Config.ecdsaOk signer (Config.sha384 (b.take 208)) (beVal ((b.drop 208).take 96)) then (0x000C, none)
  else (0, if dst = 1 then some (keyHash owner) else if dst = 2 then s.flash.ownerHash else none)

end Sys2Proof.Machine
end

