-- ==== Sys2Proof/Machine/Links.lean ====
section
/-!
DEFINITION. Links and groups (R277 to R321): routes, the loss of a port and of a member, training, the key exchange, the flit
layer and the messages it carries, and the group messages.
-/

namespace Sys2Proof.Machine
open Sys2Proof

/-! ## Topology and routes (R309, R310) -/

/-- The member that port `l` of member `g` is wired to in a group of size `n` (R309). -/
def peerOf (g n l : Nat) : Option Nat :=
  let x := if n = 2 then some 1 else if n = 4 then nth [1, 2, 3, 1] l else if n = 8 then nth [1, 2, 4, 7] l else none
  x.map fun d => Nat.xor g d

/-- A member that can relay: it has not been lost. -/
def relays (s : State) (m : Nat) : Bool := decide (m < s.grp.size) && m != s.grp.id && !s.grp.gone.getLsbD m

/-- A member that a message can be for: not lost, or waiting, which is sent MEMBER_STATE and READMIT (R317). -/
def addressed (s : State) (m : Nat) : Bool := relays s m || decide (m < s.grp.size) && m != s.grp.id && s.grp.waiting.getLsbD m

/-- Member `p` reaches `d` in at most `k` hops without this module; the links of other members are taken as ACTIVE (DESIGN CHOICE, log 24). -/
def reachIn (s : State) (d : Nat) : Nat → Nat → Bool
  | 0, p => p == d
  | k + 1, p => p == d || (upto 4).any fun l => match peerOf p s.grp.size l with
    | some q => (q == d || relays s q) && reachIn s d k q
    | none => false

/-- The first port of the route to member `d`: fewest hops, then the lowest next member, then the lowest port. -/
def bestRoute (s : State) (d : Nat) : Option Nat :=
  if !addressed s d then none else
  let c := (activeCop s).filterMap fun l => match peerOf s.grp.id s.grp.size l with
    | some p => if p = d ∨ relays s p then ((upto 4).find? fun k => reachIn s d k p).map fun k => [k, p, l] else none
    | none => none
  (bestOf keyLt c).bind fun x => nth x 2

/-- Routes are computed again. -/
def recomputeRoutes (s : State) : State :=
  each (upto 8) (fun d s => onGrp (fun g => { g with route := tset none g.route d (bestRoute s d) }) s) s

/-! ## Group messages (R320) -/

/-- Send a group message to a member, over the route to it. -/
def sendGroup (lt d : Nat) (fields : List Nat) (s : State) : State :=
  match routeFor s d 0 with
  | some l => emit (.lctl (.cop l) lt ([s.grp.id, d] ++ fields)) s
  | none => s

/-- Members that take part, this one apart. -/
def others (s : State) : List Nat := (upto 8).filter fun m => m != s.grp.id && s.grp.present.getLsbD m && !s.grp.gone.getLsbD m

/-- The lowest GRP_ID present leads (R315); a waiting member is not present (R317). -/
def electLeader : State → State := onGrp fun g =>
  { g with leader := ((upto 8).find? fun m => g.present.getLsbD m && !g.gone.getLsbD m && !g.waiting.getLsbD m).getD g.id }

/-- TICK_ALIGN of an originator goes out on every ACTIVE port but one (R318, R320). -/
def sendAlign (except src t : Nat) (s : State) : State :=
  each ((activeCop s).filter (· != except)) (fun l s => emit (.lctl (.cop l) 0x11 [src, 255, t]) s) s

/-- The leader sends its tick number on every port. -/
def leaderAlign (s : State) : State := if s.grp.leader = s.grp.id then sendAlign 99 s.grp.id s.tck.count s else s

/-- GROUP_HELLO to a member (R315). -/
def sendHello (d : Nat) (s : State) : State :=
  sendGroup 0x10 d [s.grp.size, s.grp.interleave, s.tck.source, if isBig s then 0x7240 else 0x7212, s.tck.count] s

/-! ## Group hoists (R63) -/

/-- A group hoist ends: armed everywhere, or cancelled in every member with GROUP_REJECT. -/
def endGroupHoist (g : GroupHoist) (status : Nat) (s : State) : State :=
  let s := onTck (fun t => { t with groupHoists := t.groupHoists.filter fun x => x.tag != g.tag }) s
  let s := if status = 0 then s else
    let s := takeHoistCancel g.id s
    each (others s) (fun d s => sendGroup 0x14 d [g.id] s) s
  finish g.cmd status (if status = 0 then g.accepted else 0) s

/-- Completes a group hoist once every remaining member has replied SUCCESS. -/
def checkGroupHoists (s : State) : State :=
  each s.tck.groupHoists (fun g s => if (others s).all fun m => g.replied.getLsbD m then endGroupHoist g 0 s else s) s

/-! ## Rerouting and the loss of a member (R311, R316) -/

/-- A Coping message goes out again on the present route; one for a single hop is gone with its link. -/
def resendOn (o : Out) (s : State) : State :=
  match o with
  | .forward _ h r g c => match routeFor s h g with
    | some l => emit (.forward l h r g c) s
    | none => s
  | .relay _ cls slots => match outDest s o, slots with
    | some d, x :: _ => match routeFor s d (if cls = 5 then 0 else (hdrOf 8 x).gaddr) with
      | some l => emit (.relay l cls slots) s
      | none => s
    | _, _ => s
  | .lctl _ lt fs => match outDest s o with
    | some d => match routeFor s d 0 with
      | some l => emit (.lctl (.cop l) lt fs) s
      | none => s
    | none => s
  | o => emit o s

/-- How far `a` lies after `b`, modulo 4,096. -/
def seqAfter (a b : Nat) : Nat := (a + 4096 - b) % 4096

/-- What waits for a port's LINK_RESUME goes out on the present routes, in its order: the messages of the flits that are given, and those held
since. -/
def endHold (i : Nat) (again : List Sent) (s : State) : State :=
  let k := link s i
  each (again.filterMap (·.msg) ++ k.oldHeld.map (·.2)) resendOn
    (onLink i (fun k => { k with resume := false, resumeAt := none, holdFor := 0, oldSent := [], oldHeld := [] }) s)

/-- The peer's LINK_RESUME: the messages of the flits after the FSEQ it gave go out on the new route, and the held ones follow.
One that comes while the port still works takes effect when it leaves operation (R311, DEDUCED, log 150). -/
def linkResumed (i fseq : Nat) (s : State) : State :=
  let k := link s i
  if !k.resume then (if k.st = 5 ∨ k.st = 6 then onLink i (fun k => { k with resumeAt := some fseq }) s else s)
  else endHold i (k.oldSent.filter fun r => decide (0 < seqAfter r.fseq fseq) && decide (seqAfter r.fseq fseq < 2048)) s

/-- One member is lost to this module. What waits for its LINK_RESUME waits no longer: the unacknowledged messages for other members go out
again (DEDUCED, log 150). -/
def loseOne (m : Nat) (s : State) : State :=
  if s.grp.gone.getLsbD m ∨ m = s.grp.id ∨ s.grp.size ≤ m then s else
  let s := onGrp (fun g => { g with
    lost := set8 g.lost m
    gone := set8 g.gone m
    present := clr8 g.present m
    waiting := clr8 g.waiting m }) s
  let s := recomputeRoutes (electLeader (event 0x0702 13 m s))
  let s := each ((upto 4).filter fun l => (link s (8 + l)).resume && peerOf s.grp.id s.grp.size l == some m)
    (fun l s => endHold (8 + l) (link s (8 + l)).oldSent s) s
  let s := onOrd (fun o => { o with away := o.away.filter fun w => w.home != m }) s
  let s := each (s.dir.fwds.filter fun f => f.home == m) (fun f s => fwdAnswer f .memberLost 0 .i none s) s
  let s := each (upto 8) (fun p s => loseAgent (m * 8 + p) s) s
  let s := each (others s) (fun d s => sendGroup 0x16 d [s.grp.present.toNat, s.grp.gone.toNat, s.grp.waiting.toNat] s) s
  checkGroupHoists s

/-- Members to which no route is left are lost, one after another: the loss of one can end the routes of others. -/
def loseUnreachable (s : State) : State :=
  each (upto 8) (fun _ s => match (others s).find? fun m => (tget none s.grp.route m).isNone with
    | some m => loseOne m s
    | none => s) s

/-- A member is lost, and with it those that only it led to. -/
def loseMember (m : Nat) (s : State) : State := loseUnreachable (loseOne m s)

/-! ## A port leaves operation (R298, R311, R235, R561) -/

/-- The port number of an event: Halyard p as p, Coping l as 0x10 + l. -/
def eventPort (i : Nat) : Nat := if i < 8 then i else 8 + i

/-- Lanes of a port. -/
def lanesOf (i : Nat) : Nat := if i < 8 then 4 else 8

/-- A link before training: what outlives a return to DETECT or DISABLED. -/
def freshLink (k : Lnk) (st : Nat) : Lnk :=
  { enable := k.enable, st, cntFec := k.cntFec, cntBad := k.cntBad, cntReplay := k.cntReplay, cntRecov := k.cntRecov
    cntAuth := k.cntAuth, recovs := k.recovs, credErr := k.credErr, epoch := k.epoch, dead := k.dead, tryHalf := k.tryHalf
    stretch := k.stretch, failed := k.failed, resume := k.resume, holdFor := k.holdFor, oldSent := k.oldSent, oldHeld := k.oldHeld
    maxW := k.maxW, cannot := k.cannot }

/-- The link carries, or has carried, flits of its ACTIVE state. -/
def inOperation (k : Lnk) : Bool := k.st == 5 || k.st == 6

/-- Requests received on a port and not passed on are dropped (R235); tagged ones are recorded as ABORTED. -/
def dropPort (src : Src) (s : State) : State :=
  let gone := s.dir.held.filter fun h => h.src == src
  let s := each gone (fun h s => endSample h.id 64 0 [] s) s
  onDir (fun d => { d with held := d.held.filter fun h => h.src != src }) s

/-- The header of a SNP_RESP with state I, EVICTED = 0 (R567). -/
def respHdr (home agent htid gaddr : Nat) : BitVec 128 :=
  hdrWord 8 { Hdr.zero with cls := 3, op := 0x11, home, agent, htid, gaddr, req := agent / 8 * 16 + agent % 8 }

/-- Snoops of other members' homes that the agent of a port can no longer answer are answered here (R567). -/
def answerSnoops (i : Nat) (l : List (Nat × Nat)) (s : State) : State :=
  each l (fun x s =>
    let h := homeNo s x.2
    match routeFor s h x.2 with
    | some l => emit (.relay l 3 [respHdr h (s.grp.id * 8 + i) x.1 x.2]) s
    | none => s) s

/-- The members whose messages use a Coping port (R311). -/
def usersOf (s : State) (l : Nat) : BitVec 8 :=
  (upto 8).foldl (fun b d => if d != s.grp.id && (s.grp.size == 2 && d < 2 || tget none s.grp.route d == some l) then set8 b d else b) 0

/-- A Coping port has left operation while its peer stays reachable: the messages that used it wait, and LINK_RESUME goes to the peer by the new
route (R311). What was received and acknowledged stays. `k` is the port as it worked. -/
def reroute (i st l p : Nat) (k : Lnk) (s : State) : State :=
  let used := usersOf s (i - 8)
  let msgs := k.replay.filterMap fun r => r.msg.map fun o => (((outPort s o).map (·.2)).getD 5, o)
  let s := onLink i (fun x => { freshLink x st with
    resume := true
    holdFor := k.holdFor ||| used
    oldSent := if k.resume then k.oldSent else k.replay
    oldHeld := k.oldHeld ++ (if k.resume then msgs else []) ++ k.held }) s
  let s := recomputeRoutes (onGrp (fun g => { g with cntReroute := sat 64 g.cntReroute 1 }) s)
  let s := loseUnreachable (emit (.lctl (.cop l) 0x15 [s.grp.id, p, i - 8, k.lastAck]) s)
  match k.resumeAt with
  | some f => linkResumed i f s
  | none => s

/-- A port leaves operation with a cause of R561; `st` is the state it enters. A LINK_DOWN with reason 1 or 2 on Coping loses the peer (R316). -/
def leaveLink (i cause reason st : Nat) (s : State) : State :=
  let k := link s i
  if !inOperation k then onLink i (fun k => freshLink k st) s
  else
    let s := event 0x0505 (0x40 + i) (eventPort i + 256 * cause + 65536 * reason) s
    if i < 8 then
      loseAgent (s.grp.id * 8 + i) (answerSnoops i k.snoops
        (drainWhere (fun g => g.buf == i) (dropPort (.hal i) (onLink i (fun k => freshLink k st) s))))
    else
      let s := drainWhere (fun g => g.buf == i) (onLink i (fun k => { k with st := 0 }) s)
      match peerOf s.grp.id s.grp.size (i - 8) with
      | none => onLink i (fun k => freshLink k st) (dropPort (.cop (i - 8)) s)
      | some p =>
        let s := match bestRoute s p with
          | some l => reroute i st l p k s
          | none => loseUnreachable (recomputeRoutes (onLink i (fun k => freshLink k st) (dropPort (.cop (i - 8)) s)))
        if cause = 3 ∧ (reason = 1 ∨ reason = 2) then loseMember p s else s

/-- What a port keeps while it waits for the ACK of its LINK_DOWN: its lanes, its sequence and its keys. -/
def keepFlits (k x : Lnk) : Lnk :=
  { x with closing := true, width := k.width, half := k.half, scrRx := k.scrRx, scrTx := k.scrTx, txSeq := k.txSeq, rxSeq := k.rxSeq
           lastAck := k.lastAck, peerAck := k.peerAck, replay := k.replay, keyed := k.keyed, keyStage := k.keyStage, peerOffer := k.peerOffer
           peerKey := k.peerKey, txKey := k.txKey, txCount := k.txCount, rxCount := k.rxCount }

/-- A port leaves operation with a LINK_DOWN of its own: it sends only IDLE flits until an ACK covers it, and is DISABLED then (R298). A link in
RECOVERY or with a full replay buffer can send none, and an agent in reset acknowledges none: such a port is DISABLED at once (DEDUCED,
log 150). -/
def sendDown (i cause reason : Nat) (s : State) : State :=
  let k := link s i
  if k.st = 5 ∧ k.replay.length < 512 then
    let s := sendFlit i 5 (.lctl (portOf i) 3 [reason]) s
    let k := link s i
    let s := leaveLink i cause 0 0 s
    if i < 8 ∧ s.plinth.agtRst.getLsbD i then s else onLink i (keepFlits k) s
  else leaveLink i cause 0 0 s

/-- ENABLE is written 0 (R298, R307). -/
def closeLink (i : Nat) (s : State) : State := sendDown i 0 0 s

/-! ## Training (R292 to R295) -/

/-- A port starts DETECT, when it is enabled and may train. -/
def startDetect (i : Nat) (s : State) : State :=
  let k := link s i
  let rst := decide (i < 8) && s.plinth.agtRst.getLsbD i
  if k.enable && !k.dead && k.st == 0 && !k.closing && !rst && clocked s i && s.glb.memReady then onLink i (fun k => { freshLink k 1 with failed := false }) s
  else s

/-- The largest width that a port can use of those a sender proposes (R294). -/
def widthOf (i w : Nat) : Nat :=
  if i < 8 then (if 4 ≤ w then 4 else if 2 ≤ w then 2 else 1) else (if 8 ≤ w then 8 else 4)

/-- Every lane below the width has been seen. -/
def lanesDone (lock w : Nat) : Bool := (upto w).all fun l => bitOf lock l

/-- Lanes that training still counts on (R294). -/
def lanesTried (i : Nat) (k : Lnk) : Nat := if k.maxW = 0 then lanesOf i else k.maxW

/-- The training set that port `i` sends on a lane (R293). -/
def setFields (s : State) (i lane : Nat) : TrainSet :=
  let k := link s i
  { state := if k.st = 6 then 4 else k.st - 1, lane, role := if i < 8 then 1 else 2, grp := s.grp.id, portNo := if i < 8 then i else i - 8
    rate := if k.tryHalf then 2 else 3, width := lanesTried i k, eq := k.eqAsk.getD lane 0 + 16 * k.eqUse.getD lane 0 }

/-- The training sets of every lane go out: their content has changed. The same sets go out until the next change (log 146). -/
def sendSets (i : Nat) (s : State) : State :=
  each (upto (lanesTried i (link s i))) (fun l s => push (.train (portOf i) l (writeSet (setFields s i l))) s) s

/-- A link enters RECOVERY; the third time within 1 s it leaves operation (R290, R292). -/
def enterRecovery (i : Nat) (s : State) : State :=
  let k := link s i
  if k.st ≠ 5 then s else
  let rs := s.now :: k.recovs.filter fun t => decide (s.now < t + sec)
  let s := onLink i (fun k => { k with cntRecov := sat 64 k.cntRecov 1, recovs := rs }) s
  if 3 ≤ rs.length then leaveLink i 5 0 1 s
  else sendSets i (onLink i (fun k => { k with st := 6, lock := 0, nakRun := 0 }) s)

/-- Every held flit from ACK + 1 is resent in order, byte for byte, with an IDLE flit after each 16 (R290). -/
def replayFlits (i : Nat) (s : State) : State :=
  let s := each (link s i).replay.zipIdx (fun r s =>
    let s := push (.flit (portOf i) (wireOf (link s i).width (link s i).scrTx (flitVal r.1.hdr r.1.slots)))
      (onLink i (fun k => { k with scrTx := scrPast k.width k.scrTx }) s)
    if r.2 % 16 = 15 then sendIdle i false s else s) s
  count (0x40 + i) 0x15 1 (onLink i (fun k => { k with cntReplay := sat 64 k.cntReplay 1 }) s)

/-- The link carries messages: routes, greetings and held messages follow (R310, R315). -/
def activate (i : Nat) (s : State) : State :=
  let s := onLink i (fun k => { k with st := 5, tryHalf := false, maxW := 0, cannot := false }) s
  if i < 8 then releaseHeld i s
  else
    let s := releaseHeld i (recomputeRoutes s)
    if s.glb.memReady && decide (s.grp.id < s.grp.size) then
      each ((upto 8).filter fun d => d != s.grp.id && (tget none s.grp.route d).isSome && !s.grp.present.getLsbD d) sendHello s
    else s

/-- CONFIG has fixed width and rate: the lanes' scramblers are seeded, and the first flits go out, with CREDIT_INIT (R282, R287). -/
def configFlits (i : Nat) (s : State) : State :=
  let s := onLink i (fun k => { k with scrRx := scrSeeds k.width, scrTx := scrSeeds k.width }) s
  emit (.lctl (portOf i) 1 (if i < 8 then [512, 0, 16, 64, 16] else [256, 256, 32, 256, 128])) s

/-- Receivers are detected: POLLING. -/
def startPolling (i : Nat) (s : State) : State := sendSets i (onLink i (fun k => { k with st := 2, lock := 0 }) s)

/-- EQUALIZE begins: the module asks a first preset of the far end. Which presets it uses and asks for is its own (free, log 146). -/
def startEqualize (i w : Nat) (half : Bool) (s : State) : State :=
  let (a, s) := free s
  let (u, s) := free s
  sendSets i (onLink i (fun k => { k with
    st := 3, lock := 0, width := w, half, eqOk := 0
    eqAsk := List.replicate 8 (a % 11), eqUse := List.replicate 8 (u % 11), eqRounds := List.replicate 8 1 }) s)

/-- EQUALIZE has failed: at full rate the link trains at half rate, at half rate with fewer lanes, and it cannot train when none are left
(R294, DEDUCED, log 170). -/
def equalizeFails (i : Nat) : State → State := onLink i fun k =>
  let x := freshLink k 1
  let w := lanesTried i k
  if !k.tryHalf then { x with tryHalf := true }
  else if w = (if i < 8 then 1 else 4) then { x with cannot := true }
  else { x with maxW := w / 2 }

/-- One lane in EQUALIZE (R292, R293): the preset that the far end asks for is taken. A lane whose request has been answered is done when it has the
error ratio of R278, and asks for another preset otherwise, four times at most. -/
def equalizeLane (i : Nat) (t : TrainSet) (low : Bool) (s : State) : State :=
  let k := link s i
  let l := t.lane
  let s := if t.state = 2 ∧ t.eq % 16 < 11 then onLink i (fun k => { k with eqUse := k.eqUse.set l (t.eq % 16) }) s else s
  let s := if link s i == k then s else push (.train (portOf i) l (writeSet (setFields s i l))) s
  if t.state = 2 ∧ t.eq / 16 % 16 ≠ k.eqAsk.getD l 0 ∨ bitOf k.eqOk l then s
  else if low then
    let ok := k.eqOk ||| (1 <<< l)
    if lanesDone ok k.width then sendSets i (onLink i (fun k => { k with st := 4, eqOk := ok, agree := 0 }) s)
    else onLink i (fun k => { k with eqOk := ok }) s
  else if t.state ≠ 2 then s
  else if 4 ≤ k.eqRounds.getD l 0 then equalizeFails i s
  else
    let (a, s) := free s
    let s := onLink i (fun k => { k with eqAsk := k.eqAsk.set l (a % 11), eqRounds := k.eqRounds.set l (k.eqRounds.getD l 0 + 1) }) s
    push (.train (portOf i) l (writeSet (setFields s i l))) s

/-- A received training set (R293), and whether its lane has the error ratio of R278: lock in POLLING, presets in EQUALIZE, agreement in CONFIG,
lock again in RECOVERY. A bad set, or one of another state, ends the run of CONFIG sets. -/
def takeSet (i : Nat) (v : BitVec 256) (low : Bool) (s : State) : State :=
  let k := link s i
  let breaks := fun (s : State) => if k.st = 4 ∧ k.agree < 8 then onLink i (fun k => { k with agree := 0 }) s else s
  match readSet v with
  | none => breaks s
  | some t =>
    let w := min (lanesTried i k) (widthOf i t.width)
    let half := k.tryHalf || !bitOf t.rate 0
    let lock := k.lock ||| (1 <<< t.lane)
    if lanesOf i ≤ t.lane then s
    else if k.st = 2 then
      if ¬ (1 ≤ t.state ∧ t.state ≤ 3) then s
      else if lanesDone lock w then startEqualize i w half s
      else onLink i (fun k => { k with lock }) s
    else if k.st = 3 then (if t.state = 2 ∨ t.state = 3 then equalizeLane i t low s else s)
    else if k.st = 4 ∧ k.agree < 8 then
      if t.state ≠ 3 then breaks s
      else if w = k.width ∧ half = k.half then
        let s := onLink i (fun k => { k with agree := k.agree + 1 }) s
        if k.agree = 7 then configFlits i s else s
      else onLink i (fun k => { k with agree := 0, width := w, half }) s
    else if k.st = 6 ∧ t.state = 4 then
      -- ACTIVE again: the unacknowledged flits go first (R290)
      if lanesDone lock k.width then activate i (replayFlits i (onLink i (fun k => { k with st := 5, lock := 0 }) s))
      else onLink i (fun k => { k with lock }) s
    else s

/-- The checks of R301 have failed, or a tag: COPING_AUTH, and DISABLED until module reset (R302). -/
def authFail (i : Nat) (s : State) : State :=
  let s := event 0x0506 (0x40 + i) (eventPort i) s
  let s := if inOperation (link s i) then s
    else event 0x0505 (0x40 + i) (eventPort i + 256 * 7) s
  leaveLink i 7 0 0 (onLink i (fun k => { k with dead := true }) s)

/-- A training state reaches its timeout (R292). In POLLING the lanes that lock bound the width of the next attempt (R294). -/
def stateTimeout (i : Nat) (s : State) : State :=
  let k := link s i
  match k.st with
  | 1 => onLink i (fun k => { k with failed := true, lock := 0 }) s
  | 2 =>
    let w := ([lanesTried i k / 2, lanesTried i k / 4] : List Nat).find? fun w => decide ((if i < 8 then 1 else 4) ≤ w) && lanesDone k.lock w
    onLink i (fun k => { freshLink k 1 with maxW := w.getD k.maxW }) s
  | 3 => equalizeFails i s
  | 4 => if 8 ≤ i ∧ k.credInit then authFail i s else onLink i (fun k => freshLink k 1) s
  | 6 => leaveLink i 5 0 1 s
  | _ => s

/-! ## Credits and the key exchange (R287, R299 to R302) -/

/-- This module's traffic key toward a peer under an epoch. -/
def trafficKey (s : State) (peer epoch : Nat) : Nat :=
  kdf32 s.sec.bootKey 3 (s.grp.id * 2 ^ 24 + peer * 2 ^ 16 + epoch)

/-- The hash that KEY_WRAP signs: of both offers, the one of the lower GRP_ID first. -/
def offersHash (a b : KeyOffer) : Nat :=
  let bytes (o : KeyOffer) := [(4 : Byte), 14] ++ leBytes 1 o.grp ++ leBytes 1 0 ++ leBytes 2 o.epoch ++ leBytes 10 0 ++ leBytes 16 o.nonce
    ++ pubBytes o.idKey ++ pubBytes o.ecdhKey
  Config.sha384 (if a.grp < b.grp then bytes a ++ bytes b else bytes b ++ bytes a)

/-- The offer that this module made on a port. -/
def ownOffer (s : State) (k : Lnk) : KeyOffer :=
  { grp := s.grp.id, epoch := k.epoch, nonce := k.offNonce, idKey := Config.pubOf (idPriv s), ecdhKey := Config.pubOf k.offPriv }

/-- The wrap key of both ends: from the shared secret and both nonces (R301), the lower GRP_ID's first (DESIGN CHOICE, log 175). -/
def wrapKeyOf (own peer : KeyOffer) (priv : Nat) : Nat :=
  let n := if own.grp < peer.grp then own.nonce * 2 ^ 128 + peer.nonce else peer.nonce * 2 ^ 128 + own.nonce
  kdf32 (Config.ecdh priv peer.ecdhKey) 4 n

/-- CREDIT_INIT arrives in CONFIG. On Coping the key exchange begins, under the next transmit epoch (R301). -/
def takeCredits (i q sc w p d : Nat) (s : State) : State :=
  let k := link s i
  if k.st ≠ 4 ∨ k.agree < 8 ∨ k.credInit then s
  else if i < 8 then
    if sc < 16 then onLink i (fun k => freshLink k 1) s
    else activate i (onLink i (fun k => { k with credInit := true, crQ := q % 4096, crS := sc % 4096, crW := w % 4096 }) s)
  else if 0xFFFF ≤ k.epoch + 1 then onLink i (fun k => { freshLink k 0 with dead := true }) s
  else
    let (n, s) := free s
    let (e, s) := free s
    let s := onLink i (fun k => { k with
      credInit := true
      crQ := q % 4096
      crS := sc % 4096
      crW := w % 4096
      crP := p % 4096
      crD := d % 4096
      epoch := k.epoch + 1
      offNonce := n % 2 ^ 128
      offPriv := e }) s
    let o := ownOffer s (link s i)
    emit (.lctl (portOf i) 4 [o.grp, o.epoch, o.nonce, o.idKey, o.ecdhKey]) s

/-- KEY_OFFER arrives: the peer's identity key must be listed and its GRP_ID the expected one; KEY_WRAP follows. -/
def takeOffer (l : Nat) (o : KeyOffer) (s : State) : State :=
  let i := 8 + l
  let k := link s i
  if k.st ≠ 4 ∨ !k.credInit ∨ k.keyStage ≠ 0 then s
  else if keyHash o.idKey ∉ s.glb.groupKeys ∨ peerOf s.grp.id s.grp.size l ≠ some o.grp then authFail i s
  else
    let own := ownOffer s k
    let tx := trafficKey s o.grp k.epoch
    let wrapped := Config.keyWrap (wrapKeyOf own o k.offPriv) tx
    let sig := Config.ecdsaSign (idPriv s) (offersHash own o)
    emit (.lctl (portOf i) 5 [wrapped, sig]) (onLink i (fun k => { k with keyStage := 1, peerOffer := some o, txKey := tx }) s)

/-- KEY_WRAP arrives: its signature must verify and the peer's traffic key unwrap; KEY_DONE follows. -/
def takeWrap (l wrapped sig : Nat) (s : State) : State :=
  let i := 8 + l
  let k := link s i
  match k.peerOffer with
  | none => s
  | some o =>
    if k.st ≠ 4 ∨ k.keyStage ≠ 1 then s else
    let own := ownOffer s k
    match Config.keyUnwrap (wrapKeyOf own o k.offPriv) wrapped with
    | some key =>
      if Config.ecdsaOk o.idKey (offersHash own o) sig then
        let s := onGrp (fun g => { g with proven := tset none g.proven o.grp (some (keyHash o.idKey)) }) s
        -- what follows its KEY_DONE is encrypted, from count 0 on
        onLink i (fun k => { k with keyStage := 2, peerKey := key, txCount := 0 }) (emit (.lctl (portOf i) 6 [k.epoch]) s)
      else authFail i s
    | none => authFail i s

/-- KEY_DONE arrives: the traffic keys are in force, the peer's from its next sequenced flit. -/
def takeDone (l epoch : Nat) (s : State) : State :=
  let i := 8 + l
  let k := link s i
  if k.st ≠ 4 ∨ k.keyStage ≠ 2 then s
  else if (k.peerOffer.map (·.epoch)) ≠ some epoch then authFail i s
  else activate i (onLink i (fun k => { k with keyed := true, rxCount := 0 }) s)

/-! ## Formation and readmission (R315 to R317) -/

/-- The group is formed when every member has agreed. -/
def checkFormed (s : State) : State :=
  if s.grp.formed ∨ !((upto s.grp.size).all fun m => s.grp.present.getLsbD m) then s
  else
    let s := onGrp (fun g => { g with formed := true }) s
    leaderAlign s

/-- FORM_WAIT has passed: members that are absent are lost; with no other member the module is isolated. -/
def formEnds (s : State) : State :=
  if s.grp.formed ∨ s.grp.size = 1 then s else
  let s := onGrp (fun g => { g with formed := true }) s
  let s := each ((upto s.grp.size).filter fun m => m != s.grp.id && !s.grp.present.getLsbD m) loseMember s
  let s := if (others s).isEmpty then onGrp (fun g => { g with isolated := true }) s else s
  let s := electLeader s
  leaderAlign s

/-- Waiting members are readmitted (R317). The leader of the others aligns them (R318). -/
def readmitMembers (mask : BitVec 8) (s : State) : State :=
  let ms := (upto 8).filter fun m => mask.getLsbD m && (s.grp.waiting.getLsbD m)
  let lead := decide (s.grp.leader = s.grp.id)
  let s := each ms (fun m s => onGrp (fun g => { g with
    waiting := clr8 g.waiting m
    gone := clr8 g.gone m
    present := set8 g.present m
    readmit := clr8 g.readmit m
    isolated := false }) s) s
  let s := recomputeRoutes (electLeader s)
  if ms.isEmpty || !lead then s else sendAlign 99 s.grp.id s.tck.count s

/-- A received GROUP_HELLO. A member that was lost stays waiting, until its readmission is requested (R317). -/
def takeHello (src size il part : Nat) (s : State) : State :=
  if src = s.grp.id then s
  else if size ≠ s.grp.size ∨ il ≠ s.grp.interleave ∨ part ≠ (if isBig s then 0x7240 else 0x7212) then event 0x0701 13 src s
  else if s.grp.size ≤ src then s
  else if s.grp.gone.getLsbD src then
    let s := recomputeRoutes (onGrp (fun g => { g with waiting := set8 g.waiting src }) s)
    let s := sendGroup 0x16 src [s.grp.present.toNat, s.grp.gone.toNat, s.grp.waiting.toNat] s
    if s.grp.readmit.getLsbD src then readmitMembers ((1 : BitVec 8) <<< src) s else s
  else
    let first := !s.grp.present.getLsbD src
    let s := onGrp (fun g => { g with present := set8 g.present src }) s
    let s := if first then sendHello src s else s
    checkFormed (electLeader s)

/-- GRP_READMIT is written: the request stands until its members are readmitted, and goes to every member (R317). The bit of a member that is
not lost is cleared at once (DESIGN CHOICE, log 145). -/
def askReadmit (mask : BitVec 8) (s : State) : State :=
  let s := onGrp (fun g => { g with readmit := g.readmit ||| mask }) s
  let s := each ((upto 8).filter fun d => decide (d ∈ others s) || (mask.getLsbD d && s.grp.waiting.getLsbD d && d != s.grp.id))
    (fun d s => sendGroup 0x17 d [mask.toNat] s) s
  let s := readmitMembers mask s
  onGrp (fun g => { g with readmit := g.readmit &&& g.gone }) s

/-- MEMBER_STATE arrives: reported losses are taken over. A module that finds itself waiting takes the members that are present from it, and
serves only its own ports (R317). -/
def takeMemberState (present lost waiting : BitVec 8) (s : State) : State :=
  let s := if waiting.getLsbD s.grp.id then
      electLeader (onGrp (fun g => { g with waiting := set8 g.waiting g.id, present := clr8 present g.id, formed := true }) s)
    else s
  each ((upto 8).filter fun m => lost.getLsbD m) loseMember s

/-- TICK_ALIGN arrives (R318, R319). A forward change frees the hoists it jumps over. It is sent on whether or not the count changes (DEDUCED,
log 149). -/
def takeAlign (l src t : Nat) (s : State) : State :=
  let c := s.tck.count
  if t = c then sendAlign l src t s else
  let s := onTck (fun x => { x with count := t }) s
  let s := if s.grp.formed then
      onGrp (fun g => { g with cntRealign := sat 64 g.cntRealign 1 }) (event 0x0102 13 ((t + 2 ^ 64 - c) % 2 ^ 64) s)
    else s
  let s := if s.grp.formed then
      each ((hoistList s).filter fun p => decide (c < p.2.launch) && decide (p.2.launch ≤ t)) (fun p s =>
        event 0x0103 1 p.2.id (setHoist p.1 none s)) s
    else s
  sendAlign l src t s

/-! ## Messages (R189, R191, R285) -/

/-- The command that a message to a home spells; none for what agents receive and for reserved opcodes. -/
def msgInstr (i : Nat) (h : Hdr) (pay : List (BitVec 128)) : Option Instr :=
  let m : Msg := { port := portOf i, agent := h.agent, txid := h.txid, gaddr := h.gaddr, req := h.req }
  let g : Granule := BitVec.ofNat 512 (slotsVal pay)
  if h.cls = 0 then
    if h.op = 1 then some (.rdShared m) else if h.op = 2 then some (.rdUnique m) else if h.op = 3 then some (.upgrade m)
    else if h.op = 4 then some (.rdOnce m)
    else if h.op = 5 then some (.wrNc m (BitVec.ofNat 64 (slotsVal (pay.take 1))) (BitVec.ofNat 512 (slotsVal (pay.drop 1))) h.poison)
    else if h.op = 6 then some (.orderBarrier m (BitVec.ofNat 32 h.arg))
    else if h.op = 7 then some (.complBarrier m (BitVec.ofNat 32 h.arg))
    else if h.op = 8 ∧ 8 ≤ i then
      let op := if h.arg % 4 = 0 then some AtomicOp.fetchAdd else if h.arg % 4 = 1 then some .swap else if h.arg % 4 = 2 then some .cas else none
      op.map fun o => .atomic m o (h.arg / 4 % 4) (h.arg / 16 % 64) g
    else if h.op = 9 ∧ 8 ≤ i then
      let v := slotsVal pay
      some (.accum m ((upto 8).map fun j =>
        let k := h.arg / 2 ^ (3 * j) % 8
        { kind := if k = 1 then .bit else if k = 2 then .sat8 else if k = 3 then .sat16 else if k = 4 then .first else .none
          a := BitVec.ofNat 64 (v / 2 ^ (64 * j)), b := BitVec.ofNat 64 (v / 2 ^ (512 + 64 * j)) }))
    else none
  else if h.cls = 2 then
    if h.op = 1 then some (.wbDirty m g h.poison) else if h.op = 2 then some (.evictClean m (stateOf h.state)) else none
  else if h.cls = 3 then
    if h.op = 0x10 then some (.ack m h.htid)
    else if h.op = 0x11 then some (.snpResp m h.htid (stateOf h.state) (bitOf h.arg 0)) else none
  else if h.cls = 4 then
    if h.op = 0x10 then some (.snpData m h.htid (stateOf h.state) g h.poison) else none
  else none

/-- A message with a reserved opcode or class is discarded (R191). -/
def reservedMessage (a : Nat) (s : State) : State :=
  event 0x0501 2 a (onDir (fun d => { d with cntProto := sat 64 d.cntProto 1 }) s)

def srcOf (p : Port) : Src := match p with | .hal p => .hal p | .cop l => .cop l

/-- The local granule of a group granule when this member is its home. -/
def localGranule (s : State) (g : Nat) : Option Nat :=
  match decodeAddr s (g * 64) with
  | .here a => some (a / 64)
  | _ => none

/-- The member to which a message for a home goes, when it is not this one. -/
def awayHome (s : State) (g : Nat) : Option Nat :=
  match decodeAddr s (g * 64) with
  | .remote h _ => some h
  | _ => none

/-- A message in the form it has on Coping: it names its agent and its requester (R284). -/
def onCoping (s : State) (l : Nat) (m : Msg) : Msg :=
  match m.port with
  | .hal _ => { port := .cop l, agent := agentOf s m, txid := m.txid, gaddr := m.gaddr, req := rqOfSrc s (srcOf m.port) }
  | .cop _ => m

/-- A message that is for another home is passed on to it (R17), or relayed when it came over Coping (R310). -/
def passOn (h : Nat) (m : Msg) (c : Instr) (s : State) : State :=
  match routeFor s h m.gaddr with
  | some l =>
    let s := match m.port with
      | .hal _ => s
      | .cop _ => onGrp (fun g => { g with cntRelay := sat 64 g.cntRelay 1 }) s
    emit (.forward l h 0 m.gaddr (withMsg (onCoping s l m) c)) s
  | none => s

/-- A message of a class has been received on a port: its credit is owed (R286). -/
def received (i cls : Nat) : State → State := onLink i fun k =>
  { k with rcv := (upto 5).map fun c => k.rcv.getD c 0 + b2n (c == cls) }

/-- An agent has answered a snoop of another member's home (R567). -/
def snoopAnswered (m : Msg) (htid : Nat) (s : State) : State :=
  match m.port with
  | .hal p => onLink p (fun k => { k with snoops := k.snoops.filter fun x => x != (htid, m.gaddr) }) s
  | .cop _ => s

/-- A W message for another home is passed on, and is the agent's earlier write until its WB_ACK comes (R226). A home that has left the group
is answered for (R315, R316). -/
def passOnW (h : Nat) (m : Msg) (c : Instr) (s : State) : State :=
  if unreachable s h then emit (.wbAck (agentOf s m) m.gaddr .memberLost) s else
  let s := match m.port with
    | .hal _ => takeId (onDir (fun d => { d with
        fwds := d.fwds ++ [{ home := h, port := (routeFor s h m.gaddr).getD 0, req := nextReq s, txid := 0, gaddr := m.gaddr, agent := agentOf s m
                             src := srcOf m.port, write := true, cmd := c }] }) s)
    | .cop _ => s
  passOn h m c s

/-- The message that a command spells, of whatever class. -/
def anyMsg : Instr → Option Msg
  | .wbDirty m _ _ | .evictClean m _ | .ack m _ | .snpResp m _ _ _ | .snpData m _ _ _ _ => some m
  | c => msgOf c

/-- The effect of a message to a home: requests at their port, the others at the home (R189 to R200). -/
def messageEffect (c : Instr) (s : State) : State :=
  match c with
  | .wbDirty m d p =>
    match localGranule s m.gaddr, awayHome s m.gaddr with
    | some lg, _ => takeWb (srcOf m.port) (agentOf s m) m.gaddr lg d p s
    | none, some h => passOnW h m c s
    | none, none => s
  | .evictClean m _ =>
    match localGranule s m.gaddr, awayHome s m.gaddr with
    | some lg, _ => takeEvict (agentOf s m) m.gaddr lg s
    | none, some h => passOnW h m c s
    | none, none => s
  | .ack m htid =>
    match awayHome s m.gaddr with
    | some h => passOn h m c s
    | none => takeAck (agentOf s m) htid s
  | .snpResp m htid st ev =>
    match localGranule s m.gaddr, awayHome s m.gaddr with
    | some lg, _ => takeResp (srcOf m.port) (agentOf s m) htid m.gaddr lg st ev none s
    | none, some h => passOn h m c (snoopAnswered m htid s)
    | none, none => s
  | .snpData m htid st d p =>
    match localGranule s m.gaddr, awayHome s m.gaddr with
    | some lg, _ => takeResp (srcOf m.port) (agentOf s m) htid m.gaddr lg st false (some (d, p)) s
    | none, some h => passOn h m c (snoopAnswered m htid s)
    | none, none => s
  | _ => match msgOf c with
    | some m => match m.port, (if isBarrierCmd c then none else awayHome s m.gaddr) with
      | .cop l, some h => passOn h m c (count (0x48 + l) 0x12 1 s)
      | .cop l, none => arrive (.cop l) c (count (0x48 + l) 0x12 1 s)
      | .hal p, _ => arrive (.hal p) c (count (0x40 + p) 0x12 1 s)
    | none => s

/-- A message to a home arrives at its port and takes effect. -/
def takeMessage (c : Instr) (s : State) : State :=
  messageEffect c (match anyMsg c with
    | some m => received (portIdx m.port) (classOfMsg c) s
    | none => s)

/-- The forwarded request that an answer ends. -/
def fwdOf (s : State) (h : Hdr) : Option Fwd :=
  s.dir.fwds.find? fun f => f.home == h.home && f.gaddr == h.gaddr && !isWFwd f
    && (if h.req % 16 < 8 then f.agent % 64 == h.agent && f.txid == h.txid else f.req % 8192 == h.txid)

/-- A message for an agent or a requester of this module, received over Coping: it answers a forwarded request, or goes to the
agent; a snoop that its agent cannot receive is answered here (R567). -/
def deliverAnswer (l : Nat) (h : Hdr) (pay : List (BitVec 128)) (s : State) : State :=
  let g : Granule := BitVec.ofNat 512 (slotsVal pay)
  if h.cls = 1 ∧ 1 ≤ h.op ∧ h.op ≤ 3 then
    let k := if h.op = 1 then SnpKind.inv else if h.op = 2 then .shared else .clean
    let p := h.agent % 8
    if agentUp s p then emit (.snoop h.agent h.htid h.gaddr k) (onLink p (fun x => { x with snoops := x.snoops ++ [(h.htid, h.gaddr)] }) s)
    else emit (.relay l 3 [respHdr h.home h.agent h.htid h.gaddr]) s
  else if h.cls = 3 ∧ h.op = 2 then
    let s := match s.dir.fwds.find? fun f => isWFwd f && f.home == h.home && f.gaddr == h.gaddr && f.agent % 64 == h.agent with
      | some f => onDir (fun d => { d with fwds := d.fwds.filter fun x => x.req != f.req }) s
      | none => s
    emit (.wbAck h.agent h.gaddr (statusOf h.status)) s
  else if h.cls = 3 ∧ h.op = 1 then
    match fwdOf s h with
    | some f => fwdAnswer f (statusOf h.status) h.htid (stateOf h.state) none s
    | none => s
  else if h.cls = 4 ∧ h.op = 1 then
    match fwdOf s h with
    | some f => fwdAnswer f .ok h.htid (stateOf h.state) (some (g, h.poison)) s
    | none => s
  else reservedMessage h.agent s

/-- Messages of a class that a port still holds: what its advertised credits bound (R286 to R288). On Coping, W messages and SNP_DATA leave the
receive buffer for the 16 reserved entries of their class (R195). -/
def creditsUsed (s : State) (i cls : Nat) : Nat :=
  let src : Src := if i < 8 then .hal i else .cop (i - 8)
  if cls = 0 then (if i < 8 then inFlight s src + (s.dir.held.filter fun h => h.src == src).length
    else (s.dir.held.filter fun h => h.src == src).length)
  else if cls = 2 then (sinkList s i 1).length - (if i < 8 then 0 else 16)
  else if cls = 4 then (sinkList s i 2).length - (if i < 8 then 0 else 16)
  else 0

/-- The credits that this module advertises (R287). -/
def advertised (i cls : Nat) : Nat :=
  ((nth (if i < 8 then [512, 0, 16, 64, 16] else [256, 256, 32, 256, 128]) cls).getD 0)

/-- A message beyond its credits, or a snoop from an agent, breaks R288; the second within 1 ms ends the port's operation. -/
def creditBroken (i a : Nat) (s : State) : State :=
  let s := event 0x0501 2 a s
  match (link s i).credErr with
  | some t => if s.now < t + ms then leaveLink i 4 0 1 (onLink i (fun k => { k with credErr := some s.now }) s)
    else onLink i (fun k => { k with credErr := some s.now }) s
  | none => onLink i (fun k => { k with credErr := some s.now }) s

/-- One whole coherence message arrives on port `i`. -/
def takeSlots (i : Nat) (slots : List (BitVec 128)) (s : State) : State :=
  match slots with
  | [] => s
  | raw :: pay =>
    let h := hdrOf i raw
    let a := if i < 8 then s.grp.id * 8 + i else h.agent
    if decide (h.cls < 5) && decide (advertised i h.cls ≤ creditsUsed s i h.cls) then creditBroken i a s
    else if 8 ≤ i ∧ msgDest h ≠ s.grp.id then
      let s := received i h.cls s
      match routeFor s (msgDest h) h.gaddr with
      | some l =>
        count (0x40 + i) 0x12 (b2n (h.cls == 0)) (emit (.relay l h.cls slots) (onGrp (fun g => { g with cntRelay := sat 64 g.cntRelay 1 }) s))
      | none => s
    else match msgInstr i h pay with
      | some c => takeMessage c s
      | none =>
        let s := received i h.cls s
        if 8 ≤ i ∧ h.cls ≠ 0 ∧ h.cls < 5 then deliverAnswer (i - 8) h pay s else reservedMessage a s

/-- Coherence messages of a flit's slots: `start` has a bit for each slot that begins one. -/
def takeMsgs (i : Nat) : List (BitVec 128 × Bool) → State → State
  | [], s => s
  | (x, st) :: rest, s =>
    let k := link s i
    let cur := if st then [x] else if k.cont.isEmpty then [] else k.cont ++ [x]
    let s := match cur with
      | [] => s
      | hd :: _ =>
        if slotsOfHdr (hdrOf i hd) ≤ cur.length then takeSlots i cur (onLink i (fun k => { k with cont := [] }) s)
        else onLink i (fun k => { k with cont := cur }) s
    takeMsgs i rest s

/-! ## Link-layer messages (R296, R320) -/

/-- LINK_DOWN arrives: it is acknowledged, and the port leaves operation. -/
def takeLinkDown (i reason : Nat) (s : State) : State :=
  if inOperation (link s i) then leaveLink i 3 reason 1 (sendIdle i false s) else s

/-- An LTYPE that the port does not know (R296). One that the table gives to the other kind of port, or to agents only, counts as such
(DESIGN CHOICE, log 148). -/
def reservedLt (i : Nat) (s : State) : State := event 0x0504 (0x40 + i) (eventPort i) s

/-- A group hoist entry arrives (R63): it is checked as R58 says, armed, and answered. One that is refused is missed at the freeze of its
tick, or at once when that has passed. -/
def takeHoistArm (src tag e : Nat) (s : State) : State :=
  let h := hoistOf e none
  let st := checkHoist s e h
  let s := if st = 0 then armHoist { h with queue := none } s else
    onTck (fun t => { t with refusedArms := t.refusedArms ++ [(h.id, h.launch)] }) s
  sendGroup 0x13 src [tag, st] (if s.tck.running then freezeHoists s else s)

/-- A reply to a group hoist of this module; one that comes more than 2 ticks after the acceptance is too late (R63). -/
def takeHoistReply (src tag status : Nat) (s : State) : State :=
  match s.tck.groupHoists.find? fun g => g.tag == tag with
  | none => s
  | some g =>
    if status ≠ 0 ∨ g.accepted + 2 < s.tck.course then endGroupHoist g 0x0017 s
    else checkGroupHoists (onTck (fun t => { t with
      groupHoists := t.groupHoists.map fun x => if x.tag = tag then { x with replied := set8 x.replied src } else x }) s)

/-- READMIT reaches this member. -/
def takeReadmit (mask : BitVec 8) (s : State) : State := readmitMembers mask s

/-- One whole link-layer message arrives on port `i`. -/
def takeLctl (i : Nat) (slots : List (BitVec 128)) (s : State) : State :=
  let v := slotsVal slots
  let b := fun lo n => bits v (8 * lo) (8 * n)
  let lt := b 0 1
  let cop := decide (8 ≤ i)
  if lt = 1 then takeCredits i (b 2 2) (b 4 2) (b 6 2) (b 8 2) (b 10 2) s
  else if lt = 3 then takeLinkDown i (b 2 1) s
  else if cop && lt == 4 then
    takeOffer (i - 8) { grp := b 2 1, epoch := b 4 2, nonce := b 16 16
                        idKey := beVal (leBytes 96 (b 32 96)), ecdhKey := beVal (leBytes 96 (b 128 96)) } s
  else if cop && lt == 5 then takeWrap (i - 8) (b 16 40) (beVal (leBytes 96 (b 64 96))) s
  else if cop && lt == 6 then takeDone (i - 8) (b 2 2) s
  else if cop && decide (0x10 ≤ lt) && decide (lt ≤ 0x17) then
    let src := b 2 1
    let d := b 3 1
    let way := routeFor s src 0
    if d ≠ 255 ∧ d ≠ s.grp.id then
      match routeFor s d 0 with
      | some l => emit (.relay l 5 slots) (onGrp (fun g => { g with cntRelay := sat 64 g.cntRelay 1 }) s)
      | none => s
    else if d = 255 ∧ lt ≠ 0x11 ∧ way.isSome ∧ way ≠ some (i - 8) ∧ s.grp.size ≠ 2 then s
    else
    -- a message for all goes on away from its originator, on the ports that do not lead there (DESIGN CHOICE, log 171)
    let s := if d = 255 ∧ lt ≠ 0x11 ∧ s.grp.size ≠ 2 then
        each ((activeCop s).filter (· != i - 8)) (fun l s => emit (.relay l 5 slots) (onGrp (fun g => { g with cntRelay := sat 64 g.cntRelay 1 }) s)) s
      else s
    if lt = 0x10 then takeHello src (b 4 1) (b 5 1) (b 8 8) s
    else if lt = 0x11 then takeAlign (i - 8) src (b 8 8) s
    else if lt = 0x12 then takeHoistArm src (b 4 2) (b 16 32) s
    else if lt = 0x13 then takeHoistReply src (b 4 2) (b 6 1) s
    else if lt = 0x14 then takeHoistCancel (b 4 2) s
    else if lt = 0x15 then linkResumed (8 + b 4 1 % 4) (b 6 2) s
    else if lt = 0x16 then takeMemberState (BitVec.ofNat 8 (b 4 1)) (BitVec.ofNat 8 (b 5 1)) (BitVec.ofNat 8 (b 6 1)) s
    else takeReadmit (BitVec.ofNat 8 (b 4 1)) s
  else reservedLt i s

/-- Link-layer messages of a flit's slots. -/
def takeLctls (i : Nat) : List (BitVec 128 × Bool) → State → State
  | [], s => s
  | (x, st) :: rest, s =>
    let k := link s i
    let cur := if st then [x] else if k.contL.isEmpty then [] else k.contL ++ [x]
    let s := match cur with
      | [] => s
      | hd :: _ =>
        if max 1 (hd.toNat / 256 % 256) ≤ cur.length then takeLctl i cur (onLink i (fun k => { k with contL := [] }) s)
        else onLink i (fun k => { k with contL := cur }) s
    takeLctls i rest s

/-! ## The flit layer (R279 to R291) -/

/-- The ACK and NAK of an accepted header. NAKs follow one another in succession whatever flits without NAK lie between them (R290, DEDUCED,
log 154). -/
def takeAckNak (i ack : Nat) (nak : Bool) (s : State) : State :=
  let k := link s i
  let s := if seqAfter ack k.peerAck < 2048 then
      onLink i (fun k => { k with
        peerAck := ack
        replay := k.replay.filter fun r => decide (0 < seqAfter r.fseq ack) && decide (seqAfter r.fseq ack < 2048) }) s
    else s
  let k := link s i
  if nak then
    let run := if k.nakRun ≠ 0 ∧ k.nakAck = ack then k.nakRun + 1 else 1
    let s := replayFlits i (onLink i (fun k => { k with nakRun := run, nakAck := ack }) s)
    if 8 ≤ run then enterRecovery i s else s
  else s

/-- Decrypt the slots of a keyed flit (R300): none when the tag fails. -/
def openFlit (s : State) (i : Nat) (f : BitVec 2048) : Option (List (BitVec 128)) :=
  let k := link s i
  let slot := fun j => f.extractLsb' (128 * (j + 1)) 128
  if 8 ≤ i ∧ k.keyed then
    let o := k.peerOffer.getD { grp := 0, epoch := 0, nonce := 0, idKey := 0, ecdhKey := 0 }
    let iv := o.grp * 2 ^ 88 + s.grp.id * 2 ^ 80 + o.epoch * 2 ^ 64 + k.rxCount
    let (pt, tag) := Config.gcmOpen k.peerKey iv (leBytes 16 f.toNat) (leBytes 208 (f.toNat / 2 ^ 128))
    if tag = (slot 13).toNat then some ((upto 13).map fun j => BitVec.ofNat 128 (leVal ((pt.drop (16 * j)).take 16))) else none
  else some ((upto (if i < 8 then 14 else 13)).map slot)

/-- Credits that a header returns. -/
def creditField (i v : Nat) : State → State := onLink i fun k =>
  { k with
    crQ := k.crQ + bits v 79 8
    crS := k.crS + bits v 71 8
    crW := k.crW + bits v 63 8
    crP := if i < 8 then k.crP else k.crP + bits v 55 8
    crD := if i < 8 then k.crD else k.crD + bits v 47 8 }

/-- Credits whose buffers are free again go back in an LCTL flit without messages (R286, R288). -/
def returnCredits (i : Nat) (s : State) : State :=
  let k := link s i
  if k.rcv.isEmpty ∨ k.st ≠ 5 ∨ 512 ≤ k.replay.length then s else
  let back := (upto 5).map fun c => min 255 (k.rcv.getD c 0 - creditsUsed s i c)
  if back.all (· == 0) then s
  else
    let left := (upto 5).map fun c => k.rcv.getD c 0 - back.getD c 0
    sendRaw i 2 0 (back.foldl (fun v n => v * 256 + n) 0) [] none
      (onLink i (fun k => { k with rcv := if left.all (· == 0) then [] else left }) s)

/-- A flit at a port that is closing: its messages are not acted on. Once an ACK covers the LINK_DOWN, the port is DISABLED, from where it trains
if it was enabled again. -/
def closingFlit (i ty fseq ack : Nat) (nak : Bool) (s : State) : State :=
  let k := link s i
  if ty ≠ 0 ∧ fseq ≠ k.rxSeq then s else
  let s := if ty = 0 then s else sendIdle i false (onLink i (fun k => { k with rxSeq := (k.rxSeq + 1) % 4096, lastAck := fseq }) s)
  let s := takeAckNak i ack nak s
  if (link s i).replay.isEmpty then startDetect i (onLink i (fun k => freshLink k 0) s) else s

/-- AGENT_RESET: LINK_DOWN is sent, and AGT_RST_N of the port is asserted with its stretch (R307, R449). -/
def resetAgent (p : Nat) (s : State) : State :=
  let k := link s p
  let s := if k.st = 5 ∧ k.replay.length < 512 then sendFlit p 5 (.lctl (.hal p) 3 [0]) s else s
  onLink p (fun k => { k with stretch := true }) (leaveLink p 1 0 0 (onPlinth (fun x => { x with agtRst := set8 x.agtRst p }) s))

/-- The stretch ends: AGT_RST_N deasserts, unless another cause holds it, and the port starts DETECT (R292, R449). -/
def stretchEnds (p : Nat) (s : State) : State :=
  if !(link s p).stretch then s else
  let s := onLink p (fun k => { k with stretch := false }) s
  if !s.glb.memReady || s.plinth.st == 7 || (s.pwr.drain == 1 && s.pwr.drainSt != 0) then s
  else
    let s := onPlinth (fun x => { x with agtRst := clr8 x.agtRst p }) s
    if s.plinth.st = 5 then s else startDetect p s

/-- A flit arrives after correction: `fixed` when the FEC changed it, `good` when its CRC verifies (R281, R289). The first bad flit of a run is
answered with NAK at once, and each accepted flit with its ACK, unless a sequenced flit carries it. -/
def takeFlit (i : Nat) (f : BitVec 2048) (fixed good : Bool) (s : State) : State :=
  let k := link s i
  let v := f.toNat
  let ty := bits v 126 2
  let fseq := bits v 114 12
  let ack := bits v 102 12
  let nak := bitOf v 101
  if k.closing then (if good then closingFlit i ty fseq ack nak s else s)
  else if k.st ≠ 5 ∧ !(k.st == 4 && k.agree == 8) then s else
  let s := count (0x40 + i) 0x11 1 s
  let s := if fixed then count (0x40 + i) 0x16 1 (onLink i (fun k => { k with cntFec := sat 64 k.cntFec 1 }) s) else s
  if !good then
    let s := onLink i (fun k => { k with cntBad := sat 64 k.cntBad 1 }) s
    if ty = 0 ∨ k.waiting then s else sendIdle i true (onLink i (fun k => { k with waiting := true }) s)
  else if ty = 0 then takeAckNak i ack nak s
  else if ty = 3 ∨ fseq ≠ k.rxSeq then s
  else
    match openFlit s i f with
    | none => authFail i (onLink i (fun k => { k with cntAuth := sat 64 k.cntAuth 1 }) s)
    | some slots =>
      let s := onLink i (fun k => { k with
        rxSeq := (k.rxSeq + 1) % 4096
        lastAck := fseq
        waiting := false
        rxCount := k.rxCount + 1 }) s
      let s := takeAckNak i ack nak (creditField i v s)
      let tagged := ((upto slots.length).map fun j => ((nth slots j).getD 0, bitOf v (87 + j)))
      let s := if ty = 1 then takeMsgs i tagged s else takeLctls i tagged s
      let s := releaseHeld i s
      let x := link s i
      if x.txSeq = k.txSeq ∧ x.lastAck = fseq ∧ (x.st = 5 ∨ x.st = 4) then sendIdle i false s else s

/-- A flit comes off the lanes, as their symbols spell it, while the link carries flits: it is descrambled (R282), corrected and checked (R281). -/
def receiveFlit (i : Nat) (wire : BitVec 2048) (s : State) : State :=
  let k := link s i
  if k.closing ∨ k.st = 5 ∨ k.st = 4 ∧ k.agree = 8 then
    let (raw, regs) := scrFlit k.width k.scrRx wire
    let (f, fixed, good) := checkFlit raw
    takeFlit i f fixed good (onLink i (fun k => { k with scrRx := regs }) s)
  else s

end Sys2Proof.Machine
end

