-- ==== Sys2Proof/Machine/Errors.lean ====
section
/-!
DEFINITION. The cornerstone flash at work (R493 to R503) and the self-tests, retirements and scrubs (R486 to R491).
-/

namespace Sys2Proof.Machine
open Sys2Proof

/-! ## Records -/

/-- CRC-16 with polynomial 0x1021 and initial value of all ones (R516), bit by bit. -/
def crc16Bits : Nat → BitVec 16 → BitVec 16
  | 0, c => c
  | n + 1, c => crc16Bits n (if c.getLsbD 15 then (c <<< 1) ^^^ 0x1021 else c <<< 1)

def crc16 (l : List Byte) : BitVec 16 := l.foldl (fun c b => crc16Bits 8 (c ^^^ ((b.setWidth 16 : BitVec 16) <<< (8 : Nat)))) 0xFFFF

/-- The 32 B of an event record (R516). -/
def evBytes (e : EvRec) : List Byte :=
  let b := leBytes 4 e.seq ++ leBytes 3 e.cycles ++ leBytes 5 e.opSec ++ leBytes 2 e.code
    ++ leBytes 2 (e.source % 4096 + 4096 * e.severity) ++ leBytes 2 e.suppressed ++ leBytes 8 e.operand.toNat ++ leBytes 4 e.tick
  b ++ leBytes 2 (crc16 b).toNat

/-- The 128 B of a record (R495); a slot of the event partition holds its events (R494). -/
def recBytes (r : FRec) (event : Bool) : List Byte :=
  if event then r.payload ++ leBytes (128 - r.payload.length) (256 ^ (128 - r.payload.length) - 1)
  else
    let b := leBytes 4 r.seq ++ leBytes 2 r.key ++ leBytes 2 r.payload.length ++ r.payload ++ leBytes (116 - r.payload.length) 0
    b ++ leBytes 4 (Config.crc32 b).toNat

/-- The newest record of a key. -/
def newestRec (s : State) (n key : Nat) : Option FRec := ((part s n).recs.filter fun r => r.key == key).getLast?

/-- First sector of a partition and its number of sectors (R493). -/
def partSectors (n : Nat) : Nat × Nat :=
  if n = 1 then (67, 4) else if n = 2 then (71, 8) else if n = 3 then (79, 4) else if n = 4 then (83, 64) else (147, 264)

/-- The sector that holds a generation. -/
def sectorOf (n sgen : Nat) : Nat := (partSectors n).1 + (sgen - 1) % (partSectors n).2

/-- The open sector is full: the ready one is opened under the next SGEN, and the one with the lowest SGEN is erased to be ready
(R494, R496); its records are no longer read, but the newest record of each counter is kept (DESIGN CHOICE, log 177). -/
def openSector (n : Nat) (s : State) : State :=
  let g := (part s n).sgen + 1
  let k := (partSectors n).2
  let s := onPart n (fun p => { p with
    sgen := g
    used := 0
    ready := false
    recs := p.recs.filter fun r => decide (g + 1 < r.sgen + k) || (n == 2 && newestRec s 2 r.key == some r) }) s
  onFlash (fun f => { f with erases := f.erases ++ [(sectorOf n (g + 1), 0), (sectorOf n (g + 1), 1)] }) s

/-- Live capacity of a partition in records (R493). -/
def liveRecs (n : Nat) (l : List FRec) : List FRec :=
  if n = 4 then l.drop (l.length - 16384) else if n = 5 then l.drop (l.length - 65536)
  else if n = 2 then l.filter fun r => ((l.filter fun q => q.key == r.key).getLast?) == some r
  else l.drop (l.length - 1)

/-- Compaction (R500): the live records are renumbered from 1 in fresh sectors, and a marker follows them. -/
def compact (n : Nat) (s : State) : State :=
  let p := part s n
  let live := liveRecs n p.recs
  let g := p.sgen + 1
  let num := (upto live.length).filterMap fun i => (nth live i).map fun r => { r with seq := i + 1, sgen := g }
  let mark : FRec := { seq := live.length + 1, key := 0xFFFF, payload := leBytes 4 (partSeq s n) ++ leBytes 4 g, sgen := g
                       slot := 0, dev0 := true, dev1 := true }
  let s := onPart n (fun p => { p with recs := num ++ [mark], sgen := g, used := (live.length + 1) % 511 }) s
  let s := onFlash (fun f => { f with appends := f.appends.map fun a =>
    if a.part = n then { a with r := { a.r with seq := live.length + 2, sgen := g } } else a }) s
  if n ≠ 5 then s
  else
    let ev := s.flash.events.take 262144
    onFlash (fun f => { f with
      epoch := f.epoch + 1
      events := (upto ev.length).filterMap fun i => (nth ev i).map fun e => { e with seq := ev.length - i } })
      (onEvr (fun v => { v with waiting := (upto v.waiting.length).filterMap fun i => (nth v.waiting i).map fun e =>
        { e with seq := ev.length + v.waiting.length - i } }) s)

/-- A slot of waiting events becomes durable: the oldest `n` of them. -/
def eventsDurable (n : Nat) (s : State) : State :=
  let w := s.evr.waiting
  let old := w.drop (w.length - n)
  onFlash (fun f => { f with events := (old ++ f.events).take 262144 }) (onEvr (fun v => { v with waiting := v.waiting.take (w.length - n) }) s)

/-- What a record means once it is durable (R385, R407, R498). -/
def applyRecord (n : Nat) (r : FRec) (s : State) : State :=
  let f := fun lo k => leVal ((r.payload.drop lo).take k)
  if n = 1 then onFlash (fun x => { x with lc := f 0 1, lcTrans := f 4 2, ownerHash := if f 1 1 = 1 then some (f 8 48) else none }) s
  else if n = 2 then
    if r.key = 1 then onFlash (fun x => { x with powerCycles := f 0 3 }) s
    else if r.key = 3 then onFlash (fun x => { x with versionFloor := f 0 4 }) s
    else if r.key = 4 then onFlash (fun x => { x with lastC := some (f 0 2), lastCHours := f 2 4 }) s
    else s
  else if n = 3 then onFlash (fun x => { x with nonceReserved := f 0 8 }) s
  else s

/-- A record is durable (R496). -/
def recordDurable (n : Nat) (r : FRec) (s : State) : State :=
  let s := if 511 ≤ (part s n).used then openSector n s else s
  let evs := (s.evr.waiting.drop (s.evr.waiting.length - r.key)).reverse.flatMap evBytes
  let r := { r with slot := (part s n).used, sgen := (part s n).sgen, payload := if n = 5 then evs else r.payload }
  let s := onPart n (fun p => { p with recs := p.recs ++ [r], used := p.used + 1 }) s
  let s := if n = 5 then eventsDurable r.key s else applyRecord n r s
  if 0xFFFFFFEF ≤ (if n = 5 then newestSeq s else r.seq) then compact n s else s

/-- A sector fails its verify: a spare replaces it; without spares the device is lost (R501). True when the device stays. -/
def retireSector (dev : Nat) (s : State) : Bool × State :=
  let s := onMemErr 8 (fun m => { m with used := m.used + 1 }) s
  if 0 < s.flash.spares then (true, onFlash (fun f => { f with spares := f.spares - 1, retired := f.retired + 1 }) s)
  else
    let s := onFlash (fun f => if dev = 0 then { f with ok0 := false } else { f with ok1 := false }) s
    (false, trap 3 (event 0x0B04 12 dev (onLdg (fun l => { l with degraded := true }) s)))

/-- The append of a record has ended on a device: it goes on with the other, or the record is durable. -/
def appendDone (n dev : Nat) (ok : Bool) (s : State) : State :=
  match s.flash.appends.find? fun a => a.part == n with
  | none => s
  | some a =>
    if a.phase ≠ dev then s else
    let put (a' : Append) (s : State) : State := onFlash (fun f => { f with appends := f.appends.map fun x => if x = a then a' else x }) s
    let durable (r : FRec) (s : State) : State := recordDurable n r (onFlash (fun f => { f with appends := f.appends.erase a }) s)
    let other := if dev = 0 then s.flash.ok1 else s.flash.ok0
    if ok then
      let r := if dev = 0 then { a.r with dev0 := true } else { a.r with dev1 := true }
      if dev = 0 ∧ other then put { a with r, phase := 1 } s else durable r s
    else
      match retireSector dev s with
      | (true, s) => s
      | (false, s) =>
        if dev = 0 ∧ other then put { a with phase := 1 } s
        else if a.r.dev0 then durable a.r s else s

/-- An erase of a record partition's sector has ended (R496, R497). -/
def eraseDone (dev sector : Nat) (ok : Bool) (s : State) : State :=
  match s.flash.erases with
  | [] => s
  | (k, d) :: rest =>
    if k ≠ sector ∨ d ≠ dev then s else
    let s := if ok then s else (retireSector dev s).2
    let s := onFlash (fun f => { f with erases := rest }) s
    if d = 0 then s
    else each ((upto 6).filter fun n => n != 0 && decide ((partSectors n).1 ≤ k) && decide (k < (partSectors n).1 + (partSectors n).2))
      (fun n s => onPart n (fun p => { p with ready := true }) s) s

/-! ## Counter records (R498) -/

def recordCycles (v : Nat) : State → State := append 2 1 (leBytes 3 v)
def recordSeconds (s : State) : State := append 2 2 (leBytes 5 s.flash.opSeconds) s
def recordFloor (v : Nat) : State → State := append 2 3 (leBytes 4 v)
def recordC (c hours : Nat) : State → State := append 2 4 (leBytes 2 c ++ leBytes 4 hours)

/-- A life-cycle record: the state, whether an owner key hash follows, TRANSITIONS, the hash (DESIGN CHOICE, log 42). -/
def recordLc (st trans : Nat) (owner : Option Nat) : State → State :=
  append 1 1 (leBytes 1 st ++ leBytes 1 (b2n owner.isSome) ++ leBytes 2 0 ++ leBytes 2 trans ++ leBytes 2 0 ++ leBytes 48 (owner.getD 0))

/-- A repair of memory `m` outlives a module reset: its record holds the newest locations, 8 B each (R489, R498, DESIGN CHOICE, log 42). -/
def recordRepair (m loc : Nat) (s : State) : State :=
  let l := loc :: (tget [] s.flash.repairs m)
  append 2 (0x10 + m) ((l.take 14).flatMap fun x => leBytes 8 x) (onFlash (fun f => { f with repairs := tset [] f.repairs m l }) s)

/-! ## Self-tests (R486 to R488) -/

/-- The location is in use, as outcome 3 of R357 describes. -/
def testBusy (s : State) (m loc : Nat) : Bool :=
  if m = 1 then
    let w := way s loc
    w.retiring || !(linesIn w fun t => t == .filling || t == .evicting).isEmpty
  else if m = 2 then (match dirEnt s loc with | some e => e.busy | none => false)
  else if m = 3 then (match nth s.stm.comb loc with | some c => c.busy | none => false)
  else if m = 7 then
    (blk s (blockOfPpn loc)).st == .victim || s.med.progs.any fun p => p.ppn == some loc
  else false

def onTest (m loc : Nat) (f : STest → STest) : State → State := onErr fun e =>
  { e with tests := e.tests.map fun t => if t.mem = m ∧ t.loc = loc then f t else t }

def dropTest (m loc : Nat) : State → State := onErr fun e =>
  { e with tests := e.tests.filter fun t => !(t.mem == m && t.loc == loc) }

def testOf (s : State) (m loc : Nat) : Option STest := s.err.tests.find? fun t => t.mem == m && t.loc == loc

/-- A test starts, or the attempt is counted. A media page is sensed three times, in three later courses (R487). -/
def tryTest (t : STest) (s : State) : State :=
  if testBusy s t.mem t.loc || (t.mem == 7 && !mediaRoom s) then
    if 100 ≤ t.tries + 1 then event 0x0B02 0 t.loc (dropTest t.mem t.loc s)
    else onTest t.mem t.loc (fun t => { t with tries := t.tries + 1 }) s
  else
    let s := onTest t.mem t.loc (fun t => { t with running := true }) s
    if t.mem = 7 then queueRead (.selfTest t.loc) t.loc 3 1 s.tck.course s else s

/-- A sensing attempt of a media page has ended. -/
def senseDone (loc : Nat) (good : Bool) (s : State) : State :=
  let s := onTest 7 loc (fun t => { t with senses := t.senses + 1, fails := if good then t.fails else t.fails + 1 }) s
  match testOf s 7 loc with
  | some t => if t.senses < 3 then queueRead (.selfTest loc) loc 3 1 s.tck.course s else s
  | none => s

/-- The outcome of a test (R488). A page whose attempts partly fail counts as an upset (DEDUCED, log 43). -/
def outcome (s : State) (t : STest) (good : Bool) : Nat :=
  let bad := if t.mem = 7 then t.fails == 3 else !good
  let clean := if t.mem = 7 then t.fails == 0 else good
  let day := 86400
  let upsets := (s.err.upsets.filter fun u => u.1 == t.mem && u.2.1 == t.loc && decide (s.flash.opSeconds < u.2.2 + day)).length
  if bad then 2
  else if clean && !decide ((t.mem, t.loc) ∈ s.err.errLocs) then 0
  else if 2 ≤ upsets then 2 else 1

/-- Spares of a memory have run out: a trap, once (R489). -/
def sparesOut (m : Nat) (s : State) : State :=
  if (memErr s m).spTrap then s else trap 3 (onMemErr m (fun x => { x with spTrap := true }) s)

/-- A lasting fault is retired (R489). A cache way disabled for want of a row of DRAM is kept among the repairs of memory 0 as its number
with bit 60 set. -/
def retireLoc (m loc : Nat) (s : State) : State :=
  let s := onMemErr m (fun x => { x with lasting := sat 64 x.lasting 1 }) s
  let s := trap 1 (logError m loc 2 s)
  let use (s : State) : State := recordRepair m loc (onMemErr m (fun x => { x with used := x.used + 1 }) s)
  if m = 0 then
    if (memErr s 0).used < Config.dramSpares then use s
    else
      let s := sparesOut 0 s
      match findWay s (loc / 512) with
      | some k => onWay k (fun w => { w with off := true })
          (recordRepair 0 (2 ^ 60 + k) (onMemErr 0 (fun x => { x with used := x.used + 1 }) s))
      | none => s
  else if m = 1 then onWay loc (fun w => { w with off := true }) (use s)
  else if m = 2 then
    let s := onDir (fun d => { d with off := addNew loc d.off }) (use s)
    match dirEnt s loc with
    | some e =>
      let lg := dirGranule (loc / 16) e.tag
      order { id := nextReq s, src := .fw, rq := rqOfSrc s .fw, kind := .maint 2, txid := 0, agent := 64
              gaddr := groupAddr s (lg * 64) / 64, lg, tick := s.tck.course } (takeId s)
    | none => s
  else if m = 3 then onStm (fun x => { x with combOff := addNew loc x.combOff }) (use s)
  else if m = 7 then failBlock (blockOfPpn loc) 3 s
  else if (memErr s m).used < 64 then use s
  else sparesOut m s

/-- A page that tests as an upset while its line is Poisoned with an empty cover mask refills the line (R488). -/
def recoverLine (loc : Nat) (s : State) : State :=
  match mediumPage s loc with
  | none => s
  | some p =>
    let l := lineOfPage s p.pageId
    if p.kind = 0 ∧ (mapEnt s p.pageId).valid ∧ (mapEnt s p.pageId).ppn = loc ∧ l.st = .poisoned ∧ l.cover = 0 then
      event 0x0B03 3 loc (fillData p.pageId (pagePlain s p) s)
    else s

/-- A test ends with its outcome. -/
def endTest (t : STest) (good : Bool) (s : State) : State :=
  let o := outcome s t good
  let s := dropTest t.mem t.loc s
  let s := if o = 1 then
      let s := onMemErr t.mem (fun m => { m with transient := sat 64 m.transient 1 })
        (onErr (fun e => { e with upsets := (t.mem, t.loc, s.flash.opSeconds) :: e.upsets }) s)
      if t.mem = 7 then recoverLine t.loc s else s
    else if o = 2 then retireLoc t.mem t.loc s else s
  match t.cmd with
  | some c =>
    let (n, s) := free s
    let (v, s) := free s
    finish c 0 o (fillWindow c (leBytes (n % 4089) v) s)
  | none => s

/-! ## Scrubbers (R490, R491) -/

/-- The last location of a memory, at which a lap ends (DEDUCED, log 44). -/
def lastLoc (s : State) (m : Nat) : Nat :=
  if m = 0 then capacity s - 64 else if m = 1 then 131072 * 12 - 1 else if m = 2 then 262144 * 16 - 1 else if m = 3 then 65535
  else 4 * 2 ^ 20 - 64

/-- A lap of a scrubber ends. -/
def endLap (m : Nat) (s : State) : State :=
  let k := if m = 0 then 0 else 16 + m
  let t := (s.now - tget 0 s.err.scrubAge k) / sec
  let s := onMemErr m (fun x => { x with laps := x.laps + 1, lastLap := t }) s
  onErr (fun e => { e with scrubAge :=
    (if m = 0 then upto 16 else [k]).foldl (fun a i => tset 0 a i s.now) e.scrubAge }) s

/-- The unit whose memories a memory number belongs to, for code 0x03 of R510. -/
def unitOfMem (m : Nat) : Nat := if m = 1 then 3 else if m = 2 then 4 else if m = 3 then 5 else if m = 6 then 6 else 0

/-- An error that no code corrects is found at a location (R482, R483). The line of a DRAM location fails its tag from then on (R170). -/
def foundError (m loc : Nat) (s : State) : State :=
  if m = 0 then poisonRoute 3 0 loc (onPageLine (loc / 512) (fun l => { l with tagOk := false }) s)
  else if m = 3 then
    let s := poisonRoute 5 3 loc s
    match nth s.stm.comb loc with
    | some c => combDone c.id 4 s
    | none => s
  else if m = 5 then poisonRoute 0 5 loc s
  else fatal 1 m (startTest m loc (onMemErr m (fun x => { x with ue := sat 64 x.ue 1 }) s))

/-- A corrected error counts in its memory's unit (R510). Which DRAM channel holds a location no rule gives: a free one (log 22). -/
def countCorrected (m : Nat) (s : State) : State :=
  if m = 0 then
    let (v, s) := free s
    count (0x10 + v % 16) 0x03 1 s
  else count (unitOfMem m) 0x03 1 s

/-- One location has been scrubbed, or read. -/
def scrubbed (m loc : Nat) (f : EccFind) (s : State) : State :=
  let s := match f with
    | .clean => s
    | .corrected => countCorrected m (corrected m loc s)
    | .uncorrectable => foundError m loc s
    | .metadata =>
      match (if m = 0 then findWay s (loc / 512) else none) with
      | some k => onSec (fun c => { c with badMeta := addNew ((k * 32 + lineOf (loc / 512)) / 256) c.badMeta }) s
      | none => s
  if loc = lastLoc s m then endLap m s else s

/-! ## Configuration slots (R503, R505) -/

def slotBytes (s : State) (i : Nat) : List Host.Cell := if i = 0 then s.flash.slotA else s.flash.slotB

def onSlot (i : Nat) (f : List Host.Cell → List Host.Cell) : State → State := onFlash fun x =>
  if i = 0 then { x with slotA := f x.slotA } else { x with slotB := f x.slotB }

/-- An image operation starts, or is refused; while one runs a further one has no effect (DESIGN CHOICE, log 45). -/
def startImageOp (op slot off : Nat) (s : State) : State :=
  if s.ldg.busy then s
  else if s.glb.imageApplied ∧ s.glb.slot = slot then onLdg (fun l => { l with status := 2, slot, offset := off }) s
  else onLdg (fun l => { l with
    busy := true
    status := 0
    slot
    offset := off
    op
    opSlot := slot
    opOff := off
    busy0 := l.busy0 || slot == 0
    busy1 := l.busy1 || slot == 1 }) s

/-- An image operation ends. One that fails its verify leaves its page, or the slot's first page, at no value a rule gives. -/
def endImageOp (ok : Bool) (s : State) : State :=
  if !s.ldg.busy then s else
  let l := s.ldg
  let s := onLdg (fun l => { l with busy := false, op := 0, status := if ok then 0 else 1, busy0 := false, busy1 := false }) s
  if ok then
    if l.op = 1 then onSlot l.opSlot (fun _ => []) s
    else onSlot l.opSlot (fun m => Memory.writeN 0xFF m l.opOff (Memory.readN 0 l.buf 0 256)) s
  else
    let (v, s) := free s
    (retireSector l.opSlot (onSlot l.opSlot (fun m => Memory.writeN 0xFF m (if l.op = 1 then 0 else l.opOff) (leBytes 256 v)) s)).2

end Sys2Proof.Machine
end

