-- ==== Sys2Proof/Machine/Power.lean ====
section
/-!
DEFINITION. Resets, drains and power (R236, R417 to R449), Stop and wake (R358, R462 to R465), clock gating (R457 to R461) and
the thermal stops (R474 to R476).
-/

namespace Sys2Proof.Machine
open Sys2Proof

/-! ## What a reset clears -/

/-- Waiting events are appended four to a slot until none waits (R519). -/
def saveSlots : Nat → State → State
  | 0, s => s
  | n + 1, s =>
    if s.evr.waiting.isEmpty then s
    else saveSlots n (recordDurable 5
      { seq := 0, key := min 4 s.evr.waiting.length, payload := [], sgen := 0, slot := 0, dev0 := true, dev1 := true } s)

/-- Before a drained reset, a power-fail shutdown's end or an orderly stop, the waiting events reach the flash. -/
def saveEvents (s : State) : State :=
  saveSlots s.evr.waiting.length (onFlash (fun f => { f with appends := f.appends.filter fun a => a.part != 5 }) s)

/-- An image operation that the reset cuts short leaves a page of its slot at no value a rule gives (R503). -/
def tornImage (s : State) : State :=
  if !s.ldg.busy then s else
  let (v, s) := free s
  onSlot s.ldg.opSlot (fun m => Memory.writeN 0xFF m (if s.ldg.op = 1 then 0 else s.ldg.opOff) (leBytes 256 v)) s

/-- Every block of the controller returns to its reset values; the fuses, the medium, the flash, the plinth domain, the strap and the
debug pin stay. -/
def clearVolatile (s : State) : State :=
  { fuses := s.fuses, medium := s.medium, flash := s.flash, plinth := s.plinth, grp := { id := s.grp.id }, dap := s.dap
    now := s.now, fv := s.fv, out := s.out, pending := s.pending }

/-- A module reset: start-up begins at step 3 (R365, R376). -/
def moduleReset (s : State) : State :=
  onPlinth (fun p => { p with agtRst := 0xFF, st := 2 }) (clearVolatile (tornImage (saveEvents s)))

/-- Appends that the loss of the controller cuts short: one whose first copy had verified stands (R502). -/
def resolveAppends (s : State) : State :=
  let l := s.flash.appends
  each (l.filter fun a => a.r.dev0) (fun a s => recordDurable a.part a.r s) (onFlash (fun f => { f with appends := [] }) s)

/-- Operating seconds as the newest durable record has them (R498). -/
def durableSeconds (s : State) : Nat := match newestRec s 2 2 with | some r => leVal (r.payload.take 5) | none => 0

/-- The controller loses power, or is reset at once (R447, R448, R476): what waited is lost. -/
def controllerLost (s : State) : State := clearVolatile (tornImage (resolveAppends s))

/-- Rail 0 is down: the module is Off. -/
def controllerOff (s : State) : State :=
  let s := controllerLost s
  onPlinth (fun p => { p with st := 0, charger := false, agtRst := 0xFF, tapHold := false })
    (onFlash (fun f => { f with opSeconds := durableSeconds s }) s)

/-- Some data lies outside the medium (R448, R476). -/
def anyDirty (s : State) : Bool := dirtyBytes s != 0

def markLossy (b : Bool) : State → State := onMedium fun m => { m with lossy := m.lossy || b }

/-! ## Rails (R422 to R425) -/

/-- Nominal voltage of a rail in mV (R422). -/
def railNominal (r : Nat) : Nat :=
  (nth [12000, 3300, 1800, 750, 750, 750, 750, 850, 900, 900, 900, 1200, 1100, 1100, 1800, 1100, 1200, 1200, 1800, 1800, 1800, 1800, 5000, 5000] r).getD 0

/-- The scanned value lies within ±6 % of nominal (R423). -/
def railInWindow (r mv : Nat) : Bool := decide (94 * railNominal r ≤ 100 * mv) && decide (100 * mv ≤ 106 * railNominal r)

def railSt (s : State) (r : Nat) : Nat := (tget (2, 0) s.plinth.rails r).1

def setRail (r st mv : Nat) : State → State := onPlinth fun p => { p with rails := tset (2, 0) p.rails r (st, mv) }

def allRails (st : Nat) : State → State := onPlinth fun p => { p with rails := (upto 24).foldl (fun t r => tset (2, 0) t r (st, 0)) p.rails }

/-- The power-down begins, for a cause (R423). AGT_RST_N is asserted, with which the Halyard ports leave operation (R298, R449). -/
def railsDown (cause : Nat) (s : State) : State :=
  let s := onPlinth (fun p => { p with st := 7, cause, charger := false, agtRst := 0xFF }) s
  each (upto 8) (fun i s => if inOperation (link s i) || (link s i).closing then leaveLink i 1 0 0 s else s) s

def latch (rail : Nat) : State → State := onPlinth fun p => { p with latched := true, firstRail := rail, onReq := false, autoRe := false }

/-- The highest rail that is not off. -/
def topRail (s : State) : Option Nat := (upto 24).reverse.find? fun r => railSt s r != 0

/-- A power-down waits for its supply log record: always before VAUX_3V3 goes, and after a dump or an orderly shutdown before any
rail (R428, R439, R444). -/
def railHeld (s : State) (r : Nat) : Bool :=
  (s.flash.appends.any fun a => a.part == 4 || a.part == 2) && (r == 1 || decide (s.plinth.cause ∈ [0, 2, 3, 5]))

/-- One rail is disabled in descending order; with the last the module is Off. -/
def disableRail (r : Nat) (s : State) : State :=
  if s.plinth.st ≠ 7 ∨ topRail s ≠ some r ∨ railHeld s r then s
  else
    let s := setRail r 0 0 s
    if (topRail s).isNone then controllerOff s else s

/-! ## Links at a reset or a commit point -/

/-- Every Halyard and Coping port in operation sends LINK_DOWN and leaves operation; the others stop (R298). A port that waits for the ACK of an
earlier LINK_DOWN goes on waiting. -/
def downLinks (cause reason : Nat) (s : State) : State :=
  each (upto 12) (fun i s => if (link s i).closing then s else sendDown i cause reason s) s

/-! ## The dump (R435 to R438) -/

/-- Lines that hold data of the persistence domain and whose data can be released, or cannot since their tag fails (R435, R399). -/
def linesToDump (s : State) (good : Bool) : List (Nat × Nat × Nat) :=
  let l := s.cch.ways.flatMap fun (k, w) => w.lines.map fun (i, x) => (k, i, pageOfWay k w i, x)
  (l.filter fun p => ((p.2.2.2.st == .dirty) || (p.2.2.2.st == .evicting && !p.2.2.2.pz)) && p.2.2.2.tagOk == good).map fun p => (p.1, p.2.1, p.2.2.1)

/-- Pages that hold one dump item each, in the order of R435, decrypted under the boot key; a poisoned line has none. -/
def dumpLines (s : State) : List DumpItem := (linesToDump s true).map fun p => { type := 1, page := p.2.2, data := plain s p.1 p.2.1 }

/-- Index entries without a page: Poisoned lines, poisoned gather-buffer entries, and lines whose tag does not verify, which are Poisoned when
they are read for the dump (R170, R399, R435). -/
def dumpPoison (s : State) : List DumpItem :=
  let l := s.cch.ways.flatMap fun (k, w) => w.lines.map fun (i, x) => (pageOfWay k w i, x)
  let a := (l.filter fun p => (p.2.st == .poisoned && !p.2.written) || (p.2.st == .evicting && p.2.pz)).map (·.1)
  let b := (s.ord.gbs.filter (·.poison)).map fun g => g.lg / 8
  ((a ++ (linesToDump s false).map (·.2.2) ++ b).eraseDups).map fun u => { type := 2, page := u }

def dumpStaged (s : State) : List DumpItem := s.med.staging.map fun g => { type := 3, page := g.upage, seq := g.seq, data := g.data }

def dumpJournal (s : State) : List DumpItem := 
  s.med.jbuf.map fun p => { type := 4, jrecs := p.recs, data := journalPageBytes p.jseq p.recs }

def dumpGather (s : State) : List DumpItem :=
  (s.ord.gbs.filter fun g => !g.poison).map fun g => { type := 5, granule := g.lg, req := g.rq, mask := g.mask, data := g.data.setWidth 4096 }

/-- The items with their page positions: one page for each of types 1, 3 and 4, and one for six gather entries. -/
def dumpItems (s : State) : List DumpItem :=
  let a := dumpLines s
  let b := dumpStaged s ++ dumpJournal s
  let n := a.length + b.length
  let place := fun (l : List DumpItem) (f : Nat → Nat) => l.zipIdx.map fun p => { p.1 with pos := some (f p.2) }
  place a id ++ dumpPoison s ++ place b (fun i => a.length + i) ++ place (dumpGather s) fun i => n + i / 6

/-- Data pages of a dump. -/
def dumpPageCount (l : List DumpItem) : Nat := l.foldl (fun n d => match d.pos with | some k => max n (k + 1) | none => n) 0

/-- Bank of dump page k (R436). -/
def dumpBank (s : State) (k : Nat) : Nat := k % 32 * 128 + k / 32 % banksPerChannel s

/-- Physical page of position j of a bank's dump area: 682 pages of each block, in ascending block and page order. -/
def dumpPpn (bank j : Nat) : Nat := (bank * 8192 + j / 682) * 2048 + j % 682

/-- The 80 B of a gather-buffer entry (R435). -/
def gatherBytes (d : DumpItem) : List Byte :=
  leBytes 6 d.granule ++ leBytes 2 d.req ++ leBytes 8 d.mask.toNat ++ leBytes 64 d.data.toNat

/-- The 512 B of a dump's data page, of the items with its position. -/
def dumpData (l : List DumpItem) : LineData :=
  match l with
  | [] => 0
  | d :: _ => if d.type = 5 then BitVec.ofNat 4096 (leVal (l.flatMap gatherBytes)) else d.data

/-- The 16 B of an index entry (R437); of a poisoned line POSITION is all ones. -/
def indexBytes (s : State) (d : DumpItem) : List Byte :=
  leBytes 1 d.type ++ leBytes 5 (if d.type ≤ 3 then d.page else 0)
    ++ leBytes 2 (match d.pos with | some k => k / (32 * banksPerChannel s) | none => 0xFFFF)
    ++ leBytes 8 (if d.type = 3 then d.seq else 0)

/-- The items of a bank, and the positions of its data pages in the order in which they are written. -/
def bankItems (s : State) (items : List DumpItem) (bank : Nat) : List DumpItem := items.filter fun d => match d.pos with
  | some k => dumpBank s k == bank
  | none => bankForWrite s d.page == bank

def bankPages (s : State) (items : List DumpItem) (bank : Nat) : List Nat := ((bankItems s items bank).filterMap (·.pos)).eraseDups

/-- The pages of a bank's dump (R436, R437): its data pages, its index pages of 32 entries, and its trailer. -/
def bankDump (s : State) (items : List DumpItem) (bank : Nat) (closed : Bool) (gen : Nat) : List LineData :=
  let mine := bankItems s items bank
  let ks := bankPages s items bank
  let data := ks.map fun k => dumpData (mine.filter fun d => d.pos == some k)
  let heads := ks.filterMap (fun k => mine.find? fun d => d.pos == some k) ++ mine.filter fun d => d.pos.isNone
  let index := (upto ((heads.length + 31) / 32)).map fun i => ((heads.drop (32 * i)).take 32).flatMap (indexBytes s)
  let pages := index.map fun l => l ++ List.replicate (512 - l.length) 0
  let trailer := leBytes 4 0x4D505544 ++ leBytes 8 gen ++ leBytes 2 bank ++ leBytes 4 data.length ++ leBytes 4 pages.length
    ++ leBytes 4 (Config.crc32 (pages.flatMap id)).toNat
  if closed then data ++ pages.map (fun l => BitVec.ofNat 4096 (leVal l)) ++ [BitVec.ofNat 4096 (leVal trailer)] else data

/-- A page of the dump as it is written: under the media key, with the physical page number as the tweak (R393, R436). -/
def dumpPage (s : State) (ppn gen : Nat) (d : LineData) : MPage := mkPage 4 0 gen false false (mediaSeal s ppn d)

/-- The dump's pages are on the medium: KIND 4, PAGE_ID 0 and the dump generation; index pages and trailers only of a dump that ended. -/
def layDump (d : Dump) (closed : Bool) (banks : List Nat) (s : State) : State :=
  each banks (fun bank s =>
    each (bankDump s d.items bank closed d.gen).zipIdx (fun p s =>
      onMedium (fun m => { m with pages := tset none m.pages (dumpPpn bank p.2) (some (dumpPage s (dumpPpn bank p.2) d.gen p.1)) }) s) s) s

/-- What stays of a dump that is laid out is its pages: the contents of an item are in its page alone. -/
def dumpLaid : State → State := onMedium fun m => { m with dump := m.dump.map fun d =>
  { d with items := d.items.map fun x => { x with data := 0, granule := if x.type = 5 then 0 else x.granule, req := 0, mask := 0 } } }

/-- The contents of a dump page that holds an item, decrypted (R379, R393). -/
def dumpPlain (s : State) (items : List DumpItem) (x : DumpItem) : LineData :=
  match x.pos with
  | none => 0
  | some k =>
    let bank := dumpBank s k
    let ppn := dumpPpn bank ((bankPages s items bank).idxOf k)
    match tget none s.medium.pages ppn with
    | some p => mediaOpen s ppn p.data
    | none => 0

/-- An item of a dump as its page holds it: the six entries of a gather-buffer page stand in the order of the items (R435). -/
def dumpItemOf (s : State) (items : List DumpItem) (x : DumpItem) (j : Nat) : DumpItem :=
  let d := dumpPlain s items x
  if x.type = 5 then
    let b := d >>> (640 * j)
    { x with granule := bits b.toNat 0 48, req := bits b.toNat 48 16, mask := b.extractLsb' 64 64, data := (b.extractLsb' 128 512).setWidth 4096 }
  else { x with data := d }

/-- The items of a dump with their contents. -/
def dumpRead (s : State) (items : List DumpItem) : List DumpItem :=
  items.zipIdx.map fun p => dumpItemOf s items p.1 ((items.take p.2).filter fun q => q.pos == p.1.pos).length

/-- Media rails that feed a channel (R422). -/
def channelPowered (s : State) (c : Nat) : Bool :=
  railSt s (16 + c / 16) == 2 && railSt s (18 + c / 8) == 2 && railSt s (22 + c / 16) == 2

/-- The commit point (R434, R426): the dump is taken of the persistence domain as it stands; then the ports leave and courses stop. -/
def commit (s : State) : State :=
  let s := updPorts (onPlinth (fun p => { p with pfw := true }) s)
  let s := each (upto 8) (fun p s => event 0x0602 (0x50 + p) (port s p).commit s) s
  let dumps := s.plinth.cause != 1
  let items := dumpItems s
  let items := if s.plinth.cause = 2 then items.filter fun d => match d.pos with
      | some k => channelPowered s (k % 32)
      | none => channelPowered s (channelOfBank (bankForWrite s d.page))
    else items
  let s := if dumps then
      onPwr (fun p => { p with cntDump := sat 64 p.cntDump 1 })
        (onMedium (fun m => { m with dump := some { gen := s.med.wseq, items, complete := false } }) s)
    else s
  let s := onPlinth (fun p => { p with st := 5, pfw := true, charger := false }) s
  let s := onHst (fun h => { h with linkUp := false }) (downLinks 2 2 s)
  onMed (fun m => { m with
    progs := m.progs.map fun p => { p with running := false }
    resets := m.resets.map fun r => { r with running := false } }) (onTck (fun t => { t with running := false }) s)

/-- Only the records that were written before a cut remain of a dump under way. How many, no rule says. -/
def cutDump (s : State) : State :=
  if s.plinth.st ≠ 5 then s else
  let (v, s) := free s
  let s := onMedium (fun m => { m with dump := m.dump.map fun d =>
    if d.complete then d else { d with items := d.items.take (v % (d.items.length + 1)) } }) s
  match s.medium.dump with
  | some d => dumpLaid (layDump d false (d.items.filterMap fun x => x.pos.map (dumpBank s)).eraseDups s)
  | none => s

/-- The dump has been written, in the banks that are powered (R426, R437, R439): its supply log record is appended, and the power-down
follows. -/
def dumpDone (us : Nat) (s : State) : State :=
  if s.plinth.st ≠ 5 ∨ s.plinth.cause = 1 then s else
  let c := s.plinth.cause
  let s := onMedium (fun m => { m with dump := m.dump.map fun d => { d with complete := c != 2, us } }) s
  let gen := match s.medium.dump with | some d => d.gen | none => 0
  let s := match s.medium.dump with
    | some d => dumpLaid (layDump d true ((allBanks s).filter fun b => channelPowered s (channelOfBank b)) s)
    | none => s
  let s := if c = 3 then supplyLog 9 0xFF 0 gen s
    else if c = 2 then supplyLog 2 s.plinth.firstRail (tget (2, 0) s.plinth.rails s.plinth.firstRail).2 0 s
    else supplyLog 3 0xFF 0 gen s
  let s := saveEvents s
  let s := if c = 2 then latch s.plinth.firstRail s else s
  railsDown c s

/-! ## Stop and wake (R358, R462 to R465) -/

/-- Every started command has ended, apart from the STOP and RUN commands that wait (R358 step 2). -/
def commandsDone (s : State) : Bool :=
  s.hst.queues.all fun p => p.2.started.all fun c => decide (c ∈ s.hst.stops) || decide (c ∈ s.hst.runs)

/-- STOP: at once in Stop, else its steps begin; during a wake it waits for the wake's end (R358, R465). -/
def askStop (c : Cmd) (s : State) : State :=
  if s.pwr.runSt = 2 then finish c 0 0 s
  else
    let s := onHst (fun h => { h with stops := h.stops ++ [c] }) s
    if s.pwr.runSt = 0 ∧ s.pwr.entry = 0 then onPwr (fun p => { p with entry := 1 }) s else s

/-- The wake begins (R464). -/
def beginWake (s : State) : State :=
  onClk (fun k => { k with cores := 15, dram := 0xFFFF }) (onPwr (fun p => { p with runSt := 3, wakeAt := s.now }) s)

/-- RUN: at once in Run, a wake in Stop; during Stop entry it waits for the entry's end (R358, R465). -/
def askRun (c : Cmd) (s : State) : State :=
  if s.pwr.runSt = 0 ∧ s.pwr.entry = 0 then finish c 0 0 s
  else
    let s := onHst (fun h => { h with runs := h.runs ++ [c] }) s
    if s.pwr.runSt = 2 then beginWake s else s

/-- Course E (R463 step 1): entry begins at the first course start after the started commands have ended. -/
def stopEntry (s : State) : State :=
  if s.pwr.entry = 1 ∧ s.pwr.runSt = 0 ∧ commandsDone s then
    let s := onPwr (fun p => { p with runSt := 1, entry := 2, stopTick := s.tck.count, cntStop := sat 64 p.cntStop 1 }) s
    let s := onOrd (fun o => { o with draining := true }) (onHst (fun h => { h with stop := true }) s)
    each (upto 8) (fun p s => stopEg p (stopIn p s)) s
  else s

/-- The hoists that lapsed are recorded at the return to Run (R64). -/
def recordLapsed (s : State) : State :=
  onPwr (fun p => { p with lapsed := [] }) (each s.pwr.lapsed (fun i s => event 0x0104 1 i s) s)

/-- The wake ends at the first course start at which its first three steps, 60 µs, have passed (R464). -/
def wakeEnds (s : State) : State :=
  if s.pwr.runSt = 3 ∧ s.pwr.wakeAt + 60000000 ≤ s.now then
    let s := onPwr (fun p => { p with runSt := 0, wakeUs := (s.now - p.wakeAt) / 1000000 }) s
    let s := onClk (fun k => { k with media := 0xFFFFFFFF }) (onHst (fun h => { h with stop := false }) (recordLapsed s))
    let s := each s.hst.runs (fun c s => finish c 0 0 s) (onHst (fun h => { h with runs := [] }) s)
    if s.hst.stops.isEmpty then s else onPwr (fun p => { p with entry := 1 }) s
  else s

/-- The module wakes at once, for a shutdown or a reset (R465). -/
def wakeNow (s : State) : State :=
  if s.pwr.runSt = 0 ∧ s.pwr.entry = 0 then s
  else
    onClk (fun k => { k with cores := 15, dram := 0xFFFF, media := 0xFFFFFFFF })
      (onOrd (fun o => { o with draining := false }) (onHst (fun h => { h with stop := false })
        (onPwr (fun p => { p with runSt := 0, entry := 0 }) (recordLapsed s))))

/-- Every request accepted has completed and every gather buffer has drained (R236 step 2, R463 step 2). -/
def requestsDone (s : State) : Bool :=
  s.dir.txns.isEmpty && s.ord.gbs.isEmpty && s.dir.fwds.isEmpty

/-- The combining buffer and the stream FIFOs are empty. -/
def streamsDone (s : State) : Bool := s.stm.comb.isEmpty && (upto 8).all fun p => (port s p).fifo.isEmpty

/-- Every line has been written back (R236 step 3, R463 step 3). -/
def linesDone (s : State) : Bool :=
  s.med.staging.isEmpty && s.med.pend.isEmpty && s.cch.ways.all fun p => p.2.lines.all fun l =>
    !(l.2.st == .dirty || l.2.st == .evicting || l.2.cleaning || (l.2.st == .poisoned && !l.2.written))

/-- Every Dirty and Poisoned line is sent to the medium. -/
def cleanAll (s : State) : State :=
  each s.cch.ways (fun (k, w) s =>
    each (w.lines.filterMap fun l => if (l.2.st == .dirty || (l.2.st == .poisoned && !l.2.written)) && !l.2.cleaning then some l.1 else none)
      (fun i s => cleanLine k i false s) s) s

/-- Stop entry goes on (R463 steps 2 to 4). -/
def entryStep (s : State) : State :=
  let e := s.pwr.entry
  let go (n : Nat) : State → State := onPwr fun p => { p with entry := n }
  if e = 2 then
    let s := emptyFifos (drainWhere (fun g => !g.drained) s)
    if requestsDone s && streamsDone s then go 3 s else s
  else if e = 3 then
    let s := cleanAll s
    if linesDone s && s.med.ckpt.isNone then startCkpt 1 (go 4 s) else s
  else if e = 4 then (if s.med.ckpt.isNone then go 5 s else s)
  else s

/-- Stop entry has completed (R463 step 5): STOP completes, and a RUN that waits wakes the module. -/
def stopDone (us : Nat) (s : State) : State :=
  if s.pwr.entry ≠ 5 then s else
  let s := onPwr (fun p => { p with runSt := 2, entry := 0, entryUs := us }) s
  let s := onClk (fun k => { k with cores := 13, dram := 0, media := 0 }) (onOrd (fun o => { o with draining := false }) s)
  let s := recordSeconds s
  let s := each s.hst.stops (fun c s => finish c 0 0 s) (onHst (fun h => { h with stops := [] }) s)
  if s.hst.runs.isEmpty then s else beginWake s

/-! ## Drains: module reset, orderly shutdown, life-cycle change (R236, R388, R444) -/

/-- Commands that a drain ends complete with ABORTED (R344): running and waiting COPY commands, cache commands, an import that commits
nothing yet. -/
def abortCommands (s : State) : State :=
  let s := each (upto 16) (fun j s =>
    each (copyCh s j).queue (fun i s => match cmdOf i with | some c => finish c 8 0 s | none => s) (onCopy j (fun c => { c with queue := [] }) s)) s
  let s := match s.cph.imp with
    | some m => if m.phase < 4 then endImport m 8 s else s
    | none => s
  let s := each (upto 16) (fun j s => onRun j (fun r => if r.ending = 0 then { r with ending := 8 } else r) s) s
  each s.cch.jobs (fun j s => if j.cmd != impCmd then endJob j 8 0 s else s) s

/-- The first step of a drain. A module reset asserts AGT_RST_N, and so takes the ports down, when the request is taken (R449). -/
def beginDrain (s : State) : State :=
  let s := wakeNow s
  let s := onOrd (fun o => { o with draining := true }) (onPwr (fun p => { p with drainSt := 1 }) s)
  let s := abortCommands s
  if s.pwr.drain = 1 then downLinks 1 1 (onPlinth (fun p => { p with agtRst := 0xFF }) s) else s

/-- A drain goes on; the OPEN blocks are closed once the CLEAN_SHUTDOWN record is durable (R76). Before memory ready there is nothing to drain, and a reset follows at once. -/
def drainStep (s : State) : State :=
  let go (n : Nat) : State → State := onPwr fun p => { p with drainSt := n }
  if s.pwr.drain = 0 ∨ 3 ≤ s.plinth.st ∧ s.plinth.st ≠ 6 then s
  else if !s.glb.memReady then (if s.pwr.drain = 1 then moduleReset s else s)
  else match s.pwr.drainSt with
    | 0 => beginDrain s
    | 1 =>
      let s := emptyFifos (drainWhere (fun g => !g.drained) s)
      if requestsDone s && streamsDone s then go 2 s else s
    | 2 =>
      let s := cleanAll s
      if linesDone s && s.med.ckpt.isNone then startCkpt 2 (go 3 s) else s
    | 3 =>
      if s.med.ckpt.isNone then
        let s := enter (.cleanShutdown s.med.wseq) true s
        onPwr (fun p => { p with drainSt := 4, drainSeq := lastJseq s }) s
      else s
    | 4 => if s.med.jbuf.any fun p => p.jseq == s.pwr.drainSeq then s else go 5 (closeOpen [] s)
    | _ => s

/-- The drain has ended (R236 step 5, R388 step 3, R444 steps 3 to 5). -/
def drainDone (s : State) : State :=
  if s.pwr.drainSt ≠ 5 then s
  else match s.pwr.drain with
    | 1 => moduleReset s
    | 2 =>
      let s := saveEvents (recordSeconds (supplyLog 5 0xFF 0 0 s))
      onPlinth (fun p => { p with off := true }) (railsDown 5 (downLinks 1 1 s))
    | 3 => match s.hst.lc with
      | some (target, owner) =>
        if s.sec.lcStep ≠ 0 then s
        else onSec (fun c => { c with lcStep := 3 }) (recordLc target (s.fuses.transitions + 1) owner s)
      | none => s
    | _ => s

/-- A request for a module reset (R236, R448, R531). Others during its sequence are merged into it. -/
def requestReset (s : State) : State :=
  if s.plinth.st = 1 ∨ s.plinth.st = 2 then
    if !s.glb.memReady then moduleReset s
    else if s.pwr.drain = 0 then onPwr (fun p => { p with drain := 1 }) s else s
  else s

/-! ## A life-cycle change after its drain (R388 steps 4 to 7) -/

/-- The transition record is durable: the fuse counter moves, and the key sectors are erased. -/
def lcRecorded (s : State) : State :=
  if s.sec.lcStep ≠ 3 ∨ s.flash.lcTrans ≠ s.fuses.transitions + 1 then s
  else
    let s := { s with fuses := { s.fuses with transitions := s.flash.lcTrans } }
    onSec (fun c => { c with lcStep := 5 }) (onFlash (fun f => { f with keyErase0 := f.ok0, keyErase1 := f.ok1 }) s)

/-- A new media key, a pair of AES-256 keys, wrapped under the key of the present fuse count; none in END (R388 step 6, R391). -/
def newMediaKey (s : State) : State :=
  if s.flash.lc = 4 then onMedium (fun m => { m with mediaKey := none }) s
  else
    let (a, s) := free s
    let (b, s) := free s
    let pair := a % 2 ^ 256 + b % 2 ^ 256 * 2 ^ 256
    onMedium (fun m => { m with mediaKey := some (s.fuses.transitions, Config.keyWrap (mediaWrapKey s) pair) }) s

/-- A key sector has been erased; with both, the new key is written and the module is reset. -/
def keyErased (dev : Nat) (s : State) : State :=
  if (if dev = 0 then s.flash.keyErase0 else s.flash.keyErase1) = false then s
  else
    let s := onFlash (fun f => if dev = 0 then { f with keyErase0 := false } else { f with keyErase1 := false }) s
    if s.flash.keyErase0 || s.flash.keyErase1 || s.sec.lcStep != 5 then s
    else moduleReset (downLinks 1 1 (onPlinth (fun p => { p with agtRst := 0xFF }) (newMediaKey s)))

/-! ## Trips and the shutdown of R434 -/

/-- Step 2 of R434 for a cause: PFW_N, no fetching, no charger, no new programs; the streams act as R259 says. -/
def warn (cause : Nat) (s : State) : State :=
  let s := wakeNow s
  let s := onPlinth (fun p => { p with st := 3, pfw := true, charger := false, cause, autoRe := cause == 0 }) s
  warnStreams (onPwr (fun p => { p with noStart := true }) (onHst (fun h => { h with pfw := true }) s))

/-- Quiesce begins: ports stop accepting and the gather buffers drain. -/
def quiesce (s : State) : State := drainWhere (fun g => !g.drained) (onOrd (fun o => { o with draining := true }) s)

/-- The input trips (R433, R434, R381, R441). A drain that it cuts short begins anew if the shutdown is cancelled (DESIGN CHOICE, log 156). -/
def tripped (s : State) : State :=
  let s := onPlinth (fun p => { p with down := true }) s
  let count := onPwr fun p => { p with cntTrip := sat 64 p.cntTrip 1 }
  match s.plinth.st with
  | 1 => onPlinth (fun p => { p with autoRe := true }) (railsDown 6 s)
  | 2 =>
    if !s.glb.memReady then onPlinth (fun p => { p with autoRe := true }) (railsDown 6 s)
    else if s.pwr.drain = 0 then warn 0 (count s)
    else quiesce (warn 0 (onPwr (fun p => { p with drainSt := 0 }) (count s)))
  | 3 => if s.ord.draining then commit (count s) else count s
  | 4 => commit (count s)
  | 6 => quiesce (warn 0 (onPwr (fun p => { p with drainSt := 0 }) (count s)))
  | _ => s

/-- The warning interval ends (R434 step 4): quiesce, toward the commit point, or toward HOLD when the input has risen (R440). A
thermal stop never holds (R475). -/
def warningEnds (s : State) : State :=
  if s.plinth.st ≠ 3 ∨ s.ord.draining then s
  else
    let s := quiesce s
    if !s.plinth.down ∧ s.plinth.cause = 0 then onPlinth (fun p => { p with st := 4 }) s else s

/-- The restart threshold, in mV (R417). -/
def restartMv (s : State) : Nat := (s.pwr.trip + 6) * 50

/-- The input rises through the restart threshold. -/
def inputRises (vin : Nat) (s : State) : State :=
  onPlinth (fun p => { p with vin, down := p.down && (p.swOpen || decide (vin < restartMv s)) }) s

/-- The shutdown is cancelled (R440); a drain that it cut short begins anew. -/
def cancelShutdown (s : State) : State :=
  if s.plinth.st ≠ 4 ∨ s.plinth.down then s
  else
    let s := onPlinth (fun p => { p with st := if s.pwr.drain = 2 then 6 else 2, pfw := false, charger := !s.pwr.inputLimit, onReq := false, autoRe := false }) s
    let s := onOrd (fun o => { o with draining := false }) (onHst (fun h => { h with pfw := false }) s)
    let s := onPwr (fun p => { p with
      noStart := false
      cntCancel := sat 64 p.cntCancel 1
      entry := if s.hst.stops.isEmpty then p.entry else 1 }) s
    let s := each s.hst.runs (fun c s => finish c 0 0 s) (onHst (fun h => { h with runs := [] }) s)
    supplyLog 4 0xFF 0 0 (unwarnStreams s)

/-- A rail, or a clock, fails after it was good (R426, R456): no warning; rails 0 to 15 and clocks make no dump. `kind` is that of
the supply log. Failures during a power-down are not logged. -/
def railFails (rail mv kind : Nat) (s : State) : State :=
  let s := if rail < 24 then setRail rail 3 mv s else s
  let fail (s : State) : State := latch rail (supplyLog kind rail mv 0 s)
  match s.plinth.st with
  | 1 => railsDown 6 (fail s)
  | 5 => if 16 ≤ rail ∧ rail < 24 then s else railsDown 1 (saveEvents (fail (markLossy true (cutDump s))))
  | 0 | 7 => s
  | _ =>
    if !s.glb.memReady then railsDown 6 (fail s)
    else
      let s := wakeNow s
      let c := if 16 ≤ rail ∧ rail < 24 then 2 else 1
      let s := commit (onPlinth (fun p => { p with cause := c, firstRail := rail, pfw := true, autoRe := false }) (onHst (fun h => { h with pfw := true }) s))
      if c = 2 then s else railsDown 1 (saveEvents (fail (markLossy true s)))

/-! ## Requests of R443 -/

/-- An on request (R443, R446). A latch lets no start be made (R427). -/
def onRequest (s : State) : State :=
  if s.plinth.latched then s
  else if s.plinth.st = 0 ∨ 3 ≤ s.plinth.st then onPlinth (fun p => { p with onReq := true }) s else s

/-- An off request (R444 to R446). -/
def offRequest (s : State) : State :=
  match s.plinth.st with
  | 0 => onPlinth (fun p => { p with onReq := false, autoRe := false }) s
  | 1 => onPlinth (fun p => { p with onReq := false, autoRe := false }) (railsDown 6 s)
  | 2 =>
    if !s.glb.memReady then onPlinth (fun p => { p with onReq := false, autoRe := false }) (railsDown 6 s)
    else if 2 ≤ s.pwr.drain then s
    else onPlinth (fun p => { p with st := 6 }) (onPwr (fun p => { p with drain := 2 }) s)
  | _ => onPlinth (fun p => { p with onReq := false, autoRe := false }) s

/-- A latch is cleared, unless a comparator still reads 100 °C or more after a trip (R427, R476, R548). -/
def clearLatch (s : State) : State :=
  if s.plinth.latched && s.plinth.hotComps.isEmpty then onPlinth (fun p => { p with latched := false, latchClr := true }) s else s

/-- Forced off (R447). -/
def forceOff (s : State) : State :=
  if s.plinth.st = 0 ∨ s.plinth.off ∧ s.plinth.st = 7 then s
  else
    let s := onPlinth (fun p => { p with onReq := false, autoRe := false }) s
    if s.plinth.st = 7 then s
    else
      let s := if s.glb.memReady then markLossy true (cutDump s) else s
      supplyLog 6 0xFF 0 0 (railsDown 4 s)

/-- Hard reset (R448): the controller is reset at once. -/
def hardReset (s : State) : State :=
  if s.plinth.st = 0 ∨ s.plinth.st = 7 then s
  else
    let s := if s.glb.memReady then markLossy (anyDirty s) (cutDump s) else s
    let s := onPlinth (fun p => { p with agtRst := 0xFF, st := if p.st = 1 then 1 else 2 }) (controllerLost s)
    supplyLog 10 0xFF 0 0 s

/-! ## Thermal stops (R474 to R476) -/

/-- An orderly thermal stop begins. -/
def thermalStop (n : Nat) (s : State) : State :=
  if s.plinth.st ≠ 2 ∨ !s.glb.memReady ∨ !s.thm.timing then s
  else
    let s := event 0x0A06 0xB n s
    let s := onThm (fun t => { t with stopping := true, timing := false, cntStop := sat 64 t.cntStop 1 }) s
    let busy := s.pwr.drain != 0
    let s := warn 3 (onPwr (fun p => { p with drain := 0, drainSt := 0 }) s)
    if busy then quiesce s else s

/-- A comparator sees 110 °C: every rail is cut (R476). -/
def thermalTrip (n : Nat) (temp : Int) (s : State) : State :=
  if s.plinth.st = 0 then s
  else
    let hot := (upto 85).filter fun k => k == n || ((decide (k ≤ 67) || k == 84) && decide (400 ≤ (sensor s k).temp))
    let s := if s.glb.memReady then markLossy (anyDirty s) (cutDump s) else s
    let s := controllerOff (allRails 0 s)
    onPlinth (fun p => { p with
      pfw := true, latched := true, firstRail := 255, onReq := false, autoRe := false
      tripValid := true, tripSensor := n, tripTemp := temp, tripNew := true, hotComps := hot }) s

/-! ## Clock gating (R457 to R461) -/

/-- Parent of a unit in tree mode (R457). -/
def parentOf (u : Nat) : Nat := if u < 8 then 24 else if u < 20 then 25 else 26

/-- The unit is in use (R457). -/
def inUse (s : State) (u : Nat) : Bool :=
  if u < 12 then (link s u).st != 0 || (link s u).closing
  else if u < 20 then
    let p := port s (u - 12)
    p.inSt != 0 || p.egSt != 0 || p.enable
  else if u = 20 then s.cph.holder != 0 || s.cph.run.isSome
  else if u = 21 then (upto 16).any fun j => (copyCh s j).run.isSome || !(copyCh s j).queue.isEmpty
  else if u = 23 then s.dap
  else false

/-- A unit is gated (R458). -/
def gateUnit (u : Nat) (s : State) : State :=
  let s := onClk (fun k => { k with gateSt := k.gateSt &&& ~~~((1 : BitVec 27) <<< u) }) s
  if u < 12 then leaveLink u 6 0 0 s
  else if u < 20 then onPort (u - 12) (fun p => { p with stopNext := true }) (lanesDown (u - 12) 0 s)
  else if u = 20 then
    -- an import whose decryption runs ends with it (DESIGN CHOICE, log 152)
    match s.cph.imp with
    | some m => if m.phase < 3 then endImport m 8 s else freeLock s
    | none => if s.cph.holder = 0 then s else freeLock s
  else if u = 21 then
    each (upto 16) (fun j s => match (copyCh s j).run with
      | some r => finish r.cmd 8 0 (onCopy j (fun c => { c with run := none }) s)
      | none => s) s
  else if u = 23 then { s with dap := false }
  else s

/-- A unit's clock runs (R460). -/
def ungateUnit (u : Nat) (s : State) : State :=
  if !s.clk.gate.getLsbD u ∨ s.clk.gateSt.getLsbD u then s
  else
    let s := onClk (fun k => { k with gateSt := k.gateSt ||| ((1 : BitVec 27) <<< u) }) s
    if u < 12 then startDetect u s
    else if u < 20 then onPort (u - 12) (fun p => if p.enable && s.glb.memReady then { p with lnkSt := 2 } else p) s
    else s

/-- The bits that a write leaves in CLK_GATE, and whether one was refused (R458, R459). -/
def gateAfter (s : State) (v : BitVec 27) : BitVec 27 × Bool :=
  let old := s.clk.gate
  if !s.clk.tree then (v ||| 0x7000000, false)
  else
    let kids := (upto 24).foldl (fun (a : BitVec 27) u =>
      let keep := old.getLsbD u
      let want := v.getLsbD u
      let par := old.getLsbD (parentOf u) || v.getLsbD (parentOf u)
      let b := if want = keep then keep else if want then par else inUse s u
      if b then a ||| ((1 : BitVec 27) <<< u) else a) 0
    let all := [24, 25, 26].foldl (fun (a : BitVec 27) p =>
      let child := (upto 24).any fun u => parentOf u == p && kids.getLsbD u
      if v.getLsbD p || (old.getLsbD p && child) then a ||| ((1 : BitVec 27) <<< p) else a) kids
    (all, all != v)

/-- A write of CLK_GATE: units whose bit falls are gated at once; those whose bit rises wait for their clock (R460). -/
def writeGate (v : BitVec 27) (s : State) : State :=
  let (g, refused) := gateAfter s v
  let s := onClk (fun k => { k with gate := g, refused := k.refused || refused }) s
  each ((upto 27).filter fun u => s.clk.gateSt.getLsbD u && !g.getLsbD u) gateUnit s

/-! ## The hold-up bank (R429 to R432) -/

/-- L in units of 512 B from C (10 µF) and V_bank (10 mV, 45 V at most) (R431): 4 GiB at most. -/
def derivedLimit (c v : Nat) : Nat :=
  let v := min v 4500
  min 8388608 ((36 * c * (v * v - 2560000) - 150000000000) * 2097152 / 90000000000)

/-- A measurement of C: DEGRADED below 9 mF, with its event when it begins (R432). -/
def measured (c vbank method : Nat) (s : State) : State :=
  let low := decide (c < 900)
  let s := if low && !s.pwr.degraded then event 0x0A03 0xA c s else s
  let h := s.flash.opSeconds / 3600
  let s := onPwr (fun p => { p with cMeas := c, method, degraded := low, measuring := false, hours := 0, cntMeasure := sat 64 p.cntMeasure 1 }) s
  let s := onPlinth (fun p => { p with vbank, cHeld := c, degHeld := low }) s
  onCch (fun x => { x with limit := derivedLimit c vbank }) (recordC c h s)

/-- Operating hours since the last measurement. -/
def hoursSince (s : State) : Nat := s.flash.opSeconds / 3600 - s.flash.lastCHours

end Sys2Proof.Machine
end

