-- ==== Sys2Proof/Machine/Regs.lean ====
section
/-!
DEFINITION. What BAR0 reads (R523 to R535 and the register tables of each block): the value of each 8-byte slot. A 32-bit register
is the low half of its slot (R526); an offset that names no register reads zero (R524).
-/

namespace Sys2Proof.Machine
open Sys2Proof

/-- Index of a replicated register set (R525): `o` lies in one of `n` instances from `base`; instance and offset within it. -/
def inst (o base stride n : Nat) : Option (Nat × Nat) :=
  if base ≤ o ∧ o < base + stride * n then some ((o - base) / stride, (o - base) % stride) else none

/-- Register `j` of 64-bit counters that lie 8 B apart from `base`. -/
def counterAt (o base : Nat) (l : List Nat) : Option Nat := if base ≤ o ∧ o % 8 = 0 then nth l ((o - base) / 8) else none

/-- A signed number in `w` bits. -/
def twos (w : Nat) (i : Int) : Nat := (i % (2 ^ w : Nat)).toNat

/-! ## Expert registers (R26, R533) -/

/-- The fields of an expert register: low bit, width, least and greatest permitted value. -/
def expertFields (s : State) (off : Nat) : List (Nat × Nat × Nat × Nat) :=
  -- the neighbours of a bin edge or shift, as they read
  let near := fun (o w : Nat) =>
    let v := expertWritten s o
    (if bitOf v 31 then v else expertOwn s o) % 2 ^ w
  if off = 0x0100040 then [(0, 7, 20, 60)]
  else if off = 0x0200008 then [(0, 10, 16, 512)]
  else if off = 0x0200010 then [(0, 20, 10000, 1000000)]
  else if off = 0x0200018 then [(0, 6, 8, 40), (8, 4, 1, 15)]
  else if 0x0300000 ≤ off ∧ off ≤ 0x0300028 then [(0, 16, expertReset off, 65535)]
  else if 0x0300040 ≤ off ∧ off ≤ 0x03000B0 then
    let lo := if off = 0x0300040 then 1 else near (off - 8) 26 + 1
    let hi := if off = 0x03000B0 then expertReset off
      else if off = 0x03000A8 then min (expertReset off) (near (off + 8) 26 - 1) else near (off + 8) 26 - 1
    [(0, 26, lo, hi)]
  else if 0x03000C0 ≤ off ∧ off ≤ 0x0300138 then
    [(0, 8, if off = 0x03000C0 then 0 else near (off - 8) 8, if off = 0x0300138 then 255 else near (off + 8) 8)]
  else if off = 0x0300140 then [(0, 8, 1, 168)]
  else if off = 0x0400018 then [(0, 7, 50, 90)]
  else if off = 0x0400020 then [(0, 3, 0, 6), (4, 3, 0, 6), (8, 3, 0, 6)]
  else if off = 0x0600008 then [(0, 7, 5, 100)]
  else if off = 0x0B00018 then [(0, 4, 1, 15)]
  else if off = 0x0B00038 then [(0, 13, 256, 4096)]
  else if off = 0x0E00080 then [(0, 8, 1, 168)]
  else []

/-- An offset of the table of R533. -/
def isExpert (off : Nat) : Bool :=
  off % 8 == 0 && (off == 0x0100040 || (0x0200008 ≤ off && off ≤ 0x0200018) || (0x0300000 ≤ off && off ≤ 0x0300028)
    || (0x0300040 ≤ off && off ≤ 0x0300140) || off == 0x0400018 || off == 0x0400020 || off == 0x0600008
    || off == 0x0B00018 || off == 0x0B00038 || off == 0x0E00080) && off != 0x03000B8

/-- An expert register as it reads: the fields as written while OVR is 1, else the value in use, which follows OVR at a course start
(R26, R27). -/
def expertRead (s : State) (off : Nat) : Nat :=
  let v := expertWritten s off
  (if bitOf v 31 then v else expertIn s off) + (if off = 0x0B00018 then s.pwr.admLim * 4096 else 0)

/-! ## The blocks -/

/-- GLB_ID (R528). -/
def idWord (s : State) : Nat := (if isBig s then 0x7240 else 0x7212) * 65536 + s.fuses.grade % 16 * 256 + s.fuses.stepping.toNat

def readGlb (s : State) (o : Nat) : Nat :=
  let g := s.glb
  let id := fun v => if g.identity then v else 0
  if o = 0x00 then id (idWord s)
  else if o = 0x08 then id s.fuses.serial.toNat
  else if o = 0x10 then id s.fuses.fwLevel.toNat
  else if o = 0x18 then id (capacity s)
  else if o = 0x20 then id (19 * 65536 + 1)
  else if o = 0x40 then b2n g.expertEn
  else if o = 0x48 then glbAlert s
  else if o = 0x58 then g.scratch.toNat
  else if o = 0x100 then
    g.failCause * 2 ^ 24 + g.failUnit * 2 ^ 19 + g.startKind * 256 + 128 * b2n g.dumpPartial + 64 * g.slot + 32 * b2n g.fallback
      + 16 * b2n g.expertEn + 8 * b2n g.lcForward + 4 * b2n g.failed + 2 * b2n g.memReady + b2n g.imageApplied
  else if o = 0x108 then g.restoreUs % 2 ^ 32 * 2 ^ 32 + g.readyUs % 2 ^ 32
  else 0

/-- The 32 B of an armed hoist (R56). -/
def Hoist.word (h : Hoist) : Nat :=
  h.launch % 2 ^ 64 + h.action % 256 * 2 ^ 64 + b2n h.group * 2 ^ 72 + b2n h.notify * 2 ^ 73 + h.id % 65536 * 2 ^ 80
    + h.rep % 2 ^ 32 * 2 ^ 96 + h.arg.toNat * 2 ^ 128

/-- The highest level of an activity in the module (R52, TCK_ESC_STATE). -/
def topLevel (s : State) (act : Nat) : Nat :=
  s.tck.esc.foldl (fun m p => if p.1 / 65536 = act then max m p.2.level else m) 0

/-- The armed TICK_PERIOD hoist with the earliest launch (R69). -/
def pendingPeriod (s : State) : Option Hoist :=
  ((hoistList s).map (·.2)).foldl (fun b h =>
    if h.action ≠ 8 then b else match b with
      | some x => if h.launch < x.launch then some h else b
      | none => some h) none

def readTck (s : State) (o : Nat) : Nat :=
  let t := s.tck
  if o = 0x00 then 4 * b2n t.outEn + t.source % 4
  else if o = 0x08 then (match pendingPeriod s with | some h => 2 ^ 13 + h.arg.toNat % 32 * 256 | none => 0) + t.code
  else if o = 0x10 then t.count
  else if o = 0x18 then 8 * b2n (splitPieces s) + 4 * b2n t.mismatch + 2 * b2n t.flywheel + b2n t.inputOk
  else if o = 0x20 then t.early * 65536 + t.missed
  else if o = 0x28 then windowSenses s * 65536 + retryReserve s * 256 + readBudget s
  else if o = 0x30 then t.viol
  else if o = 0x38 then t.cond
  else if o = 0x48 then
    topLevel s 4 * 256 + topLevel s 3 * 64 + topLevel s 2 * 16 + topLevel s 1 * 4 + topLevel s 0
  else if o = 0x80 then t.sel
  else if 0x88 ≤ o ∧ o ≤ 0xA0 then
    match tget none t.hoists t.sel with
    | some h => h.word / 2 ^ (8 * (o - 0x88)) % 2 ^ 64
    | none => 0
  else if o = 0xA8 then (hoistList s).length * 256 + b2n (tget none t.hoists t.sel).isSome
  else if o = 0xB0 then t.last
  else 0

/-- Map pages pinned for the class A regions (R23, R112): the pages of their ranges, each once. -/
def pinnedSlots (s : State) : Nat :=
  let spans := (pinnedRegions s).filterMap fun n =>
    let r := region s n
    if r.size s = 0 then none
    else some (r.base * 2 ^ 17 / 96, (r.base * 2 ^ 17 + r.size s / 512 - 1) / 96)
  ((sortBy (fun p => [p.1, p.2]) spans).foldl (fun (acc : Nat × Nat) p =>
    if p.2 < acc.2 then acc else (acc.1 + (p.2 + 1 - max p.1 acc.2), p.2 + 1)) (0, 0)).1

def readMed (s : State) (o : Nat) : Nat :=
  let m := s.med
  if o = 0x00 then m.wear
  else if o = 0x20 then m.readOnly.length * 2 ^ 38 + m.worn.length * 2 ^ 25 + min m.spread (2 ^ 24 - 1)
  else if o = 0x28 then b2n m.pinTrim * 2 ^ 31 + (if s.glb.step < 12 then 0 else pinnedSlots s)
  else if o = 0x80 then m.blkSel
  else if o = 0x88 then (if 9 ≤ s.glb.step ∧ ppnOk s (m.blkSel * 2048) then (blk s m.blkSel).word else 0)
  else match inst o 0x1000 0x10 32 with
    | some (c, 0) =>
      if s.glb.step < 9 then 0 else
      let banks := (upto (banksPerChannel s)).map fun b => c * 128 + b
      let least := fun (f : Nat → Nat) => banks.foldl (fun n b => min n (f b)) 8191
      least (spareCount s) * 65536 + least (freeCount s)
    | _ => (counterAt o 0x40 [m.cntHost, m.cntReloc, m.cntReset, m.cntRetired, m.cntOrphan, m.cntAbandon]).getD 0

/-- A read of block DRF (R143). TEMP rounds down to a whole °C (DESIGN CHOICE, log 173). -/
def readDrf (s : State) (o : Nat) : Nat :=
  let d := s.drf
  let sel := decide (d.pkgSel < packages s)
  let x := pkgSensor s d.pkgSel
  if o = 0x180 then
    let q := repointQueue s
    (match leastMargin s q with | some g => g | none => 255) * 2 ^ 32 + q.length
  else if o = 0x188 then d.method * 2 ^ 62 + b2n d.spread * 2 ^ 61 + d.umax % 2 ^ 48
  else if o = 0x190 then d.pkgSel
  else if o = 0x198 then (if sel then (pkg s d.pkgSel).theta % 2 ^ 64 else 0)
  else if o = 0x1A0 then
    if sel then (pkg s d.pkgSel).cohorts.length * 4096 + 2048 * b2n x.broken + 256 * (if x.broken then 4 else x.band)
      + twos 8 (x.temp / 4)
    else 0
  else (counterAt o 0x1C0 [d.cntRetry1, d.cntDeep, d.cntRepoint, d.cntOverdue, d.cntAhead]).getD 0

/-- Sets of which ways 0 to 9 are all locked. -/
def fullSets (s : State) : Nat :=
  (((s.cch.ways.map fun p => p.1 / 12).eraseDups).filter fun k => (upto 10).all fun i => (way s (k * 12 + i)).lock).length

def readCch (s : State) (o : Nat) : Nat :=
  let c := s.cch
  if o = 0x00 then 8 * b2n (strictAll s) + 4 * b2n c.cleanForced + 2 * b2n c.holding + b2n c.initDone
  else if o = 0x08 then dirtyBytes s / 512
  else if o = 0x10 then limitUnits s
  else if o = 0x28 then fullSets s * 2 ^ 32 + (c.ways.filter fun p => p.2.valid && p.2.lock).length
  else if o = 0x80 then c.selWay * 2 ^ 24 + c.selSet
  else if o = 0x88 ∨ o = 0x90 then
    if c.selWay < 12 then (way s (c.selSet * 12 + c.selWay)).word / 2 ^ (8 * (o - 0x88)) % 2 ^ 64 else 0
  else (counterAt o 0x40 [c.cntHit, c.cntMissSec, c.cntMissLine, c.cntEvict, c.cntClean, c.cntHeld, c.cntPoison, c.cntRefill]).getD 0

/-- The registers of a Halyard or Coping port (R307). -/
def readLnk (s : State) (i o : Nat) : Nat :=
  let k := link s i
  let cop := decide (8 ≤ i)
  if o = 0x00 then b2n k.enable
  else if o = 0x08 then
    (if cop then k.epoch % 65536 * 65536 + 64 * b2n k.keyed else 0) + (if k.closing then 5 else k.st) * 4096 + k.width * 256 + 128 * b2n k.half
  else if o = 0x10 then
    k.crQ * 2 ^ 48 + k.crS * 2 ^ 36 + k.crW * 2 ^ 24 + (if cop then k.crP * 2 ^ 12 + k.crD else 0)
  else (counterAt o 0x40 [k.cntFec, k.cntBad, k.cntReplay, k.cntRecov, if cop then k.cntAuth else 0]).getD 0

def readDir (s : State) (o : Nat) : Nat :=
  let d := s.dir
  if o = 0x00 then d.readGrant
  else if o = 0x08 then
    (d.txns.filter (·.slot.isSome)).length * 2 ^ 32 + (d.ents.filter fun p => p.2.isSome).length
  else if o = 0x10 then d.lost.toNat
  else if o = 0x80 then d.selWay * 2 ^ 18 + d.selSet
  else if o = 0x88 ∨ o = 0x90 then
    match dirEnt s (d.selSet * 16 + d.selWay) with
    | some e => e.word / 2 ^ (8 * (o - 0x88)) % 2 ^ 64
    | none => 0
  else match inst o 0x10000 0x1000 8 with
    | some (p, r) => readLnk s p r
    | none => (counterAt o 0x40 [d.cntSnoop, d.cntEvict, d.cntCross, d.cntCoarse, d.cntSpur, d.cntProto, d.cntAtomic]).getD 0

/-- ORD_GB_* of a gather buffer: PEAK, RSV_USED, USED (R240). -/
def readGb (s : State) (b : Nat) : Nat := tget 0 s.ord.peaks b * 65536 + rsvUsed s b * 256 + (gbUsed s b + rsvUsed s b)

def readOrd (s : State) (o : Nat) : Nat :=
  let r := s.ord
  if o = 0x00 then 4 * b2n r.draining + 2 * b2n r.overlap + b2n r.locked
  else if 0x100 ≤ o ∧ o ≤ 0x160 ∧ o % 8 = 0 then readGb s ((o - 0x100) / 8)
  else match inst o 0x1000 0x20 64 with
    | some (n, 0x00) => (region s n).base
    | some (n, 0x08) => (region s n).limit
    | some (n, 0x10) => (region s n).attrWord
    | some _ => 0
    | none => (counterAt o 0x200 [r.cntEarly, r.cntFwd, r.cntBarrier, r.cntFence]).getD 0

def PlEnt.wordA (e : PlEnt) : Nat := e.rep % 65536 * 2 ^ 42 + e.addr % 2 ^ 42
def PlEnt.wordL (e : PlEnt) : Nat := b2n e.wrap * 2 ^ 33 + b2n e.last * 2 ^ 32 + e.len % 2 ^ 32

/-- Words that stand in the egress FIFO. -/
def egOccupancy (p : StmPort) : Nat := (p.egFifo.filter fun w => match w with | .wait _ _ => false | _ => true).length

/-- The registers of stream port `i` (R276, R307). -/
def readStmPort (s : State) (i o : Nat) : Nat :=
  let p := port s i
  if o = 0x08 then p.low * 65536 + p.high
  else if o = 0x10 then b2n p.linkUp * 2 ^ 19 + b2n p.stop * 2 ^ 18 + p.inSt * 2 ^ 16 + p.fifo.length
  else if o = 0x18 then p.commit
  else if o = 0x20 then
    p.errCount * 2 ^ 48 + p.errTag * 2 ^ 40 + p.errCause * 2 ^ 36 + p.errDir * 2 ^ 35 + b2n p.errValid
  else if o = 0x28 then p.errTick * 2 ^ 48 + p.errAddr
  else if o = 0x40 then p.cntAccept
  else if o = 0x48 then p.cntDrop
  else if o = 0x100 then p.wpt * 65536 + 4 * p.listInit
  else if o = 0x108 then
    egOccupancy p * 65536 + p.play.ent % 16 * 32 + 16 * b2n p.play.ended + 8 * b2n p.standbyFull + 4 * p.cur + p.egSt
  else if o = 0x140 then p.cntWords
  else if o = 0x148 then p.cntNv
  else if o = 0x150 then p.cntPoison
  else if o = 0x800 then b2n p.enable
  else if o = 0x808 then p.lnkSt * 4096 + (if p.lnkSt = 5 then 2 else 0) * 256
  else if o = 0x848 then p.cntBad
  else if o = 0x850 then p.cntChk
  else if o = 0x858 then p.cntLost
  else match inst o 0x200 0x10 32 with
    | some (k, 0) => (tget {} p.lists k).wordA
    | some (k, 8) => (tget {} p.lists k).wordL
    | _ => 0

def readStm (s : State) (o : Nat) : Nat :=
  let m := s.stm
  if o = 0x00 then m.commitTicks
  else if o = 0x08 then m.comb.length
  else match inst o 0x1000 0x1000 8 with
    | some (i, r) => readStmPort s i r
    | none => (counterAt o 0x40 [m.cntMerged, m.cntApplied, m.cntConflict]).getD 0

/-- GRP_CTRL.SIZE of a number of members. -/
def sizeCode (n : Nat) : Nat := if n = 8 then 3 else if n = 4 then 2 else if n = 2 then 1 else 0

def readGrp (s : State) (o : Nat) : Nat :=
  let g := s.grp
  if o = 0x00 then g.formWait * 65536 + g.interleave * 256 + sizeCode g.size
  else if o = 0x08 then
    g.present.toNat * 2 ^ 24 + g.waiting.toNat * 2 ^ 16 + g.leader * 32 + 16 * b2n g.isolated + 8 * b2n g.formed + g.id % 8
  else if o = 0x10 then g.lost.toNat
  else if o = 0x18 then g.readmit.toNat
  else if o = 0x20 then ((upto 8).map fun d => ((tget none g.route d).getD 7) * 2 ^ (4 * d)).sum
  else match inst o 0x10000 0x1000 4 with
    | some (l, r) => readLnk s (8 + l) r
    | none => (counterAt o 0x40 [g.cntFwd, g.cntRelay, g.cntReroute, g.cntRealign]).getD 0

/-- The 4 KiB result window of a queue (R342), 8 B at byte `o`. -/
def readWindow (h : HQueue) (o : Nat) : Nat :=
  if o = 0 then h.winCid % 65536 + h.winSt % 256 * 65536 + (if h.winSt = 2 then h.winData.length else 0) * 2 ^ 32
  else if h.winSt = 2 then leVal ((h.winData.drop (o - 8)).take 8) else 0

def readHst (s : State) (o : Nat) : Nat :=
  let h := s.hst
  if o = 0x00 then 4 * b2n h.pfw + 2 * b2n h.stop + b2n h.ready
  else if o = 0x10 then
    h.errCount * 2 ^ 48 + 1024 * b2n h.errBar4 + h.errKind * 256 + h.errCause * 16 + b2n h.errValid
  else if o = 0x18 then h.errAddr % 2 ^ 48
  else if o = 0x20 then h.ptmTime % 2 ^ 64
  else if o = 0x28 then h.ptmTick
  else if 0x100 ≤ o ∧ o < 0x200 then
    let c := copyCh s ((o - 0x100) / 16)
    if o % 16 = 0 then (if c.halted then min 255 c.queue.length * 65536 + 1 else 0) else c.addr
  else match inst o 0x10000 0x20 64 with
    | some (q, r) =>
      let x := queue s q
      if r = 0x00 then x.sqBase * 4096
      else if r = 0x08 then x.cqBase * 4096
      else if r = 0x10 then
        x.cqSize * 2 ^ 40 + x.sqSize * 2 ^ 28 + x.intGap * 2 ^ 20 + x.vector * 4096 + 2 * b2n x.intEn + b2n x.enable
      else x.cqTail * 2 ^ 32 + x.sqHead * 65536 + x.errCause * 16 + 8 * b2n x.phase + 4 * b2n x.error + 2 * b2n (!x.started.isEmpty || !x.mute.isEmpty) + b2n x.enable
    | none => match inst o 0x20000 0x10 64 with
      | some (q, 0) => (queue s q).sqTail
      | some (q, 8) => (queue s q).cqHead
      | some _ => 0
      | none => match inst o 0x40000 0x1000 64 with
        | some (q, r) => readWindow (queue s q) r
        | none =>
          if 0x80000 ≤ o ∧ o < 0x81000 then
            (msixDword s ((o - 0x80000) / 4)).toNat + (msixDword s ((o - 0x80000) / 4 + 1)).toNat * 2 ^ 32
          else if 0x90000 ≤ o ∧ o < 0x90020 then
            ((upto 64).map fun i => b2n (tget false h.msixPend ((o - 0x90000) * 8 + i)) * 2 ^ i).sum
          else 0

def readSec (s : State) (o : Nat) : Nat :=
  let c := s.sec
  if o = 0x00 then s.fuses.transitions * 65536 + 16 * b2n s.flash.ownerHash.isSome + s.flash.lc
  else if 0x08 ≤ o ∧ o ≤ 0x30 then
    match s.flash.ownerHash with
    | some h => leVal (((hashBytes h).drop (o - 8)).take 8)
    | none => 0
  else if o = 0x40 then b2n (!c.reenc.isEmpty) * 2 ^ 36 + c.ctrs.foldl (fun m p => max m p.2.major) 0
  else match inst o 0x1000 0x8 64 with
    | some (n, _) => (region s n).rights.toNat
    | none => (counterAt o 0x80 [c.cntReenc, c.cntTag, c.cntMeta, c.cntDenied]).getD 0

/-- The CPH block as class `cls` reads it (R409, R416); CPH_LOCK is `lockRead`. -/
def readCph (s : State) (cls o : Nat) : Nat :=
  let c := s.cph
  if o = 0x18 then c.aadLen * 2 ^ 32 + c.textLen
  else if o = 0x20 then c.badTicket * 65536 + c.cause * 256 + c.st
  else if o = 0x28 then c.nonce % 2 ^ 64
  else if o = 0x30 then c.nonce / 2 ^ 64 % 2 ^ 32
  else if o = 0x38 then (if c.st = 1 then 0 else c.tag % 2 ^ 64)
  else if o = 0x40 then (if c.st = 1 then 0 else c.tag / 2 ^ 64 % 2 ^ 64)
  else if o = 0x48 then c.nonceCtr
  else if o = 0x50 then
    ((upto 16).map fun i => slotClass s i * 2 ^ (32 + 2 * i) + (if slotClass s i = 0 then 0 else 2 ^ i)).sum
  else if 0x20000 ≤ o ∧ o < 0x30000 then
    if c.holder = cls ∧ c.st ≠ 1 then leVal (Memory.readN 0 c.out (o - 0x20000) 8) else 0
  else 0

def readPwr (s : State) (o : Nat) : Nat :=
  let p := s.pwr
  let q := s.plinth
  if o = 0x00 then q.firstRail * 256 + 64 * b2n p.degraded + 32 * b2n q.latched + 16 * b2n p.inputLimit + q.st
  else if o = 0x08 then p.pin * 2 ^ 32 + p.iin * 65536 + p.vin
  else if o = 0x10 then p.inForce * 4096 + p.cap
  else if o = 0x20 then p.warnUs * 65536 + p.dropPct * 1024 + p.trip
  else if o = 0x28 then p.hours % 65536 * 2 ^ 48 + q.vbank % 65536 * 2 ^ 32 + p.cMeas % 65536 * 65536 + 2 * p.method + b2n p.measuring
  else if o = 0x30 then p.policy
  else if o = 0x40 then p.dumpPages % 2 ^ 32 * 2 ^ 32 + p.dumpUs % 2 ^ 32
  else if o = 0x48 then p.dumpGen
  else if 0x100 ≤ o ∧ o < 0x1C0 then
    let r := tget (2, 0) q.rails ((o - 0x100) / 8)
    r.1 * 65536 + r.2
  else if o = 0x800 then p.runSt
  else if o = 0x808 then p.stopTick
  else if o = 0x810 then p.wakeUs % 2 ^ 32 * 2 ^ 32 + p.entryUs % 2 ^ 32
  else if o = 0x818 then p.cntStop
  else (counterAt o 0x80 [p.cntTrip, p.cntCancel, p.cntDump, p.cntLimit, p.cntMeasure]).getD 0

def readClk (s : State) (o : Nat) : Nat :=
  let c := s.clk
  if o = 0x00 then b2n c.tree
  else if o = 0x08 then 16 * b2n c.gatedAccess + 8 * b2n c.refused + 4 * b2n c.pcieRef + 2 * b2n c.locked + b2n c.refStable
  else if o = 0x10 then c.gate.toNat
  else if o = 0x18 then c.gateSt.toNat
  else if o = 0x20 then c.cores.toNat * 2 ^ 48 + c.dram.toNat * 2 ^ 32 + c.media.toNat
  else if o = 0x28 then c.refCnt
  else 0

/-- The part has the sensor (R466). -/
def sensorHere (s : State) (n : Nat) : Bool := decide (n ≤ 85) && (isBig s || !(decide (36 ≤ n) && decide (n ≤ 67)))

/-- Sensor number of the highest reading among 0 to 84 that are not broken; the lower of equals. -/
def hottest (s : State) : Nat :=
  ((upto 85).foldl (fun (b : Option (Nat × Int)) n =>
    let x := sensor s n
    if !sensorHere s n || x.broken then b else match b with
      | some (_, t) => if t < x.temp then some (n, x.temp) else b
      | none => some (n, x.temp)) none).elim 0 (·.1)

def readThm (s : State) (o : Nat) : Nat :=
  let t := s.thm
  let q := s.plinth
  if o = 0x00 then
    hottest s * 256 + 128 * b2n t.stopping + 64 * b2n t.timing + 32 * b2n ((upto 86).any fun n => (sensor s n).broken)
      + 16 * b2n (decide (4 ≤ topBand s)) + topBand s
  else if o = 0x08 then t.sel
  else if o = 0x10 then
    if sensorHere s t.sel then
      let x := sensor s t.sel
      b2n x.broken * 32768 + (if t.sel = 85 then 0 else effBand x) * 4096 + twos 12 x.temp
    else 0
  else if o = 0x18 then 4096 * b2n t.inletOut + twos 12 (sensor s 85).temp
  else if o = 0x20 then b2n q.tripValid * 2 ^ 31 + q.tripSensor * 4096 + twos 12 q.tripTemp
  else (counterAt o 0x40 [t.cntThrottle, t.cntStop, t.cntTrip, t.cntBroken]).getD 0

/-- Spares left of a memory (R489, R504): 0xFFFF where the rule gives none. -/
def sparesLeft (s : State) (m : Nat) : Nat :=
  if m = 0 then min 0xFFFE (Config.dramSpares - (memErr s 0).used)
  else if m = 4 ∨ m = 5 ∨ m = 6 then 64 - (memErr s m).used
  else if m = 8 then s.flash.spares
  else 0xFFFF

/-- ERR_FATAL_LAST (R504). -/
def fatalLastWord (s : State) : Nat :=
  b2n s.plinth.fatalValid * 2 ^ 31 + s.plinth.fatalCause % 16 * 256 + s.plinth.fatalMem % 256

def readErr (s : State) (o : Nat) : Nat :=
  let e := s.err
  let m := memErr s e.sel
  if o = 0x00 then e.status.toNat
  else if o = 0x08 then e.ceLimit * 65536 + e.vector * 256 + b2n e.trapEn
  else if o = 0x10 then fatalLastWord s
  else if o = 0x20 then e.logCount * 2 ^ 48 + e.logMem * 256 + e.logCls * 16 + b2n e.logValid
  else if o = 0x28 then e.logLoc % 2 ^ 64
  else if o = 0x40 then e.sel
  else if o = 0x90 then e.unwritten
  else if 8 < e.sel then 0
  else if o = 0x68 then m.laps % 2 ^ 32 * 2 ^ 32 + m.lastLap % 2 ^ 32
  else if o = 0x70 then min 65535 m.used * 65536 + sparesLeft s e.sel
  else (counterAt o 0x48 [m.ce, m.ue, m.transient, m.lasting]).getD 0

/-- The registers of counter unit `u` (R521). -/
def readPmcUnit (s : State) (u o : Nat) : Nat :=
  let p := pmcUnit s u
  let pair := fun (t : Table Nat) (i : Nat) => tget 0 t i + tget 0 t (i + 1) * 2 ^ 32
  if o = 0x00 then p.cyc
  else if o = 0x10 then p.ovf.toNat
  else if 0x20 ≤ o ∧ o < 0x60 then (tget 0 p.cfg ((o - 0x20) / 8)).toNat
  else if 0x60 ≤ o ∧ o < 0x80 then pair p.pc ((o - 0x60) / 4)
  else if o = 0x80 then p.scyc
  else if 0x88 ≤ o ∧ o < 0xA8 then pair p.spc ((o - 0x88) / 4)
  else 0

def readPmc (s : State) (o : Nat) : Nat :=
  let p := s.pmc
  if o = 0x00 then p.vector * 256 + 4 * b2n p.intEn + b2n p.freeze
  else if o = 0x08 then p.source * 2 ^ 32 + p.gen
  else if o = 0x10 then p.tick
  else if o = 0x20 then p.seed.toNat * 2 ^ 32 + p.mode * 256 + p.rate
  else if o = 0x28 then p.written * 2 ^ 32 + p.lost * 2048 + p.samples.length
  else if o = 0x30 then p.sel
  else if 0x40 ≤ o ∧ o < 0x80 then
    match nth p.samples p.sel with
    | some w => w.toNat / 2 ^ (8 * (o - 0x40)) % 2 ^ 64
    | none => 0
  else match inst o 0x1000 0x100 0x58 with
    | some (u, r) => if isCounterUnit u then readPmcUnit s u r else 0
    | none => 0

/-- The record that EVR_SEL selects, and whether it still waits (R520). -/
def selectedEvent (s : State) : Option (EvRec × Bool) :=
  let l := (s.evr.waiting.map fun e => (e, true)) ++ s.flash.events.map fun e => (e, false)
  if s.evr.selMode = 0 then nth l s.evr.selVal else l.find? fun p => p.1.seq == s.evr.selVal

def readEvr (s : State) (o : Nat) : Nat :=
  let v := s.evr
  if o = 0x00 then newestSeq s % 2 ^ 32 * 2 ^ 32 + s.flash.epoch % 65536 * 65536 + v.waiting.length
  else if o = 0x08 then v.selVal * 2 ^ 32 + v.selMode
  else if 0x10 ≤ o ∧ o ≤ 0x28 then
    match selectedEvent s with
    | some (e, _) => leVal (((evBytes e).drop (o - 0x10)).take 8)
    | none => 0
  else if o = 0x30 then (match selectedEvent s with | some (_, w) => 4 + 2 * b2n w + 1 | none => 0)
  else if o = 0x40 then v.limSel
  else if o = 0x48 then (bucket s v.limSel).burst * 2 ^ 24 + (bucket s v.limSel).rate
  else if o = 0x80 then v.cntWritten
  else if o = 0x88 then v.cntSupp
  else 0

/-- The record under the cursor of LDG_REC (R505): a slot of the event partition is counted by the records in it. -/
def selectedRec (s : State) : Option FRec :=
  let n := s.ldg.part % 8
  if n = 0 ∨ 5 < n ∨ s.ldg.part / 8 ≠ 0 then none
  else if n = 5 then
    ((part s 5).recs.reverse.foldl (fun (acc : Nat × Option FRec) r =>
      if acc.2.isSome then acc
      else if s.ldg.cursor < acc.1 + r.payload.length / 32 then (acc.1, some r) else (acc.1 + r.payload.length / 32, none)) (0, none)).2
  else nth (liveRecs n (part s n).recs).reverse s.ldg.cursor

def readLdg (s : State) (o : Nat) : Nat :=
  let l := s.ldg
  if o = 0x00 then
    16 * b2n l.degraded + 8 * b2n s.flash.ok1 + 4 * b2n s.flash.ok0 + 2 * b2n (flashBusy s 1) + b2n (flashBusy s 0)
  else if o = 0x08 then l.part
  else if o = 0x10 then l.cursor
  else if o = 0x40 then l.offset * 2 ^ 32 + l.status * 256 + 128 * b2n l.busy + 4 * l.slot
  else if 0x100 ≤ o ∧ o < 0x180 then
    match selectedRec s with
    | some r => leVal (((recBytes r (l.part % 8 == 5)).drop (o - 0x100)).take 8)
    | none => 0
  else if 0x1000 ≤ o ∧ o < 0x1100 then leVal (Memory.readN 0 l.buf (o - 0x1000) 8)
  else 0

/-! ## One slot of BAR0 -/

/-- The value of the 8-byte slot at `off` for class `cls` (1 host, 2 debug), nothing being gated or refused. -/
def readSlot (s : State) (cls off : Nat) : Nat :=
  let b := off / 2 ^ 20
  let o := off % 2 ^ 20
  if isExpert off then expertRead s off
  else if b = 0 then readGlb s o
  else if b = 1 then readTck s o
  else if b = 2 then readMed s o
  else if b = 3 then readDrf s o
  else if b = 4 then readCch s o
  else if b = 5 then readDir s o
  else if b = 6 then readOrd s o
  else if b = 7 then readStm s o
  else if b = 8 then readGrp s o
  else if b = 9 then readHst s o
  else if b = 0xA then (if 0x80000 ≤ o then readCph s cls (o - 0x80000) else readSec s o)
  else if b = 0xB then readPwr s o
  else if b = 0xC then readClk s o
  else if b = 0xD then readThm s o
  else if b = 0xE then readErr s o
  else if b = 0xF then readPmc s o
  else if b = 0x10 then readEvr s o
  else if b = 0x11 then readLdg s o
  else 0

/-- The unit of CLK_GATE whose registers lie at an offset (R457, R461). -/
def gateOf (off : Nat) : Option Nat :=
  if 0x0510000 ≤ off ∧ off < 0x0518000 then some ((off - 0x0510000) / 0x1000)
  else if 0x0810000 ≤ off ∧ off < 0x0814000 then some (8 + (off - 0x0810000) / 0x1000)
  else if 0x0701000 ≤ off ∧ off < 0x0709000 then some (12 + (off - 0x0701000) / 0x1000)
  else if 0x0A80000 ≤ off ∧ off < 0x0B00000 then some 20
  else if 0x0900100 ≤ off ∧ off < 0x0900200 then some 21
  else if 0x0F00000 ≤ off ∧ off < 0x1000000 then some 22
  else none

/-- The registers at an offset belong to a gated unit. -/
def gatedOff (s : State) (off : Nat) : Bool := match gateOf off with | some u => !clocked s u | none => false

/-- The block is served: in the failed state only GLB, PWR, THM, EVR and LDG are (R383), and SEC after END (R389). -/
def served (s : State) (off : Nat) : Bool :=
  let b := off / 2 ^ 20
  !s.glb.failed || b == 0 || b == 0xB || b == 0xD || b == 0x10 || b == 0x11
    || (b == 0xA && off % 2 ^ 20 < 0x80000 && s.flash.lc == 4)

/-- An access to a block whose domain is not ready yet wakes that domain ahead of its turn, with the domains it depends on; the wake takes no
time. Whether it fails is not the module's to say: a free value tells it, and which channel. The blocks MED and DRF are taken to need the media
channels, CCH the DRAM channels (R368; DEDUCED, log 151). -/
def wakeFor (off : Nat) (s : State) : State :=
  if s.glb.step < 3 ∨ 8 ≤ s.glb.step ∨ s.glb.failed ∨ s.glb.wakeBad.isSome ∨ off < 0x0200000 ∨ 0x0500000 ≤ off then s
  else
    let fails := fun (cause n : Nat) (up : State → State) (s : State) =>
      let (v, s) := free s
      if v % 2 = 1 then onGlb (fun g => { g with wakeBad := some (cause, v / 2 % n) }) s else up s
    let s := if s.clk.dram = 0xFFFF then s else fails 4 16 (onClk fun c => { c with dram := 0xFFFF }) s
    if 0x0400000 ≤ off ∨ s.glb.wakeBad.isSome ∨ s.clk.media = 0xFFFFFFFF then s
    else fails 5 32 (fun s => readTrims (onClk (fun c => { c with media := 0xFFFFFFFF }) s)) s

/-- A read of `size` (4 or 8) bytes at an aligned offset by class `cls`; the access may grant the cipher lock, or mark a gated
access (R404, R461, R526). -/
def regRead (cls off size : Nat) (s : State) : Nat × State :=
  if !served s off then (0, s)
  else if gatedOff s off then (0, onClk (fun c => { c with gatedAccess := true }) s)
  else
    let base := off / 8 * 8
    let t := wakeFor off s
    if t.glb.wakeBad != s.glb.wakeBad then (0, t) else
    let s := t
    let (v, s) := if off = 0x0A80000 then lockRead cls s else (readSlot s cls base, s)
    (v / 2 ^ (8 * (off % 8)) % 2 ^ (8 * size), s)

end Sys2Proof.Machine
end

