-- ==== Sys2Proof/Machine/RegWrite.lean ====
section
/-!
DEFINITION. Writes of BAR0 (R7 to R10, R26 to R28, R523 to R535, R554): the effect of a write of each register, as the host and the
debug port make it, and the operations that a write triggers.
-/

namespace Sys2Proof.Machine
open Sys2Proof

/-- A write to one 8-byte slot: its BAR0 offset, the register with the written half replaced, the written half alone (zeros
elsewhere), and the halves written (R526). -/
structure SlotWr where
  off : Nat
  m : Nat
  a : Nat
  lo : Bool
  hi : Bool
  cls : Nat
deriving DecidableEq, Repr

/-- SETTING_CLAMPED when a value was not stored as written (R28, R554, DESIGN CHOICE, log 46). -/
def clampIf (b : Bool) (off : Nat) (s : State) : State := if b then event 0x0001 0 off s else s

/-! ## Expert control (R26 to R28, R533, R534) -/

/-- Fields of an expert register, each at its nearest permitted value. -/
def expertClamp (s : State) (off v : Nat) : Nat :=
  (expertFields s off).foldl (fun n f => n + clamp f.2.2.1 f.2.2.2 (bits v f.1 f.2.1) * 2 ^ f.1) 0

/-- The bits of an expert register that are its fields. -/
def expertGiven (s : State) (off v : Nat) : Nat := (expertFields s off).foldl (fun n f => n + bits v f.1 f.2.1 * 2 ^ f.1) 0

/-- Store OVR and the fields of an expert register. -/
def setExpert (off v : Nat) (s : State) : State :=
  let w := expertClamp s off v
  let s := clampIf (w != expertGiven s off v) off s
  { s with expert := tset (BitVec.ofNat 32 (expertReset off)) s.expert off (BitVec.ofNat 32 (w + b2n (bitOf v 31) * 2 ^ 31)) }

/-- EXPERT_CLR: every OVR bit is cleared; the fields stay (R534). -/
def expertClr (s : State) : State :=
  if !s.glb.expertEn then s
  else { s with expert := s.expert.foldl (fun t p => tset (BitVec.ofNat 32 (expertReset p.1)) t p.1 (p.2 &&& 0x7FFFFFFF)) [] }

/-! ## Streams (R253 to R276) -/

/-- STM_IN_CTRL.FLUSH (R270): what is left of a record of which only part has come is discarded with it. -/
def flushIn (p : Nat) (s : State) : State :=
  commitPort p (updStop p (onPort p (fun x => { x with
    fifo := [], inPrev := false, flushed := true, cntDrop := sat 64 x.cntDrop x.fifo.length }) s))

/-- STM_EG_CTRL.FLUSH (R271): the words that stand in the FIFO are skipped. -/
def flushEg (p : Nat) (s : State) : State :=
  let x := port s p
  if x.egSt = 0 then s else
  prefetchPort p (onPort p (fun x => { x with
    egFifo := x.egFifo.filter fun w => match w with | .wait _ _ => true | _ => false
    play := (upto (egOccupancy x)).foldl (fun q _ => advPos s p x.cur 1 q) x.play }) s)

/-- STM_IN_WM (R255). -/
def setWm (p lo hi : Nat) (s : State) : State :=
  let h := clamp 2048 15360 hi
  let l := clamp 0 (h - 1024) lo
  clampIf (h != hi || l != lo) (0x0701008 + 0x1000 * p) (onPort p (fun x => { x with low := l, high := h }) s)

/-- A write to a list entry (R267): none to the current list of an active port; one to its standby list restarts that prefetch. -/
def writeEntry (p k : Nat) (e : PlEnt) (s : State) : State :=
  let x := port s p
  if x.egSt ≠ 0 ∧ k / 16 = x.cur then s
  else
    let s := onPort p (fun x => { x with lists := tset {} x.lists k e }) s
    if x.egSt = 0 then s else
    prefetchPort p (onPort p (fun x => { dropReads (waitsFor x.standby) x with
      standby := []
      standbyFull := false
      sbPos := {} }) s)

/-- STM_LNK_CTRL.ENABLE (R307): lanes in electrical idle, or training. -/
def enableStm (p : Nat) (on : Bool) (s : State) : State :=
  let x := port s p
  if x.enable = on then s
  else if on then onPort p (fun x => { x with enable := true, lnkSt := if clocked s (12 + p) && s.glb.memReady then 2 else 0 }) s
  else lanesDown p 0 (onPort p (fun x => { x with enable := false }) s)

/-! ## Links -/

/-- ENABLE of a flit port (R298, R307). -/
def enableLink (i : Nat) (on : Bool) (s : State) : State :=
  if (link s i).enable = on then s
  else
    let s := onLink i (fun k => { k with enable := on }) s
    if on then startDetect i s else closeLink i s

/-- *_CTRL of a flit port (R307). -/
def writeLink (i : Nat) (w : SlotWr) (s : State) : State :=
  let s := enableLink i (bitOf w.m 0) s
  let s := if bitOf w.a 1 then enterRecovery i s else s
  if bitOf w.a 2 ∧ i < 8 then resetAgent i s else s

/-! ## Queues (R331 to R341) -/

/-- ENABLE = 1 (R340). -/
def enableQueue (q : Nat) (s : State) : State :=
  if (queue s q).enable then s
  else onQueue q (fun h => { h with
    enable := true, sqHead := 0, cqTail := 0, sqTail := 0, cqHead := 0, phase := true, error := false, errCause := 0
    cqSize := max 1 h.cqSize, sqSize := max 1 h.sqSize }) s

/-- COPY commands of the queue that wait at a channel have not started: they are dropped. -/
def dropCopies (q : Nat) (s : State) : State :=
  each (upto 16) (fun j s =>
    onCopy j (fun c => { c with queue := c.queue.filter fun i => !copyOf q i }) s) s

/-- ENABLE = 0 (R340): fetching stops; started commands run to their end without entries. -/
def disableQueue (q : Nat) (s : State) : State :=
  if !(queue s q).enable then s
  else
    let s := dropCopies q s
    onQueue q (fun h => { h with enable := false, fetched := [], fenced := none, dones := [], gap := false, gapPend := false }) (muteQueue q s)

/-- HST_Q_CFG (R340, R359). -/
def writeQCfg (q : Nat) (w : SlotWr) (s : State) : State :=
  let h := queue s q
  let on := bitOf w.m 0
  let s := onQueue q (fun h => { h with intGap := bits w.m 20 8, intEn := bitOf w.m 1 }) s
  let s := if h.enable then s else
    let sq := bits w.m 28 12
    let cq := bits w.m 40 12
    clampIf (sq == 0 || (w.hi && cq == 0)) w.off
      (onQueue q (fun h => { h with vector := bits w.m 12 8, sqSize := max 1 sq, cqSize := if w.hi then max 1 cq else h.cqSize }) s)
  if on then enableQueue q s else disableQueue q s

/-- A queue enters ERROR (R335, R336). -/
def queueError (q cause : Nat) : State → State := onQueue q fun h =>
  if h.error then h else { h with error := true, errCause := cause }

/-- The SQ tail doorbell (R335). -/
def sqDoorbell (q v : Nat) (s : State) : State :=
  let h := queue s q
  if !h.enable then s
  else if h.sqSize < v then queueError q 1 s
  else onQueue q (fun h => { h with sqTail := v }) s

/-- The CQ head doorbell (R335): entries up to the new head are released, and entries that wait are written. -/
def cqDoorbell (q v : Nat) (s : State) : State :=
  let h := queue s q
  let n := h.cqSize + 1
  if !h.enable then s
  else if h.cqSize < v ∨ (h.cqTail + n - h.cqHead) % n < (v + n - h.cqHead) % n then queueError q 2 s
  else checkFenced q (writeCqes q (onQueue q (fun h => { h with cqHead := v }) s))

/-- One dword of the MSI-X table; unmasking a pending vector sends it (PCI Express specification, PRESUMED, log 18). -/
def writeMsix (i v : Nat) (s : State) : State :=
  let k := i / 4
  let v := if i % 4 = 3 then v % 2 else v
  let s := onHst (fun h => { h with msix := tset (if i % 4 = 3 then 1 else 0) h.msix i (BitVec.ofNat 32 v) }) s
  if i % 4 = 3 ∧ v = 0 ∧ tget false s.hst.msixPend k then
    push (.msix k) (onHst (fun h => { h with msixPend := tset false h.msixPend k false }) s)
  else s

/-! ## Copy channels (R350) -/

def resumeCopy (j : Nat) : State → State := onCopy j fun c => { c with halted := false }

/-- DISCARD: every held command ends with ABORTED. -/
def discardCopy (j : Nat) (s : State) : State :=
  if !(copyCh s j).halted then s
  else
    let l := (copyCh s j).queue
    each l (fun i s => match i with
      | .copy c _ _ _ _ _ => finish c 8 0 s
      | _ => s) (onCopy j (fun c => { c with halted := false, queue := [] }) s)

/-! ## Counters (R509, R513) -/

def clearUnit (u : Nat) : State → State := onUnit u fun p => { p with cyc := 0, scyc := 0, pc := [], spc := [], ovf := 0 }

/-- PMC_CTRL.CLEAR. -/
def clearCounters : State → State := onPmc fun p =>
  { p with units := p.units.filterMap fun (u, x) =>
      let y : Pmc1 := { x with cyc := 0, scyc := 0, pc := [], spc := [], ovf := 0 }
      if y = {} then none else some (u, y) }

def freezeCounters (b : Bool) : State → State := onPmc fun p => { p with freeze := b }

/-- PMC_SAMPLE_CTRL (R513): the nearest permitted RATE, the higher of two as near; the paths take their seeds. -/
def writeSample (w : SlotWr) (s : State) : State :=
  let r := bits w.m 0 5
  let k := if r = 1 then 0 else if r = 0 then 0 else if r < 4 then 4 else min r 24
  let start := w.hi || (s.pmc.rate == 0 && k != 0)
  let s := clampIf (k != r) w.off (onPmc (fun p => { p with rate := k, mode := bits w.m 8 1 }) s)
  if !start then s else
  let (v, s) := if bits w.m 32 32 = 0 then free s else (bits w.m 32 32, s)
  let seed := BitVec.ofNat 32 v
  onPmc (fun p => { p with seed, lfsr := (upto 33).foldl (fun t i => tset 0 t i (seed ^^^ BitVec.ofNat 32 i)) [] }) s

/-! ## The image window (R503, R505) -/

/-- LDG_IMG_CTRL: OFFSET at the nearest multiple of 256 below 4 MiB, and an operation. An operation
that runs keeps the slot and the offset it began with, and another one asked for has no effect (DESIGN CHOICE, log 45). -/
def writeImg (w : SlotWr) (s : State) : State :=
  let o := bits w.m 32 32
  let k := if w.hi then min ((o + 128) / 256 * 256) (4 * 2 ^ 20 - 256) else s.ldg.offset
  let s := clampIf (w.hi && k != o) w.off (onLdg (fun l => { l with offset := k, slot := bits w.m 2 1 }) s)
  let op := bits w.a 0 2
  if w.lo ∧ (op = 1 ∨ op = 2) then startImageOp op (bits w.m 2 1) k s else s

/-! ## The blocks -/

def writeGlb (o : Nat) (w : SlotWr) (s : State) : State :=
  if o = 0x40 then (if bitOf w.a 1 then expertClr s else s)
  else if o = 0x50 then (if bits w.a 0 16 = 0xA55A ∧ !s.glb.failed then requestReset s else s)
  else if o = 0x58 then onGlb (fun g => { g with scratch := BitVec.ofNat 64 w.m }) s
  else s

def writeTck (o : Nat) (w : SlotWr) (s : State) : State :=
  if o = 0x00 then onTck (fun t => { t with outEn := bitOf w.m 2 }) s
  else if o = 0x80 then onTck (fun t => { t with sel := bits w.m 0 6 }) s
  else s

def writeMed (o : Nat) (w : SlotWr) (s : State) : State :=
  if o = 0x00 then onMed (fun x => { x with wear := bits w.m 0 1 }) s
  else if o = 0x80 then onMed (fun x => { x with blkSel := bits w.m 0 25 }) s
  else s

def writeDir (o : Nat) (w : SlotWr) (s : State) : State :=
  if o = 0x00 then onDir (fun d => { d with readGrant := bits w.m 0 1 }) s
  else if o = 0x10 then onDir (fun d => { d with lost := d.lost &&& ~~~(BitVec.ofNat 64 w.a) }) s
  else if o = 0x80 then onDir (fun d => { d with selWay := bits w.m 18 4, selSet := bits w.m 0 18 }) s
  else match inst o 0x10000 0x1000 8 with
    | some (p, 0) => writeLink p w s
    | _ => s

def writeStmPort (i o : Nat) (w : SlotWr) (s : State) : State :=
  if o = 0x00 then (if bitOf w.a 0 then flushIn i s else s)
  else if o = 0x08 then (if w.lo then setWm i (bits w.m 16 15) (bits w.m 0 15) s else s)
  else if o = 0x20 then
    (if bitOf w.a 0 then onPort i (fun x => { x with
        errValid := false, errCount := 0, errTag := 0, errCause := 0, errDir := 0, errTick := 0, errAddr := 0 }) s
      else s)
  else if o = 0x100 then
    if !w.lo then s else
    let s := setWpt i (bits w.m 16 12) (onPort i (fun x => { x with listInit := bits w.m 2 1 }) s)
    let s := if bitOf w.a 0 then flushEg i s else s
    if bitOf w.a 1 then armPort i s else s
  else if o = 0x800 then enableStm i (bitOf w.m 0) s
  else match inst o 0x200 0x10 32 with
    | some (k, 0) => writeEntry i k { tget {} (port s i).lists k with addr := bits w.m 0 42, rep := bits w.m 42 16 } s
    | some (k, 8) => writeEntry i k { tget {} (port s i).lists k with len := bits w.m 0 32, last := bitOf w.m 32, wrap := bitOf w.m 33 } s
    | _ => s

def writeStm (o : Nat) (w : SlotWr) (s : State) : State :=
  if o = 0x00 then
    let v := bits w.m 0 7
    clampIf (clamp 1 64 v != v) w.off (onStm (fun m => { m with commitTicks := clamp 1 64 v }) s)
  else match inst o 0x1000 0x1000 8 with
    | some (i, r) => writeStmPort i r w s
    | none => s

def writeGrp (o : Nat) (w : SlotWr) (s : State) : State :=
  if o = 0x10 then onGrp (fun g => { g with lost := g.lost &&& ~~~(BitVec.ofNat 8 w.a) }) s
  else if o = 0x18 then (if bits w.a 0 8 = 0 then s else askReadmit (BitVec.ofNat 8 w.a) s)
  else match inst o 0x10000 0x1000 4 with
    | some (l, 0) => writeLink (8 + l) w s
    | _ => s

def writeHst (o : Nat) (w : SlotWr) (s : State) : State :=
  if o = 0x10 then
    (if bitOf w.a 0 then onHst (fun h => { h with
        errValid := false, errCount := 0, errBar4 := false, errKind := 0, errCause := 0, errAddr := 0 }) s
      else s)
  else if 0x100 ≤ o ∧ o < 0x200 then
    if o % 16 ≠ 0 then s else
    let j := (o - 0x100) / 16
    let s := if bitOf w.a 2 then discardCopy j s else s
    if bitOf w.a 1 then resumeCopy j s else s
  else match inst o 0x10000 0x20 64 with
    | some (q, r) =>
      if r = 0x00 then (if (queue s q).enable then s else onQueue q (fun h => { h with sqBase := w.m / 4096 }) s)
      else if r = 0x08 then (if (queue s q).enable then s else onQueue q (fun h => { h with cqBase := w.m / 4096 }) s)
      else if r = 0x10 then writeQCfg q w s
      else s
    | none => match inst o 0x20000 0x10 64 with
      | some (q, 0) => if w.lo then sqDoorbell q (bits w.a 0 12) s else s
      | some (q, 8) => if w.lo then cqDoorbell q (bits w.a 0 12) s else s
      | some _ => s
      | none =>
        if 0x80000 ≤ o ∧ o < 0x81000 then
          let i := (o - 0x80000) / 4
          let s := if w.lo then writeMsix i (bits w.m 0 32) s else s
          if w.hi then writeMsix (i + 1) (bits w.m 32 32) s else s
        else s

/-- The written half, or halves, of a data window. -/
def writeBytes (m : List Host.Cell) (o : Nat) (w : SlotWr) : List Host.Cell :=
  let m := if w.lo then Memory.writeN 0 m o (leBytes 4 w.m) else m
  if w.hi then Memory.writeN 0 m (o + 4) (leBytes 4 (w.m / 2 ^ 32)) else m

def writeCph (o : Nat) (w : SlotWr) (s : State) : State :=
  if o = 0x08 then (if w.lo then releaseLock (bits w.a 0 16) s else s)
  else if o = 0x10 then (if w.lo then cphCommand w.cls (bits w.a 48 16) (bits w.a 0 4) (bits w.a 4 4) (bits w.a 8 4) s else s)
  else if o = 0x18 then
    let a := bits w.m 32 13
    let t := bits w.m 0 17
    clampIf (decide (4096 < a) || decide (65536 < t)) w.off (onCph (fun c => { c with aadLen := min a 4096, textLen := min t 65536 }) s)
  else if o = 0x28 then onCph (fun c => { c with nonce := c.nonce / 2 ^ 64 * 2 ^ 64 + w.m % 2 ^ 64 }) s
  else if o = 0x30 then onCph (fun c => { c with nonce := c.nonce % 2 ^ 64 + bits w.m 0 32 * 2 ^ 64 }) s
  else if o = 0x38 then onCph (fun c => { c with tag := c.tag / 2 ^ 64 * 2 ^ 64 + w.m % 2 ^ 64 }) s
  else if o = 0x40 then onCph (fun c => { c with tag := c.tag % 2 ^ 64 + w.m % 2 ^ 64 * 2 ^ 64 }) s
  else if 0x10000 ≤ o ∧ o < 0x20000 then onCph (fun c => { c with inp := writeBytes c.inp (o - 0x10000) w }) s
  else s

/-- PWR_PFW_CTRL takes its fields, each at the nearest permitted value (R451, R554). -/
def setPfw (off v : Nat) (s : State) : State :=
  let warn := min 2000 (bits v 16 11)
  let d := bits v 10 6
  let drop := if d = 0 ∨ (10 ≤ d ∧ d ≤ 50) then d else if d < 5 then 0 else if d < 10 then 10 else 50
  let trip := clamp 100 760 (bits v 0 10)
  clampIf (warn != bits v 16 11 || drop != d || trip != bits v 0 10) off (onPwr (fun p => { p with warnUs := warn, dropPct := drop, trip }) s)

/-- The PWR block. PWR_PFW_CTRL is RWL: in a start that fails before step 6 nothing has locked it (R7, R374, R383). -/
def writePwr (o : Nat) (w : SlotWr) (s : State) : State :=
  if o = 0x10 then
    let v := bits w.m 0 6
    clampIf (clamp 12 32 v != v) w.off (onPwr (fun p => { p with cap := clamp 12 32 v }) s)
  else if o = 0x20 then (if s.ord.locked || !w.lo then s else setPfw w.off w.m s)
  else if o = 0x30 then onPwr (fun p => { p with policy := bits w.m 0 1 }) s
  else s

def writeClk (o : Nat) (w : SlotWr) (s : State) : State :=
  if o = 0x08 then onClk (fun c => { c with gatedAccess := c.gatedAccess && !bitOf w.a 4, refused := c.refused && !bitOf w.a 3 }) s
  else if o = 0x10 then (if w.lo then writeGate (BitVec.ofNat 27 w.m) s else s)
  else s

def writeThm (o : Nat) (w : SlotWr) (s : State) : State :=
  if o = 0x08 then onThm (fun t => { t with sel := bits w.m 0 7 }) s
  else if o = 0x20 then (if bitOf w.a 31 then onPlinth (fun p => { p with tripValid := false }) s else s)
  else s

def writeErr (o : Nat) (w : SlotWr) (s : State) : State :=
  if o = 0x00 then onErr (fun e => { e with status := e.status &&& ~~~(BitVec.ofNat 4 w.a) }) s
  else if o = 0x08 then onErr (fun e => { e with ceLimit := bits w.m 16 16, vector := bits w.m 8 8, trapEn := bitOf w.m 0 }) s
  else if o = 0x10 then (if bitOf w.a 31 then onPlinth (fun p => { p with fatalValid := false }) s else s)
  else if o = 0x20 then
    (if bitOf w.a 0 then onErr (fun e => { e with logValid := false, logCount := 0, logMem := 0, logCls := 0, logLoc := 0 }) s else s)
  else if o = 0x40 then onErr (fun e => { e with sel := bits w.m 0 4 }) s
  else s

def writePmc (o : Nat) (w : SlotWr) (s : State) : State :=
  if o = 0x00 then
    let s := freezeCounters (bitOf w.m 0) (onPmc (fun p => { p with vector := bits w.m 8 8, intEn := bitOf w.m 2 }) s)
    if bitOf w.a 1 then clearCounters s else s
  else if o = 0x20 then writeSample w s
  else if o = 0x30 then onPmc (fun p => { p with sel := bits w.m 0 10 }) s
  else match inst o 0x1000 0x100 0x58 with
    | some (u, r) =>
      if !isCounterUnit u then s
      else if r = 0x08 then (if bitOf w.a 0 then clearUnit u s else s)
      else if r = 0x10 then onUnit u (fun p => { p with ovf := p.ovf &&& ~~~(BitVec.ofNat 8 w.a) }) s
      else if 0x20 ≤ r ∧ r < 0x60 ∧ w.lo then onUnit u (fun p => { p with cfg := tset 0 p.cfg ((r - 0x20) / 8) (BitVec.ofNat 10 w.m) }) s
      else s
    | none => s

def writeEvr (o : Nat) (w : SlotWr) (s : State) : State :=
  if o = 0x08 then onEvr (fun v => { v with selVal := bits w.m 32 32, selMode := bits w.m 0 1 }) s
  else if o = 0x40 then onEvr (fun v => { v with limSel := bits w.m 0 16 }) s
  else if o = 0x48 then
    if !w.lo then s else
    let b := bits w.m 24 8
    let r := bits w.m 0 16
    let x := refill s.now (bucket s s.evr.limSel)
    clampIf (b == 0 || decide (1000 < r)) w.off
      (onEvr (fun v => { v with buckets := tset {} v.buckets v.limSel { x with burst := max 1 b, rate := min r 1000 } }) s)
  else s

def writeLdg (o : Nat) (w : SlotWr) (s : State) : State :=
  if o = 0x08 then onLdg (fun l => { l with part := bits w.m 0 24 }) s
  else if o = 0x10 then onLdg (fun l => { l with cursor := bits w.m 0 24 }) s
  else if o = 0x40 then writeImg w s
  else if 0x1000 ≤ o ∧ o < 0x1100 then onLdg (fun l => { l with buf := writeBytes l.buf (o - 0x1000) w }) s
  else s

/-! ## One access -/

/-- The SEC block: SEC_RIGHTS is RWL, and nothing has locked it where start-up stops before step 6 (R7, R390, R415). -/
def writeSec (o : Nat) (w : SlotWr) (s : State) : State :=
  match inst o 0x1000 0x8 64 with
  | some (n, _) =>
    if s.ord.locked || !w.lo then s
    else onOrd (fun x => { x with regions := tmod {} x.regions n fun r => { r with rights := BitVec.ofNat 26 (w.m % 2 ^ 24 + 3 * 2 ^ 24) } }) s
  | none => s

/-- The effect of a write to one slot. -/
def writeSlot (w : SlotWr) (s : State) : State :=
  let b := w.off / 2 ^ 20
  let o := w.off % 2 ^ 20
  if isExpert w.off then (if s.glb.expertEn ∧ w.lo then setExpert w.off (w.m % 2 ^ 32) s else s)
  else if b = 0 then writeGlb o w s
  else if b = 1 then writeTck o w s
  else if b = 2 then writeMed o w s
  else if b = 3 then (if o = 0x190 then onDrf (fun d => { d with pkgSel := bits w.m 0 6 }) s else s)
  else if b = 4 then (if o = 0x80 then onCch (fun c => { c with selWay := bits w.m 24 4, selSet := bits w.m 0 17 }) s else s)
  else if b = 5 then writeDir o w s
  else if b = 7 then writeStm o w s
  else if b = 8 then writeGrp o w s
  else if b = 9 then writeHst o w s
  else if b = 0xA then (if 0x80000 ≤ o then writeCph (o - 0x80000) w s else writeSec o w s)
  else if b = 0xB then writePwr o w s
  else if b = 0xC then writeClk o w s
  else if b = 0xD then writeThm o w s
  else if b = 0xE then writeErr o w s
  else if b = 0xF then writePmc o w s
  else if b = 0x10 then writeEvr o w s
  else if b = 0x11 then writeLdg o w s
  else s

/-- A write of `size` (4 or 8) bytes at an aligned offset by class `cls` (1 host, 2 debug): nothing in a block that is not served, and
only the mark of a gated access in a gated unit (R383, R461). -/
def regWrite (cls off size : Nat) (v : BitVec 64) (s : State) : State :=
  if !served s off then s
  else if gatedOff s off then onClk (fun c => { c with gatedAccess := true }) s
  else
    let base := off / 8 * 8
    let lo := size == 8 || off % 8 == 0
    let hi := size == 8 || off % 8 == 4
    let n := if size = 8 then v.toNat else v.toNat % 2 ^ 32
    let a := n * 2 ^ (8 * (off % 8))
    let old := readSlot s cls base
    let m := (if lo then a % 2 ^ 32 else old % 2 ^ 32) + (if hi then a / 2 ^ 32 % 2 ^ 32 else old / 2 ^ 32 % 2 ^ 32) * 2 ^ 32
    let t := wakeFor off s
    if t.glb.wakeBad != s.glb.wakeBad then t else writeSlot { off := base, m, a := a % 2 ^ 64, lo, hi, cls } t

/-- The host's accesses to BAR0, BAR2 and BAR4 are decoded: the configuration space is ready, the link is up and the function is in D0
(R323, R324). -/
def hostUp (s : State) : Bool := s.hst.cfgReady && s.hst.linkUp && !s.hst.d3

/-- A write of the host to a unit's registers by a row of its own. -/
def hostWrites (off : Nat) (f : State → State) (s : State) : State :=
  if !served s off then s
  else if gatedOff s off then onClk (fun c => { c with gatedAccess := true }) s
  else f s

end Sys2Proof.Machine
end

