-- ==== Sys2Proof/Machine/Startup.lean ====
section
/-!
DEFINITION. Start-up (R360 to R384): the rails and clocks, the configuration image, recovery of the medium, the restore of a dump,
recalibration after power-off, and memory ready.
-/

namespace Sys2Proof.Machine
open Sys2Proof

/-! ## The configuration image (R369 to R374) -/

/-- A number in an image, least significant byte first. -/
def imgNum (m : List Host.Cell) (lo n : Nat) : Nat := leVal (Memory.readN 0xFF m lo n)

/-- Sections of an image: type, position of the body, length of the body. -/
def imgSections (m : List Host.Cell) : Nat → Nat → List (Nat × Nat × Nat)
  | 0, _ => []
  | n + 1, p =>
    let len := imgNum m (p + 4) 4
    (imgNum m p 2, p + 8, len) :: imgSections m n (p + 8 + len)

def imgLength (m : List Host.Cell) : Nat := imgNum m 16 4
def imgSecs (m : List Host.Cell) : List (Nat × Nat × Nat) := imgSections m (imgNum m 20 2) 64
def imgExpert (m : List Host.Cell) : Bool := bitOf (imgNum m 22 1) 0

/-- The entries of the REGISTERS sections: offset and value. -/
def imgEntries (m : List Host.Cell) : List (Nat × Nat) :=
  ((imgSecs m).filter fun x => x.1 == 1).flatMap fun x =>
    (upto (x.2.2 / 16)).map fun i => (imgNum m (x.2.1 + 16 * i) 4, imgNum m (x.2.1 + 16 * i + 8) 4)

/-- The bits of a register whose fields have the reset "image"; expert registers only with EXPERT_EN. -/
def imgMask (s : State) (expert : Bool) (off : Nat) : Option Nat :=
  if isExpert off then
    if expert then some (2 ^ 31 + (expertFields s off).foldl (fun n f => n + (2 ^ f.2.1 - 1) * 2 ^ f.1) 0) else none
  else if off = 0x0000040 then some 1
  else if off = 0x0100000 then some 7
  else if off = 0x0100008 then some 0x1F
  else if off = 0x0200000 ∨ off = 0x0500000 ∨ off = 0x0B00030 ∨ off = 0x0C00000 then some 1
  else if off = 0x0700000 then some 0x7F
  else if off = 0x0800000 then some 0xFF1F03
  else if off = 0x0B00010 then some 0x3F
  else if off = 0x0B00020 then some 0x7FFFFFF
  else if off = 0x0C00010 then some 0x7FFFFFF
  else if off = 0x0E00008 then some 0xFFFFFF01
  else match inst off 0x0601000 0x20 64 with
    | some (_, r) => if r = 0x00 ∨ r = 0x08 then some 0x7FFFF else if r = 0x10 then some 0x3F else none
    | none => match inst off 0x0701000 0x1000 8 with
      | some (_, r) => if r = 0x100 then some 0xFFF0000 else if r = 0x800 then some 1 else none
      | none => match inst off 0x0A01000 8 64 with
        | some (_, 0) => some 0xFFFFFF
        | some _ => none
        | none => match inst off 0x0510000 0x1000 8, inst off 0x0810000 0x1000 4 with
          | some (_, 0), _ => some 1
          | _, some (_, 0) => some 1
          | _, _ => none

/-- The key that verifies an image, by its hash (R385). -/
def imgKey (s : State) : Nat := if s.flash.lc = 1 ∨ s.flash.lc = 2 then s.flash.ownerHash.getD 0 else Config.imageKeyHash

/-- The hash that an image's signature covers. -/
def imgDigest (m : List Host.Cell) : Nat := Config.sha384 (Memory.readN 0xFF m 0 (imgLength m))

/-- The first check of R372 that a slot fails, numbered in the table's order from 1; 0 when it passes. -/
def checkImage (s : State) (slot : Nat) : Nat :=
  let m := slotBytes s slot
  let es := imgEntries m
  let expert := imgExpert m
  if imgNum m 0 4 ≠ 0x4C584158 ∨ imgNum m 4 2 ≠ 1 ∨ 2 ^ 20 < imgLength m + 96
      ∨ ((imgSecs m).map fun x => 8 + x.2.2).sum + 64 ≠ imgLength m then 1
  else if !Config.imageSigOk (imgKey s) (imgDigest m) (beVal (Memory.readN 0xFF m (imgLength m) 96)) then 2
  else if imgNum m 6 2 ≠ (if isBig s then 0x7240 else 0x7212) then 3
  else if imgNum m 12 4 < s.flash.versionFloor then 4
  else if (!(imgSecs m).all fun x => x.1 == 1 || x.1 == 2 || decide (0x8000 ≤ x.1))
      || (!es.all fun e => match imgMask s expert e.1 with
        | some k => e.2 &&& k == e.2
        | none => false)
      || (es.map (·.1)).eraseDups.length != es.length
      || ((es.any fun e => e.1 == 0x0800000 && e.2 % 4 != 0) && !(imgSecs m).any fun x => x.1 == 2) then 5
  else 0

/-- GRP_CTRL.SIZE as a number of members. -/
def sizeOfCode (c : Nat) : Nat := 2 ^ (c % 4)

/-- One entry of the image takes its place, at the nearest permitted value (R373). -/
def applyEntryOf (off v : Nat) (s : State) : State :=
  let near := fun (w : Nat) => clampIf (w != v) off
  if isExpert off then setExpert off v s
  else if off = 0x0100000 then
    let c := if 2 ≤ v % 4 then 0 else v % 4
    clampIf (c != v % 4) off (onTck (fun t => { t with source := c, outEn := bitOf v 2 }) s)
  else if off = 0x0100008 then near (min v 28) (onTck (fun t => { t with code := min v 28 }) s)
  else if off = 0x0200000 then onMed (fun x => { x with wear := v }) s
  else if off = 0x0500000 then onDir (fun d => { d with readGrant := v }) s
  else if off = 0x0B00030 then onPwr (fun p => { p with policy := v }) s
  else if off = 0x0C00000 then onClk (fun c => { c with tree := v == 1 }) s
  else if off = 0x0700000 then near (clamp 1 64 v) (onStm (fun x => { x with commitTicks := clamp 1 64 v }) s)
  else if off = 0x0800000 then
    let w := clamp 1 100 (bits v 16 8)
    let k := bits v 8 5
    let k' := if 12 ≤ k ∧ k ≤ 30 then k else 0
    clampIf (w != bits v 16 8 || k' != k) off (onGrp (fun g => { g with formWait := w, interleave := k', size := sizeOfCode v }) s)
  else if off = 0x0B00010 then near (clamp 12 32 v) (onPwr (fun p => { p with cap := clamp 12 32 v }) s)
  else if off = 0x0B00020 then
    setPfw off v s
  else if off = 0x0C00010 then onClk (fun c => { c with gate := BitVec.ofNat 27 v }) s
  else if off = 0x0E00008 then onErr (fun e => { e with ceLimit := bits v 16 16, vector := bits v 8 8, trapEn := bitOf v 0 }) s
  else match inst off 0x0601000 0x20 64 with
    | some (n, r) =>
      let s := clampIf (r == 0x10 && bits v 4 2 == 3) off s
      onOrd (fun o => { o with regions := tmod {} o.regions n fun x =>
        if r = 0x00 then { x with base := v }
        else if r = 0x08 then { x with limit := v }
        else { x with
          bound := min 2 (bits v 4 2)
          durable := bitOf v 3
          early := bitOf v 2
          device := bitOf v 1
          enable := bitOf v 0 } }) s
    | none => match inst off 0x0701000 0x1000 8 with
      | some (p, 0x100) => setWpt p (bits v 16 12) s
      | some (p, _) => onPort p (fun x => { x with enable := v == 1 }) s
      | none => match inst off 0x0A01000 8 64 with
        | some (n, _) => onOrd (fun o => { o with regions := tmod {} o.regions n fun x =>
            { x with rights := BitVec.ofNat 26 (v % 2 ^ 24 + 3 * 2 ^ 24) } }) s
        | none => match inst off 0x0510000 0x1000 8, inst off 0x0810000 0x1000 4 with
          | some (p, 0), _ => onLink p (fun k => { k with enable := v == 1 }) s
          | _, some (l, 0) => onLink (8 + l) (fun k => { k with enable := v == 1 }) s
          | _, _ => s

/-- Two enabled regions share a unit (R212). -/
def regionsOverlap (s : State) : Bool :=
  (upto 64).any fun i => (upto i).any fun j =>
    let a := region s i
    let b := region s j
    a.enable && b.enable && decide (a.base ≤ b.limit) && decide (b.base ≤ a.limit) && decide (a.base ≤ a.limit) && decide (b.base ≤ b.limit)

/-- Writes of the debug port that were held take effect, in order of arrival (R364). -/
def releaseWrites (s : State) : State :=
  each s.glb.heldWrites (fun w s => emit (.debug (some [])) (regWrite 2 w.1 w.2.1 w.2.2 s)) (onGlb (fun g => { g with heldWrites := [] }) s)

/-- The host can reach the configuration space and BAR0 (R363). -/
def hostOpens (s : State) : State :=
  onClk (fun c => { c with pcieRef := true }) (onHst (fun h => { h with cfgReady := true, linkUp := true }) s)

/-- Step 6: the image of a slot is applied, and every RWL field is locked. -/
def applyImage (slot : Nat) (s : State) : State :=
  let m := slotBytes s slot
  let es := imgEntries m
  let keys := ((imgSecs m).filter fun x => x.1 == 2).flatMap fun x =>
    (upto (min 8 (x.2.2 / 48))).map fun i => beVal (Memory.readN 0xFF m (x.2.1 + 48 * i) 48)
  let s := onGlb (fun g => { g with
    expertEn := imgExpert m
    slot
    imgVersion := imgNum m 12 4
    imgRaise := bitOf (imgNum m 22 1) 1
    imgHash := imgDigest m
    groupKeys := keys }) s
  let s := each (es.filter fun e => e.1 == 0x0100008) (fun e s => applyEntryOf e.1 e.2 s) s
  let s := each (upto 8) (fun p s => onPort p (fun x => { x with wpt := wptMax s }) s) s
  let s := each (es.filter fun e => e.1 != 0x0100008) (fun e s => applyEntryOf e.1 e.2 s) s
  let s := onClk (fun c =>
    let g := if c.tree then c.gate else c.gate ||| 0x7000000
    { c with gate := g, gateSt := g }) s
  let s := onOrd (fun o => { o with locked := true, overlap := regionsOverlap s }) s
  releaseWrites (applySettings (hostOpens (onGlb (fun g => { g with imageApplied := true, step := 6 }) s)))

/-! ## Failing (R382, R383) -/

/-- The failed state. Cause 0 is that of END, which is no failure (R390). -/
def failStart (cause unit : Nat) (s : State) : State :=
  let s := onTck (fun t => { t with running := false }) (onGlb (fun g => { g with failed := true, failCause := cause, failUnit := unit }) s)
  let s := if cause = 0 then s else event 0x0903 0 (cause + unit * 256) s
  releaseWrites (hostOpens s)

/-- A wake on demand has failed (R368, R382). -/
def wakeStep (s : State) : State :=
  match s.glb.wakeBad with
  | some (c, u) => failStart c u (onGlb (fun g => { g with wakeBad := none }) s)
  | none => s

/-! ## Steps 4 to 6: the boot ROM -/

/-- Retired locations are out of use again (R489, R498). -/
def applyRepairs (s : State) : State :=
  each s.flash.repairs (fun r s =>
    let s := onMemErr r.1 (fun m => { m with used := r.2.length }) s
    if r.1 = 0 then each (r.2.filter fun k => decide (2 ^ 60 ≤ k)) (fun k s => onWay (k - 2 ^ 60) (fun w => { w with off := true }) s) s
    else if r.1 = 1 then each r.2 (fun k s => onWay k (fun w => { w with off := true }) s) s
    else if r.1 = 2 then onDir (fun d => { d with off := r.2 }) s
    else if r.1 = 3 then onStm (fun x => { x with combOff := r.2 }) s
    else s) s

/-- A life-cycle change whose record is durable is completed (R389): the fuse counter, then the key. -/
def finishLc (s : State) : State :=
  let s := { s with fuses := { s.fuses with transitions := max s.fuses.transitions s.flash.lcTrans } }
  let s := onFlash (fun f => { f with keyErase0 := false, keyErase1 := false }) s
  let old := match s.medium.mediaKey with
    | some (n, _) => n != s.fuses.transitions
    | none => s.flash.lc != 4
  let s := if old then newMediaKey s else s
  onGlb (fun g => { g with lcForward := s.medium.written != s.fuses.transitions }) s

/-- IMAGE_SEQ of a slot; 0 for an unreadable header. -/
def imgSeq (s : State) (slot : Nat) : Nat :=
  let m := slotBytes s slot
  if imgNum m 0 4 = 0x4C584158 then imgNum m 8 4 else 0

/-- Step 5: the slot with the higher IMAGE_SEQ first, then the other (R369). -/
def chooseImage (s : State) : State :=
  let a := if imgSeq s 0 < imgSeq s 1 then 1 else 0
  let k := checkImage s a
  if k = 0 then applyImage a s
  else
    let s := onGlb (fun g => { g with fallback := true }) (event 0x0901 0 (a + k * 256) s)
    if checkImage s (1 - a) = 0 then applyImage (1 - a) s else failStart 2 0 s

/-- Steps 4 to 6 of R360, once the core clock is locked and the TAP lets the sequence go on. -/
def bootSteps (s : State) : State :=
  if s.glb.step ≠ 3 ∨ s.glb.failed ∨ s.plinth.tapHold then s
  else
    let (k, s) := free s
    let s := onSec (fun c => { c with bootKey := k % 2 ^ 256 }) (onCch (fun c => { c with initDone := true }) (onClk (fun c => { c with cores := 15 }) s))
    let s := onGlb (fun g => { g with step := 4 }) s
    if !s.flash.tableOk then failStart 1 0 s
    else if !s.flash.lcOk then failStart 7 0 s
    else
      let s := reserveNonces (onFlash (fun f => { f with nonceAsked := f.nonceReserved }) (onCph (fun c => { c with nonceCtr := s.flash.nonceReserved }) s))
      let s := onPwr (fun p => { p with hours := hoursSince s, cMeas := s.flash.lastC.getD 0 }) (applyRepairs (finishLc s))
      let s := if s.plinth.tripNew then
          onPlinth (fun p => { p with tripNew := false }) (onThm (fun t => { t with cntTrip := sat 64 t.cntTrip 1 })
            (event 0x0A07 0xB (2 ^ 31 + s.plinth.tripSensor * 4096 + twos 12 s.plinth.tripTemp) s))
        else s
      if s.flash.lc = 4 then failStart 0 0 (onMedium (fun m => { m with written := s.fuses.transitions }) s)
      else
        let s := if s.flash.lc = 1 ∨ s.flash.lc = 2 then
            onSec (fun c => { c with transport := some (transportKey s) }) s
          else s
        chooseImage s

/-! ## The media engine while nothing else runs: every piece of its work ends well (R379, DESIGN CHOICE, log 48) -/

/-- A read of a map page for the engine's own work ends. -/
def readNow (r : MRead) (s : State) : State :=
  match r.why with
  | .mapPage m => loadMap m false (onMed (fun x => { x with reads := x.reads.filter fun q => q.id != r.id }) s)
  | _ => s

/-- A program takes its page and verifies. -/
def programNow (p : Prog) (s : State) : State :=
  match s.med.progs.find? fun q => q.id == p.id with
  | none => s
  | some p =>
    match firstPiece p s with
    | (false, s) => s
    | (true, s) => match s.med.progs.find? fun q => q.id == p.id with
      | some q => match q.ppn with
        | some ppn => progVerified q ppn s
        | none => s
      | none => s

/-- Rounds of the engine, each with every journal page due, until nothing is left or the rounds are used. -/
def mediaRun : Nat → State → State
  | 0, s => s
  | n + 1, s =>
    if s.med.progs.isEmpty && s.med.staging.isEmpty && s.med.jbuf.isEmpty && s.med.pend.isEmpty && s.med.ckpt.isNone then s
    else
      let s := onMed (fun m => { m with jbuf := m.jbuf.map fun p => { p with due := true } }) s
      let s := mediaStep s
      let s := each s.med.reads readNow s
      mediaRun n (each s.med.progs programNow s)

def mediaRounds (s : State) : Nat :=
  64 + 4 * (s.med.staging.length + s.med.progs.length + s.med.jbuf.length + s.med.jwait.length + s.med.pend.length + s.med.slots.length
    + s.med.late.length + s.med.chSegs.length)

/-! ## Recovery (R100, R101, R377, R378) -/

/-- DATA_SEQ of the candidate in force for a user page (kind 0) or a map page (kind 1): of one found, else of the entry of the
checkpoint, which its page gives; a zero or poisoned user page has the sequence that the checkpoint keeps beside it, and a poisoned
map page counts as old as the checkpoint (DEDUCED, log 28). -/
def foundSeq (ck : Ckpt) (found : Table Nat) (s : State) (kind id : Nat) : Nat :=
  match tget 0 found (2 * id + kind) with
  | n + 1 => n
  | 0 =>
    let e := tget {} (if kind = 0 then ck.map else ck.dir) id
    -- a page that has been reset and reused since names another page, or this one newer
    if e.valid then (match mediumPage s e.ppn with | some p => if p.kind = kind ∧ p.pageId = id then p.seq else 0 | none => 0)
    else if e.zero || e.poison then (if kind = 0 then tget 0 ck.flags id else ck.seq) else 0

/-- An entry found by recovery stands; the map page it belongs to has changed since the checkpoint, and comes into the map page cache as that
has room (R82). -/
def putEntry (kind id : Nat) (e : MapEnt) (s : State) : State :=
  if kind = 0 then
    touchMap (mapPageOf id) true (onMed (fun m => { m with map := tset {} m.map id e }) s)
  else setDir id e s

/-- A candidate of R101: it wins with a higher DATA_SEQ, and when it comes later in the journal also with the same one. -/
def offer (ck : Ckpt) (kind id : Nat) (e : MapEnt) (seq : Nat) (later : Bool) (p : Table Nat × State) : Table Nat × State :=
  let cur := foundSeq ck p.1 p.2 kind id
  if cur < seq ∨ (later = true ∧ cur = seq) then (tset 0 p.1 (2 * id + kind) (seq + 1), putEntry kind id e p.2) else p

/-- The records that still say where data is: a RELOC_COMMIT of a target block that has been reset since does not (R101). -/
def standing : List JRec → List JRec
  | [] => []
  | r :: l => match r with
    | .relocCommit _ _ _ _ tgt _ => if l.contains (.resetDone tgt) then standing l else r :: standing l
    | _ => r :: standing l

/-- The records of the journal pages after that of a checkpoint's mark, those of the dump after them (R379). -/
def recordsAfter (s : State) (ck : Ckpt) : List JRec :=
  standing <| ((journalPages s).filter fun j => decide (ck.jseq < j.jseq)).flatMap (·.recs) ++ (match s.medium.dump with
    | some d => d.items.flatMap fun x => x.jrecs
    | none => [])

/-- Activity of the last RELOC_BEGIN of a block. -/
def lastAct (s : State) (b : Nat) : Nat :=
  (journalRecs s).foldl (fun a r => match r with | .relocBegin act x => if x = b then act else a | _ => a) 0

/-- The copies that a RELOC_COMMIT covers: the source pages of its bitmap, and as many consecutive pages of the target from its first page
(R97). -/
def commitCopies (s : State) (redo : Bool) (w first tgt : Nat) (bm : BitVec 64) : List (Copied × MPage) :=
  ((upto 64).filter bm.getLsbD).zipIdx.filterMap fun x =>
    (mediumPage s (tgt * 2048 + first + x.2)).map fun q =>
      ({ page := 64 * w + x.1, tgt := tgt * 2048 + first + x.2, id := q.pageId, cold := q.cold, redo }, q)

/-- A relocation that was under way when the power went starts again (R100). -/
def againReloc (b act : Nat) (s : State) : State :=
  if s.med.relocs.any fun r => r.src == b then s
  else onMed (fun m => { m with nextId := m.nextId + 1, relocs := m.relocs ++ [{ id := m.nextId, src := b, act, begun := true }] }) s

/-- A reset that was under way is completed from strip 1 (R100). -/
def againReset (b : Nat) (s : State) : State :=
  let x := blk s b
  let act := lastAct s b
  let s := onMed (fun m => { m with relocs := m.relocs.filter fun r => r.src != b }) s
  if s.med.resets.any fun r => r.block == b then s
  else onMed (fun m => { m with resets := m.resets ++
    [{ block := b, owner := if x.multi then ownerOfReloc act else 0, rewrite := x.multi && act == 3 }] }) s

/-- One journal record is replayed (R101, R378). -/
def replay (ck : Ckpt) (p : Table Nat × State) (r : JRec) : Table Nat × State :=
  let s := p.2
  let blkTo (b : Nat) (f : Blk → Blk) : Table Nat × State := (p.1, onBlk b f s)
  match r with
  | .mapSet u e seq _ => offer ck 0 u e seq true p
  | .mapPageWrite m e => match mediumPage s e.ppn with
    | some q => if q.kind = 1 ∧ q.pageId = m then offer ck 1 m e q.seq true p else p
    | none => p
  | .relocCommit redo w first src tgt bm =>
    let cs := commitCopies s redo w first tgt bm
    let s := onMed (fun m => { m with relocs := m.relocs.map fun x =>
      if x.src = src then { x with
        made := x.made ++ cs.map (·.1)
        again := if redo then x.again.filter fun i => !(cs.any fun c => c.1.page == i) else x.again } else x }) s
    cs.foldl (fun p c => offer ck c.2.kind c.2.pageId { valid := true, cold := c.2.cold && c.2.kind == 0, ppn := c.1.tgt } c.2.seq true p) (p.1, s)
  | .blockOpen role _ b => blkTo b fun x => { x with
      st := .opened
      role
      next := 0
      valid := 0
      heavy := 0
      resets := if role ≤ 1 ∧ x.tally ≠ 0 then x.resets + 1 else x.resets
      tally := if role ≤ 1 then 0 else x.tally }
  | .relocBegin act b =>
    if (blk s b).st = .failed then p
    else
      -- a rewrite at the limit ends in retirement (R107)
      (p.1, againReloc b act (onBlk b (fun x => { x with
        st := .victim, repointQ := false, rewriteQ := none, doom := if act = 3 ∧ x.rewrites = 3 then 4 else x.doom }) s))
  | .pendingReset b n t => (p.1, againReset b (onBlk b (fun x => { x with st := .pendingReset, resets := n, tally := t }) s))
  | .resetDone b =>
    let rw := s.med.resets.any fun r => r.block == b && r.rewrite
    (p.1, onMed (fun m => { m with resets := m.resets.filter fun r => r.block != b })
      (onBlk b (fun x => { freedBlk rw x with cohort := none }) s))
  | .state st cause b =>
    let s := onBlk b (fun x => { x with st, doom := cause, order := s.med.order, repointQ := false, rewriteQ := none }) s
    let s := onMed (fun m => { m with order := m.order + 1 }) s
    if st = .failed then
      (p.1, onMed (fun m => { m with relocs := m.relocs.map fun x =>
        let l := (x.made.filter fun c => blockOfPpn c.tgt == b).map (·.page)
        { x with again := (x.again ++ l).eraseDups } }) s)
    else
      (p.1, onMed (fun m => { m with
        relocs := m.relocs.filter fun x => x.src != b
        resets := m.resets.filter fun x => x.block != b }) s)
  | _ => p

/-- The verified pages of write-path and MAP-stream blocks that were OPEN at the mark or opened since are candidates. -/
def scanPages (ck : Ckpt) (p : Table Nat × State) : Table Nat × State :=
  let s := p.2
  let opened := (ck.blocks.filter fun b => b.2.st == .opened).map (·.1) ++ (recordsAfter s ck).filterMap fun r => match r with
    | .blockOpen _ _ b => some b
    | _ => none
  s.medium.pages.foldl (fun p x => match x.2 with
    | some q =>
      if q.good ∧ q.kind ≤ 1 ∧ !q.reloc ∧ blockOfPpn x.1 ∈ opened then offer ck q.kind q.pageId { valid := true, ppn := x.1 } q.seq false p else p
    | none => p) p

/-- Pages of a block that are programmed, from page 0 to the last. -/
def programmedTo (s : State) (b : Nat) : Nat :=
  s.medium.pages.foldl (fun n p => if blockOfPpn p.1 = b then max n (pageInBlock p.1 + 1) else n) 0

/-- A block after replay: pages already used, FULL when none is left, and the queues of the running module forgotten. What the checkpoint's
block table says of DRIFT_OVERDUE stands, so that the event is recorded again only for a block marked since (DESIGN CHOICE, log 143). -/
def settleBlk (s : State) (b : Nat) (x : Blk) : Blk :=
  let n := if x.st = .free then x.next else max x.next (programmedTo s b)
  let q := expertIn s 0x0200018 / 256 % 16 ≤ x.heavy ∧ (x.st = .opened ∨ x.st = .full)
  { x with
    next := n
    doom := if q ∧ x.rewrites = 3 then 4 else x.doom
    st := if x.st = .opened ∧ (if x.multi then 2048 else 682) ≤ n then .full else x.st
    repointQ := false
    rewriteQ := if q then some (x.rewriteQ.getD b) else none
    valid := if x.multi then
        ((s.med.map ++ s.med.dir).filter fun e => e.2.valid && blockOfPpn e.2.ppn == b).length
      else x.valid }

/-- Blocks first programmed after the mark join the newest cohort of their package, and the cohorts are counted again (R120). In a package
that had none at the mark they make one, stamped with the loaded Θ (DESIGN CHOICE, log 144). -/
def settleCohorts (s : State) : State :=
  let s := each s.med.blocks (fun p s =>
    if p.2.multi ∧ p.2.cohort = none ∧ 0 < p.2.next ∧ (p.2.st = .opened ∨ p.2.st = .full ∨ p.2.st = .victim ∨ p.2.st = .failed) then
      let i := packageOfBlock s p.1
      match (pkg s i).cohorts.getLast? with
      | some c => onBlk p.1 (fun x => { x with cohort := some c.idx }) s
      | none =>
        onBlk p.1 (fun x => { x with cohort := some 0 })
          (onPkg i (fun k => { k with cohorts := [{ idx := 0, stamp := k.theta, count := 0 }] }) s)
    else s) s
  each (upto (packages s)) (fun i s =>
    let n := fun (c : Nat) => (s.med.blocks.filter fun p => p.2.cohort == some c && packageOfBlock s p.1 == i).length
    onPkg i (fun k => { k with cohorts := (k.cohorts.map fun c => { c with count := n c.idx }).filter fun c => c.count != 0 }) s) s

/-- The streams go on in their OPEN blocks: of two, the one opened earlier is the current one. -/
def settleStreams (recs : List JRec) (s : State) : State :=
  let last := fun (b : Nat) => recs.foldl (fun (a : Option Nat) r => match r with | .blockOpen _ k x => if x = b then some k else a | _ => a) none
  let order := (recs.reverse.filterMap fun r => match r with | .blockOpen _ _ b => some b | _ => none).eraseDups.reverse
  each order (fun b s =>
    let x := blk s b
    if x.st ≠ .opened then s
    else
      let k := if x.role = 2 then 4 else if x.role = 3 then 5 else (last b).getD 0
      onStream (bankOfBlock b) k (fun t => if t.cur.isNone then { t with cur := some b } else { t with nxt := some b }) s) s

/-- Banks that are worn or read-only are so again, as neither state is ever left, and those that have retired a block without a spare, without a
new event (R110, R111). -/
def settleBanks (s : State) : State :=
  let ks := (touchedBanks s)
  let op := fun k => overProvision s k
  let worn := (s.medium.worn ++ ks.filter fun k => decide (op k < 512)).eraseDups
  let ro := (s.medium.readOnly ++ ks.filter fun k => decide (op k < 2 * floorF s)).eraseDups
  onMedium (fun m => { m with worn, readOnly := ro }) <| onMed (fun m => { m with
    worn
    readOnly := ro
    noSpare := ks.filter fun k => spareCount s k == 0 && decide (300 < retiredCount s k) }) s

/-- The highest write sequence that the checkpoint, the journal, the pages or the dump show (R73). -/
def topSeq (s : State) (ck : Ckpt) : Nat :=
  let a := (recordsAfter s ck).foldl (fun n r => match r with
    | .mapSet _ _ q _ => max n q
    | .mark _ q => max n q
    | .cleanShutdown q => max n q
    | _ => n) ck.seq
  let b := s.medium.pages.foldl (fun n p => match p.2 with
    | some q => if q.kind ≤ 1 then max n q.seq else n
    | none => n) a
  match s.medium.dump with
  | some d => max b d.gen
  | none => b

/-- JSEQ of the next journal page. -/
def nextJseq (s : State) (ck : Ckpt) : Nat :=
  let a := s.medium.pages.foldl (fun n p => match p.2 with
    | some q => if q.kind = 2 then max n q.seq else n
    | none => n) ck.jseq
  a + 1 + (match s.medium.dump with
    | some d => (d.items.filter fun x => x.type == 4).length
    | none => 0)

/-- The checkpoint in force is loaded (step 9). -/
def loadCkpt (ck : Ckpt) (s : State) : State :=
  let s := onDrf (fun d => { d with pkgs := ck.pkgs }) s
  let s := onMed (fun m => { m with
    map := ck.map
    dir := ck.dir
    blocks := ck.blocks
    ckptGen := ck.gen
    segAt := ck.segAt
    wseq := topSeq s ck
    jseq := nextJseq s ck
    order := ck.blocks.foldl (fun n b => max n (b.2.order + 1)) 0 }) s
  each ck.blocks (fun b s =>
    if b.2.st = .victim then againReloc b.1 (lastAct s b.1) s
    else if b.2.st = .pendingReset then againReset b.1 s
    else s) s

/-- An orphan (R96): a copy that a relocation left in its target without a commit, of the same page and write sequence as the
page still mapped. -/
def isOrphan (s : State) (ppn : Nat) (q : MPage) : Bool :=
  let e := if q.kind = 0 then mapEnt s q.pageId else dirOf s q.pageId
  let b := blk s (blockOfPpn ppn)
  q.reloc && decide (q.kind ≤ 1) && (b.st == .opened || b.st == .full) && e.valid && e.ppn != ppn
    && match mediumPage s e.ppn with | some x => x.seq == q.seq | none => false

/-- The orphans found at recovery, counted in MED_CNT_ORPHAN. -/
def countOrphans (s : State) : State :=
  let n := (s.medium.pages.filter fun p => match p.2 with | some q => isOrphan s p.1 q | none => false).length
  onMed (fun m => { m with cntOrphan := sat 64 m.cntOrphan n }) s

/-- A clean-shutdown record stands after the last checkpoint mark (R377). -/
def cleanEnd (l : List JRec) : Bool :=
  l.foldl (fun b r => match r with
    | .mark _ _ => false
    | .cleanShutdown _ => true
    | _ => b) false

/-- Blocks opened after the last clean shutdown. -/
def openedSince (l : List JRec) : List Nat :=
  l.foldl (fun a r => match r with
    | .cleanShutdown _ => []
    | .blockOpen _ _ b => b :: a
    | _ => a) []

/-- Steps 9 and 10: the checkpoint, the pages written since, and the journal; then the block table in order. -/
def rebuild (ck : Ckpt) (s : State) : State :=
  let recs := recordsAfter s ck
  let s := (recs.foldl (replay ck) (scanPages ck ([], loadCkpt ck s))).2
  let s := onMed (fun m => { m with blocks := m.blocks.map fun b => (b.1, settleBlk s b.1 b.2) }) s
  -- a clean shutdown has closed the OPEN blocks (R76); one opened since stays OPEN (R378)
  let s := if cleanEnd (journalRecs s) then closeOpen (openedSince (journalRecs s)) s else s
  settleBanks (settleCohorts (settleStreams (journalRecs s ++ recs) (countOrphans s)))

/-- Dump blocks that a dump has used are reset (R379 step 5): single-level wear, with the records of any reset (R76, R109). -/
def resetDumpBlocks (s : State) : State :=
  let isDump := fun (p : Nat × Option MPage) => match p.2 with | some q => q.kind == 4 | none => false
  each ((s.medium.pages.filter isDump).map fun p => blockOfPpn p.1).eraseDups (fun b s =>
    let x := blk s b
    -- at the rated endurance a block is retired instead (R108)
    if 10000000 ≤ x.resets then retire b 2 s else
    let s := enter (.resetDone b) false (enter (pendingRec b x) false s)
    onMed (fun m => { m with cntReset := sat 64 m.cntReset 1 })
      (onBlk b (fun y => { y with resets := (resetCounts x).1, tally := (resetCounts x).2 }) s))
    (onMedium (fun m => { m with pages := m.pages.filter fun p => !isDump p }) s)

/-- A start after a completed life-cycle change (kind 0b11): no map, and every block of data goes to its reset. -/
def eraseAll (s : State) : State :=
  let s := onMed (fun m => { m with map := [], dir := [], relocs := [], slots := [] }) s
  let s := each s.med.blocks (fun b s =>
    let x := b.2
    if x.multi ∧ (x.st = .opened ∨ x.st = .full ∨ x.st = .victim) then
      let s := enter (pendingRec b.1 x) false s
      onMed (fun m => { m with resets := m.resets ++ [{ block := b.1, owner := 2, rewrite := false, after := some (m.jseq - 1) }] })
        (onBlk b.1 (fun y => { y with valid := 0 }) s)
    else if x.st = .failed then onBlk b.1 (fun y => { y with valid := 0 }) s
    else s) s
  let s := onMed (fun m => { m with streams := [] }) s
  -- a checkpoint under the new key stands alone: what the old ones name can no longer be read (R388)
  let s := startCkpt 2 (resetDumpBlocks s)
  let s := mediaRun (mediaRounds s) s
  onMedium (fun m => { m with dump := none, ckpts := m.ckpts.take 1, written := s.fuses.transitions }) s

/-! ## The restore of a dump (R379 to R381) -/

/-- A restored page goes the way of any write-back (R84). -/
def restorePage (u : Nat) (d : LineData) (s : State) : State :=
  if d = 0 then writeFlag u { zero := true } false s else stageWrite u (bankForWrite s u) d s

/-- A gather-buffer entry merged into its line. -/
def mergeItem (d : LineData) (x : DumpItem) : LineData :=
  let g := x.granule % 8
  setGranule d g (mergeBytes (lineGranule d g) (x.data.setWidth 512) x.mask)

/-- The contents of a user page on the medium: zeros unless its entry names a page; none when it is poisoned. -/
def pageData (s : State) (u : Nat) : Option LineData :=
  let e := mapEnt s u
  if e.poison then none
  else if e.valid then (mediumPage s e.ppn).map (pagePlain s)
  else some 0

/-- A staged page of the dump is older than a write-back of its page that is durable already (R86): R234 keeps the later one (DEDUCED,
DEDUCED, log 110). -/
def outdated (ck : Ckpt) (s : State) (x : DumpItem) : Bool :=
  x.type == 3 && (decide (x.seq < foundSeq ck [] s 0 x.page) || (recordsAfter s ck).any fun r => match r with
    | .mapSet u _ q _ => u == x.page && decide (x.seq < q)
    | _ => false)

/-- Step 3 of R379: staged pages, lines with their entries, then the other entries; and poison. -/
def restoreItems (l : List DumpItem) (s : State) : State :=
  let staged := sortBy (fun x => [x.seq]) (l.filter fun x => x.type == 3)
  let lines := l.filter fun x => x.type == 1
  let gather := l.filter fun x => x.type == 5
  let run := fun (s : State) => mediaRun (mediaRounds s) s
  let s := run (each staged (fun x s => restorePage x.page x.data s) s)
  let s := run (each lines (fun x s =>
    restorePage x.page ((gather.filter fun g => g.granule / 8 == x.page).foldl mergeItem x.data) s) s)
  let rest := ((gather.map fun g => g.granule / 8).filter fun u => !(lines.any fun x => x.page == u)).eraseDups
  let s := run (each rest (fun u s => match pageData s u with
    | some d => restorePage u ((gather.filter fun g => g.granule / 8 == u).foldl mergeItem d) s
    | none => s) s)
  run (each (l.filter fun x => x.type == 2) (fun x s => writeFlag x.page { poison := true } false s) s)

/-- The dump is restored: its data, a checkpoint, DUMP_RELEASE, and the dump blocks. -/
def restoreDump (ck : Ckpt) (d : Dump) (us : Nat) (s : State) : State :=
  let s := restoreItems ((dumpRead s d.items).filter fun x => !outdated ck s x) s
  let s := startCkpt 2 s
  let s := mediaRun (mediaRounds s) s
  let s := onPwr (fun p => { p with dumpPages := dumpPageCount d.items, dumpUs := d.us, dumpGen := d.gen }) s
  let s := onGlb (fun g => { g with restoreUs := us }) s
  -- the dump is released once the checkpoint is durable, and its blocks are reset once that record is
  if s.med.ckpt.isSome then s else
  let s := enter (.dumpRelease d.gen) true s
  let s := mediaRun (mediaRounds s) s
  let s := resetDumpBlocks s
  onMedium (fun m => { m with dump := none }) (mediaRun (mediaRounds s) s)

/-- The dump exists (R438). -/
def dumpExists (s : State) : Bool :=
  match s.medium.dump with
  | some d => (match s.medium.released with | some g => decide (g < d.gen) | none => true)
  | none => false

/-! ## Recalibration after power-off (R137, R138, DESIGN CHOICE, log 49) -/

/-- Θ of a package goes on by `u` of its units. -/
def advanceBy (i u : Nat) : State → State := onPkg i fun p => { p with theta := p.theta + u }

/-- FULL blocks of multi-level role of a cohort of a package. -/
def fullOf (s : State) (i c : Nat) : List Nat :=
  (s.med.blocks.filter fun b => b.2.st == .full && b.2.multi && b.2.cohort == some c && packageOfBlock s b.1 == i).map (·.1)

/-- Up to 16 cohorts with FULL blocks, evenly spread in stamp order, with the oldest and the newest (R138). -/
def pickCohorts (s : State) (i : Nat) : List Cohort :=
  let l := (pkg s i).cohorts.filter fun c => !(fullOf s i c.idx).isEmpty
  if l.length ≤ 16 then l else (upto 16).filterMap fun k => nth l (k * (l.length - 1) / 15)

/-- The package has a FULL block of multi-level role in a cohort. -/
def hasFull (s : State) (i : Nat) : Bool := !(pickCohorts s i).isEmpty

/-- The lower of the two middle values; with one or two values the lower one. -/
def lowMiddle {α : Type} (l : List α) : Option α := nth l ((l.length - 1) / 2)

/-- The bin with the fewest corrected bits, of the 16 senses of a page; a tie goes to the older bin. How many bits each sense corrects, no rule
gives: free values. -/
def bestBin (s : State) : Nat × State :=
  let (l, s) := (upto 16).foldl (fun (a : List (Nat × Nat) × State) b =>
    let (v, s) := free a.2
    (a.1 ++ [(b, v)], s)) ([], s)
  ((bestOf (fun x y => keyLt [x.2, 15 - x.1] [y.2, 15 - y.1]) l).elim 0 (·.1), s)

/-- What one picked cohort shows: lo and hi in units of Θ; hi is none for bin 15. Of a cohort with fewer than four FULL blocks each is sensed
(DESIGN CHOICE, log 49). -/
def measureCohort (i : Nat) (p : List (Nat × Option Nat) × State) (c : Cohort) : List (Nat × Option Nat) × State :=
  let s := p.2
  let a := (pkg s i).theta - c.stamp
  let (bins, s) := ((fullOf s i c.idx).take 4).foldl (fun (x : List Nat × State) _ =>
    let (b, s) := bestBin x.2
    (x.1 ++ [b], s)) ([], s)
  let b := (lowMiddle (sortBy (fun x => [x]) bins)).getD 0
  let lower := if b = 0 then 0 else binEdge s b * eqSec
  (p.1 ++ [(lower - a, if b = 15 then none else some (binEdge s (b + 1) * eqSec - a))], s)

/-- The measurement of one package (R138): its u in units of Θ, and whether no common u was found. -/
def measurePkg (i : Nat) (s : State) : Nat × Bool × State :=
  let (l, s) := (pickCohorts s i).foldl (measureCohort i) ([], s)
  let los := l.map (·.1)
  let u := los.foldl max 0
  if l.any fun p => match p.2 with | some h => decide (h ≤ u) | none => false then
    ((lowMiddle (sortBy (fun x => [x]) los)).getD 0, true, event 0x0303 (0x20 + i / (packages s / 32)) i s)
  else (u, false, s)

/-- The unpowered equivalent time of every package (R137, R138); `off` in seconds. W(θ_max) of the grade is 3.443 or 1.000. Where
it is no whole number of equivalent seconds, U_MAX drops the part (DESIGN CHOICE, log 49). -/
def recalibrate (off : Nat) (s : State) : State :=
  let bound := off * (if s.fuses.grade = 2 then 3443 else 1000) * (eqSec / 1000)
  if s.plinth.kept ∧ off ≤ 86400 then
    onDrf (fun d => { d with method := 2, umax := bound / eqSec }) (each (upto (packages s)) (fun i s => advanceBy i bound s) s)
  else
    let (us, spread, s) := ((upto (packages s)).filter (hasFull s)).foldl (fun (x : List (Nat × Nat) × Bool × State) i =>
      let (u, sp, s) := measurePkg i x.2.2
      (x.1 ++ [(i, u)], x.2.1 || sp, s)) ([], false, s)
    let cap := fun (u : Nat) => if s.plinth.kept then min u bound else u
    let top := us.foldl (fun m p => max m p.2) 0
    let s := onDrf (fun d => { d with method := if s.plinth.kept then 3 else 1, umax := cap top / eqSec, spread }) s
    each (upto (packages s)) (fun i s => advanceBy i (cap ((us.find? fun p => p.1 == i).elim top (·.2))) s) s

/-! ## Pinning (R82, R83) -/

/-- Map pages of the class A regions in force are loaded and pinned; a region that does not fit is named (step 12). -/
def pinMaps (s : State) : State :=
  let l := pinnedRegions s
  let s := each l (fun n s =>
    let r := region s n
    let z := r.size s
    if z = 0 then s
    else
      let lo := r.base * 2 ^ 17 / 96
      let hi := (r.base * 2 ^ 17 + z / 512 - 1) / 96
      each (upto (hi + 1 - lo)) (fun i s =>
        let old := tget none s.med.slots (lo + i)
        let s := loadMap (lo + i) true s
        match old with
        | some t => if t.dirty then touchMap (lo + i) true s else s
        | none => s) s) s
  match (upto 64).find? fun n => (region s n).enable && (region s n).bound == 0 && !decide (n ∈ l) with
  | some n => onMed (fun m => { m with pinTrim := true }) (event 0x0208 0 n s)
  | none => s

/-! ## Steps 7 to 12 -/

/-- The kind of the start is shown, and an unclean one recorded (R377). -/
def setKind (k : Nat) (s : State) : State :=
  let s := onGlb (fun g => { g with startKind := k }) s
  if k = 2 then event 0x0902 0 2 s else s

/-- Steps 9 to 12: recovery, the dump, recalibration, pinning. Where the newest mark cannot be loaded, `older`, the one before it is (R382).
`off` is the off interval in seconds, `us` the time of the restore. -/
def recovery (older : Bool) (off us : Nat) (s : State) : State :=
  match s.medium.ckpts.drop (b2n older) with
  | [] => failStart 6 0 s
  | ck :: _ =>
    let s := if s.medium.written ≠ s.fuses.transitions then
        setKind 3 (eraseAll (rebuild ck (onMedium (fun m => { m with dump := none }) s)))
      else if dumpExists s then
        match s.medium.dump with
        | some d =>
          let s := setKind (if d.complete then 1 else 2) (onGlb (fun g => { g with dumpPartial := !d.complete }) (rebuild ck s))
          restoreDump ck d us s
        | none => s
      else
        -- the reset of the blocks of a dump that has been released is completed (R381)
        let left := s.medium.dump.isSome
        let s := onMedium (fun m => { m with dump := none }) s
        let s := setKind (if cleanEnd (journalRecs s) ∧ s.medium.lossy = false then 0 else 2) (rebuild ck s)
        if left then (fun s => mediaRun (mediaRounds s) s) (resetDumpBlocks s) else s
    onGlb (fun g => { g with step := 12 }) (pinMaps (recalibrate off s))

/-- A sensor is in B5 (R382). -/
def tooHot (s : State) : Bool := (upto 85).any fun n => !(sensor s n).broken && (sensor s n).band == 5

/-- Steps 7 to 12 (R360), or the failure of one of them (R382). -/
def dramReady (b : BootMedia) (off us : Nat) (s : State) : State :=
  if s.glb.step ≠ 6 ∨ s.glb.failed ∨ s.plinth.tapHold ∨ tooHot s then s
  else
    let step (n : Nat) : State → State := onGlb fun g => { g with step := n }
    let rest : State → State := fun s =>
        let s := onClk (fun x => { x with dram := 0xFFFF, media := 0xFFFFFFFF }) s
        let s := onSec (fun c => { c with mediaKey := match s.medium.mediaKey with
          | some (_, w) => (Config.keyUnwrap (mediaWrapKey s) w).map fun k => (BitVec.ofNat 256 k, BitVec.ofNat 256 (k / 2 ^ 256))
          | none => none }) s
        let s := step 8 (readTrims (onTck (fun t => { t with running := true }) s))
        let s := if s.plinth.st = 1 then recordCycles (s.flash.powerCycles + 1) s else s
        if b = .noMark then failStart 6 0 s else recovery (b == .olderMark) off us s
    -- the wake step of a domain that was woken on demand is skipped (R368)
    match b with
    | .dramFail k => if s.clk.dram = 0xFFFF then rest s else failStart 4 (k % 16) s
    | .mediaFail c => if s.clk.media = 0xFFFFFFFF then rest s else failStart 5 (c % 32) (step 7 (onClk (fun x => { x with dram := 0xFFFF }) s))
    | _ => rest s

/-! ## Rails and clocks (R360 steps 1 to 3, R423, R425, R455) -/

/-- The rail sequence starts. -/
def startRails (vin : Nat) (s : State) : State :=
  let s := setRail 0 1 0 (allRails 0 s)
  let s := onGlb (fun g => { g with step := 1 }) s
  onPlinth (fun p => { p with
    alive := true, st := 1, vin, down := false, agtRst := 0xFF, off := false, onReq := false, autoRe := false, cause := 0 }) s

/-- VIN passes the start threshold, or an on request waits (R417, R442, R443, R446). -/
def powerUp (vin : Nat) (s : State) : State :=
  if s.plinth.st = 0 ∧ s.plinth.latched = false ∧ (s.plinth.onReq ∨ !s.plinth.alive) ∧ restartMv s ≤ vin then startRails vin s else s

/-- The restart of R442. -/
def autoRestart (s : State) : State :=
  if s.plinth.st = 0 ∧ s.plinth.latched = false ∧ s.plinth.alive = true ∧ (s.plinth.autoRe ∨ s.plinth.onReq) ∧ s.plinth.down = false then
    startRails s.plinth.vin s else s

/-- A rail becomes good: the next is enabled, or step 2 is reached. -/
def railGood (rail mv : Nat) (s : State) : State :=
  if s.plinth.st ≠ 1 ∨ railSt s rail ≠ 1 ∨ !railInWindow rail mv then s
  else
    let s := setRail rail 2 mv s
    if rail < 23 then setRail (rail + 1) 1 0 s
    else
      let s := onPlinth (fun p => { p with charger := true }) (onGlb (fun g => { g with step := 2 }) s)
      if s.plinth.latchClr then supplyLog 7 0xFF 0 0 (onPlinth (fun p => { p with latchClr := false }) s) else s

/-- A rail has not become good within 5 ms (R425). -/
def railStart (rail mv : Nat) (s : State) : State :=
  if s.plinth.st ≠ 1 ∨ railSt s rail ≠ 1 then s
  else railsDown 6 (latch rail (supplyLog 1 rail mv 0 (setRail rail 3 mv s)))

/-- REF is stable and the PLLs have locked (R455): step 3. -/
def refStable (cycles : Nat) (s : State) : State :=
  if s.glb.step ≠ 2 ∨ !(s.plinth.st == 1 || s.plinth.st == 2) ∨ s.glb.failed then s
  else
    let s := onClk (fun c => { c with refCnt := cycles, refStable := true, locked := true }) s
    let s := onPlinth (fun p => { p with idSeen := true }) (onGlb (fun g => { g with identity := true, step := 3 }) s)
    bootSteps s

/-- Neither REF nor the core clock is ready within 10 ms of step 2 (R382). -/
def clockTimeout (s : State) : State :=
  if s.glb.step ≠ 2 ∨ !(s.plinth.st == 1 || s.plinth.st == 2) then s
  else
    let s := event 0x0903 0 3 (onGlb (fun g => { g with failCause := 3 }) s)
    railsDown 6 (latch 255 (supplyLog 8 0xFF 0 0 (saveEvents s)))

/-- A sensor has been in B5 for 60 s before step 8 (R382). -/
def startTooHot (n : Nat) (s : State) : State :=
  if s.glb.step < 3 ∨ 8 ≤ s.glb.step ∨ s.glb.failed ∨ !((sensor s n).band == 5) ∨ !(s.plinth.st == 1 || s.plinth.st == 2) then s
  else railsDown 6 (saveEvents (event 0x0903 0 8 (onGlb (fun g => { g with failCause := 8 }) s)))

/-- The bank has been charged and measured (step 13, R430). -/
def bankCharged (c vbank : Nat) (s : State) : State :=
  if s.glb.step < 2 ∨ s.glb.charged ∨ !(s.plinth.st == 1 || s.plinth.st == 2) then s
  else
    let method := if 2000 ≤ s.plinth.vbank then 1 else 0
    onGlb (fun g => { g with charged := true }) (measured c vbank method s)

/-! ## Memory ready (R361) -/

/-- Group formation begins: one that cannot join is isolated; a module alone is its own group (R308, R315). -/
def beginGroup (s : State) : State :=
  let me := s.grp.id
  if s.grp.size ≤ me then event 0x0701 13 me (onGrp (fun g => { g with present := set8 0 me, isolated := true, leader := me }) s)
  else if s.grp.size = 1 then onGrp (fun g => { g with present := set8 0 me, formed := true, leader := me }) s
  else onGrp (fun g => { g with present := set8 g.present me, leader := me }) s

/-- Both paths have finished, and the count of power cycles is durable (R361, R498). -/
def memoryReady (readyUs : Nat) (s : State) : State :=
  if s.glb.step ≠ 12 ∨ !s.glb.charged ∨ s.glb.failed ∨ s.plinth.tapHold ∨ s.glb.memReady
      ∨ (s.flash.appends.any fun a => a.part == 2 && a.r.key == 1) then s
  else
    let s := onHst (fun h => { h with ready := true, pfw := false }) (onGlb (fun g => { g with step := 14, memReady := true, readyUs }) s)
    let s := onPlinth (fun p => { p with st := 2, agtRst := 0, pfw := false, fatal := false, kept := true }) s
    let s := onMedium (fun m => { m with lossy := false }) s
    -- the laps of patrol and scrub begin now (R135, R481)
    let s := onMed (fun m => { m with patrolAge := (upto 32).foldl (fun t c => tset 0 t c s.now) m.patrolAge }) s
    let s := onErr (fun e => { e with scrubAge := (upto 16).foldl (fun t k => tset 0 t k s.now) e.scrubAge }) s
    let s := beginGroup (each (upto 12) startDetect s)
    let s := each (upto 8) (fun p s => onPort p (fun x => if x.enable && clocked s (12 + p) then { x with lnkSt := 2 } else x) s) s
    if s.glb.imgRaise ∧ s.flash.versionFloor < s.glb.imgVersion then recordFloor s.glb.imgVersion s else s

end Sys2Proof.Machine
end

