-- ==== Sys2Proof/Machine/Bar.lean ====
section
/-!
DEFINITION. The accesses of the host to BAR0 and BAR4 (R324, R327, R492): what each does, and their order, which is that of device memory
(R210, R217). One that an earlier device access of the host keeps back waits at its port. And the accesses of the debug port (R14, R364, R396).
-/

namespace Sys2Proof.Machine
open Sys2Proof

/-! ## Where the registers stand -/

/-- Offset of LDG_IMG_CTRL (R505). -/
def offImg : Nat := 0x1100040

/-- Offset of a port's registers in BAR0 (R307). -/
def offLink : Port → Nat
  | .hal p => 0x0510000 + 0x1000 * p
  | .cop l => 0x0810000 + 0x1000 * l

/-- Offset of port `p`'s registers in BAR0 (R276). -/
def offStream (p : Nat) : Nat := 0x0701000 + 0x1000 * p

/-- Offset of HST_COPY_CTRL of a channel (R359). -/
def offCopy (j : Nat) : Nat := 0x0900100 + 0x10 * j

/-- Offset of a queue's doorbells, and of its configuration (R335, R342). -/
def offDoor (q : Nat) : Nat := 0x0920000 + 0x10 * q
def offQueue (q : Nat) : Nat := 0x0910010 + 0x20 * q

/-- Offset of the CPH block (R416). -/
def offCph : Nat := 0x0A80000

/-- What the host writes whole into a register of a stream port. -/
def slotOf (off : Nat) (v : BitVec 64) : SlotWr := { off, m := v.toNat, a := v.toNat, lo := true, hi := true, cls := 1 }

/-- A write to register `o` of stream port `p`. -/
def streamWrite (p o : Nat) (v : BitVec 64) (s : State) : State :=
  hostWrites (offStream p + o) (writeStmPort p o (slotOf (offStream p + o) v)) s

/-! ## BAR4: host scratch SRAM (R327, R492) -/

/-- Bytes of BAR4. -/
def scratchSize : Nat := 2 ^ 22

/-- The 8 B words that a range touches. -/
def wordsOf (off len : Nat) : List Nat := if len = 0 then [] else (upto ((off + len - 1) / 8 + 1 - off / 8)).map fun i => off / 8 + i

/-- Words without a mark read as zeros, and are counted. -/
def scratchRead (off len : Nat) (s : State) : List Byte × State :=
  let n := ((wordsOf off len).filter fun w => !tget false s.hst.marks w).length
  (Memory.readN 0 s.hst.scratch off len, onErr (fun e => { e with unwritten := sat 64 e.unwritten n }) s)

/-- A write sets the marks; the other bytes of a word without one are zeros already. -/
def scratchWrite (off : Nat) (data : List Byte) : State → State := onHst fun h => { h with
  scratch := Memory.writeN 0 h.scratch off data
  marks := (wordsOf off data.length).foldl (fun t w => tset false t w true) h.marks }

/-! ## What an access does -/

/-- The access is performed: a read or a write of BAR4, a write of BAR0 by a row of its own or by its offset, a read of CPH_LOCK. -/
def barEffect (c : Instr) (s : State) : State :=
  match c with
  | .bar4Read off len tag =>
    if !s.hst.ready then emit (.cpl tag .ur false []) (hostErr 0 3 off true s)
    else
      let (d, t) := scratchRead off len s
      emit (.cpl tag .sc false d) t
  | .bar4Write off data => if !s.hst.ready then hostErr 1 3 off true s else scratchWrite off data s
  | .registerWrite off size v => regWrite 1 off size v s
  | .cphLockRead _ =>
    let (v, t) := regRead 1 offCph 8 s
    emit (.reg offCph (BitVec.ofNat 64 v)) t
  | .sqTailDoorbell q v => hostWrites (offDoor q) (sqDoorbell q (v % 4096)) s
  | .cqHeadDoorbell q v => hostWrites (offDoor q + 8) (cqDoorbell q (v % 4096)) s
  | .queueEnable q => hostWrites (offQueue q) (enableQueue q) s
  | .queueDisable q => hostWrites (offQueue q) (disableQueue q) s
  | .resume j => hostWrites (offCopy j) (resumeCopy j) s
  | .discard j => hostWrites (offCopy j) (discardCopy j) s
  | .arm p v => streamWrite p 0x100 ((v ||| 2).setWidth 64) s
  | .ingressFlush p => streamWrite p 0 1 s
  | .egressFlush p => hostWrites (offStream p + 0x100) (flushEg p) s
  | .playlistEntryWrite p list entry high v => streamWrite p (0x200 + 0x100 * list + 0x10 * entry + 8 * b2n high) v s
  | .portEnable p on => hostWrites (offLink p) (enableLink (portIdx p) on) s
  | .agentReset p => hostWrites (offLink (.hal p)) (resetAgent p) s
  | .retrain p => hostWrites (offLink p) (enterRecovery (portIdx p)) s
  | .readmitWrite mask => hostWrites 0x0800018 (askReadmit mask) s
  | .eraseSlot slot =>
    hostWrites offImg (writeImg { off := offImg, m := slot % 2 * 4 + 1, a := slot % 2 * 4 + 1, lo := true, hi := false, cls := 1 }) s
  | .program slot offset => hostWrites offImg (writeImg (slotOf offImg (BitVec.ofNat 64 (offset % 2 ^ 32 * 2 ^ 32 + slot % 2 * 4 + 2)))) s
  | .freeze => hostWrites 0x0F00000 (freezeCounters true) s
  | .freezeRelease => hostWrites 0x0F00000 (freezeCounters false) s
  | .pmcClear => hostWrites 0x0F00000 clearCounters s
  | .unitClear u => hostWrites (0x0F01008 + 0x100 * u) (clearUnit u) s
  | .expertClr => hostWrites 0x0000040 expertClr s
  | .glbResetKey => hostWrites 0x0000050 (fun s => if s.glb.failed then s else requestReset s) s
  | .clkGateWrite v => hostWrites 0x0C00010 (writeGate (v.setWidth 27)) s
  | _ => s

/-! ## Their order (R210, R217) -/

/-- An access of the host that is not to group memory. -/
def isBar : Instr → Bool
  | .bar2Read _ _ _ | .bar2Write _ _ _ _ | .bar2Atomic _ _ _ _ _ _ _ => false
  | _ => true

/-- A TLP of the host arrives (R510). -/
def tlpIn (s : State) : State := count 8 0x10 1 s

/-- The host's previous device access has not been performed, or its 1,024 requests in flight are all taken (R14, R15). -/
def barWaits (s : State) (id : Nat) : Bool := earlierDevice s .host (rqOfSrc s .host) id || decide (slotsOf .host ≤ inFlight s .host)

/-- An access to BAR0 or BAR4 waits at the host's port. -/
def holdBar (c : Instr) (s : State) : State := onDir (fun d => { d with
  nextId := d.nextId + 1
  held := d.held ++ [{ id := d.nextId, src := .host, cmd := c, tick := s.tck.course }] }) s

/-- An access to BAR0 or BAR4 arrives: BAR0 decodes while the configuration space is ready, the link is up and the function is in D0
(R323, R324). -/
def hostBar (c : Instr) (s : State) : State :=
  if !hostUp s then s
  else if barWaits s s.dir.nextId then holdBar c (tlpIn s)
  else barEffect c (tlpIn s)

/-- The accesses that wait are performed in order of arrival. -/
def barStep (s : State) : State :=
  each (s.dir.held.filter fun x => x.src == .host && isBar x.cmd) (fun x s =>
    if barWaits s x.id || !(s.dir.held.any fun y => y.id == x.id) then s else barEffect x.cmd (dropHeld x.id s)) s

/-! ## The debug port (R14, R364, R396) -/

/-- In SEALED, RETURN and END only GLB, SEC and EVR can be reached. -/
def debugBlock (s : State) (off : Nat) : Bool :=
  decide (s.flash.lc < 2) || off / 2 ^ 20 == 0 || off / 2 ^ 20 == 0x10 || (off / 2 ^ 20 == 0xA && decide (off % 2 ^ 20 < 0x80000))

/-- The port works: enabled, clocked, and past step 3 of the start. -/
def debugOn (s : State) : Bool :=
  s.dap && s.plinth.st != 0 && decide (3 ≤ s.glb.step) && (decide (s.glb.step < 6) || clocked s 23)

/-- An access to memory is allowed: BLANK or OWNED, and memory ready. -/
def debugMem (s : State) : Bool := decide (s.flash.lc < 2) && s.hst.ready

def aligned (off size : Nat) : Bool := (size == 4 || size == 8) && off % size == 0 && decide (off < 2 ^ 25)

/-- A write of the debug port, held until step 6 (R364). -/
def debugWrite (off size : Nat) (v : BitVec 64) (s : State) : State :=
  if !aligned off size || !debugBlock s off then emit (.debug none) s
  else if s.glb.step < 6 ∧ !s.glb.failed then onGlb (fun g => { g with heldWrites := g.heldWrites ++ [(off, size, v)] }) s
  else emit (.debug (some [])) (regWrite 2 off size v s)

/-- One access of the debug port. Memory is reached granule by granule; each granule is answered by itself (DESIGN CHOICE, log 53). -/
def debugAccess (a : DebugAcc) (s : State) : State :=
  match a with
  | .regRead off size =>
    if !aligned off size || !debugBlock s off then emit (.debug none) s
    else
      let (v, s) := regRead 2 off size s
      emit (.debug (some (leBytes size v))) s
  | .regWrite off size v => debugWrite off size v s
  | .memRead addr len =>
    if !debugMem s then emit (.debug none) s
    else each (pieces addr len) (fun p s => internalRead .dbg (p.2.1 * 128 + p.2.2) p.1 s) s
  | .memWrite addr data =>
    if !debugMem s then emit (.debug none) s
    else each (pieces addr data.length) (fun p s =>
      arrive .dbg (.wrNc { port := .hal 0, agent := 0, txid := 0, gaddr := p.1, req := rqOfSrc s .dbg } (maskOf p.2.1 p.2.2)
        (granuleOf p.2.1 ((data.drop (p.1 * 64 + p.2.1 - addr)).take p.2.2)) false) s) s
  | .scratchRead off len =>
    if 2 ≤ s.flash.lc ∨ scratchSize < off + len then emit (.debug none) s
    else
      let (d, s) := scratchRead off len s
      emit (.debug (some d)) s
  | .scratchWrite off data =>
    if 2 ≤ s.flash.lc ∨ scratchSize < off + data.length then emit (.debug none) s
    else emit (.debug (some [])) (scratchWrite off data s)

/-- The debug port's one request to memory is in service (R14). -/
def debugBusy (s : State) : Bool :=
  (s.dir.held.any fun x => x.src == .dbg) || (s.dir.txns.any fun t => t.req.src == .dbg) || s.dir.fwds.any fun f => f.src == .dbg

/-- An access of the debug port waits: behind the one in service (R14, R15), and to memory until memory ready (R368). -/
def debugWaits (s : State) (a : DebugAcc) : Bool :=
  debugBusy s || (match a with
    | .memRead _ _ | .memWrite _ _ => decide (s.flash.lc < 2) && !s.hst.ready && !s.glb.failed
    | _ => false)

/-- An access arrives at the debug port: it is served, or waits in order of arrival. -/
def debugTake (a : DebugAcc) (s : State) : State :=
  if s.glb.dbgWait.isEmpty && !debugWaits s a then debugAccess a s
  else onGlb (fun g => { g with dbgWait := g.dbgWait ++ [a] }) s

/-- The first access that waits is served once it may be. -/
def debugStep (s : State) : State :=
  match s.glb.dbgWait with
  | [] => s
  | a :: l => if debugWaits s a then s else debugAccess a (onGlb (fun g => { g with dbgWait := l }) s)

end Sys2Proof.Machine
end

