-- ==== Sys2Proof/Machine/Settle.lean ====
section
/-!
DEFINITION. What the module goes on to do by itself once a command has taken effect: its home, media engine, cache, streams,
command engines, imports, drains and Stop entry go on until none of them has anything left that is due now.
-/

namespace Sys2Proof.Machine

/-- One round of every engine; none is at work past a commit point (R434). -/
def engineRound (s : State) : State :=
  if pastCommit s then s else
  let s := debugStep (barStep (homeStep (holdStep (reencStep (wakeStep s)))))
  let s := fillStep (mediaStep s)
  let s := ckptStep (each s.cch.jobs jobStep s)
  let s := each (upto 16) copyStep s
  let s := applyStep s
  let s := each (upto 8) prefetchPort s
  let s := importStep (fenceStep s)
  entryStep (drainStep s)

/-- Rounds until nothing changes, bounded by the fuel (DESIGN CHOICE, log 13). -/
def rounds : Nat → State → State
  | 0, s => s
  | n + 1, s =>
    let t := engineRound s
    if t = s then s else rounds n t

/-- The fuel of one command; every round that changes anything does at least one of its actions (DESIGN CHOICE, log 13). -/
def settleFuel : Nat := 100000

/-- The engines settle. What other homes perform is looked at first; afterwards the cleaner takes the next set, where every region is written
through the Dirty lines go, the stream ports' pins and commit numbers follow, and the links return the credits of buffers that are free again. -/
def settle (s : State) : State :=
  each (upto 12) returnCredits (updPorts (holdStep (strictStep (cleanerStep (rounds settleFuel (awayStep s))))))

/-- A command has taken effect, and no engine has anything new to do. The queue of commands is no business of a command. -/
def done (s t : State) : Host.Outcome State Fault Refusal := .next { t with pending := s.pending }

/-- A command has taken effect, and the engines go on. -/
def settled (s t : State) : Host.Outcome State Fault Refusal := done s (settle t)

end Sys2Proof.Machine
end

