-- ==== Sys2Proof/Machine/HostCmds.lean ====
section
/-!
DEFINITION. The meanings of the commands of the host interface and of the debug port (R229, R235, R238, R322 to R342, R364, R366, R396,
R456, R492).
-/

namespace Sys2Proof.Machine
open Sys2Proof

/-! ## Resets of the PCI Express core (R235, R238, R325) -/

/-- The PCI Express port leaves operation: its entries drain, and what it has not passed on is dropped. Nothing answers what stood. -/
def cutHost (s : State) : State :=
  let s := dropPort .host (drainWhere (fun g => g.buf == 12) s)
  let s := onDir (fun d => { d with
    hostRds := []
    txns := d.txns.map fun t => if t.req.src = .host then { t with req := { t.req with parent := noTag * 128 } } else t
    fwds := d.fwds.map fun f => if f.src = .host then { f with parent := noTag * 128 } else f }) s
  onOrd (fun o => { o with fences := [] }) s

/-- Every queue returns to its reset values; the commands that have started run to their end without an entry. -/
def resetQueue (q : Nat) (s : State) : State :=
  onQueue q (fun h => { mute := h.mute, winRun := h.winRun }) (muteQueue q (dropCopies q s))

/-- PERST_N, or a Function Level Reset. -/
def resetHost (s : State) : State :=
  let s := each (upto 64) resetQueue (cutHost s)
  onHst (fun h => { h with msix := [], msixPend := [], ptmTime := 0, ptmTick := 0, turn := 0, d3 := false }) s

/-- PERST_N: asserted and deasserted. -/
def execPerstN (s : State) : Host.Outcome State Fault Refusal :=
  if s.hst.cfgReady then settled s (onHst (fun h => { h with linkUp := s.clk.pcieRef, mps := 0, mrrs := 2 }) (resetHost s)) else done s s

/-- FUNCTION_LEVEL_RESET. -/
def execFunctionLevelReset (s : State) : Host.Outcome State Fault Refusal :=
  if s.hst.cfgReady && s.hst.linkUp then settled s (resetHost s) else done s s

/-- PCIE_LINK_DOWN (R235). -/
def execPcieLinkDown (s : State) : Host.Outcome State Fault Refusal :=
  if s.hst.linkUp then settled s (onHst (fun h => { h with linkUp := false }) (cutHost s)) else done s s

/-- PCLK_LOSS (R456): the PCI Express link goes down, with the effects of R238. -/
def execPclkLoss (s : State) : Host.Outcome State Fault Refusal :=
  if s.clk.pcieRef then
    settled s (onClk (fun c => { c with pcieRef := false }) (onHst (fun h => { h with linkUp := false }) (resetHost s)))
  else done s s

/-- PCIE_REF_RETURN (R456): the PCLK PLL locks, and the link trains again. -/
def execPcieRefReturn (s : State) : Host.Outcome State Fault Refusal :=
  if s.hst.cfgReady && !s.clk.pcieRef then
    settled s (onClk (fun c => { c with pcieRef := true }) (onHst (fun h => { h with linkUp := true }) s))
  else done s s

/-- D3HOT_TRANSITION (R323). -/
def execD3hotTransition (toD3 : Bool) (s : State) : Host.Outcome State Fault Refusal :=
  if s.hst.cfgReady && s.hst.linkUp then done s (onHst (fun h => { h with d3 := toD3 }) s) else done s s

/-! ## Configuration space and BAR0 (R324, R327, R329) -/

/-- The capabilities of R322, by the IDs of PCI Express Base 6.0 (PRESUMED, log 52): power management, PCI Express and MSI-X; AER, PTM, the
physical layers of 16, 32 and 64 GT/s, and Device 3 for 14-bit tags. -/
def cfgListed : CfgReg → Bool
  | .header _ => true
  | .cap id _ => id == 0x01 || id == 0x10 || id == 0x11
  | .ext id _ => id == 0x0001 || id == 0x001F || id == 0x0026 || id == 0x002A || id == 0x0031 || id == 0x002F
  | .empty _ => false

/-- The bits of a dword of the configuration space that R322 and R323 give, and their values: payload sizes, Function Level Reset, link speed and
width, ASPM, AtomicOps, the power states and the 256 vectors. -/
def cfgBits (s : State) : CfgReg → Nat × Nat
  | .cap 0x10 1 => (0x10000007, 0x10000002)
  | .cap 0x10 2 => (0x70E0, s.hst.mps * 0x20 + s.hst.mrrs * 0x1000)
  | .cap 0x10 3 => (0xFFF, 0x106)
  | .cap 0x10 9 => (0x380, 0x380)
  | .cap 0x01 0 => (0x060000FF, 0x01)
  | .cap 0x01 1 => (0x3, if s.hst.d3 then 3 else 0)
  | .cap 0x11 0 => (0x07FF00FF, 0x00FF0011)
  | .cap id 0 => (0xFF, id)
  | .ext id 0 => (0xFFFF, id)
  | _ => (0, 0)

/-- A write to the configuration space: the sizes in their ranges, Function Level Reset, the power state. What else it holds, no rule says. -/
def cfgWrite (r : CfgReg) (v : BitVec 32) (s : State) : State :=
  match r with
  | .cap 0x10 2 =>
    let m := bits v.toNat 5 3
    let q := bits v.toNat 12 3
    let s := onHst (fun h => { h with mps := if m ≤ 2 then m else h.mps, mrrs := if q ≤ 5 then q else h.mrrs }) s
    if v.getLsbD 15 then resetHost s else s
  | .cap 0x01 1 => if bits v.toNat 0 2 = 3 ∨ bits v.toNat 0 2 = 0 then onHst (fun h => { h with d3 := bits v.toNat 0 2 == 3 }) s else s
  | _ => s

/-- CONFIGURATION_REQUEST (R322, R324). A capability that is not listed is absent: its place reads zero. A bit that no rule gives reads as a free
value (log 52). -/
def execConfigurationRequest (write : Bool) (r : CfgReg) (v : BitVec 32) (tag : Nat) (s : State) : Host.Outcome State Fault Refusal :=
  if !s.hst.cfgReady then done s (push (.cpl tag .rrs false []) s)
  else if write then settled s (emit (.cpl tag .sc false []) (cfgWrite r v (tlpIn s)))
  else if !cfgListed r then done s (emit (.cpl tag .sc false (leBytes 4 0)) (tlpIn s))
  else
    let (n, t) := free (tlpIn s)
    let (mask, x) := cfgBits s r
    done s (emit (.cpl tag .sc false (leBytes 4 ((BitVec.ofNat 32 n &&& ~~~(BitVec.ofNat 32 mask)) ||| BitVec.ofNat 32 x).toNat)) t)

/-- BAR0_BAD_ACCESS (R327). -/
def execBar0BadAccess (write : Bool) (s : State) : Host.Outcome State Fault Refusal :=
  if !hostUp s then done s s
  else if write then done s (emit (.aer 0) (tlpIn s))
  else done s (emit (.cpl 0 .ur false []) (emit (.aer 0) (tlpIn s)))

/-- REGISTER_WRITE (R7, R526): one that is not naturally aligned is discarded as R327 states. -/
def execRegisterWrite (off size : Nat) (v : BitVec 64) (s : State) : Host.Outcome State Fault Refusal :=
  if !hostUp s then done s s
  else if (size = 4 ∨ size = 8) ∧ off % size = 0 then settled s (hostBar (.registerWrite off size v) s)
  else done s (emit (.aer 0) (tlpIn s))

/-- ATOMIC_UNSUPPORTED (R329): to BAR0, or to BAR4, where the row NOT_READY of R328 comes first. -/
def execAtomicUnsupported (bar4 : Bool) (off tag : Nat) (s : State) : Host.Outcome State Fault Refusal :=
  if !hostUp s then done s s
  else if bar4 && !s.hst.ready then done s (emit (.cpl tag .ur false []) (hostErr 2 3 off true (tlpIn s)))
  else done s (emit (.cpl tag .ur false []) (emit (.aer 0) (tlpIn s)))

/-! ## BAR2 (R218, R328, R329) -/

/-- A BAR2 request arrives. -/
def hostRequest (c : Instr) (s : State) : State := arrive .host c (tlpIn s)

/-- BAR2_READ. -/
def execBar2Read (addr len tag : Nat) (s : State) : Host.Outcome State Fault Refusal :=
  if hostUp s then settled s (hostRequest (.bar2Read addr len tag) s) else done s s

/-- BAR2_WRITE: posted; it is checked whole when its port takes it (R328, R556). -/
def execBar2Write (addr : Nat) (data : List Byte) (relaxed poisoned : Bool) (s : State) : Host.Outcome State Fault Refusal :=
  if !hostUp s then done s s
  else if data.isEmpty then done s (tlpIn s)
  else settled s (hostRequest (.bar2Write addr data relaxed poisoned) s)

/-- BAR2_ATOMIC: 4, 8 or 16 bytes, naturally aligned. -/
def execBar2Atomic (addr : Nat) (op : AtomicOp) (size : Nat) (operand compare : BitVec 128) (poisoned : Bool) (tag : Nat) (s : State) :
    Host.Outcome State Fault Refusal :=
  if hostUp s then settled s (hostRequest (.bar2Atomic addr op size operand compare poisoned tag) s) else done s s

/-! ## BAR4: host scratch SRAM (R327, R492) -/

/-- BAR4_READ. -/
def execBar4Read (off len tag : Nat) (s : State) : Host.Outcome State Fault Refusal :=
  if scratchSize < off + len then done s s else done s (hostBar (.bar4Read off len tag) s)

/-- BAR4_WRITE. -/
def execBar4Write (off : Nat) (data : List Byte) (s : State) : Host.Outcome State Fault Refusal :=
  if scratchSize < off + data.length then done s s else done s (hostBar (.bar4Write off data) s)

/-! ## The fence (R229) -/

/-- The device accesses of the host, and those to BAR0 and BAR4, that are not performed: the fence is read after them (R210, R217). -/
def hostDeviceIds (s : State) : List Nat :=
  (s.dir.held.filter fun x => x.src == .host && heldDevice s x).map (·.id)
    ++ (s.dir.txns.filter fun t => t.req.src == .host && (attrOf s (t.req.lg / 8)).device).map (·.req.id)
    ++ (s.dir.fwds.filter fun f => f.src == .host && isDevice s f.gaddr).map (·.req)

/-- HOST_FENCE_READ: the host's entries drain, and the read waits for every host write before it. -/
def execHostFenceRead (s : State) : Host.Outcome State Fault Refusal :=
  if hostUp s && served s 0x0600010 then
    let t := drainWhere (fun g => g.buf == 12) (tlpIn s)
    settled s (onOrd (fun o => { o with fences := o.fences ++ [hostWriteIds s ++ hostDeviceIds s] }) t)
  else done s s

/-- HOST_FENCE_TIMEOUT: 10 ms after the arrival of the oldest read that waits. -/
def execHostFenceTimeout (s : State) : Host.Outcome State Fault Refusal :=
  if s.ord.fences.isEmpty then done s s
  else done s (emit (.reg 0x0600010 0) (onOrd (fun o => { o with fences := o.fences.drop 1, cntFence := sat 64 o.cntFence 1 }) s))

/-! ## The debug port and the TAP (R364, R366, R396) -/

/-- DEBUG_ACCESS. -/
def execDebugAccess (a : DebugAcc) (s : State) : Host.Outcome State Fault Refusal :=
  if debugOn s then settled s (debugTake a s) else done s s

/-- TAP_INSTRUCTION (R366): the start goes on when BYPASS or IDCODE returns. -/
def execTapInstruction (bypassOrIdcode : Bool) (s : State) : Host.Outcome State Fault Refusal :=
  if s.plinth.st = 0 then done s s
  else if bypassOrIdcode then settled s (bootSteps (onPlinth (fun p => { p with tapHold := false }) s))
  else done s (onPlinth (fun p => { p with tapHold := true }) s)

/-- DAP_EN_CHANGE (R542, R458): no session attaches to a gated port. -/
def execDapEnChange (low : Bool) (s : State) : Host.Outcome State Fault Refusal :=
  if low && (s.plinth.st == 0 || (decide (6 ≤ s.glb.step) && !clocked s 23)) then done s s
  else done s { s with dap := low }

/-! ## Queues (R335 to R340) -/

/-- SQ_TAIL_DOORBELL. -/
def execSqTailDoorbell (q v : Nat) (s : State) : Host.Outcome State Fault Refusal :=
  if q < 64 then done s (hostBar (.sqTailDoorbell q v) s) else done s s

/-- CQ_HEAD_DOORBELL. -/
def execCqHeadDoorbell (q v : Nat) (s : State) : Host.Outcome State Fault Refusal :=
  if q < 64 then done s (hostBar (.cqHeadDoorbell q v) s) else done s s

/-- QUEUE_ENABLE: HST_Q_CFG.ENABLE = 1, the other fields as they stand. -/
def execQueueEnable (q : Nat) (s : State) : Host.Outcome State Fault Refusal :=
  if q < 64 then done s (hostBar (.queueEnable q) s) else done s s

/-- QUEUE_DISABLE. -/
def execQueueDisable (q : Nat) (s : State) : Host.Outcome State Fault Refusal :=
  if q < 64 then done s (hostBar (.queueDisable q) s) else done s s

/-- The entry at the SQ head has been fetched: its command waits to start, or ends with the status that its check gives. One with FENCE is checked
when every earlier command has completed. -/
def takeEntry (q : Nat) (e : BitVec 512) (s : State) : State :=
  let (c, r) := readEntry s q e
  let s := count 8 0x12 1 (onQueue q (fun h => { h with sqHead := (h.sqHead + 1) % (h.sqSize + 1) }) s)
  if c.fence then checkFenced q (onQueue q (fun h => { h with fenced := some e }) s) else
  match r with
  | .inl status => postDone q { kind := 0, cid := c.cid, status, result := 0, noInt := c.noInt } (cmdDenied status s)
  | .inr i => onQueue q (fun h => { h with fetched := h.fetched ++ [i] }) s

/-- SQ_ENTRY_FETCHED (R336): the fetch of the queue whose turn it is. -/
def execSqEntryFetched (q : Nat) (f : Fetch) (s : State) : Host.Outcome State Fault Refusal :=
  if nextQueue s = some q then
    let h := queue s q
    let t := emit (.sqRead q h.sqHead (h.sqBase * 4096 + 64 * h.sqHead)) (onHst (fun h => { h with turn := (q + 1) % 64 }) s)
    match f with
    | .failed => done s (queueError q 3 t)
    | .entry e => done s (takeEntry q e t)
  else done s s

/-- INTERRUPT_GAP (R339). -/
def execInterruptGap (q : Nat) (s : State) : Host.Outcome State Fault Refusal :=
  let h := queue s q
  if !h.gap then done s s
  else if h.gapPend then done s (queueInt q (onQueue q (fun h => { h with gap := false, gapPend := false }) s))
  else done s (onQueue q (fun h => { h with gap := false }) s)

end Sys2Proof.Machine
end

