-- ==== Sys2Proof/Machine/CipherCmds.lean ====
section
/-!
DEFINITION. The meanings of the accesses to the cipher engine, of the end of its operations and of its lock's timeout (R404 to R412). The
host and the debug port reach the engine through their registers; the firmware is its own user.
-/

namespace Sys2Proof.Machine
open Sys2Proof

/-- CPH_LOCK_READ (R404). -/
def execCphLockRead (cls : CphClass) (s : State) : Host.Outcome State Fault Refusal :=
  match cls with
  | .host => done s (hostBar (.cphLockRead .host) s)
  | .debug => if debugOn s then done s (debugAccess (.regRead offCph 8) s) else done s s
  | .firmware => if clocked s 20 then done s (lockRead 3 s).2 else done s s

/-- A write of `v` to register `o` of the engine by the host or the debug port; `f` is what the firmware does. -/
def cphWrite (cls : CphClass) (o : Nat) (v : BitVec 64) (f : State → State) (s : State) : State :=
  match cls with
  | .host => hostBar (.registerWrite (offCph + o) 8 v) s
  | .debug => if debugOn s then debugWrite (offCph + o) 8 v s else s
  | .firmware => if clocked s 20 && s.cph.imp.isNone then f s else s

/-- CPH_RELEASE (R404, R405). -/
def execCphRelease (cls : CphClass) (ticket : BitVec 16) (s : State) : Host.Outcome State Fault Refusal :=
  done s (cphWrite cls 0x08 (ticket.setWidth 64) (releaseLock ticket.toNat) s)

/-- CPH_CMD (R404, R406, R416). -/
def cphCmd (cls : CphClass) (ticket : BitVec 16) (op key subj : Nat) (s : State) : Host.Outcome State Fault Refusal :=
  let v := BitVec.ofNat 64 (ticket.toNat * 2 ^ 48 + subj % 16 * 256 + key % 16 * 16 + op)
  done s (cphWrite cls 0x10 v (cphCommand 3 ticket.toNat op (key % 16) (subj % 16)) s)

/-- ENCRYPT (R406, R407). -/
def execEncrypt (cls : CphClass) (ticket : BitVec 16) (keySlot : Nat) (s : State) : Host.Outcome State Fault Refusal :=
  cphCmd cls ticket 1 keySlot 0 s

/-- DECRYPT (R406, R409). -/
def execDecrypt (cls : CphClass) (ticket : BitVec 16) (keySlot : Nat) (s : State) : Host.Outcome State Fault Refusal :=
  cphCmd cls ticket 2 keySlot 0 s

/-- UNWRAP (R406). -/
def execUnwrap (cls : CphClass) (ticket : BitVec 16) (keySlot subjSlot : Nat) (s : State) : Host.Outcome State Fault Refusal :=
  cphCmd cls ticket 3 keySlot subjSlot s

/-- WRAP (R406). -/
def execWrap (cls : CphClass) (ticket : BitVec 16) (keySlot subjSlot : Nat) (s : State) : Host.Outcome State Fault Refusal :=
  cphCmd cls ticket 4 keySlot subjSlot s

/-- CLEAR (R406). -/
def execClear (cls : CphClass) (ticket : BitVec 16) (subjSlot : Nat) (s : State) : Host.Outcome State Fault Refusal :=
  cphCmd cls ticket 5 0 subjSlot s

/-- CIPHER_OP_DONE (R408, R409, R411): the computations agree or not. An encryption waits for the block of its nonce (R407). -/
def execCipherOpDone (agree : Bool) (s : State) : Host.Outcome State Fault Refusal :=
  match s.cph.run, s.cph.imp with
  | some r, _ =>
    if r.op = 1 ∧ s.flash.nonceReserved ≤ r.nonce then done s s
    else if agree then done s (cipherRelease r s) else done s (cipherFault r.op s)
  | none, some m =>
    if m.phase ≠ 2 then done s s
    else if agree then settled s (impDecrypt m s) else settled s (endImport m 0x000C (cipherFault 2 s))
  | none, none => done s s

/-- CIPHER_LOCK_TIMEOUT (R405): no operation runs. -/
def execCipherLockTimeout (s : State) : Host.Outcome State Fault Refusal :=
  if s.cph.holder ≠ 0 ∧ s.cph.run.isNone ∧ s.cph.imp.isNone then done s (event 0x0802 7 s.cph.holder (freeLock s)) else done s s

end Sys2Proof.Machine
end

