-- ==== Sys2Proof/Machine/CourseCmds.lean ====
section
/-!
DEFINITION. The meanings of the commands of ticks and courses (R31 to R69, R557): what starts a course, the edges that do not, the
points within a course, and the counts over many courses. Times are in ps.
-/

namespace Sys2Proof.Machine
open Sys2Proof

/-! ## The start of a course -/

/-- Sensors whose band changes at this course start: their media channels re-centre in its guard interval (R470). -/
def recentring (s : State) : List Nat :=
  ((upto (packages s)).filter fun i => (pkgSensor s i).band != (pkgSensor s i).bandEff).map fun i => if isBig s then i / 2 else i

/-- RESULT of a SNAPSHOT command: the tick number and the low bits of the generation number of the snapshot (R343). -/
def snapResult (s : State) : Nat := s.pmc.tick % 2 ^ 48 + s.pmc.gen % 2 ^ 16 * 2 ^ 48

/-- SNAPSHOT commands take their snapshots as hoists of the course start would (R353). -/
def snapCommands (s : State) : State :=
  each s.hst.snaps (fun c s => let s := takeSnapshot 2 s; finish c 0 (snapResult s) s) (onHst (fun h => { h with snaps := [] }) s)

/-- Streams that have lost their lanes or their clock stop (R242). -/
def stopStreams (s : State) : State :=
  each (upto 8) (fun p s =>
    if (port s p).stopNext then stopEg p (stopIn p (onPort p (fun x => { x with stopNext := false }) s)) else s) s

/-- A course starts, `len` after the one that ends: TCK_COUNT, settings and bands, Stop entry and wake, hoists, and the planning of the
channels (R27, R33, R36, R46). -/
def beginCourse (len : Nat) (m : CourseMeas) (s : State) : State :=
  let s := count 1 0x10 1 (turnCourse len s)
  let r := recentring s
  let s := onThm (fun t => { t with recentre := r }) (applySettings (applySample s))
  let s := if 4 ≤ topBand s then onThm (fun t => { t with cntThrottle := sat 64 t.cntThrottle 1 }) s else s
  let s := onPwr (fun p => { p with limitCourses := if p.inputLimit then p.limitCourses + 1 else 0 }) s
  let s := stopEntry (wakeEnds s)
  let s := freezeHoists (launchHoists (stopStreams (snapCommands s)))
  let s := latchPtm m (stepAdmit m s)
  let s := each (upto 8) commitPort (scheduleComb s)
  planCourse s

/-- The module's own generator starts the courses: the internal source, or flywheel operation (R31, R65). -/
def ownCourses (s : State) : Bool := s.tck.source == 0b01 || (s.tck.flywheel && decide (4 ≤ s.tck.missRun))

/-- An edge starts the course: it is accepted, and its interval is averaged when it follows an accepted edge (R34, R66, R68). -/
def acceptEdge (interval : Nat) (returns : Bool) : State → State := onTck fun t =>
  let counted := t.avgArmed && !returns && decide (t.avgCnt < 256)
  { t with
    inputOk := true
    missRun := 0
    acceptRun := t.acceptRun + 1
    returning := false
    edgeRun := 0
    avgArmed := true
    avgSum := if counted then t.avgSum + interval else t.avgSum
    avgCnt := if counted then t.avgCnt + 1 else t.avgCnt }

/-- An edge that is ignored (R34). -/
def ignoreEdge : State → State := onTck fun t => { t with early := sat 16 t.early 1 }

/-- A course start without an accepted edge. -/
def ownStart : State → State := onTck fun t => { t with inputOk := false, acceptRun := 0, avgArmed := false }

/-- COURSE_START. With the module's own generator the course has lasted exactly T; an edge counts as R34 and R66 say. Later than 1.05 T,
or 1.95 T for the edge that ends flywheel operation, the module has started the course itself (DESIGN CHOICE, log 3). -/
def execCourseStart (interval : Nat) (m : CourseMeas) (s : State) : Host.Outcome State Fault Refusal :=
  let t := periodPs s
  if !s.tck.running then done s s
  else if ownCourses s && !(s.tck.source != 0b01 && s.tck.returning) then settled s (beginCourse t m (ownStart s))
  else if 100 * interval < 95 * t then done s (if s.tck.returning then s else ignoreEdge s)
  else if 100 * interval ≤ (if s.tck.returning then 195 else 105) * t then
    settled s (beginCourse interval m (acceptEdge interval s.tck.returning s))
  else done s s

/-- EARLY_EDGE (R34). -/
def execEarlyEdge (s : State) : Host.Outcome State Fault Refusal :=
  done s (if s.tck.running && !ownCourses s then ignoreEdge s else s)

/-- Flywheel operation begins (R65, R68). -/
def enterFlywheel (s : State) : State :=
  event 0x0101 1 s.tck.missed (onTck (fun t => { t with flywheel := true, edgeRun := 0, returning := false, avgSum := 0, avgCnt := 0 }) s)

/-- A course that the module starts for want of an edge is counted (R65). -/
def missTick : State → State := fun s =>
  let s := onTck (fun t => { t with missed := sat 16 t.missed 1, missRun := t.missRun + 1 }) (ownStart s)
  if s.tck.missRun = 4 then enterFlywheel s else s

/-- MISSED_TICK (R65): the course has lasted 1.05 T. -/
def execMissedTick (m : CourseMeas) (s : State) : Host.Outcome State Fault Refusal :=
  if s.tck.running && !ownCourses s then settled s (beginCourse (periodPs s * 21 / 20) m (missTick s)) else done s s

/-- FLYWHEEL_COURSE_END (R66): the course has lasted 1.95 T, and two further edges are needed. -/
def execFlywheelCourseEnd (m : CourseMeas) (s : State) : Host.Outcome State Fault Refusal :=
  if s.tck.running && s.tck.flywheel && s.tck.returning then
    let t := onTck (fun t => { t with missed := sat 16 t.missed 1, returning := false, edgeRun := 0 }) (ownStart s)
    settled s (beginCourse (periodPs s * 39 / 20) m t)
  else done s s

/-- FLYWHEEL_CLEAR (R66). -/
def execFlywheelClear (s : State) : Host.Outcome State Fault Refusal :=
  done s (if 16 ≤ s.tck.acceptRun then onTck (fun t => { t with flywheel := false }) s else s)

/-- FLYWHEEL_INPUT_EDGE (R66): `gap` since the previous edge. Two consecutive edges between 0.95 T and 1.05 T apart return the module to the
input; after a course that it had to end itself, both must be new. -/
def execFlywheelInputEdge (gap since : Nat) (s : State) : Host.Outcome State Fault Refusal :=
  let t := periodPs s
  if !(s.tck.running && s.tck.source != 0b01 && ownCourses s) || (s.tck.returning && decide (95 * t ≤ 100 * since)) then done s s
  else if s.tck.returning then done s s
  else if 1 ≤ s.tck.edgeRun ∧ 95 * t ≤ 100 * gap ∧ 100 * gap ≤ 105 * t then
    done s (onTck (fun k => { k with returning := true, edgeRun := 2 }) s)
  else done s (onTck (fun k => { k with edgeRun := 1 }) s)

/-- PERIOD_AVERAGE (R68): the average differs from T by more than 1 %, or does not. -/
def execPeriodAverage (s : State) : Host.Outcome State Fault Refusal :=
  let n := s.tck.avgCnt
  let all := 100 * s.tck.avgSum
  let far := decide (101 * periodPs s * n < all) || decide (all < 99 * periodPs s * n)
  done s (if n < 256 then s else onTck (fun t => { t with mismatch := far, avgSum := 0, avgCnt := 0 }) s)

/-! ## Points within a course -/

/-- PROGRAM_WINDOW_FIX (R557). -/
def execProgramWindowFix (s : State) : Host.Outcome State Fault Refusal :=
  if s.tck.running && !s.tck.guard then done s (fixWindows s) else done s s

/-- GUARD_INTERVAL (R36, R470): the program windows were fixed at 0.25 T at the latest. -/
def execGuardInterval (s : State) : Host.Outcome State Fault Refusal :=
  if s.tck.running && !s.tck.guard then
    done s (onThm (fun t => { t with recentre := [] }) (onTck (fun t => { t with guard := true }) (fixWindows s)))
  else done s s

/-- ESCALATION_FALL (R52). -/
def execEscalationFall (act loc : Nat) (s : State) : Host.Outcome State Fault Refusal :=
  let k := escKey act loc
  done s (if 64 ≤ (tget {} s.tck.esc k).below then onTck (fun t => { t with esc := tmod {} t.esc k escFall }) s else s)

/-- PROGRAM_ABANDON (R41): 256 courses after its first piece. -/
def execProgramAbandon (prog : Nat) (s : State) : Host.Outcome State Fault Refusal :=
  match s.med.progs.find? fun p => p.id == prog with
  | some p => match p.ppn, p.first with
    | some ppn, some f => if f + 256 ≤ s.tck.course then settled s (progAbandon p ppn s) else done s s
    | _, _ => done s s
  | none => done s s

end Sys2Proof.Machine
end

