-- ==== Sys2Proof/Machine/ErrorCmds.lean ====
section
/-!
DEFINITION. The meanings of self-tests, scrubbing, the cornerstone flash's appends and erases, and of the image window (R480 to R505).
-/

namespace Sys2Proof.Machine
open Sys2Proof

/-- An automatic test that waits is started or tried again; `first` before any attempt (R486). -/
def waitingTest (first : Bool) (m loc : Nat) (s : State) : Host.Outcome State Fault Refusal :=
  match testOf s m loc with
  | some t => if !t.running && (t.tries == 0) == first then settled s (tryTest t s) else done s s
  | none => done s s

/-- SELF_TEST_AUTO (R486). -/
def execSelfTestAuto (memory location : Nat) (s : State) : Host.Outcome State Fault Refusal := waitingTest true memory location s

/-- SELF_TEST_RETRY (R486). -/
def execSelfTestRetry (memory location : Nat) (s : State) : Host.Outcome State Fault Refusal := waitingTest false memory location s

/-- SELF_TEST_DONE (R487, R488): a page has made its three attempts. -/
def execSelfTestDone (memory location : Nat) (good : Bool) (s : State) : Host.Outcome State Fault Refusal :=
  match testOf s memory location with
  | some t => if t.running && (memory != 7 || decide (3 ≤ t.senses)) then settled s (endTest t good s) else done s s
  | none => done s s

/-- SCRUB_CORRECTION (R482, R490, R491): memories 0 to 6, not in Stop. -/
def execScrubCorrection (memory location : Nat) (found : EccFind) (s : State) : Host.Outcome State Fault Refusal :=
  if s.glb.memReady ∧ s.pwr.runSt ≠ 2 ∧ memory < 7 ∧ testLocOk s memory location then settled s (scrubbed memory location found s)
  else done s s

/-- CORNERSTONE_APPEND_DONE (R496): a life-cycle record goes on with its change (R388). -/
def execCornerstoneAppendDone (part dev : Nat) (ok : Bool) (s : State) : Host.Outcome State Fault Refusal :=
  if s.plinth.st = 0 then done s s else done s (lcRecorded (appendDone part dev ok s))

/-- CORNERSTONE_ERASE_DONE (R388, R496, R497): sector 66 holds the key. -/
def execCornerstoneEraseDone (dev sector : Nat) (ok : Bool) (s : State) : Host.Outcome State Fault Refusal :=
  if s.plinth.st = 0 then done s s
  else if sector = 66 then done s (keyErased dev (if ok then s else (retireSector dev s).2))
  else done s (eraseDone dev sector ok s)

/-- ERASE_SLOT (R503): the offset stays. -/
def execEraseSlot (slot : Nat) (s : State) : Host.Outcome State Fault Refusal :=
  done s (hostBar (.eraseSlot slot) s)

/-- PROGRAM (R503). -/
def execProgram (slot offset : Nat) (s : State) : Host.Outcome State Fault Refusal :=
  done s (hostBar (.program slot offset) s)

/-- IMAGE_OP_DONE (R503). -/
def execImageOpDone (ok : Bool) (s : State) : Host.Outcome State Fault Refusal := done s (endImageOp ok s)

/-- OPERATING_SECONDS_RECORD (R498). -/
def execOperatingSecondsRecord (s : State) : Host.Outcome State Fault Refusal :=
  if s.plinth.st = 0 ∨ s.glb.step < 3 then done s s
  else
    let t := onFlash (fun f => { f with opSeconds := f.opSeconds + 360 }) s
    done s (recordSeconds (onPwr (fun p => { p with hours := hoursSince t }) t))

end Sys2Proof.Machine
end

