-- ==== Sys2Proof/Machine/HomeCmds.lean ====
section
/-!
DEFINITION. The meanings of the messages of agents and members to a home (R189 to R201, R225 to R228, R285), and of the gather buffers'
own time (R224). A message arrives on a port whose link is ACTIVE.
-/

namespace Sys2Proof.Machine
open Sys2Proof

/-- The module has the port (R277). -/
def portHere : Port → Bool
  | .hal p => decide (p < 8)
  | .cop l => decide (l < 4)

/-- The link of a port that the module has is in a state (R292). -/
def linkIn (s : State) (p : Port) (st : Nat) : Bool := portHere p && (link s (portIdx p)).st == st

/-- The port has no credit left of the message's class (R286 to R288). -/
def overCredit (s : State) (m : Msg) (c : Instr) : Bool :=
  decide (advertised (portIdx m.port) (classOfMsg c) ≤ creditsUsed s (portIdx m.port) (classOfMsg c))

/-- A message of a class of R189 takes effect; one beyond its credits breaks R288. -/
def message (m : Msg) (c : Instr) (s : State) : Host.Outcome State Fault Refusal :=
  if !linkIn s m.port 5 then done s s
  else if overCredit s m c then settled s (creditBroken (portIdx m.port) (agentOf s m) s)
  else settled s (takeMessage c s)

/-- ATOMIC and ACCUM go between members only; on a Halyard port their opcodes are reserved (R191, R285). -/
def copingMessage (m : Msg) (c : Instr) (s : State) : Host.Outcome State Fault Refusal :=
  if !linkIn s m.port 5 then done s s
  else match m.port with
    | .hal _ => done s (reservedMessage (agentOf s m) s)
    | .cop _ => if overCredit s m c then settled s (creditBroken (portIdx m.port) (agentOf s m) s) else settled s (takeMessage c s)

/-- RD_SHARED (R201). -/
def execRdShared (m : Msg) (s : State) : Host.Outcome State Fault Refusal := message m (.rdShared m) s

/-- RD_UNIQUE (R201). -/
def execRdUnique (m : Msg) (s : State) : Host.Outcome State Fault Refusal := message m (.rdUnique m) s

/-- UPGRADE (R201). -/
def execUpgrade (m : Msg) (s : State) : Host.Outcome State Fault Refusal := message m (.upgrade m) s

/-- RD_ONCE (R201, R223). -/
def execRdOnce (m : Msg) (s : State) : Host.Outcome State Fault Refusal := message m (.rdOnce m) s

/-- WR_NC (R201, R222). -/
def execWrNc (m : Msg) (mask : BitVec 64) (data : Granule) (poison : Bool) (s : State) : Host.Outcome State Fault Refusal :=
  message m (.wrNc m mask data poison) s

/-- ORDER_BARRIER (R225 to R227). -/
def execOrderBarrier (m : Msg) (arg : BitVec 32) (s : State) : Host.Outcome State Fault Refusal := message m (.orderBarrier m arg) s

/-- COMPL_BARRIER (R228). -/
def execComplBarrier (m : Msg) (arg : BitVec 32) (s : State) : Host.Outcome State Fault Refusal := message m (.complBarrier m arg) s

/-- WB_DIRTY (R200). -/
def execWbDirty (m : Msg) (data : Granule) (poison : Bool) (s : State) : Host.Outcome State Fault Refusal :=
  message m (.wbDirty m data poison) s

/-- EVICT_CLEAN (R200). -/
def execEvictClean (m : Msg) (given : CacheSt) (s : State) : Host.Outcome State Fault Refusal := message m (.evictClean m given) s

/-- ACK (R197). -/
def execAck (m : Msg) (htid : Nat) (s : State) : Host.Outcome State Fault Refusal := message m (.ack m htid) s

/-- SNP_RESP (R194). -/
def execSnpResp (m : Msg) (htid : Nat) (st : CacheSt) (evicted : Bool) (s : State) : Host.Outcome State Fault Refusal :=
  message m (.snpResp m htid st evicted) s

/-- SNP_DATA (R194, R198). -/
def execSnpData (m : Msg) (htid : Nat) (st : CacheSt) (data : Granule) (poison : Bool) (s : State) : Host.Outcome State Fault Refusal :=
  message m (.snpData m htid st data poison) s

/-- ATOMIC (R205, R285). -/
def execAtomic (m : Msg) (op : AtomicOp) (size offset : Nat) (payload : Granule) (s : State) : Host.Outcome State Fault Refusal :=
  copingMessage m (.atomic m op size offset payload) s

/-- ACCUM (R205, R248, R285). -/
def execAccum (m : Msg) (words : List CombWord) (s : State) : Host.Outcome State Fault Refusal := copingMessage m (.accum m words) s

/-- RESERVED_OPCODE_MESSAGE (R191). -/
def execReservedOpcodeMessage (m : Msg) (s : State) : Host.Outcome State Fault Refusal :=
  done s (if linkIn s m.port 5 then reservedMessage (agentOf s m) s else s)

/-- The forwarded read that a notice names. -/
def noticeFor (m : Msg) (f : Fwd) : Bool :=
  f.gaddr == m.gaddr && !f.noticed && !isWFwd f
    && if m.req % 16 < 8 then f.txid == m.txid && f.agent % 64 == m.agent % 64 else f.req % 8192 == m.txid

/-- READ_NOTICE (R227, R314). -/
def execReadNotice (m : Msg) (s : State) : Host.Outcome State Fault Refusal :=
  match s.dir.fwds.find? (noticeFor m) with
  | some f => settled s (onDir (fun d => { d with fwds := d.fwds.map fun x => if x.req = f.req then { x with noticed := true } else x }) s)
  | none => done s s

/-- GATHER_MAX_AGE (R224): the entry by its number. Reserved entries wait for their merge. -/
def execGatherMaxAge (entry : Nat) (s : State) : Host.Outcome State Fault Refusal :=
  if s.ord.gbs.any fun g => g.id == entry && g.rsv == 0 then settled s (drainEntry entry s) else done s s

end Sys2Proof.Machine
end

