-- ==== Sys2Proof/Machine/GroupCmds.lean ====
section
/-!
DEFINITION. The meanings of group messages, of formation and of readmission (R63, R311, R315 to R320, R351).
-/

namespace Sys2Proof.Machine
open Sys2Proof

/-- A group message of member `src` for this module arrives on an ACTIVE Coping port (R320). -/
def groupMessage (l src : Nat) (f : State → State) (s : State) : Host.Outcome State Fault Refusal :=
  if linkIn s (.cop l) 5 && decide (src < s.grp.size) && src != s.grp.id then settled s (f s) else done s s

/-- GROUP_HELLO (R315, R317). The tick source and the tick number of the sender decide nothing. -/
def execGroupHello (l src size interleave _tickSource part _tck : Nat) (s : State) : Host.Outcome State Fault Refusal :=
  if linkIn s (.cop l) 5 then settled s (takeHello src size interleave part s) else done s s

/-- FORM_WAIT (R315). -/
def execFormWait (s : State) : Host.Outcome State Fault Refusal := if s.glb.memReady then settled s (formEnds s) else done s s

/-- TICK_ALIGN_SEND (R318): by the leader, in a course whose number is a multiple of 4,096. -/
def execTickAlignSend (s : State) : Host.Outcome State Fault Refusal :=
  if s.tck.running ∧ s.tck.count % 4096 = 0 ∧ 1 < s.grp.size ∧ s.grp.leader = s.grp.id then done s (sendAlign 99 s.grp.id s.tck.count s)
  else done s s

/-- TICK_ALIGN (R318, R319). -/
def execTickAlign (l src t : Nat) (s : State) : Host.Outcome State Fault Refusal := groupMessage l src (takeAlign l src (t % 2 ^ 64)) s

/-- HOIST_ARM (R63). -/
def execHoistArm (l src tag : Nat) (entry : BitVec 256) (s : State) : Host.Outcome State Fault Refusal :=
  groupMessage l src (takeHoistArm src tag entry.toNat) s

/-- HOIST_REPLY (R63). -/
def execHoistReply (l src tag status : Nat) (s : State) : Host.Outcome State Fault Refusal :=
  groupMessage l src (takeHoistReply src tag status) s

/-- GROUP_HOIST_TIMEOUT (R63): 2 ticks after the acceptance. -/
def execGroupHoistTimeout (tag : Nat) (s : State) : Host.Outcome State Fault Refusal :=
  match s.tck.groupHoists.find? fun g => g.tag == tag with
  | some g => if g.accepted + 2 ≤ s.tck.course then settled s (endGroupHoist g 0x0017 s) else done s s
  | none => done s s

/-- GROUP_HOIST_CANCEL (R351). -/
def execGroupHoistCancel (l src hoistId : Nat) (s : State) : Host.Outcome State Fault Refusal :=
  groupMessage l src (takeHoistCancel hoistId) s

/-- LINK_RESUME (R311). -/
def execLinkResume (l src port fseq : Nat) (s : State) : Host.Outcome State Fault Refusal :=
  if port < 4 then groupMessage l src (linkResumed (8 + port) fseq) s else done s s

/-- MEMBER_STATE (R316). -/
def execMemberState (l src : Nat) (present lost waiting : BitVec 8) (s : State) : Host.Outcome State Fault Refusal :=
  groupMessage l src (takeMemberState present lost waiting) s

/-- READMIT (R317). -/
def execReadmit (l src : Nat) (mask : BitVec 8) (s : State) : Host.Outcome State Fault Refusal := groupMessage l src (takeReadmit mask) s

/-- READMIT_WRITE (R317). -/
def execReadmitWrite (mask : BitVec 8) (s : State) : Host.Outcome State Fault Refusal :=
  if mask = 0 then done s s else settled s (hostBar (.readmitWrite mask) s)

end Sys2Proof.Machine
end

