-- ==== Sys2Proof/Machine/LinkCmds.lean ====
section
/-!
DEFINITION. The meanings of what arrives on the Halyard and Coping links below their coherence messages, of their timers, and of the
writes that act on them (R277 to R307, R449).
-/

namespace Sys2Proof.Machine
open Sys2Proof

/-- What happens on a port that the module has. -/
def onPortHere (p : Port) (f : Nat → State → State) (s : State) : Host.Outcome State Fault Refusal :=
  if portHere p then settled s (f (portIdx p) s) else done s s

/-- FLIT_RECEIVED (R281 to R283, R289). -/
def execFlitReceived (p : Port) (wire : BitVec 2048) (s : State) : Host.Outcome State Fault Refusal :=
  onPortHere p (fun i => receiveFlit i wire) s

/-- NAK_REPEAT (R289). -/
def execNakRepeat (p : Port) (s : State) : Host.Outcome State Fault Refusal :=
  if linkIn s p 5 && (link s (portIdx p)).waiting then done s (sendIdle (portIdx p) true s) else done s s

/-- LINK_STATE_TIMEOUT (R292, R294). -/
def execLinkStateTimeout (p : Port) (s : State) : Host.Outcome State Fault Refusal := onPortHere p stateTimeout s

/-- DETECT_RETRY (R292). -/
def execDetectRetry (p : Port) (s : State) : Host.Outcome State Fault Refusal :=
  if linkIn s p 1 && (link s (portIdx p)).failed then done s (onLink (portIdx p) (fun k => { k with failed := false }) s) else done s s

/-- TRAINING_SET (R293). -/
def execTrainingSet (p : Port) (set : BitVec 256) (low : Bool) (s : State) : Host.Outcome State Fault Refusal :=
  onPortHere p (fun i => takeSet i set low) s

/-- LINK_TRAIN_FAIL (R294): the port is still in training, and has failed at its smallest width at half rate. -/
def execLinkTrainFail (p : Port) (s : State) : Host.Outcome State Fault Refusal :=
  let i := portIdx p
  let k := link s i
  if portHere p && k.cannot && decide (1 ≤ k.st) && decide (k.st ≤ 4) then done s (event 0x0503 (0x40 + i) (eventPort i) s) else done s s

/-- CREDIT_INIT (R287, R301). -/
def execCreditInit (p : Port) (q sc w pc d : Nat) (s : State) : Host.Outcome State Fault Refusal :=
  onPortHere p (fun i => takeCredits i q sc w pc d) s

/-- LINK_DOWN (R298, R316). -/
def execLinkDown (p : Port) (reason : Nat) (s : State) : Host.Outcome State Fault Refusal := onPortHere p (fun i => takeLinkDown i reason) s

/-- KEY_OFFER (R301). -/
def execKeyOffer (l : Nat) (o : KeyOffer) (s : State) : Host.Outcome State Fault Refusal := onPortHere (.cop l) (fun _ => takeOffer l o) s

/-- KEY_WRAP (R301). -/
def execKeyWrap (l wrapped sig : Nat) (s : State) : Host.Outcome State Fault Refusal :=
  onPortHere (.cop l) (fun _ => takeWrap l wrapped sig) s

/-- KEY_DONE (R301). -/
def execKeyDone (l epoch : Nat) (s : State) : Host.Outcome State Fault Refusal := onPortHere (.cop l) (fun _ => takeDone l epoch) s

/-- An LTYPE that the port knows (R296, R314). -/
def knownLtype (p : Port) (t : Nat) : Bool :=
  t == 1 || t == 3 || match p with
    | .hal _ => false
    | .cop _ => t == 4 || t == 5 || t == 6 || decide (0x10 ≤ t ∧ t ≤ 0x17)

/-- RESERVED_LTYPE (R296): the port receives LCTL flits. -/
def execReservedLtype (p : Port) (ltype : Byte) (s : State) : Host.Outcome State Fault Refusal :=
  let k := link s (portIdx p)
  if portHere p && (k.st == 5 || (k.st == 4 && k.agree == 8)) && !knownLtype p ltype.toNat then done s (reservedLt (portIdx p) s) else done s s

/-- PORT_ENABLE (R298, R307). -/
def execPortEnable (p : Port) (on : Bool) (s : State) : Host.Outcome State Fault Refusal :=
  onPortHere p (fun _ => hostBar (.portEnable p on)) s

/-- AGENT_RESET (R307, R449): Halyard ports only. -/
def execAgentReset (p : Nat) (s : State) : Host.Outcome State Fault Refusal :=
  onPortHere (.hal p) (fun _ => hostBar (.agentReset p)) s

/-- RETRAIN (R307): an ACTIVE link. -/
def execRetrain (p : Port) (s : State) : Host.Outcome State Fault Refusal :=
  onPortHere p (fun _ => hostBar (.retrain p)) s

/-- AGENT_RESET_STRETCH_END (R292, R449). -/
def execAgentResetStretchEnd (p : Nat) (s : State) : Host.Outcome State Fault Refusal := onPortHere (.hal p) stretchEnds s

/-- RECEIVER_DETECTED (R292). -/
def execReceiverDetected (p : Port) (s : State) : Host.Outcome State Fault Refusal :=
  if linkIn s p 1 && !(link s (portIdx p)).failed then done s (startPolling (portIdx p) s) else done s s

end Sys2Proof.Machine
end

