-- ==== Sys2Proof/Machine/SensorCmds.lean ====
section
/-!
DEFINITION. The temperature sensors (R115, R466 to R476), and the meanings of the commands by which they are sampled and by which a
thermal stop or trip comes. Readings are in units of 0.25 °C.
-/

namespace Sys2Proof.Machine
open Sys2Proof

/-- A sensor is found broken: recorded once (R472). -/
def breakSensor (n : Nat) (s : State) : State :=
  if (sensor s n).broken then s else
  event 0x0A04 0xB n (onThm (fun t => { t with cntBroken := sat 64 t.cntBroken 1 })
    (onSensor n (fun x => { x with broken := true, hot := false }) s))

/-- The range of the module's grade (R2). -/
def inGrade (s : State) (q : Int) : Bool :=
  if s.fuses.grade = 2 then decide (-20 ≤ q) && decide (q ≤ 280) else decide (0 ≤ q) && decide (q ≤ 220)

/-- Consecutive inlet samples outside, and inside, the range (R473). -/
def inletSample (q : Int) (s : State) : State :=
  if inGrade s q then
    onThm (fun t => { t with outRun := 0, inRun := min 10 (t.inRun + 1), inletOut := t.inletOut && decide (t.inRun + 1 < 10) }) s
  else
    let first := !s.thm.inletOut && decide (9 ≤ s.thm.outRun)
    let s := onThm (fun t => { t with inRun := 0, outRun := min 10 (t.outRun + 1), inletOut := t.inletOut || first }) s
    if first then event 0x0A05 0xB (twos 64 q) s else s

/-- A sensor 0 to 84 that is not broken reads 100 °C or more: TIMING (R474). -/
def timeHot (s : State) : State :=
  let hot := (upto 85).any fun n => (sensor s n).hot
  onThm (fun t => { t with timing := hot && !t.stopping }) s

/-- The comparator of a sensor that was hot at a trip reads below 100 °C again (R476). -/
def coolTrip (n : Nat) (q : Int) (s : State) : State :=
  if n ∈ s.plinth.hotComps ∧ q < 400 then onPlinth (fun p => { p with hotComps := p.hotComps.filter (· != n) }) s else s

/-- One sample of a sensor (R467, R472, R474). -/
def sampleSensor (n : Nat) (r : Reading) (s : State) : State :=
  match r with
  | .checkFailed => timeHot (breakSensor n s)
  | .absent =>
    let s := onSensor n (fun x => { x with lost := min 3 (x.lost + 1) }) s
    timeHot (if 3 ≤ (sensor s n).lost then breakSensor n s else s)
  | .temp q =>
    let s := onSensor n (fun x => { x with temp := q, lost := 0 }) (coolTrip n q s)
    if q < -160 ∨ 600 < q then timeHot (breakSensor n s)
    else if n = 85 then inletSample q s
    else timeHot (onSensor n (fun x => { x with band := nextBand x.band q, hot := decide (400 ≤ q) && !x.broken }) s)

/-- The sensors are read: the controller is powered and has loaded its identity (R360). -/
def sensorsRead (s : State) : Bool := s.plinth.st != 0 && decide (3 ≤ s.glb.step)

/-- SENSOR_SAMPLE (R466): the controller, DRAM, regulator and inlet sensors. While the module is Off only the comparator is there. -/
def execSensorSample (n : Nat) (r : Reading) (s : State) : Host.Outcome State Fault Refusal :=
  if n < 86 ∧ ¬ (4 ≤ n ∧ n ≤ 67) ∧ sensorsRead s then done s (sampleSensor n r s)
  else match r with
    | .temp q => done s (coolTrip n q s)
    | _ => done s s

/-- A package is sampled: its sensor, and the advance of its clock, which takes effect at the next course start (R115, R119). -/
def samplePackage (i : Nat) (r : Reading) (s : State) : State :=
  let s := sampleSensor (4 + i) r s
  let x := pkgSensor s i
  onDrf (fun d => { d with advance := tmod 0 d.advance i (· + sampleAdvance s (if x.broken then 4 else x.band)) }) s

/-- PACKAGE_SAMPLE (R115): every package in turn. -/
def execPackageSample (rs : List Reading) (s : State) : Host.Outcome State Fault Refusal :=
  if s.tck.running then done s (each (upto (packages s)) (fun i s => samplePackage i ((nth rs i).getD .absent) s) s)
  else done s s

/-- STARTUP_THERMAL_TIMEOUT (R382). -/
def execStartupThermalTimeout (n : Nat) (s : State) : Host.Outcome State Fault Refusal := done s (startTooHot n s)

/-- THERMAL_STOP (R474): the sensor that has been hot for 1 s. -/
def execThermalStop (n : Nat) (s : State) : Host.Outcome State Fault Refusal :=
  if (sensor s n).hot then settled s (thermalStop n s) else done s s

/-- THERMAL_TRIP (R476): the comparators of the part's sensors 0 to 67 and 84. -/
def execThermalTrip (n : Nat) (temp : Int) (s : State) : Host.Outcome State Fault Refusal :=
  if (n ≤ 67 ∨ n = 84) ∧ sensorHere s n then done s (thermalTrip n temp s) else done s s

end Sys2Proof.Machine
end

