-- ==== Sys2Proof/Machine/MediaCmds.lean ====
section
/-!
DEFINITION. The meanings of the commands of the media engine (R36 to R136): ends of senses, pulse groups, reset strips and staging
copies, and the times at which journal pages and checkpoints are due.
-/

namespace Sys2Proof.Machine
open Sys2Proof

/-! ## Media reads (R125, R126) -/

/-- A page of single-level role is read with one threshold and has no ladder (R124). -/
def isMulti (s : State) (ppn : Nat) : Bool := (blk s (blockOfPpn ppn)).multi

/-- Read `i` is no longer queued. -/
def dropRead (i : Nat) : State → State := onMed fun m => { m with reads := m.reads.filter fun r => r.id != i }

/-- What the transactions that wait for a read show of it in their samples (R514). -/
def noteRead (r : MRead) (s : State) : State :=
  let late := decide (r.cls ≤ 1) && !r.inBudget
  match r.why with
  | .fill u => onDir (fun d => { d with txns := d.txns.map fun t =>
      if t.req.lg / 8 = u ∧ t.stage = .line then { t with retry := max t.retry r.retry, overBudget := t.overBudget || late } else t }) s
  | .mapPage m => onDir (fun d => { d with txns := d.txns.map fun t =>
      if t.req.lg / 768 = m ∧ t.stage = .line then { t with mapRead := true, overBudget := t.overBudget || late } else t }) s
  | _ => s

/-- The data of a page that has been read. -/
def readGood (r : MRead) (s : State) : State :=
  match r.why with
  | .fill u => match mediumPage s r.ppn with
    | some p => fillData u (pagePlain s p) s
    | none => fillPoison u s
  | .mapPage m => loadMap m false s
  | .reloc i page => copyRead i page s
  | .patrol _ _ => s
  | .selfTest l => senseDone l true s

/-- A page that cannot be corrected (R126): the error, and what the read was for. The attempts of a self-test make no new one. -/
def readBad (r : MRead) (s : State) : State :=
  let err := poisonRoute (mediaUnit (channelOfPpn r.ppn)) 7 r.ppn
  match r.why with
  | .fill u => fillPoison u (err s)
  | .mapPage m => loseMap m (err s)
  | .reloc i page => copyLost i page (err s)
  | .patrol _ _ => err s
  | .selfTest l => senseDone l false s

/-- A corrected page: it is heavy when its hard decode corrected many bits, and it may show that its block drifts ahead (R106, R136). -/
def pageCorrected (r : MRead) (bits : Nat) (ahead : Bool) (s : State) : State :=
  let b := blockOfPpn r.ppn
  let test := match r.why with | .selfTest _ => true | _ => false
  let patrol := match r.why with | .patrol _ _ => true | _ => false
  let s := if r.retry = 1 then onDrf (fun d => { d with cntRetry1 := sat 64 d.cntRetry1 1 }) s else s
  let s := if r.retry = 0 ∧ !test ∧ expertIn s 0x0200018 % 64 ≤ bits then heavyRead b s else s
  let s := if ahead && patrol && decide (2 ≤ r.retry) then driftAhead b s else s
  readGood r (dropRead r.id (noteRead r s))

/-- A failed attempt: the next retry waits for a later course, or the page is uncorrectable. -/
def pageFailed (r : MRead) (s : State) : State :=
  let b := blockOfPpn r.ppn
  let test := match r.why with | .selfTest _ => true | _ => false
  let s := if r.retry = 0 then count (mediaUnit (channelOfPpn r.ppn)) 0x14 1 s else s
  if isMulti s r.ppn && decide (r.retry < 6) then
    let s := if r.retry = 0 ∧ !test then heavyRead b s else s
    let s := if r.retry = 1 then onDrf (fun d => { d with cntDeep := sat 64 d.cntDeep 1 }) s else s
    onMed (fun m => { m with reads := m.reads.map fun q => if q.id = r.id then
        { q with retry := q.retry + 1, assigned := none, made := q.made ++ q.senses, senses := [], passed := false } else q }) s
  else readBad r (dropRead r.id (noteRead r s))

/-- MEDIA_READ_DONE: the attempt that was assigned to a course has ended. -/
def execMediaReadDone (read : Nat) (d : Decode) (s : State) : Host.Outcome State Fault Refusal :=
  match readById s read with
  | none => done s s
  | some r =>
    if r.assigned.isNone then done s s
    else
      let s' := count (mediaUnit (channelOfPpn r.ppn)) (if isMulti s r.ppn then 0x10 else 0x11) r.senses.length s
      match d with
      | .corrected bits ahead => settled s (pageCorrected r bits ahead s')
      | .failed => settled s (pageFailed r s')

/-! ## Programs and resets (R39, R42, R84, R96) -/

/-- PULSE_GROUP_DONE: a half-piece, or a pulse group. After the last group its verify decides. A piece begins only once the windows are
fixed (R557). -/
def execPulseGroupDone (prog : Nat) (ok : Bool) (s : State) : Host.Outcome State Fault Refusal :=
  match s.med.progs.find? fun p => p.id == prog with
  | none => done s s
  | some p =>
    if !p.running || s.tck.guard then done s s
    else
      let s' := fixWindows s
      if splitPieces s && !p.half then done s (onProg prog (fun q => { q with half := true, running := false }) s')
      else
        let s' := count (mediaUnit (channelOfBank p.bank)) 0x12 1 s'
        let q : Prog := { p with done := p.done + 1, half := false, running := false }
        match p.ppn with
        | some ppn =>
          if p.done + 1 < p.groups then done s (onProg prog (fun _ => q) s')
          else settled s (if ok then progVerified q ppn s' else progFailed q ppn s')
        | none => done s s

/-- RESET_STRIP_DONE: a half-piece, or a strip. After strip 256 its verify decides (R96, R108). -/
def execResetStripDone (block : Nat) (ok : Bool) (s : State) : Host.Outcome State Fault Refusal :=
  match s.med.resets.find? fun r => r.block == block with
  | none => done s s
  | some r =>
    if !r.running || s.tck.guard then done s s
    else
      let s' := fixWindows s
      if splitPieces s && !r.half then done s (onRst block (fun q => { q with half := true, running := false }) s')
      else
        let s' := count (mediaUnit (channelOfBank (bankOfBlock block))) 0x13 1 s'
        let q : Rst := { r with strip := r.strip + 1, half := false, running := false }
        if q.strip < 256 then done s (onRst block (fun _ => q) s')
        else settled s (if ok then resetVerified q s' else resetFailed q s')

/-! ## Times -/

/-- JOURNAL_PAGE_TIMEOUT (R90). -/
def execJournalPageTimeout (s : State) : Host.Outcome State Fault Refusal := settled s (journalTimeout s)

/-- CHECKPOINT_PERIODIC (R93). A checkpoint that is still being written stands for it. -/
def execCheckpointPeriodic (s : State) : Host.Outcome State Fault Refusal :=
  if inRun s && s.med.ckpt.isNone then settled s (startCkpt 0 s) else done s s

/-- STAGING_COPY_DONE (R157, R160): the line by its user page. -/
def execStagingCopyDone (line : Nat) (s : State) : Host.Outcome State Fault Refusal := settled s (lineLeaves line s)

end Sys2Proof.Machine
end

