-- ==== Sys2Proof/Machine/ObserveCmds.lean ====
section
/-!
DEFINITION. The meanings of the counters' controls and of the event recorder's timers (R506 to R522, R534).
-/

namespace Sys2Proof.Machine
open Sys2Proof

/-- FREEZE (R509). -/
def execFreeze (s : State) : Host.Outcome State Fault Refusal := done s (hostBar .freeze s)

/-- FREEZE_RELEASE (R509). -/
def execFreezeRelease (s : State) : Host.Outcome State Fault Refusal := done s (hostBar .freezeRelease s)

/-- PMC_CLEAR (R509). -/
def execPmcClear (s : State) : Host.Outcome State Fault Refusal := done s (hostBar .pmcClear s)

/-- UNIT_CLEAR (R509). -/
def execUnitClear (u : Nat) (s : State) : Host.Outcome State Fault Refusal :=
  if isCounterUnit u then done s (hostBar (.unitClear u) s) else done s s

/-- PMC_OVERFLOW (R508): the counter stands at its last value and counts once more. -/
def execPmcOverflow (u i : Nat) (s : State) : Host.Outcome State Fault Refusal :=
  let p := pmcUnit s u
  if isCounterUnit u && decide (i < 8) && !pmcStopped s && !chained p i && tget 0 p.pc i == 2 ^ 32 - 1 then
    done s (pmcCarry u i (onUnit u (fun p => { p with pc := tset 0 p.pc i 0 }) s))
  else done s s

/-- EVENT_SLOT_TIMER (R519): the records that wait and are in no append yet. -/
def execEventSlotTimer (s : State) : Host.Outcome State Fault Refusal := done s (appendSlot (s.evr.waiting.length - evInFlight s) s)

/-- EVENT_LATE_RECORD (R518): the last suppressed event, once the store has room. -/
def execEventLateRecord (code : Nat) (s : State) : Host.Outcome State Fault Refusal :=
  let b := bucket s code
  match b.lastEv with
  | some e =>
    if s.evr.waiting.length < 4096 then
      done s (recordEvent { e with suppressed := min (b.supp - 1) 65535 }
        (onEvr (fun v => { v with buckets := tset {} v.buckets code { b with supp := 0, lastEv := none } }) s))
    else done s s
  | none => done s s

/-- EXPERT_CLR (R534). -/
def execExpertClr (s : State) : Host.Outcome State Fault Refusal := done s (hostBar .expertClr s)

end Sys2Proof.Machine
end

