-- ==== Sys2Proof/Machine/PowerCmds.lean ====
section
/-!
DEFINITION. The meanings of the events of start-up, the supply, power failure, requests, resets and clock gating (R360 to R384, R417 to
R461).
-/

namespace Sys2Proof.Machine
open Sys2Proof

/-! ## Start-up (R360, R361, R382, R423 to R430, R455) -/

/-- POWER_UP (R360, R417). -/
def execPowerUp (vin : Nat) (s : State) : Host.Outcome State Fault Refusal := done s (powerUp vin s)

/-- RAIL_GOOD (R423). -/
def execRailGood (rail mv : Nat) (s : State) : Host.Outcome State Fault Refusal := done s (if rail < 24 then railGood rail mv s else s)

/-- RAIL_START (R425). -/
def execRailStart (rail mv : Nat) (s : State) : Host.Outcome State Fault Refusal := done s (if rail < 24 then railStart rail mv s else s)

/-- REF_STABLE (R455, R360). -/
def execRefStable (cycles : Nat) (s : State) : Host.Outcome State Fault Refusal := done s (refStable cycles s)

/-- CLOCK_TIMEOUT (R382, R455). -/
def execClockTimeout (s : State) : Host.Outcome State Fault Refusal := done s (clockTimeout s)

/-- DRAM_TRAINED (R360, R376 to R380). -/
def execDramTrained (b : BootMedia) (offTime us : Nat) (s : State) : Host.Outcome State Fault Refusal := settled s (dramReady b offTime us s)

/-- HOLDUP_CHARGED (R430). -/
def execHoldupCharged (c vbank : Nat) (s : State) : Host.Outcome State Fault Refusal := done s (bankCharged c vbank s)

/-- MEMORY_READY (R361). -/
def execMemoryReady (readyUs : Nat) (s : State) : Host.Outcome State Fault Refusal := settled s (memoryReady readyUs s)

/-! ## The input (R417, R421, R433 to R442) -/

/-- The controller runs, so that it records events. -/
def controllerUp (s : State) : Bool := s.plinth.st != 0 && decide (3 ≤ s.glb.step)

/-- An input below the threshold of its kind; that of the average, once DROP_PCT asks for it, is the measurement's (R433). -/
def tripHolds (s : State) : TripKind → Nat → Bool
  | .threshold, vin => decide (vin < s.pwr.trip * 50)
  | .relative, _ => s.pwr.dropPct != 0

def seeVin (vin : Nat) : State → State := onPlinth fun p => { p with vin }

/-- INPUT_TRIP (R433, R434). -/
def execInputTrip (kind : TripKind) (vin : Nat) (s : State) : Host.Outcome State Fault Refusal :=
  if s.plinth.alive && !s.plinth.down && tripHolds s kind vin then settled s (tripped (seeVin vin s)) else done s s

/-- WARNING_INTERVAL_END (R434, R440). -/
def execWarningIntervalEnd (s : State) : Host.Outcome State Fault Refusal := settled s (warningEnds s)

/-- COMMIT_POINT (R434): quiesce is complete, or has reached its limit. -/
def execCommitPoint (s : State) : Host.Outcome State Fault Refusal :=
  if s.plinth.st = 3 ∧ s.ord.draining then settled s (commit s) else done s s

/-- DUMP_COMPLETE (R437, R439). -/
def execDumpComplete (us : Nat) (s : State) : Host.Outcome State Fault Refusal := done s (dumpDone us s)

/-- RAIL_DISABLE (R423). -/
def execRailDisable (rail : Nat) (s : State) : Host.Outcome State Fault Refusal := done s (disableRail rail s)

/-- INPUT_RISE (R440). -/
def execInputRise (vin : Nat) (s : State) : Host.Outcome State Fault Refusal :=
  if s.plinth.alive then done s (inputRises vin s) else done s s

/-- INPUT_GOOD (R440). -/
def execInputGood (s : State) : Host.Outcome State Fault Refusal := settled s (cancelShutdown s)

/-- AUTO_RESTART (R442). -/
def execAutoRestart (s : State) : Host.Outcome State Fault Refusal := done s (autoRestart s)

/-- OVER_VOLTAGE (R417): the switch opens, which is a trip (R433). -/
def execOverVoltage (vin : Nat) (s : State) : Host.Outcome State Fault Refusal :=
  if s.plinth.alive && !s.plinth.swOpen && decide (46000 < vin) then
    let t := onPlinth (fun p => { p with swOpen := true, vin }) s
    settled s (if s.plinth.down then t else tripped t)
  else done s s

/-- OVER_VOLTAGE_END (R417). -/
def execOverVoltageEnd (vin : Nat) (s : State) : Host.Outcome State Fault Refusal :=
  if s.plinth.swOpen && decide (vin < 44000) then done s (inputRises vin (onPlinth (fun p => { p with swOpen := false }) s)) else done s s

/-- INPUT_HIGH (R417): once per surge. -/
def execInputHigh (vin : Nat) (s : State) : Host.Outcome State Fault Refusal :=
  if s.plinth.alive && !s.plinth.high && decide (40000 < vin) then
    let t := onPlinth (fun p => { p with high := true, vin }) s
    done s (if controllerUp s then event 0x0A01 0xA vin t else t)
  else done s s

/-- INPUT_HIGH_END (R450). -/
def execInputHighEnd (vin : Nat) (s : State) : Host.Outcome State Fault Refusal :=
  if s.plinth.high && decide (vin ≤ 40000) then done s (onPlinth (fun p => { p with high := false, vin }) s) else done s s

/-- INPUT_LIMIT (R421). -/
def execInputLimit (s : State) : Host.Outcome State Fault Refusal :=
  if controllerUp s then
    let t := onPwr (fun p => { p with limitNext := true, inputLimit := true, limitCourses := 0, cntLimit := sat 64 p.cntLimit 1 }) s
    done s (event 0x0A02 0xA s.plinth.vin (onPlinth (fun p => { p with charger := false }) t))
  else done s s

/-- The charger runs again when neither PFW_N nor INPUT_LIMIT stands (R429). -/
def chargeAgain (s : State) : State :=
  onPlinth (fun p => { p with charger := !p.pfw && !s.pwr.inputLimit && !s.pwr.measuring && p.st != 0 && p.st != 7 }) s

/-- INPUT_LIMIT_CLEAR (R421). -/
def execInputLimitClear (s : State) : Host.Outcome State Fault Refusal :=
  if s.pwr.inputLimit ∧ 64 ≤ s.pwr.limitCourses then done s (chargeAgain (onPwr (fun p => { p with inputLimit := false }) s)) else done s s

/-! ## Rails and clocks that fail (R426, R456) -/

/-- RAIL_RUN (R426). -/
def execRailRun (rail mv : Nat) (s : State) : Host.Outcome State Fault Refusal :=
  if rail < 24 ∧ railSt s rail = 2 ∧ railInWindow rail mv = false then settled s (railFails rail mv 2 s) else done s s

/-- CLOCK_FAIL (R456): after memory ready. -/
def execClockFail (s : State) : Host.Outcome State Fault Refusal := if s.glb.memReady then settled s (railFails 255 0 8 s) else done s s

/-! ## The hold-up bank (R430 to R432) -/

/-- HOLDUP_MEASURE (R430): every 24 operating hours. -/
def execHoldupMeasure (s : State) : Host.Outcome State Fault Refusal :=
  if s.glb.memReady ∧ s.plinth.st = 2 ∧ s.pwr.measuring = false ∧ 24 ≤ hoursSince s then
    done s (onPlinth (fun p => { p with charger := false }) (onPwr (fun p => { p with measuring := true }) s))
  else done s s

/-- HOLDUP_MEASURE_DONE (R430, R432). -/
def execHoldupMeasureDone (c vbank : Nat) (s : State) : Host.Outcome State Fault Refusal :=
  if s.pwr.measuring then settled s (chargeAgain (measured c vbank 1 s)) else done s s

/-- DIRTY_LIMIT_RECOMPUTE (R432): once C has been measured. -/
def execDirtyLimitRecompute (vbank : Nat) (s : State) : Host.Outcome State Fault Refusal :=
  if s.glb.charged then
    settled s (onPlinth (fun p => { p with vbank }) (onCch (fun x => { x with limit := derivedLimit s.pwr.cMeas vbank }) s))
  else done s s

/-! ## Requests and resets (R443 to R448, R531) -/

/-- PB_SHORT_PRESS (R443). -/
def execPbShortPress (s : State) : Host.Outcome State Fault Refusal :=
  if !s.plinth.alive then done s s
  else if s.plinth.latched then
    let t := clearLatch s
    done s (if t.plinth.latched then t else onRequest t)
  else if s.glb.failed then done s (requestReset s)
  else done s (onRequest s)

/-- PB_HOLD_OFF (R443 to R446). -/
def execPbHoldOff (s : State) : Host.Outcome State Fault Refusal := if s.plinth.alive then settled s (offRequest s) else done s s

/-- FORCED_OFF (R447). -/
def execForcedOff (s : State) : Host.Outcome State Fault Refusal := if s.plinth.alive then done s (forceOff s) else done s s

/-- MR_RELEASE (R448). -/
def execMrRelease (s : State) : Host.Outcome State Fault Refusal := settled s (requestReset s)

/-- HARD_RESET (R448). -/
def execHardReset (s : State) : Host.Outcome State Fault Refusal := done s (hardReset s)

/-- GLB_RESET_KEY (R531): 0xA55A is written to GLB_RESET; none in the failed state. -/
def execGlbResetKey (s : State) : Host.Outcome State Fault Refusal :=
  settled s (hostBar .glbResetKey s)

/-- DRAIN_COMPLETE (R236, R388, R444). -/
def execDrainComplete (s : State) : Host.Outcome State Fault Refusal := done s (drainDone s)

/-- PLINTH_DOMAIN_LOSS (R418): no source is left, so the controller is down too; latches and the off interval are lost (R427, R137). -/
def execPlinthDomainLoss (s : State) : Host.Outcome State Fault Refusal :=
  let s' := if s.glb.memReady then markLossy (anyDirty s) (cutDump s) else s
  let t := controllerOff (allRails 0 s')
  done s { t with plinth := { alive := false, st := 0, charger := false, rails := t.plinth.rails, kept := false, down := true } }

/-! ## Clock gating (R457 to R460) -/

/-- CLK_GATE_WRITE (R458, R459). -/
def execClkGateWrite (v : BitVec 32) (s : State) : Host.Outcome State Fault Refusal :=
  settled s (hostBar (.clkGateWrite v) s)

/-- UNIT_UNGATED (R460). -/
def execUnitUngated (u : Nat) (s : State) : Host.Outcome State Fault Refusal := if u < 27 then done s (ungateUnit u s) else done s s

end Sys2Proof.Machine
end

