-- ==== Sys2Proof/Machine/QuoinCmds.lean ====
section
/-!
DEFINITION. The meanings of the Quoin commands (R343 to R358), of the copy channels' RESUME and DISCARD (R350), and of the ends of Stop
entry and of a report. A command starts when it is the next of its queue and nothing holds it.
-/

namespace Sys2Proof.Machine
open Sys2Proof

/-- Commands of group ranges: operation 0 preload, 1 clean, 2 flush, 3 invalidate (R163, R166, R345). -/
def rangeJob (c : Cmd) (op : Nat) (lock : Bool) (addr len : Nat) : State → State :=
  startJob { cmd := c, op, lock, next := addr / 512, last := (addr + len) / 512, base := addr }

/-- Commands of sets (R346). Another member does its own part. -/
def setJob (c : Cmd) (op grp first count : Nat) (s : State) : State :=
  if grp = s.grp.id then
    startJob { cmd := c, op, bySet := true, next := first * 12 * 32, last := (first + count) * 12 * 32 } s
  else finish c 0 0 s

/-- NOP (R343). -/
def execNop (c : Cmd) (s : State) : Host.Outcome State Fault Refusal := done s (startCmd c (.nop c) (finish c 0 0) s)

/-- CACHE_PRELOAD (R163, R164, R345). -/
def execCachePreload (c : Cmd) (addr len : Nat) (lock : Bool) (s : State) : Host.Outcome State Fault Refusal :=
  settled s (startCmd c (.cachePreload c addr len lock) (rangeJob c 0 lock addr len) s)

/-- CACHE_UNLOCK (R165, R345). -/
def execCacheUnlock (c : Cmd) (addr len : Nat) (s : State) : Host.Outcome State Fault Refusal :=
  settled s (startCmd c (.cacheUnlock c addr len) (fun s => match lostIn s addr len with
    | some a => finish c 0x0005 a (unlockRange addr (a - addr) s)
    | none => finish c 0 0 (unlockRange addr len s)) s)

/-- CACHE_MAINT with CLEAN (R166 to R168). -/
def execCacheMaintClean (c : Cmd) (addr len : Nat) (s : State) : Host.Outcome State Fault Refusal :=
  settled s (startCmd c (.cacheMaintClean c addr len) (rangeJob c 1 false addr len) s)

/-- CACHE_MAINT with FLUSH (R166 to R168). -/
def execCacheMaintFlush (c : Cmd) (addr len : Nat) (s : State) : Host.Outcome State Fault Refusal :=
  settled s (startCmd c (.cacheMaintFlush c addr len) (rangeJob c 2 false addr len) s)

/-- CACHE_MAINT with INVALIDATE (R166 to R168). -/
def execCacheMaintInvalidate (c : Cmd) (addr len : Nat) (s : State) : Host.Outcome State Fault Refusal :=
  settled s (startCmd c (.cacheMaintInvalidate c addr len) (rangeJob c 3 false addr len) s)

/-- CACHE_MAINT_SET with CLEAN (R166, R346). -/
def execCacheMaintSetClean (c : Cmd) (grp first count : Nat) (s : State) : Host.Outcome State Fault Refusal :=
  settled s (startCmd c (.cacheMaintSetClean c grp first count) (setJob c 1 grp first count) s)

/-- CACHE_MAINT_SET with FLUSH (R166, R346). -/
def execCacheMaintSetFlush (c : Cmd) (grp first count : Nat) (s : State) : Host.Outcome State Fault Refusal :=
  settled s (startCmd c (.cacheMaintSetFlush c grp first count) (setJob c 2 grp first count) s)

/-- CACHE_MAINT_SET with INVALIDATE (R166, R346). -/
def execCacheMaintSetInvalidate (c : Cmd) (grp first count : Nat) (s : State) : Host.Outcome State Fault Refusal :=
  settled s (startCmd c (.cacheMaintSetInvalidate c grp first count) (setJob c 3 grp first count) s)

/-- COPY reaches its channel (R348). -/
def execCopy (c : Cmd) (src dst len channel : Nat) (poisonOk : Bool) (s : State) : Host.Outcome State Fault Refusal :=
  let i := Instr.copy c src dst len channel poisonOk
  settled s (startCopy c channel i s)

/-- RESUME (R350). -/
def execResume (j : Nat) (s : State) : Host.Outcome State Fault Refusal :=
  if j < 16 then settled s (hostBar (.resume j) s) else done s s

/-- DISCARD (R350). -/
def execDiscard (j : Nat) (s : State) : Host.Outcome State Fault Refusal :=
  if j < 16 then settled s (hostBar (.discard j) s) else done s s

/-! ## Hoists and snapshots (R56 to R63, R351, R353, R560) -/

/-- The entry as it goes to the other members: with this module's GRP_ID in its HOIST_ID. -/
def sentEntry (e id : Nat) : Nat := e % 2 ^ 80 + id * 2 ^ 80 + e / 2 ^ 96 * 2 ^ 96

/-- A submission: it is checked and armed; a group hoist goes to every other present member, whose replies end it (R63). -/
def submitHoist (c : Cmd) (e : Nat) (s : State) : State :=
  let h := hoistOf e (some s.grp.id)
  let st := checkHoist s e h
  if st ≠ 0 then finish c st 0 s
  else
    let s := armHoist { h with queue := some c.q } s
    if !h.group || (others s).isEmpty then finish c 0 s.tck.count s
    else
      let tag := s.tck.nextTag
      let s := onTck (fun t => { t with
        nextTag := (t.nextTag + 1) % 65536
        groupHoists := t.groupHoists ++ [{ tag, cmd := c, id := h.id, accepted := t.course, replied := set8 0 s.grp.id }] }) s
      each (others s) (fun d s => sendGroup 0x12 d [tag, sentEntry e h.id] s) s

/-- A cancel by HOIST_ID (R61): with the lead time of a group hoist, also in every other member. -/
def cancelHoist (c : Cmd) (id : Nat) (s : State) : State :=
  match findHoist s id with
  | none => finish c 0x0015 0 s
  | some (i, h) =>
    if h.launch < s.tck.count + (if h.group then 4 else 2) then finish c 0x0016 0 s
    else
      let s := setHoist i none s
      finish c 0 0 (if h.group then each (others s) (fun d s => sendGroup 0x14 d [id] s) s else s)

/-- HOIST_SUBMIT (R56, R58, R63, R351). -/
def execHoistSubmit (c : Cmd) (entry : BitVec 256) (s : State) : Host.Outcome State Fault Refusal :=
  done s (startCmd c (.hoistSubmit c entry) (submitHoist c entry.toNat) s)

/-- HOIST_CANCEL (R61, R351). -/
def execHoistCancel (c : Cmd) (hoistId : Nat) (s : State) : Host.Outcome State Fault Refusal :=
  done s (startCmd c (.hoistCancel c hoistId) (cancelHoist c hoistId) s)

/-- SNAPSHOT (R353): it is taken at the next course start. -/
def execSnapshot (c : Cmd) (s : State) : Host.Outcome State Fault Refusal :=
  done s (startCmd c (.snapshot c) (onHst fun h => { h with snaps := h.snaps ++ [c] }) s)

/-! ## Security commands (R354 to R356, R386 to R390, R410, R413) -/

/-- SEALED_IMPORT (R354, R410, R411). -/
def execSealedImport (c : Cmd) (src dst len : Nat) (iv : BitVec 96) (slot : Nat) (s : State) : Host.Outcome State Fault Refusal :=
  settled s (startCmd c (.sealedImport c src dst len iv slot) (startImport c src dst len iv.toNat slot) s)

/-- ATTEST with REPORT 0x00 (R413). -/
def execAttestCert (c : Cmd) (nonce : BitVec 256) (s : State) : Host.Outcome State Fault Refusal :=
  done s (startCmd c (.attestCert c nonce) (startAttest c 0 nonce) s)

/-- ATTEST with REPORT 0x01 (R413). -/
def execAttestIdentity (c : Cmd) (nonce : BitVec 256) (s : State) : Host.Outcome State Fault Refusal :=
  done s (startCmd c (.attestIdentity c nonce) (startAttest c 1 nonce) s)

/-- ATTEST with REPORT 0x02 (R413). -/
def execAttestConfig (c : Cmd) (nonce : BitVec 256) (s : State) : Host.Outcome State Fault Refusal :=
  done s (startCmd c (.attestConfig c nonce) (startAttest c 2 nonce) s)

/-- ATTEST with REPORT 0x03 (R413). -/
def execAttestGroup (c : Cmd) (nonce : BitVec 256) (s : State) : Host.Outcome State Fault Refusal :=
  done s (startCmd c (.attestGroup c nonce) (startAttest c 3 nonce) s)

/-- ATTEST_DONE (R342, R413). -/
def execAttestDone (s : State) : Host.Outcome State Fault Refusal := done s (attestReady s)

/-- Every fetched command that has not started completes with ABORTED (R356). -/
def abortFetched (s : State) : State :=
  each (upto 64) (fun q s =>
    let l := (queue s q).fetched
    let s := match (queue s q).fenced with
      | some e =>
        let c := entryCmd q e.toNat
        postDone q { kind := 0, cid := c.cid, status := 8, result := 0, noInt := c.noInt } (onQueue q (fun h => { h with fenced := none }) s)
      | none => s
    each l (fun i s => match cmdOf i with
      | some c => postDone q { kind := 0, cid := c.cid, status := 8, result := 0, noInt := c.noInt } s
      | none => s) (onQueue q (fun h => { h with fetched := [] }) s)) s

/-- A LIFECYCLE command: the change that verifies completes, and its drain follows (R356, R388). -/
def lifecycle (c : Cmd) (dst off len : Nat) (s : State) : State :=
  let (st, owner) := lcCheck s dst off len
  if st ≠ 0 then finish c st 0 s
  else onPwr (fun p => { p with drain := 3 }) (abortFetched (onHst (fun h => { h with lc := some (dst, owner) }) (finish c 0 dst s)))

/-- LIFECYCLE to OWNED (R386, R388). -/
def execLifecycleOwned (c : Cmd) (off len : Nat) (s : State) : Host.Outcome State Fault Refusal :=
  settled s (startCmd c (.lifecycleOwned c off len) (lifecycle c 1 off len) s)

/-- LIFECYCLE to SEALED (R386, R388). -/
def execLifecycleSealed (c : Cmd) (off len : Nat) (s : State) : Host.Outcome State Fault Refusal :=
  settled s (startCmd c (.lifecycleSealed c off len) (lifecycle c 2 off len) s)

/-- LIFECYCLE to RETURN (R386, R388). -/
def execLifecycleReturn (c : Cmd) (off len : Nat) (s : State) : Host.Outcome State Fault Refusal :=
  settled s (startCmd c (.lifecycleReturn c off len) (lifecycle c 3 off len) s)

/-- LIFECYCLE to END (R386, R388, R390). -/
def execLifecycleEnd (c : Cmd) (off len : Nat) (s : State) : Host.Outcome State Fault Refusal :=
  settled s (startCmd c (.lifecycleEnd c off len) (lifecycle c 4 off len) s)

/-! ## Self-test, Stop and Run (R357, R358, R463, R464) -/

/-- SELF_TEST of a location: one in use is not tested (outcome 3); a test that is there already serves the command too. -/
def hostTest (c : Cmd) (m loc : Nat) (s : State) : State :=
  let s := openWindow c s
  if testBusy s m loc || (testOf s m loc).any (fun t => t.cmd.isSome) then finish c 0 3 (fillWindow c [] s)
  else
    match testOf s m loc with
    | some t =>
      let s := onTest m loc (fun t => { t with cmd := some c }) s
      if t.running then s else tryTest { t with cmd := some c } s
    | none =>
      let t : STest := { mem := m, loc, cmd := some c, after := false }
      tryTest t (onErr (fun e => { e with tests := e.tests ++ [t] }) s)

/-- SELF_TEST (R357, R486). -/
def execSelfTest (c : Cmd) (memory location : Nat) (s : State) : Host.Outcome State Fault Refusal :=
  settled s (startCmd c (.selfTest c memory location) (hostTest c memory location) s)

/-- STOP (R358). -/
def execStop (c : Cmd) (s : State) : Host.Outcome State Fault Refusal := settled s (startCmd c (.stop c) (askStop c) s)

/-- RUN (R358, R464). -/
def execRun (c : Cmd) (s : State) : Host.Outcome State Fault Refusal := settled s (startCmd c (.run c) (askRun c) s)

/-- STOP_ENTRY_COMPLETE (R463). -/
def execStopEntryComplete (entryUs : Nat) (s : State) : Host.Outcome State Fault Refusal := settled s (stopDone entryUs s)

end Sys2Proof.Machine
end

