-- ==== Sys2Proof/Machine/SmbusCmds.lean ====
section
/-!
DEFINITION. The meanings of the SMBus side-band commands (R546 to R548). The plinth domain answers them; a transaction whose PEC fails is
discarded.
-/

namespace Sys2Proof.Machine
open Sys2Proof

/-- A transaction reaches its command. -/
def smbusTaken (pec : Bool) (s : State) : Bool := pec && s.plinth.alive

/-- A read that answers with bytes. -/
def smbusRead (pec : Bool) (d : List Byte) (s : State) : Host.Outcome State Fault Refusal :=
  done s (if smbusTaken pec s then emit (.smbus (some d)) s else s)

/-- A write of 0x5A, acknowledged. -/
def smbusWrite (pec : Bool) (f : State → State) (s : State) : Host.Outcome State Fault Refusal :=
  if smbusTaken pec s then settled s (f (emit (.smbus (some [])) s)) else done s s

/-- The rails are down, or not up yet. -/
def railsOff (s : State) : Bool := s.plinth.st == 0

/-- C_MEAS and DEGRADED, as the plinth domain holds them while the rails are down. -/
def heldC (s : State) : Nat := if railsOff s then s.plinth.cHeld else s.pwr.cMeas
def heldDeg (s : State) : Bool := if railsOff s then s.plinth.degHeld else s.pwr.degraded

/-- STATUS (R547). -/
def smbusStatus (s : State) : Nat :=
  s.plinth.st % 16 + 16 * b2n s.plinth.latched + 32 * b2n (heldDeg s) + 64 * b2n s.glb.failed + 128 * b2n (alert s)
    + s.plinth.firstRail % 256 * 256

/-- STATUS. -/
def execStatus (pec : Bool) (s : State) : Host.Outcome State Fault Refusal := smbusRead pec (leBytes 2 (smbusStatus s)) s

/-- VIN. -/
def execVin (pec : Bool) (s : State) : Host.Outcome State Fault Refusal := smbusRead pec (leBytes 2 s.plinth.vin) s

/-- TEMP_MAX: what the comparators supply while the rails are down, no rule gives. -/
def execTempMax (pec : Bool) (s : State) : Host.Outcome State Fault Refusal :=
  if railsOff s && smbusTaken pec s then
    let (v, t) := free s
    smbusRead pec (leBytes 2 v) t
  else smbusRead pec (leBytes 2 (twos 16 (sensor s (hottest s)).temp)) s

/-- INLET. -/
def execInlet (pec : Bool) (s : State) : Host.Outcome State Fault Refusal :=
  smbusRead pec (leBytes 2 (if railsOff s then 0x8000 else twos 16 (sensor s 85).temp)) s

/-- TRIP_LAST. -/
def execTripLast (pec : Bool) (s : State) : Host.Outcome State Fault Refusal := smbusRead pec (leBytes 4 (readThm s 0x20)) s

/-- FATAL_LAST. -/
def execFatalLast (pec : Bool) (s : State) : Host.Outcome State Fault Refusal := smbusRead pec (leBytes 4 (fatalLastWord s)) s

/-- GLB_ID, GLB_SERIAL, GLB_FW_LEVEL and GRP_ID; zeros before step 3 has run. -/
def identBytes (s : State) : List Byte :=
  if s.plinth.idSeen then
    leBytes 4 (idWord s) ++ leBytes 4 s.fuses.serial.toNat ++ leBytes 4 s.fuses.fwLevel.toNat ++ leBytes 1 s.grp.id ++ leBytes 3 0
  else leBytes 16 0

/-- IDENT. -/
def execIdent (pec : Bool) (s : State) : Host.Outcome State Fault Refusal := smbusRead pec (identBytes s) s

/-- HOLDUP. -/
def execHoldup (pec : Bool) (s : State) : Host.Outcome State Fault Refusal :=
  smbusRead pec (leBytes 2 (heldC s) ++ leBytes 2 s.plinth.vbank ++ leBytes 2 (b2n (heldDeg s))) s

/-- LOG_LAST. -/
def execLogLast (pec : Bool) (s : State) : Host.Outcome State Fault Refusal :=
  smbusRead pec (match s.plinth.logLast with | some r => supplyBytes r | none => leBytes 24 0) s

/-- POWER_ON (R443, R548). -/
def execPowerOn (pec : Bool) (s : State) : Host.Outcome State Fault Refusal := smbusWrite pec onRequest s

/-- POWER_OFF (R443, R548). -/
def execPowerOff (pec : Bool) (s : State) : Host.Outcome State Fault Refusal := smbusWrite pec offRequest s

/-- CLEAR_LATCH (R427, R548). -/
def execClearLatch (pec : Bool) (s : State) : Host.Outcome State Fault Refusal := smbusWrite pec clearLatch s

/-- ALERT_RESPONSE (R546): the 7-bit address in bits 7:1 of the byte (PRESUMED, log 54). -/
def execAlertResponse (pec : Bool) (s : State) : Host.Outcome State Fault Refusal :=
  if !smbusTaken pec s then done s s
  else if !alert s then done s (emit (.smbus none) s)
  else done s (emit (.smbus (some (leBytes 1 (2 * (0x58 + s.grp.id))))) s)

/-- The command is not known, or is a write of another value than 0x5A. -/
def smbusBad (code data : Byte) : Bool :=
  let c := code.toNat
  if c = 0x10 ∨ c = 0x11 ∨ c = 0x12 then data != 0x5A else !(decide (1 ≤ c) && decide (c ≤ 9))

/-- SMBUS_UNKNOWN_COMMAND (R548): NACK. -/
def execSmbusUnknownCommand (code data : Byte) (s : State) : Host.Outcome State Fault Refusal :=
  if s.plinth.alive && smbusBad code data then done s (emit (.smbus none) s) else done s s

end Sys2Proof.Machine
end

