-- ==== Sys2Proof/Machine/StreamCmds.lean ====
section
/-!
DEFINITION. The meanings of what arrives on, and is sent by, the stream ports, and of the writes that act on them (R252 to R276, R304 to
R306).
-/

namespace Sys2Proof.Machine
open Sys2Proof

/-- A record whose first byte came `early`, before the latest change of acceptance, is taken as it was then (R259, R268, R269). -/
def recordTaken (s : State) (p : Nat) (early : Bool) : Bool :=
  if early then (port s p).inPrev else (port s p).inSt == 2 && !s.plinth.pfw

/-- A record is accepted into the FIFO (R252). -/
def acceptRecord (p : Nat) (r : BitVec 128) (s : State) : State :=
  count (0x50 + p) 0x10 1 (updStop p (onPort p (fun x => { x with
    fifo := x.fifo ++ [(r, s.tck.count)]
    capOpen := true
    cntAccept := sat 64 x.cntAccept 1 }) s))

/-- The lanes of a port receive: in training or in operation (R306). -/
def receives (s : State) (p : Nat) : Bool := decide (p < 8) && (port s p).lnkSt != 0

/-- STREAM_RECORD (R252, R256): the lanes of the port are in operation. What is left of a flushed record is discarded unlogged (R270). -/
def execStreamRecord (p : Nat) (wire : BitVec 128) (early : Bool) (s : State) : Host.Outcome State Fault Refusal :=
  if !receives s p then done s s
  else
    let (r, u) := receivePair p 1 1 wire s
    let t := onPort p (fun x => { x with inCrc := x.inCrc ++ [r] }) u
    if !(port s p).linkUp then done s (judgeLanes p u)
    else if early && (port s p).flushed then done s (onPort p (fun x => { x with cntDrop := sat 64 x.cntDrop 1 }) t)
    else if !recordTaken s p early then done s (dropRecord p 9 r t)
    else if 16384 ≤ (port s p).fifo.length then done s (dropRecord p 8 r t)
    else done s (acceptRecord p r t)

/-- STREAM_FRAMING_ERROR (R304, R306, R307): a pair whose headers make no record and no control word. -/
def execStreamFramingError (p : Nat) (h0 h1 : BitVec 2) (wire : BitVec 128) (s : State) : Host.Outcome State Fault Refusal :=
  if !receives s p ∨ (ingressKind h0 h1).isSome then done s s
  else
    let t := (receivePair p h0 h1 wire s).2
    done s (judgeLanes p (if (port s p).linkUp then onPort p (fun x => { x with cntBad := sat 64 x.cntBad 1 }) t else t))

/-- STREAM_CHECK_WORD (R305): a mismatch is counted and recorded. -/
def execStreamCheckWord (p : Nat) (wire : BitVec 128) (s : State) : Host.Outcome State Fault Refusal :=
  if !receives s p then done s s
  else
    let (w, u) := receivePair p 2 2 wire s
    if !(port s p).linkUp then done s (judgeLanes p u)
    else if w.extractLsb' 0 8 ≠ 0x4B then done s u
    else
      let t := onPort p (fun x => { x with inCrc := [] }) u
      if Config.crc32 (wordBytes (port s p).inCrc) = w.extractLsb' 32 32 then done s t
      else done s (event 0x0601 (0x50 + p) 0 (onPort p (fun x => { x with cntChk := sat 64 x.cntChk 1 }) t))

/-- STREAM_ALIGN_WORD (R305, R306): the pairing check of both lanes. -/
def execStreamAlignWord (p : Nat) (wire : BitVec 128) (s : State) : Host.Outcome State Fault Refusal :=
  if !receives s p then done s s
  else
    let (w, u) := receivePair p 2 2 wire s
    if (port s p).lnkSt = 2 ∧ w.extractLsb' 0 16 = 0xA578 then done s (judgeLanes p (onPort p (fun x => { x with aligned := true }) u))
    else done s u

/-- COMBINE_RECORD (R247 to R250). -/
def execCombineRecord (p : Nat) (s : State) : Host.Outcome State Fault Refusal :=
  if p < 8 ∧ (port s p).fifo ≠ [] then settled s (updStop p (combineOne p s)) else done s s

/-- STM_STOP_N_HOLD_EXPIRY (R253). -/
def execStmStopNHoldExpiry (p : Nat) (s : State) : Host.Outcome State Fault Refusal :=
  if p < 8 ∧ (port s p).stopHold then done s (updStop p (onPort p (fun x => { x with stopHold := false }) s)) else done s s

/-- EGRESS_WORD_POSITIONS (R263): once in a course, while egress is RUNNING. -/
def execEgressWordPositions (p : Nat) (s : State) : Host.Outcome State Fault Refusal :=
  if p < 8 ∧ (port s p).egSt = 2 ∧ (port s p).egSent ≠ some s.tck.course ∧ s.tck.running ∧ clocked s (12 + p) then
    settled s (sendCourse p s)
  else done s s

/-- PLAYBACK_READ_DATA (R262): the read has all its granules. -/
def execPlaybackReadData (p req : Nat) (s : State) : Host.Outcome State Fault Refusal :=
  if p < 8 ∧ (port s p).egSt ≠ 0 then settled s (placeRead p req s) else done s s

/-- ARM (R261): STM_EG_CTRL is written with its ARM bit 1. -/
def execArm (p : Nat) (v : BitVec 32) (s : State) : Host.Outcome State Fault Refusal :=
  if p < 8 then settled s (hostBar (.arm p v) s) else done s s

/-- INGRESS_FLUSH (R270). -/
def execIngressFlush (p : Nat) (s : State) : Host.Outcome State Fault Refusal :=
  if p < 8 then done s (hostBar (.ingressFlush p) s) else done s s

/-- EGRESS_FLUSH (R271): FLUSH is written 1, the other fields as they stand. -/
def execEgressFlush (p : Nat) (s : State) : Host.Outcome State Fault Refusal :=
  if p < 8 then settled s (hostBar (.egressFlush p) s) else done s s

/-- PLAYLIST_ENTRY_WRITE (R267): STM_LIST_A, or STM_LIST_L when `high`. -/
def execPlaylistEntryWrite (p list entry : Nat) (high : Bool) (v : BitVec 64) (s : State) : Host.Outcome State Fault Refusal :=
  if p < 8 ∧ list < 2 ∧ entry < 16 then settled s (hostBar (.playlistEntryWrite p list entry high v) s) else done s s

/-- STREAM_LANES_DOWN (R275, R306). -/
def execStreamLanesDown (p : Nat) (s : State) : Host.Outcome State Fault Refusal :=
  if p < 8 ∧ (port s p).linkUp then done s (loseLanes p s) else done s s

/-- STREAM_LANES_UP (R306): both lanes have their lock and were deskewed. -/
def execStreamLanesUp (p : Nat) (s : State) : Host.Outcome State Fault Refusal :=
  if p < 8 ∧ (port s p).lnkSt = 2 ∧ (port s p).aligned then
    done s (lanesUp p s)
  else done s s

end Sys2Proof.Machine
end

