-- ==== Sys2Proof/Machine/Dispatch.lean ====
section
/-!
DEFINITION. The meaning of each command: one arm a constructor, each one call of the meaning of that command.
-/

namespace Sys2Proof.Machine

/-- What a command does to everything but the queue. -/
def exec (i : Instr) (s : State) : Host.Outcome State Fault Refusal :=
  match i with
  | .courseStart interval m => Sys2Proof.Machine.execCourseStart interval m s
  | .earlyEdge => Sys2Proof.Machine.execEarlyEdge s
  | .missedTick m => Sys2Proof.Machine.execMissedTick m s
  | .flywheelCourseEnd m => Sys2Proof.Machine.execFlywheelCourseEnd m s
  | .flywheelClear => Sys2Proof.Machine.execFlywheelClear s
  | .periodAverage => Sys2Proof.Machine.execPeriodAverage s
  | .programWindowFix => Sys2Proof.Machine.execProgramWindowFix s
  | .guardInterval => Sys2Proof.Machine.execGuardInterval s
  | .escalationFall act loc => Sys2Proof.Machine.execEscalationFall act loc s
  | .programAbandon prog => Sys2Proof.Machine.execProgramAbandon prog s
  | .mediaReadDone read d => Sys2Proof.Machine.execMediaReadDone read d s
  | .pulseGroupDone prog ok => Sys2Proof.Machine.execPulseGroupDone prog ok s
  | .resetStripDone block ok => Sys2Proof.Machine.execResetStripDone block ok s
  | .journalPageTimeout => Sys2Proof.Machine.execJournalPageTimeout s
  | .checkpointPeriodic => Sys2Proof.Machine.execCheckpointPeriodic s
  | .packageSample rs => Sys2Proof.Machine.execPackageSample rs s
  | .stagingCopyDone line => Sys2Proof.Machine.execStagingCopyDone line s
  | .rdShared m => Sys2Proof.Machine.execRdShared m s
  | .rdUnique m => Sys2Proof.Machine.execRdUnique m s
  | .upgrade m => Sys2Proof.Machine.execUpgrade m s
  | .rdOnce m => Sys2Proof.Machine.execRdOnce m s
  | .wrNc m mask data poison => Sys2Proof.Machine.execWrNc m mask data poison s
  | .orderBarrier m arg => Sys2Proof.Machine.execOrderBarrier m arg s
  | .complBarrier m arg => Sys2Proof.Machine.execComplBarrier m arg s
  | .wbDirty m data poison => Sys2Proof.Machine.execWbDirty m data poison s
  | .evictClean m given => Sys2Proof.Machine.execEvictClean m given s
  | .ack m htid => Sys2Proof.Machine.execAck m htid s
  | .snpResp m htid st evicted => Sys2Proof.Machine.execSnpResp m htid st evicted s
  | .snpData m htid st data poison => Sys2Proof.Machine.execSnpData m htid st data poison s
  | .atomic m op size offset payload => Sys2Proof.Machine.execAtomic m op size offset payload s
  | .accum m words => Sys2Proof.Machine.execAccum m words s
  | .reservedOpcodeMessage m => Sys2Proof.Machine.execReservedOpcodeMessage m s
  | .readNotice m => Sys2Proof.Machine.execReadNotice m s
  | .gatherMaxAge entry => Sys2Proof.Machine.execGatherMaxAge entry s
  | .hostFenceRead => Sys2Proof.Machine.execHostFenceRead s
  | .hostFenceTimeout => Sys2Proof.Machine.execHostFenceTimeout s
  | .perstN => Sys2Proof.Machine.execPerstN s
  | .functionLevelReset => Sys2Proof.Machine.execFunctionLevelReset s
  | .d3hotTransition toD3 => Sys2Proof.Machine.execD3hotTransition toD3 s
  | .streamRecord n r early => Sys2Proof.Machine.execStreamRecord n r early s
  | .streamFramingError n h0 h1 wire => Sys2Proof.Machine.execStreamFramingError n h0 h1 wire s
  | .streamCheckWord n crc => Sys2Proof.Machine.execStreamCheckWord n crc s
  | .streamAlignWord n pairing => Sys2Proof.Machine.execStreamAlignWord n pairing s
  | .combineRecord n => Sys2Proof.Machine.execCombineRecord n s
  | .stmStopNHoldExpiry n => Sys2Proof.Machine.execStmStopNHoldExpiry n s
  | .egressWordPositions n => Sys2Proof.Machine.execEgressWordPositions n s
  | .playbackReadData n req => Sys2Proof.Machine.execPlaybackReadData n req s
  | .arm n v => Sys2Proof.Machine.execArm n v s
  | .ingressFlush n => Sys2Proof.Machine.execIngressFlush n s
  | .egressFlush n => Sys2Proof.Machine.execEgressFlush n s
  | .playlistEntryWrite n list entry high v => Sys2Proof.Machine.execPlaylistEntryWrite n list entry high v s
  | .streamLanesDown n => Sys2Proof.Machine.execStreamLanesDown n s
  | .streamLanesUp n => Sys2Proof.Machine.execStreamLanesUp n s
  | .flitReceived port wire => Sys2Proof.Machine.execFlitReceived port wire s
  | .nakRepeat port => Sys2Proof.Machine.execNakRepeat port s
  | .linkStateTimeout port => Sys2Proof.Machine.execLinkStateTimeout port s
  | .detectRetry port => Sys2Proof.Machine.execDetectRetry port s
  | .trainingSet port set low => Sys2Proof.Machine.execTrainingSet port set low s
  | .linkTrainFail port => Sys2Proof.Machine.execLinkTrainFail port s
  | .creditInit port q n w p d => Sys2Proof.Machine.execCreditInit port q n w p d s
  | .linkDown port reason => Sys2Proof.Machine.execLinkDown port reason s
  | .keyOffer l o => Sys2Proof.Machine.execKeyOffer l o s
  | .keyWrap l wrapped sig => Sys2Proof.Machine.execKeyWrap l wrapped sig s
  | .keyDone l epoch => Sys2Proof.Machine.execKeyDone l epoch s
  | .reservedLtype port ltype => Sys2Proof.Machine.execReservedLtype port ltype s
  | .portEnable port on => Sys2Proof.Machine.execPortEnable port on s
  | .agentReset p => Sys2Proof.Machine.execAgentReset p s
  | .retrain port => Sys2Proof.Machine.execRetrain port s
  | .groupHello l src size interleave tickSource part tck => Sys2Proof.Machine.execGroupHello l src size interleave tickSource part tck s
  | .formWait => Sys2Proof.Machine.execFormWait s
  | .tickAlignSend => Sys2Proof.Machine.execTickAlignSend s
  | .tickAlign l src t => Sys2Proof.Machine.execTickAlign l src t s
  | .hoistArm l src tag entry => Sys2Proof.Machine.execHoistArm l src tag entry s
  | .hoistReply l src tag status => Sys2Proof.Machine.execHoistReply l src tag status s
  | .groupHoistTimeout tag => Sys2Proof.Machine.execGroupHoistTimeout tag s
  | .groupHoistCancel l src hoistId => Sys2Proof.Machine.execGroupHoistCancel l src hoistId s
  | .linkResume l src port fseq => Sys2Proof.Machine.execLinkResume l src port fseq s
  | .memberState l src present lost waiting => Sys2Proof.Machine.execMemberState l src present lost waiting s
  | .readmit l src mask => Sys2Proof.Machine.execReadmit l src mask s
  | .readmitWrite mask => Sys2Proof.Machine.execReadmitWrite mask s
  | .configurationRequest write r v tag => Sys2Proof.Machine.execConfigurationRequest write r v tag s
  | .bar0BadAccess write => Sys2Proof.Machine.execBar0BadAccess write s
  | .registerWrite off size v => Sys2Proof.Machine.execRegisterWrite off size v s
  | .bar2Read addr len tag => Sys2Proof.Machine.execBar2Read addr len tag s
  | .bar2Write addr data relaxed poisoned => Sys2Proof.Machine.execBar2Write addr data relaxed poisoned s
  | .bar2Atomic addr op size operand compare poisoned tag => Sys2Proof.Machine.execBar2Atomic addr op size operand compare poisoned tag s
  | .atomicUnsupported bar4 off tag => Sys2Proof.Machine.execAtomicUnsupported bar4 off tag s
  | .bar4Read off len tag => Sys2Proof.Machine.execBar4Read off len tag s
  | .bar4Write off data => Sys2Proof.Machine.execBar4Write off data s
  | .debugAccess a => Sys2Proof.Machine.execDebugAccess a s
  | .tapInstruction bypassOrIdcode => Sys2Proof.Machine.execTapInstruction bypassOrIdcode s
  | .sqTailDoorbell q v => Sys2Proof.Machine.execSqTailDoorbell q v s
  | .cqHeadDoorbell q v => Sys2Proof.Machine.execCqHeadDoorbell q v s
  | .sqEntryFetched q f => Sys2Proof.Machine.execSqEntryFetched q f s
  | .interruptGap q => Sys2Proof.Machine.execInterruptGap q s
  | .queueEnable q => Sys2Proof.Machine.execQueueEnable q s
  | .queueDisable q => Sys2Proof.Machine.execQueueDisable q s
  | .nop c => Sys2Proof.Machine.execNop c s
  | .cachePreload c addr len lock => Sys2Proof.Machine.execCachePreload c addr len lock s
  | .cacheUnlock c addr len => Sys2Proof.Machine.execCacheUnlock c addr len s
  | .cacheMaintClean c addr len => Sys2Proof.Machine.execCacheMaintClean c addr len s
  | .cacheMaintFlush c addr len => Sys2Proof.Machine.execCacheMaintFlush c addr len s
  | .cacheMaintInvalidate c addr len => Sys2Proof.Machine.execCacheMaintInvalidate c addr len s
  | .cacheMaintSetClean c grp first count => Sys2Proof.Machine.execCacheMaintSetClean c grp first count s
  | .cacheMaintSetFlush c grp first count => Sys2Proof.Machine.execCacheMaintSetFlush c grp first count s
  | .cacheMaintSetInvalidate c grp first count => Sys2Proof.Machine.execCacheMaintSetInvalidate c grp first count s
  | .copy c src dst len channel poisonOk => Sys2Proof.Machine.execCopy c src dst len channel poisonOk s
  | .resume j => Sys2Proof.Machine.execResume j s
  | .discard j => Sys2Proof.Machine.execDiscard j s
  | .hoistSubmit c entry => Sys2Proof.Machine.execHoistSubmit c entry s
  | .hoistCancel c hoistId => Sys2Proof.Machine.execHoistCancel c hoistId s
  | .snapshot c => Sys2Proof.Machine.execSnapshot c s
  | .sealedImport c src dst len iv slot => Sys2Proof.Machine.execSealedImport c src dst len iv slot s
  | .attestCert c nonce => Sys2Proof.Machine.execAttestCert c nonce s
  | .attestIdentity c nonce => Sys2Proof.Machine.execAttestIdentity c nonce s
  | .attestConfig c nonce => Sys2Proof.Machine.execAttestConfig c nonce s
  | .attestGroup c nonce => Sys2Proof.Machine.execAttestGroup c nonce s
  | .lifecycleOwned c off len => Sys2Proof.Machine.execLifecycleOwned c off len s
  | .lifecycleSealed c off len => Sys2Proof.Machine.execLifecycleSealed c off len s
  | .lifecycleReturn c off len => Sys2Proof.Machine.execLifecycleReturn c off len s
  | .lifecycleEnd c off len => Sys2Proof.Machine.execLifecycleEnd c off len s
  | .selfTest c memory location => Sys2Proof.Machine.execSelfTest c memory location s
  | .stop c => Sys2Proof.Machine.execStop c s
  | .run c => Sys2Proof.Machine.execRun c s
  | .stopEntryComplete entryUs => Sys2Proof.Machine.execStopEntryComplete entryUs s
  | .cphLockRead cls => Sys2Proof.Machine.execCphLockRead cls s
  | .cphRelease cls ticket => Sys2Proof.Machine.execCphRelease cls ticket s
  | .encrypt cls ticket keySlot => Sys2Proof.Machine.execEncrypt cls ticket keySlot s
  | .decrypt cls ticket keySlot => Sys2Proof.Machine.execDecrypt cls ticket keySlot s
  | .unwrap cls ticket keySlot subjSlot => Sys2Proof.Machine.execUnwrap cls ticket keySlot subjSlot s
  | .wrap cls ticket keySlot subjSlot => Sys2Proof.Machine.execWrap cls ticket keySlot subjSlot s
  | .clear cls ticket subjSlot => Sys2Proof.Machine.execClear cls ticket subjSlot s
  | .cipherOpDone agree => Sys2Proof.Machine.execCipherOpDone agree s
  | .cipherLockTimeout => Sys2Proof.Machine.execCipherLockTimeout s
  | .powerUp vin => Sys2Proof.Machine.execPowerUp vin s
  | .railGood rail mv => Sys2Proof.Machine.execRailGood rail mv s
  | .railStart rail mv => Sys2Proof.Machine.execRailStart rail mv s
  | .refStable cycles => Sys2Proof.Machine.execRefStable cycles s
  | .clockTimeout => Sys2Proof.Machine.execClockTimeout s
  | .dramTrained b offTime us => Sys2Proof.Machine.execDramTrained b offTime us s
  | .startupThermalTimeout sensor => Sys2Proof.Machine.execStartupThermalTimeout sensor s
  | .holdupCharged c vbank => Sys2Proof.Machine.execHoldupCharged c vbank s
  | .memoryReady readyUs => Sys2Proof.Machine.execMemoryReady readyUs s
  | .inputTrip kind vin => Sys2Proof.Machine.execInputTrip kind vin s
  | .warningIntervalEnd => Sys2Proof.Machine.execWarningIntervalEnd s
  | .commitPoint => Sys2Proof.Machine.execCommitPoint s
  | .dumpComplete us => Sys2Proof.Machine.execDumpComplete us s
  | .railDisable rail => Sys2Proof.Machine.execRailDisable rail s
  | .inputRise vin => Sys2Proof.Machine.execInputRise vin s
  | .inputGood => Sys2Proof.Machine.execInputGood s
  | .autoRestart => Sys2Proof.Machine.execAutoRestart s
  | .overVoltage vin => Sys2Proof.Machine.execOverVoltage vin s
  | .overVoltageEnd vin => Sys2Proof.Machine.execOverVoltageEnd vin s
  | .inputHigh vin => Sys2Proof.Machine.execInputHigh vin s
  | .inputLimit => Sys2Proof.Machine.execInputLimit s
  | .inputLimitClear => Sys2Proof.Machine.execInputLimitClear s
  | .railRun rail mv => Sys2Proof.Machine.execRailRun rail mv s
  | .clockFail => Sys2Proof.Machine.execClockFail s
  | .pclkLoss => Sys2Proof.Machine.execPclkLoss s
  | .holdupMeasure => Sys2Proof.Machine.execHoldupMeasure s
  | .holdupMeasureDone c vbank => Sys2Proof.Machine.execHoldupMeasureDone c vbank s
  | .dirtyLimitRecompute vbank => Sys2Proof.Machine.execDirtyLimitRecompute vbank s
  | .pbShortPress => Sys2Proof.Machine.execPbShortPress s
  | .pbHoldOff => Sys2Proof.Machine.execPbHoldOff s
  | .forcedOff => Sys2Proof.Machine.execForcedOff s
  | .mrRelease => Sys2Proof.Machine.execMrRelease s
  | .hardReset => Sys2Proof.Machine.execHardReset s
  | .glbResetKey => Sys2Proof.Machine.execGlbResetKey s
  | .drainComplete => Sys2Proof.Machine.execDrainComplete s
  | .clkGateWrite v => Sys2Proof.Machine.execClkGateWrite v s
  | .unitUngated u => Sys2Proof.Machine.execUnitUngated u s
  | .thermalStop sensor => Sys2Proof.Machine.execThermalStop sensor s
  | .thermalTrip sensor temp => Sys2Proof.Machine.execThermalTrip sensor temp s
  | .selfTestAuto memory location => Sys2Proof.Machine.execSelfTestAuto memory location s
  | .selfTestRetry memory location => Sys2Proof.Machine.execSelfTestRetry memory location s
  | .selfTestDone memory location good => Sys2Proof.Machine.execSelfTestDone memory location good s
  | .scrubCorrection memory location found => Sys2Proof.Machine.execScrubCorrection memory location found s
  | .cornerstoneAppendDone part dev ok => Sys2Proof.Machine.execCornerstoneAppendDone part dev ok s
  | .eraseSlot slot => Sys2Proof.Machine.execEraseSlot slot s
  | .program slot offset => Sys2Proof.Machine.execProgram slot offset s
  | .imageOpDone ok => Sys2Proof.Machine.execImageOpDone ok s
  | .operatingSecondsRecord => Sys2Proof.Machine.execOperatingSecondsRecord s
  | .freeze => Sys2Proof.Machine.execFreeze s
  | .freezeRelease => Sys2Proof.Machine.execFreezeRelease s
  | .pmcClear => Sys2Proof.Machine.execPmcClear s
  | .unitClear u => Sys2Proof.Machine.execUnitClear u s
  | .pmcOverflow u k => Sys2Proof.Machine.execPmcOverflow u k s
  | .eventSlotTimer => Sys2Proof.Machine.execEventSlotTimer s
  | .eventLateRecord code => Sys2Proof.Machine.execEventLateRecord code s
  | .expertClr => Sys2Proof.Machine.execExpertClr s
  | .status pec => Sys2Proof.Machine.execStatus pec s
  | .vin pec => Sys2Proof.Machine.execVin pec s
  | .tempMax pec => Sys2Proof.Machine.execTempMax pec s
  | .inlet pec => Sys2Proof.Machine.execInlet pec s
  | .tripLast pec => Sys2Proof.Machine.execTripLast pec s
  | .fatalLast pec => Sys2Proof.Machine.execFatalLast pec s
  | .ident pec => Sys2Proof.Machine.execIdent pec s
  | .holdup pec => Sys2Proof.Machine.execHoldup pec s
  | .logLast pec => Sys2Proof.Machine.execLogLast pec s
  | .powerOn pec => Sys2Proof.Machine.execPowerOn pec s
  | .powerOff pec => Sys2Proof.Machine.execPowerOff pec s
  | .clearLatch pec => Sys2Proof.Machine.execClearLatch pec s
  | .alertResponse pec => Sys2Proof.Machine.execAlertResponse pec s
  | .smbusUnknownCommand code data => Sys2Proof.Machine.execSmbusUnknownCommand code data s
  | .sensorSample n r => Sys2Proof.Machine.execSensorSample n r s
  | .flywheelInputEdge gap since => Sys2Proof.Machine.execFlywheelInputEdge gap since s
  | .agentResetStretchEnd p => Sys2Proof.Machine.execAgentResetStretchEnd p s
  | .receiverDetected port => Sys2Proof.Machine.execReceiverDetected port s
  | .pcieLinkDown => Sys2Proof.Machine.execPcieLinkDown s
  | .pcieRefReturn => Sys2Proof.Machine.execPcieRefReturn s
  | .inputHighEnd vin => Sys2Proof.Machine.execInputHighEnd vin s
  | .plinthDomainLoss => Sys2Proof.Machine.execPlinthDomainLoss s
  | .attestDone => Sys2Proof.Machine.execAttestDone s
  | .cornerstoneEraseDone dev sector ok => Sys2Proof.Machine.execCornerstoneEraseDone dev sector ok s
  | .dapEnChange low => Sys2Proof.Machine.execDapEnChange low s

end Sys2Proof.Machine
end

