-- ==== Sys2Proof/WellFormed.lean ====
section
/-!
DEFINITION. The commands that the module's environment can form: each operand lies within the field that the spec gives it. What a
command does on other operands is not left out of the model; WellFormed says which ones the interfaces can carry.
-/

namespace Sys2Proof

/-- Halyard ports 0 to 7, Coping ports 0 to 3 (R277). -/
def Port.wellFormed : Port → Bool
  | .hal p => decide (p < 8)
  | .cop l => decide (l < 4)

/-- The header fields of a message: GADDR 42, AGENT 6, REQ 7, and TXID of 9 bits on Halyard and 13 on Coping (R189, R284). -/
def Msg.wellFormed (m : Msg) : Bool :=
  m.port.wellFormed && decide (m.agent < 64) && decide (m.gaddr < 2 ^ 42) && decide (m.req < 128)
    && match m.port with
      | .hal _ => decide (m.txid < 512)
      | .cop _ => decide (m.txid < 8192)

/-- HTID has 10 bits (R189). -/
def htidOk (h : Nat) : Bool := decide (h < 1024)

/-- A command of one of the 64 queues with its 16-bit CID (R331, R332). -/
def Cmd.wellFormed (c : Cmd) : Bool := decide (c.q < 64) && decide (c.cid < 65536)

/-- An 8-byte field (R343). -/
def wide (n : Nat) : Bool := decide (n < 2 ^ 64)

/-- A 4-byte field. -/
def word (n : Nat) : Bool := decide (n < 2 ^ 32)

/-- Stream ports 0 to 7 (R241). -/
def streamOk (s : Nat) : Bool := decide (s < 8)

/-- Rails 0 to 23 (R422). -/
def railOk (r : Nat) : Bool := decide (r < 24)

/-- A measured voltage in mV, 16 bits (R428, R451). -/
def mvOk (v : Nat) : Bool := decide (v < 65536)

/-- The measurements of a course (R451). -/
def CourseMeas.wellFormed (m : CourseMeas) : Bool := mvOk m.vin && mvOk m.iin && mvOk m.pin

/-- Members 0 to 7 (R308). -/
def memberOk (g : Nat) : Bool := decide (g < 8)

/-- A group message of a member over a Coping port (R320). -/
def fromMember (l src : Nat) : Bool := decide (l < 4) && memberOk src

/-- Key slots 0 to 15 (R406). -/
def slotNo (k : Nat) : Bool := decide (k < 16)

/-- A reading fits 12 bits of 0.25 °C (R478). -/
def Reading.wellFormed : Reading → Bool
  | .temp q => decide (-2048 ≤ q ∧ q < 2048)
  | _ => true

/-- An access of the debug port is of a register of 4 or 8 bytes, or of bytes. -/
def DebugAcc.wellFormed : DebugAcc → Bool
  | .regRead _ size | .regWrite _ size _ => size == 4 || size == 8
  | .memRead _ _ | .memWrite _ _ | .scratchRead _ _ | .scratchWrite _ _ => true

/-- FETCH_ADD, SWAP and CAS of 4, 8 and 16 bytes (R285, R322). -/
def atomicSize (n : Nat) : Bool := n == 4 || n == 8 || n == 16

/-- The command can be formed. -/
def Instr.wellFormed : Instr → Bool
  | .courseStart _ m => m.wellFormed
  | .earlyEdge => true
  | .missedTick m => m.wellFormed
  | .flywheelCourseEnd m => m.wellFormed
  | .flywheelClear | .periodAverage | .programWindowFix | .guardInterval => true
  | .escalationFall act _ => decide (act < 5)
  | .programAbandon _ => true
  | .mediaReadDone _ _ | .pulseGroupDone _ _ | .resetStripDone _ _ => true
  | .journalPageTimeout | .checkpointPeriodic => true
  | .packageSample rs => rs.all Reading.wellFormed
  | .stagingCopyDone _ => true
  | .rdShared m | .rdUnique m | .upgrade m | .rdOnce m | .wrNc m _ _ _ | .orderBarrier m _ | .complBarrier m _ | .wbDirty m _ _
  | .evictClean m _ => m.wellFormed
  | .ack m h | .snpResp m h _ _ | .snpData m h _ _ _ => m.wellFormed && htidOk h
  | .atomic m _ size offset _ => m.wellFormed && decide (size < 4) && decide (offset < 64)
  | .accum m words => m.wellFormed && words.length == 8
  | .reservedOpcodeMessage m | .readNotice m => m.wellFormed
  | .gatherMaxAge _ => true
  | .hostFenceRead | .hostFenceTimeout | .perstN | .functionLevelReset | .d3hotTransition _ => true
  | .streamRecord p _ _ | .streamFramingError p _ _ _ | .streamCheckWord p _ | .streamAlignWord p _ | .combineRecord p
  | .stmStopNHoldExpiry p | .egressWordPositions p | .playbackReadData p _ | .arm p _ | .ingressFlush p | .egressFlush p
  | .streamLanesDown p | .streamLanesUp p => streamOk p
  | .playlistEntryWrite p list entry _ _ => streamOk p && decide (list < 2) && decide (entry < 16)
  | .flitReceived p _ | .nakRepeat p | .linkStateTimeout p | .detectRetry p | .trainingSet p _ _ | .linkTrainFail p
  | .reservedLtype p _ | .portEnable p _ | .retrain p | .receiverDetected p => p.wellFormed
  | .creditInit p q sc w pc d => p.wellFormed && [q, sc, w, pc, d].all fun x => decide (x < 65536)
  | .linkDown p reason => p.wellFormed && decide (reason < 256)
  | .keyOffer l o => decide (l < 4) && memberOk o.grp && decide (o.epoch < 65536) && decide (o.nonce < 2 ^ 128)
  | .keyWrap l _ _ => decide (l < 4)
  | .keyDone l epoch => decide (l < 4) && decide (epoch < 65536)
  | .agentReset p | .agentResetStretchEnd p => decide (p < 8)
  | .groupHello l src _ _ _ _ _ => fromMember l src
  | .formWait | .tickAlignSend => true
  | .tickAlign l src t => fromMember l src && wide t
  | .hoistArm l src tag _ => fromMember l src && decide (tag < 65536)
  | .hoistReply l src tag _ => fromMember l src && decide (tag < 65536)
  | .groupHoistTimeout tag => decide (tag < 65536)
  | .groupHoistCancel l src id => fromMember l src && decide (id < 65536)
  | .linkResume l src port fseq => fromMember l src && decide (port < 4) && decide (fseq < 4096)
  | .memberState l src _ _ _ => fromMember l src
  | .readmit l src _ => fromMember l src
  | .readmitWrite _ => true
  | .configurationRequest _ r _ tag => decide (tag < 16384) && (match r with
      | .header dw => decide (dw < 16)
      | .cap id dw => decide (id < 256 ∧ dw < 48)
      | .ext id dw => decide (id < 65536 ∧ dw < 960)
      | .empty dw => decide (dw < 1024))
  | .bar0BadAccess _ => true
  | .registerWrite off size _ => decide (off < 2 ^ 25) && (size == 4 || size == 8) && off % size == 0
  | .bar2Read addr len tag => wide addr && decide (len ≤ 4096) && decide (tag < 16384)
  | .bar2Write addr data _ _ => wide addr && decide (data.length ≤ 512)
  | .bar2Atomic addr _ size _ _ _ tag => wide addr && atomicSize size && decide (tag < 16384)
  | .atomicUnsupported bar4 off tag => decide (tag < 16384) && decide (off < (if bar4 then 2 ^ 22 else 2 ^ 28))
  | .bar4Read off len tag => decide (off < 2 ^ 22) && decide (len ≤ 4096) && decide (tag < 16384)
  | .bar4Write off data => decide (off < 2 ^ 22) && decide (data.length ≤ 512)
  | .debugAccess a => a.wellFormed
  | .tapInstruction _ => true
  | .sqTailDoorbell q v | .cqHeadDoorbell q v => decide (q < 64) && word v
  | .sqEntryFetched q _ | .interruptGap q | .queueEnable q | .queueDisable q => decide (q < 64)
  | .nop c | .snapshot c | .stop c | .run c => c.wellFormed
  | .cachePreload c addr len _ | .cacheUnlock c addr len | .cacheMaintClean c addr len | .cacheMaintFlush c addr len
  | .cacheMaintInvalidate c addr len => c.wellFormed && wide addr && wide len
  | .cacheMaintSetClean c g first n | .cacheMaintSetFlush c g first n | .cacheMaintSetInvalidate c g first n =>
    c.wellFormed && decide (g < 256) && word first && word n
  | .copy c src dst len ch _ => c.wellFormed && wide src && wide dst && wide len && decide (ch < 256)
  | .resume j | .discard j => decide (j < 16)
  | .hoistSubmit c _ => c.wellFormed
  | .hoistCancel c id => c.wellFormed && decide (id < 65536)
  | .sealedImport c src dst len _ slot => c.wellFormed && wide src && wide dst && word len && decide (slot < 256)
  | .attestCert c _ | .attestIdentity c _ | .attestConfig c _ | .attestGroup c _ => c.wellFormed
  | .lifecycleOwned c off len | .lifecycleSealed c off len | .lifecycleReturn c off len | .lifecycleEnd c off len =>
    c.wellFormed && wide off && word len
  | .selfTest c m loc => c.wellFormed && decide (m < 256) && wide loc
  | .stopEntryComplete us => word us
  | .cphLockRead _ | .cphRelease _ _ => true
  | .encrypt _ _ k | .decrypt _ _ k | .clear _ _ k => slotNo k
  | .unwrap _ _ k j | .wrap _ _ k j => slotNo k && slotNo j
  | .cipherOpDone _ | .cipherLockTimeout => true
  | .powerUp v | .inputTrip _ v | .inputRise v | .overVoltage v | .overVoltageEnd v | .inputHigh v | .inputHighEnd v => mvOk v
  | .railGood r mv | .railStart r mv | .railRun r mv => railOk r && mvOk mv
  | .refStable n => word n
  | .clockTimeout | .warningIntervalEnd | .commitPoint | .inputGood | .autoRestart | .inputLimit | .inputLimitClear | .clockFail
  | .pclkLoss | .holdupMeasure | .pbShortPress | .pbHoldOff | .forcedOff | .mrRelease | .hardReset | .glbResetKey | .drainComplete => true
  | .dramTrained b _ us => word us && match b with
    | .dramFail k => decide (k < 16)
    | .mediaFail c => decide (c < 32)
    | _ => true
  | .startupThermalTimeout n | .thermalStop n => decide (n < 85)
  | .thermalTrip n t => decide (n < 256) && (Reading.temp t).wellFormed
  | .holdupCharged c v | .holdupMeasureDone c v => mvOk c && mvOk v
  | .dirtyLimitRecompute v => mvOk v
  | .memoryReady us | .dumpComplete us => word us
  | .railDisable r => railOk r
  | .clkGateWrite _ => true
  | .unitUngated u => decide (u < 27)
  | .selfTestAuto m loc | .selfTestRetry m loc | .selfTestDone m loc _ => decide (m < 8) && wide loc
  | .scrubCorrection m loc _ => decide (m < 7) && wide loc
  | .cornerstoneAppendDone part dev _ => decide (1 ≤ part) && decide (part < 6) && decide (dev < 2)
  | .eraseSlot slot => decide (slot < 2)
  | .program slot off => decide (slot < 2) && word off
  | .imageOpDone _ | .operatingSecondsRecord => true
  | .freeze | .freezeRelease | .pmcClear => true
  | .unitClear u => decide (u < 0x58)
  | .pmcOverflow u i => decide (u < 0x58) && decide (i < 8)
  | .eventSlotTimer | .expertClr => true
  | .eventLateRecord code => decide (code < 65536)
  | .status _ | .vin _ | .tempMax _ | .inlet _ | .tripLast _ | .fatalLast _ | .ident _ | .holdup _ | .logLast _ | .powerOn _ | .powerOff _
  | .clearLatch _ | .alertResponse _ | .smbusUnknownCommand _ _ => true
  | .sensorSample n r => decide (n < 86) && r.wellFormed
  | .flywheelInputEdge _ _ | .pcieLinkDown | .pcieRefReturn | .plinthDomainLoss | .attestDone => true
  | .cornerstoneEraseDone dev sector _ => decide (dev < 2) && decide (sector < 2048)
  | .dapEnChange _ => true

end Sys2Proof
end

