-- ==== Sys2Proof/Safety.lean ====
section
/-!
DEFINITION. The terms in which claims about runs are made: what a command's effect is before the engines go on, and the invariant of the
byte memories.
-/

namespace Sys2Proof.Machine

/-- The command takes the state to `t`, its queue being none of its business; no engine has anything to do. -/
def Takes (c : Instr) (s t : State) : Prop := exec c s = .next { t with pending := s.pending }

/-- The command takes the state to `t`, from which the engines go on (R91, R157, R201, R348). -/
def Engages (c : Instr) (s t : State) : Prop := exec c s = .next { settle t with pending := s.pending }

/-- The host reaches the register at `off`: BAR0 decodes, the block is served and its unit is clocked (R324, R383, R461), and no earlier
device access of the host keeps the access back (R217). -/
def HostReaches (s : State) (off : Nat) : Prop :=
  hostUp s = true ∧ served s off = true ∧ gatedOff s off = false ∧ barWaits s s.dir.nextId = false

/-- In `t` the request `c` of the port `src` stands last among those that wait there, under the number that `s` gives next; no transaction,
line, page of the medium or buffer entry has changed (R189, R198). -/
def Joins (src : Src) (c : Instr) (s t : State) : Prop :=
  t.dir.held = s.dir.held ++ [{ id := s.dir.nextId, src, cmd := c, tick := s.tck.course }] ∧ t.dir.nextId = s.dir.nextId + 1 ∧
    t.dir.txns = s.dir.txns ∧ t.cch = s.cch ∧ t.med = s.med ∧ t.ord = s.ord

/-- In `t` a course has begun, `len` after the one that ran in `s`: TCK_COUNT has moved on by one and the clock by `len`, and neither the
windows are fixed nor the guard interval has begun (R33, R36). -/
def CourseBegun (len : Nat) (s t : State) : Prop :=
  t.tck.count = s.tck.count + 1 ∧ t.tck.course = s.tck.course + 1 ∧ t.now = s.now + len ∧ t.tck.fixed = false ∧ t.tck.guard = false

/-- In `t` a command of the cipher engine has been given by a class (R404, R406): one with another ticket, or of a class that is not the
holder, is counted and else ignored; one that the checks refuse sets STATE to REFUSED with its cause; and the others start. -/
def CipherTakes (cls ticket op key subj : Nat) (s t : State) : Prop :=
  t = cphCommand cls ticket op key subj s ∧
    (s.cph.holder ≠ cls ∨ s.cph.ticket ≠ ticket → t.cph = { s.cph with badTicket := sat 16 s.cph.badTicket 1 }) ∧
    (s.cph.holder = cls → s.cph.ticket = ticket → s.cph.run = none →
      (cphCause s cls op key subj = 0 → t.cph.st = 1 ∧ t.cph.out = [] ∧
        (t.cph.run.map fun r => (r.op, r.keySlot, r.subj, r.cls)) = some (op, key, subj, cls)) ∧
      (cphCause s cls op key subj ≠ 0 → t.cph = { s.cph with st := 5, cause := cphCause s cls op key subj }))

/-- A fetched command is the next of its queue to start, nothing holds it, and the module is not in Stop (R336, R343, R358). -/
def Starts (s : State) (c : Cmd) (i : Instr) : Prop :=
  i ∈ (queue s c.q).fetched ∧ canStart s c i = true ∧ inStop s = false ∧ s.pwr.runSt ≠ 1

/-- The state in which a fetched command has started: it has left the fetched commands of its queue. -/
def begun (c : Cmd) : State → State := onQueue c.q fun h => { h with fetched := h.fetched.drop 1, started := h.started ++ [c] }

/-- A step from `s` succeeds. -/
def Safe (s : State) : Prop := ∃ t, step s = .next t

/-- Every byte memory that is written byte by byte is in its canonical form: host scratch SRAM, the cipher engine's windows, the image
buffer and the two configuration slots. -/
def MemoriesWf (s : State) : Prop :=
  Memory.wf 0 s.hst.scratch = true ∧ Memory.wf 0 s.cph.inp = true ∧ Memory.wf 0 s.cph.out = true ∧ Memory.wf 0 s.ldg.buf = true
    ∧ Memory.wf 0xFF s.flash.slotA = true ∧ Memory.wf 0xFF s.flash.slotB = true

/-- The tables of links, stream ports, queues, copy channels, sensors and inline records are in their canonical form, and the offsets of the
expert registers rise. -/
def TablesWf (s : State) : Prop :=
  Table.wf {} s.links = true ∧ Table.wf {} s.stm.ports = true ∧ Table.wf {} s.hst.queues = true ∧ Table.wf {} s.hst.copies = true
    ∧ Table.wf {} s.thm.sensors = true ∧ keysRise s.expert = true ∧ Table.wf {} s.sec.ctrs = true

/-- The canonical forms of the byte memories and of the tables. -/
def Canonical (s : State) : Prop := MemoriesWf s ∧ TablesWf s

end Sys2Proof.Machine
end

