-- ==== Sys2Proof/Certificates/Slice0/Obligations.lean ====
section
/-!
DEFINITION. The statements of this slice. `Takes c s t` says that the command's next state is `t`; `Engages c s t` says that it is what
the engines make of `t`. The named operations in them are those of the model.
-/

open Sys2Proof Sys2Proof.Machine

/-! ## The machine -/

/-- The command at the front of the queue takes effect, with the queue's rest waiting; an empty queue idles (log 1). -/
def Obligations.StepRunsTheFrontCommand : Prop :=
  (∀ (c : Instr) (rest : List Instr) (s : State), s.pending = c :: rest → step s = exec c { s with pending := rest }) ∧
  (∀ s : State, s.pending = [] → step s = .next s)

/-- No command stops the module, and none touches the queue: whatever the state, each of the commands answers a next state. -/
def Obligations.EveryCommandAnswersANextState : Prop :=
  ∀ (c : Instr) (s : State), ∃ t, exec c s = .next t ∧ t.pending = s.pending

/-- Whatever the state, a step keeps the canonical form of every byte memory and of the tables of links, stream ports, queues, copy
channels, sensors and expert registers: equal contents stay equal data (the model's own form of them). -/
def Obligations.EveryStepKeepsTheCanonicalForms : Prop :=
  ∀ s t : State, Canonical s → step s = .next t → Canonical t

/-- The memories and the tables have their canonical form at reset. -/
def Obligations.ResetHasTheCanonicalForms : Prop := Canonical State.reset

/-- No step changes what manufacture burned into the fuses or the strap selects, and the life-cycle fuse count never falls (R386, R388,
R528, R308). Time and what has been sent never run back: a step only adds to the outputs, to the clock and to the count of values drawn
(logs 2, 8 and 17: the model's own fields). -/
def Obligations.EveryStepKeepsTheIdentityAndThePast : Prop :=
  ∀ s t : State, step s = .next t →
    t.fuses.part = s.fuses.part ∧ t.fuses.grade = s.fuses.grade ∧ t.fuses.stepping = s.fuses.stepping ∧ t.fuses.serial = s.fuses.serial ∧
    t.fuses.fwLevel = s.fuses.fwLevel ∧ t.fuses.rootKey = s.fuses.rootKey ∧ t.grp.id = s.grp.id ∧
    s.fuses.transitions ≤ t.fuses.transitions ∧ s.out <:+ t.out ∧ s.now ≤ t.now ∧ s.fv ≤ t.fv


/-! ## Ticks and courses -/

/-- A course starts: with the module's own generator exactly T after the last; with the external source at an accepted edge, from 0.95 T
to 1.05 T after it; and by the module itself at 1.05 T when no edge comes, and at 1.95 T in flywheel operation, unless the edge that ends
flywheel operation comes first (R34, R65, R66). An edge earlier than 0.95 T is ignored and counted in EARLY_EDGES, whether it comes as
EARLY_EDGE or as the edge of a COURSE_START, and nothing else changes. Each start adds one to TCK_COUNT and moves the clock on by the
length of the course that ended (R33; the clock is the model's own, log 2); a course without an accepted edge clears the mark of an
accepted input. What the model has already started itself, and what comes while no course runs, changes nothing (log 3). -/
def Obligations.CoursesStartAndAreCounted : Prop :=
  (∀ (s : State) (interval : Nat) (m : CourseMeas), s.tck.running = true → s.tck.source = 0b01 →
    ∃ t, t = beginCourse (periodPs s) m (ownStart s) ∧ Engages (.courseStart interval m) s t ∧
      CourseBegun (periodPs s) s t ∧ t.tck.inputOk = false ∧ t.tck.missed = s.tck.missed ∧ t.tck.early = s.tck.early) ∧
  (∀ (s : State) (interval : Nat) (m : CourseMeas), s.tck.running = true → ownCourses s = false → s.tck.returning = false →
    95 * periodPs s ≤ 100 * interval → 100 * interval ≤ 105 * periodPs s →
    ∃ t, t = beginCourse interval m (acceptEdge interval false s) ∧ Engages (.courseStart interval m) s t ∧
      CourseBegun interval s t ∧ t.tck.inputOk = true ∧ t.tck.missRun = 0 ∧ t.tck.missed = s.tck.missed) ∧
  (∀ (s : State) (interval : Nat) (m : CourseMeas), s.tck.running = true → s.tck.source ≠ 0b01 → s.tck.returning = true →
    95 * periodPs s ≤ 100 * interval → 100 * interval ≤ 195 * periodPs s →
    ∃ t, t = beginCourse interval m (acceptEdge interval true s) ∧ Engages (.courseStart interval m) s t ∧
      CourseBegun interval s t ∧ t.tck.inputOk = true ∧ t.tck.missRun = 0 ∧ t.tck.returning = false ∧ t.tck.missed = s.tck.missed) ∧
  (∀ (s : State) (interval : Nat) (m : CourseMeas), s.tck.running = true → ownCourses s = false → s.tck.returning = false →
    100 * interval < 95 * periodPs s →
    Takes .earlyEdge s { s with tck := { s.tck with early := min (s.tck.early + 1) 65535 } } ∧
    Takes (.courseStart interval m) s { s with tck := { s.tck with early := min (s.tck.early + 1) 65535 } }) ∧
  (∀ (s : State) (m : CourseMeas), s.tck.running = true → ownCourses s = false →
    ∃ t, t = beginCourse (periodPs s * 21 / 20) m (missTick s) ∧ Engages (.missedTick m) s t ∧
      CourseBegun (periodPs s * 21 / 20) s t ∧ t.tck.missed = min (s.tck.missed + 1) 65535 ∧ t.tck.inputOk = false ∧
      t.tck.flywheel = (s.tck.flywheel || s.tck.missRun == 3)) ∧
  (∀ (s : State) (m : CourseMeas), s.tck.running = true → s.tck.flywheel = true → s.tck.returning = true →
    ∃ t, Engages (.flywheelCourseEnd m) s (beginCourse (periodPs s * 39 / 20) m t) ∧
      t = { s with tck := { s.tck with missed := min (s.tck.missed + 1) 65535, returning := false, edgeRun := 0,
                                       inputOk := false, acceptRun := 0, avgArmed := false } } ∧
      CourseBegun (periodPs s * 39 / 20) s (beginCourse (periodPs s * 39 / 20) m t) ∧
      (beginCourse (periodPs s * 39 / 20) m t).tck.missed = min (s.tck.missed + 1) 65535 ∧
      (beginCourse (periodPs s * 39 / 20) m t).tck.returning = false) ∧
  (∀ (s : State) (interval : Nat) (m : CourseMeas),
    (s.tck.running = false → Takes (.courseStart interval m) s s ∧ Takes .earlyEdge s s ∧ Takes (.missedTick m) s s ∧
      Takes (.flywheelCourseEnd m) s s) ∧
    (ownCourses s = true → Takes .earlyEdge s s ∧ Takes (.missedTick m) s s) ∧
    (ownCourses s = false → s.tck.returning = false → 105 * periodPs s < 100 * interval → Takes (.courseStart interval m) s s) ∧
    (s.tck.flywheel = false ∨ s.tck.returning = false → Takes (.flywheelCourseEnd m) s s)) ∧
  (∀ (len : Nat) (s : State), (turnCourse len s).tck.count = s.tck.count + 1 ∧ (turnCourse len s).tck.course = s.tck.course + 1 ∧ (turnCourse len s).now = s.now + len ∧
    (turnCourse len s).tck.fixed = false ∧ (turnCourse len s).tck.guard = false)

/-- A course that the module starts for want of an edge is counted in MISSED_TICKS; the fourth in a row sets FLYWHEEL and records
TICK_LOST (R65). FLYWHEEL clears after 16 consecutive accepted edges; two consecutive edges 0.95 T to 1.05 T apart in flywheel operation
let the next one end the course; and PERIOD_MISMATCH follows the average of 256 intervals against T by more than 1 % (R66, R68). -/
def Obligations.TheFlywheelTakesOverAndReturns : Prop :=
  (∀ s : State,
    (missTick s).tck.missed = min (s.tck.missed + 1) 65535 ∧
    (missTick s).tck.flywheel = (s.tck.flywheel || s.tck.missRun == 3) ∧
    (s.tck.missRun ≠ 3 → (missTick s).evr = s.evr) ∧
    (s.tck.missRun = 3 → missTick s = event 0x0101 1 (min (s.tck.missed + 1) 65535)
      { s with tck := { s.tck with missed := min (s.tck.missed + 1) 65535, missRun := 4, inputOk := false, acceptRun := 0,
                                   avgArmed := false, flywheel := true, edgeRun := 0, returning := false, avgSum := 0, avgCnt := 0 } })) ∧
  (∀ s : State, 16 ≤ s.tck.acceptRun → Takes .flywheelClear s { s with tck := { s.tck with flywheel := false } }) ∧
  (∀ (s : State) (gap since : Nat), s.tck.running = true → s.tck.source ≠ 0b01 → ownCourses s = true → s.tck.returning = false →
    1 ≤ s.tck.edgeRun → 95 * periodPs s ≤ 100 * gap → 100 * gap ≤ 105 * periodPs s →
    Takes (.flywheelInputEdge gap since) s { s with tck := { s.tck with returning := true, edgeRun := 2 } }) ∧
  (∀ (s : State) (gap since : Nat), s.tck.running = true → s.tck.source ≠ 0b01 → ownCourses s = true → s.tck.returning = false →
    (s.tck.edgeRun = 0 ∨ 100 * gap < 95 * periodPs s ∨ 105 * periodPs s < 100 * gap) →
    Takes (.flywheelInputEdge gap since) s { s with tck := { s.tck with edgeRun := 1 } }) ∧
  (∀ s : State, 256 ≤ s.tck.avgCnt →
    Takes .periodAverage s { s with tck := { s.tck with
      mismatch := decide (101 * (periodPs s * s.tck.avgCnt) < 100 * s.tck.avgSum ∨ 100 * s.tck.avgSum < 99 * (periodPs s * s.tck.avgCnt))
      avgSum := 0
      avgCnt := 0 } })

/-- At 0.25 T the work of the program windows is fixed, and the guard interval begins no earlier; both happen once in a course (R36,
R557). The medium's programs and reads are as they were, and the guard interval carries out the re-centrings that were due. -/
def Obligations.TheWindowsAreFixedBeforeTheGuard : Prop :=
  ∀ s : State, s.tck.running = true → s.tck.guard = false →
    (∃ t, Takes .programWindowFix s t ∧ t.tck.fixed = true ∧ t.tck.guard = false ∧ t.tck.count = s.tck.count ∧ t.med = s.med) ∧
    (∃ t, Takes .guardInterval s t ∧ t.tck.fixed = true ∧ t.tck.guard = true ∧ t.tck.count = s.tck.count ∧ t.thm.recentre = [] ∧
      t.med = s.med)

/-- A level falls after 64 course starts below it, to the highest level among them, and every other level stands (R52). A program that
has not finished 256 courses after its first piece is abandoned (R41): PROGRAM_ABANDONED is counted, and the program waits without a page,
from its first pulse group, to be made again in another. Before their times neither has an effect. -/
def Obligations.LevelsFallAndProgramsAreAbandoned : Prop :=
  (∀ (s : State) (act loc : Nat), 64 ≤ (tget {} s.tck.esc (escKey act loc)).below →
    ∃ t, t = { s with tck := { s.tck with esc := tmod {} s.tck.esc (escKey act loc) escFall } } ∧ Takes (.escalationFall act loc) s t ∧
      (0 < (tget {} s.tck.esc (escKey act loc)).high →
        tget {} t.tck.esc (escKey act loc) = { level := (tget {} s.tck.esc (escKey act loc)).high, below := 0, high := 0 }) ∧
      ∀ k, k ≠ escKey act loc → tget {} t.tck.esc k = tget {} s.tck.esc k) ∧
  (∀ (s : State) (act loc : Nat), (tget {} s.tck.esc (escKey act loc)).below < 64 → Takes (.escalationFall act loc) s s) ∧
  (∀ e : Esc, 64 ≤ e.below → escFall e = { level := e.high, below := 0, high := 0 }) ∧
  (∀ (s : State) (i f ppn : Nat) (p : Prog), (s.med.progs.find? fun q => q.id == i) = some p → p.ppn = some ppn → p.first = some f →
    (f + 256 ≤ s.tck.course → ∃ t, t = progAbandon p ppn s ∧ Engages (.programAbandon i) s t ∧
      t.med.cntAbandon = sat 64 s.med.cntAbandon 1 ∧ t.med.progs.length = s.med.progs.length ∧ t.cch = s.cch ∧ t.dir = s.dir ∧
      ∃ bank, (t.med.progs.find? fun q => q.id == i) =
        some { p with ppn := none, bank, done := 0, half := false, first := none, running := false }) ∧
    (s.tck.course < f + 256 → Takes (.programAbandon i) s s))

/-! ## Media, drift and temperature -/

/-- A corrected read goes on to what it was for, and leaves the queue: the page of a fill is its line's data, and the line is Clean. A
failed one of a multi-level page is queued again with the next retry, for a later course; after the last retry, and of a single-level page
at once, it is uncorrectable (R125, R126): the error is counted and logged, its location is tested, and the line of a fill is Poisoned. A
read that no course has been given yet does not end.
-/
def Obligations.ReadsEndOrAreRetried : Prop :=
  (∀ (s : State) (i bits : Nat) (ahead : Bool) (r : MRead), readById s i = some r → r.assigned.isSome = true →
    ∃ t, t = pageCorrected r bits ahead
        (count (mediaUnit (channelOfPpn r.ppn)) (if isMulti s r.ppn then 0x10 else 0x11) r.senses.length s) ∧
      Engages (.mediaReadDone i (.corrected bits ahead)) s t ∧
      ((∀ l, r.why ≠ .selfTest l) → readById t i = none ∧ t.med.reads = s.med.reads.filter fun q => q.id != i) ∧
      ∀ (u k : Nat) (p : MPage), TablesWf s → r.why = .fill u → mediumPage s r.ppn = some p → findWay s u = some k →
        (lineIn (way t k) (lineOf u)).st = .clean ∧ plain t k (lineOf u) = pagePlain s p) ∧
  (∀ (s : State) (i : Nat) (r : MRead), readById s i = some r → r.assigned.isSome = true → isMulti s r.ppn = true → r.retry < 6 →
    ∃ t, Engages (.mediaReadDone i .failed) s t ∧
      readById t i = some { r with
        retry := r.retry + 1, assigned := none, made := r.made ++ r.senses, senses := [], passed := false } ∧
      t.med.reads.length = s.med.reads.length ∧ t.cch = s.cch ∧ t.dir = s.dir) ∧
  (∀ (s : State) (i : Nat) (r : MRead), readById s i = some r → r.assigned.isSome = true → r.retry = 6 →
    Engages (.mediaReadDone i .failed) s
      (readBad r (dropRead r.id (noteRead r
        (count (mediaUnit (channelOfPpn r.ppn)) (if isMulti s r.ppn then 0x10 else 0x11) r.senses.length s))))) ∧
  (∀ (s : State) (i : Nat) (r : MRead), readById s i = some r → r.assigned.isSome = true → (isMulti s r.ppn = false ∨ 6 ≤ r.retry) →
    ∃ t, Engages (.mediaReadDone i .failed) s t ∧
      ((∀ l, r.why ≠ .selfTest l) → readById t i = none ∧ (t.err.tests.any fun x => x.mem == 7 && x.loc == r.ppn) = true ∧
        (s.err.logValid = false → t.err.logValid = true ∧ t.err.logMem = 7 ∧ t.err.logLoc = r.ppn)) ∧
      ∀ u k, r.why = .fill u → findWay s u = some k → (lineIn (way t k) (lineOf u)).st = .poisoned) ∧
  (∀ (s : State) (i : Nat) (d : Decode), ((readById s i).all fun r => r.assigned.isNone) = true → Takes (.mediaReadDone i d) s s)

/-- A pulse group, or a reset strip, that is not the last moves its program or reset on by one and leaves it resting; with split pieces
the first half leaves it half way (R39, R42, R96). The last group of a program that verifies leaves its page programmed and the program
gone; one that fails its verify fails the block, and the program waits again for a page (R84, R88). The last strip of a reset that
verifies leaves no page of the block programmed and enters RESET_DONE, which waits while the journal buffer is full; one that fails retires
the block (R96, R108). A piece ends only
after the windows are fixed (R557), and none ends in the guard interval.
-/
def Obligations.PiecesMoveProgramsAndResetsOn : Prop :=
  (∀ (s : State) (i : Nat) (ok : Bool) (p : Prog), (s.med.progs.find? fun q => q.id == i) = some p → p.running = true → s.tck.guard = false →
    splitPieces s = true → p.half = false →
    Takes (.pulseGroupDone i ok) s (onProg i (fun q => { q with half := true, running := false }) (fixWindows s))) ∧
  (∀ (s : State) (i ppn : Nat) (ok : Bool) (p : Prog), (s.med.progs.find? fun q => q.id == i) = some p → p.running = true → s.tck.guard = false →
    splitPieces s = false ∨ p.half = true → p.ppn = some ppn → p.done + 1 < p.groups →
    Takes (.pulseGroupDone i ok) s
      (onProg i (fun _ => { p with done := p.done + 1, half := false, running := false })
        (count (mediaUnit (channelOfBank p.bank)) 0x12 1 (fixWindows s)))) ∧
  (∀ (s : State) (i ppn : Nat) (p : Prog), (s.med.progs.find? fun q => q.id == i) = some p → p.running = true → s.tck.guard = false →
    splitPieces s = false ∨ p.half = true → p.ppn = some ppn → p.groups ≤ p.done + 1 →
    let q := { p with done := p.done + 1, half := false, running := false }
    let s' := count (mediaUnit (channelOfBank p.bank)) 0x12 1 (fixWindows s)
    (∃ t, t = progVerified q ppn s' ∧ Engages (.pulseGroupDone i true) s t ∧ mediumPage t ppn = some p.page ∧
      (t.med.progs.find? fun x => x.id == i) = none) ∧
    (∃ t, t = progFailed q ppn s' ∧ Engages (.pulseGroupDone i false) s t ∧ t.medium.pages = s.medium.pages ∧
      ((blk s (blockOfPpn ppn)).st = .opened → (blk t (blockOfPpn ppn)).st = .failed) ∧
      ((∀ r n, p.kind ≠ .copy r n) → (t.med.progs.find? fun x => x.id == i) =
        some { p with ppn := none, done := 0, half := false, first := none, running := false }))) ∧
  (∀ (s : State) (b : Nat) (ok : Bool) (r : Rst), (s.med.resets.find? fun q => q.block == b) = some r → r.running = true → s.tck.guard = false →
    splitPieces s = true → r.half = false →
    Takes (.resetStripDone b ok) s (onRst b (fun q => { q with half := true, running := false }) (fixWindows s))) ∧
  (∀ (s : State) (b : Nat) (r : Rst), (s.med.resets.find? fun q => q.block == b) = some r → r.running = true → s.tck.guard = false →
    splitPieces s = false ∨ r.half = true →
    let q := { r with strip := r.strip + 1, half := false, running := false }
    let s' := count (mediaUnit (channelOfBank (bankOfBlock b))) 0x13 1 (fixWindows s)
    (∀ ok, r.strip < 255 → Takes (.resetStripDone b ok) s (onRst b (fun _ => q) s')) ∧
    (255 ≤ r.strip →
      (∃ t, t = resetVerified q s' ∧ Engages (.resetStripDone b true) s t ∧ (∀ x, blockOfPpn x = b → mediumPage t x = none) ∧
        (t.med.resets.find? fun x => x.block == b) = none ∧ t.med.cntReset = sat 64 s.med.cntReset 1 ∧
        (if s.med.jwait.isEmpty && entryFits s.med then ∃ j, j ∈ t.med.jbuf ∧ JRec.resetDone b ∈ j.recs
          else (JRec.resetDone b, false) ∈ t.med.jwait)) ∧
      (∃ t, t = resetFailed q s' ∧ Engages (.resetStripDone b false) s t ∧ (blk t b).st = .retired ∧
        (t.med.resets.find? fun x => x.block == b) = none ∧ t.medium = s.medium)))

/-- The times of the media engine: a journal page that is due goes out, a checkpoint begins when none is being written and the module is
in Run, and a line that has been copied leaves the cache for the write staging of its channel (R84, R90, R93, R157), a zero, poisoned or
unreadable one as a MAP_SET record alone (R84, R236).
-/
def Obligations.TheMediaEngineKeepsItsTimes : Prop :=
  (∀ s : State, Engages .journalPageTimeout s { s with med := { s.med with
    jbuf := s.med.jbuf.map fun p => if p.first + 16 ≤ s.tck.course then { p with due := true } else p } }) ∧
  (∀ s : State, inRun s = true → s.med.ckpt = none →
    ∃ t, Engages .checkpointPeriodic s t ∧ t.med.ckptGen = s.med.ckptGen + 1 ∧ t.med.ckpt.isSome = true ∧ t.cch = s.cch ∧ t.dir = s.dir) ∧
  (∀ s : State, (inRun s = false ∨ s.med.ckpt.isSome = true) → Takes .checkpointPeriodic s s) ∧
  (∀ (s : State) (u k : Nat), findWay s u = some k → (lineIn (way s k) (lineOf u)).st = .evicting →
    (lineIn (way s k) (lineOf u)).pz = false → (lineIn (way s k) (lineOf u)).tagOk = true → (k * 32 + lineOf u) / 256 ∉ s.sec.badMeta →
    (plain s k (lineOf u) ≠ 0 → stagingRoom s (channelOfBank (bankForWrite s u)) = true →
      ∃ t, Engages (.stagingCopyDone u) s t ∧ t.med.wseq = s.med.wseq + 1 ∧
        t.med.staging = s.med.staging ++
          [{ upage := u, bank := bankForWrite s u, data := plain s k (lineOf u), seq := s.med.wseq + 1 }]) ∧
    (plain s k (lineOf u) = 0 → journalRoom s = true →
      ∃ t, Engages (.stagingCopyDone u) s t ∧ t.med.wseq = s.med.wseq + 1 ∧ t.med.staging = s.med.staging ∧
        ∃ j, j ∈ t.med.jbuf ∧ JRec.mapSet u { zero := true } (s.med.wseq + 1) true ∈ j.recs)) ∧
  (∀ (s : State) (u k : Nat), findWay s u = some k → (lineIn (way s k) (lineOf u)).st = .evicting →
    ((lineIn (way s k) (lineOf u)).pz = true ∨ (lineIn (way s k) (lineOf u)).tagOk = false) → journalRoom s = true →
    ∃ t, Engages (.stagingCopyDone u) s t ∧ t.med.wseq = s.med.wseq + 1 ∧ t.med.staging = s.med.staging ∧
      ∃ j, j ∈ t.med.jbuf ∧ JRec.mapSet u { poison := true } (s.med.wseq + 1) true ∈ j.recs)


/-- A sensor sample is taken by the sensor's kind: the controller, DRAM, regulator and inlet sensors by SENSOR_SAMPLE, and every package
in turn by PACKAGE_SAMPLE, which advances its clock (R115, R466). A reading in range is the sensor's temperature, ends a run of lost
samples, and gives the band of R467; the third lost sample in a row, or a failed check, finds the sensor broken (R472). The inlet sensor
has no band. Before the identity is loaded no sensor is sampled.
An absent sample advances the clock by the present band (log 95). -/
def Obligations.SensorsAreSampled : Prop :=
  (∀ (s : State) (n : Nat) (r : Reading), n < 86 → ¬ (4 ≤ n ∧ n ≤ 67) → sensorsRead s = true →
    Takes (.sensorSample n r) s (sampleSensor n r s)) ∧
  (∀ (s : State) (n : Nat) (q : Int), TablesWf s → n < 86 → ¬ (4 ≤ n ∧ n ≤ 67) → sensorsRead s = true → -160 ≤ q → q ≤ 600 →
    ∃ t, Takes (.sensorSample n (.temp q)) s t ∧ (sensor t n).temp = q ∧ (sensor t n).lost = 0 ∧
      (n ≠ 85 → (sensor t n).band = nextBand (sensor s n).band q) ∧ ∀ k, k ≠ n → sensor t k = sensor s k) ∧
  (∀ (s : State) (n : Nat), n < 86 → ¬ (4 ≤ n ∧ n ≤ 67) → sensorsRead s = true →
    (∃ t, Takes (.sensorSample n .checkFailed) s t ∧ (sensor t n).broken = true) ∧
    (∃ t, Takes (.sensorSample n .absent) s t ∧ ((sensor s n).lost < 2 → (sensor t n).broken = (sensor s n).broken) ∧
      ((sensor s n).lost = 2 → (sensor t n).broken = true))) ∧
  (∀ (s : State) (rs : List Reading), s.tck.running = true →
    Takes (.packageSample rs) s (each (upto (packages s)) (fun i s => samplePackage i ((nth rs i).getD .absent) s) s)) ∧
  (∀ (s : State) (rs : List Reading), TablesWf s → s.tck.running = true →
    ∃ t, Takes (.packageSample rs) s t ∧ ∀ (i : Nat) (q : Int), i < packages s → nth rs i = some (.temp q) → -160 ≤ q → q ≤ 600 →
      (pkgSensor t i).temp = q ∧ (pkgSensor t i).lost = 0 ∧ (pkgSensor t i).band = nextBand (pkgSensor s i).band q) ∧
  (∀ (s : State) (rs : List Reading), s.tck.running = false → Takes (.packageSample rs) s s) ∧
  (∀ (s : State) (n : Nat) (q : Int), TablesWf s → n < 85 → -160 ≤ q → q ≤ 600 →
    let x := sensor s n
    sensor (sampleSensor n (.temp q) s) n =
      { x with temp := q, lost := 0, band := nextBand x.band q, hot := decide (400 ≤ q) && !x.broken }) ∧
  (∀ (s : State) (n : Nat), (sensor s n).lost < 2 → (sensor (sampleSensor n .absent s) n).broken = (sensor s n).broken) ∧
  (∀ (s : State) (n : Nat), (sensor s n).lost = 2 → (sensor (sampleSensor n .absent s) n).broken = true) ∧
  (∀ (s : State) (n : Nat), (sensor (sampleSensor n .checkFailed s) n).broken = true)

/-- A band rises at the first sample that reaches a higher band's lower edge, and falls only at least 2 °C (8 units) below its own lower
edge (R467): from a legal band every sample gives a legal band, no higher than the sample's range asks for and never above its own by
less than a higher edge. -/
def Obligations.BandsRiseAtOnceAndFallLate : Prop :=
  ∀ (b : Nat) (q : Int), b ≤ 5 →
    nextBand b q ≤ 5 ∧
    (b < nextBand b q ↔ b < 5 ∧ bandEdge (b + 1) ≤ q) ∧
    (nextBand b q < b ↔ 1 ≤ b ∧ q ≤ bandEdge b - 8) ∧
    (nextBand b q ≠ b → bandEdge (nextBand b q) ≤ q ∨ nextBand b q = 0)

/-- A sensor in B5 for 60 s before memory ready turns the start down with cause THERMAL (R382); one hot for 1 s in Run begins an orderly
thermal stop (R474), which takes the place of a drain that is under way; and a comparator at 110 °C cuts every rail at once and latches,
with the sensor and its temperature shown (R476). A sensor that is not hot stops nothing, and one that the part lacks, or that has no
comparator, cuts nothing.
-/
def Obligations.HeatStopsTheModule : Prop :=
  (∀ (s : State) (n : Nat), 3 ≤ s.glb.step → s.glb.step < 8 → s.glb.failed = false → (sensor s n).band = 5 →
    (s.plinth.st = 1 ∨ s.plinth.st = 2) →
    ∃ t, t = railsDown 6 (saveEvents (event 0x0903 0 8 { s with glb := { s.glb with failCause := 8 } })) ∧
      Takes (.startupThermalTimeout n) s t ∧ t.plinth.st = 7 ∧ t.plinth.cause = 6 ∧ t.plinth.agtRst = 0xFF ∧ t.glb.failCause = 8 ∧
      t.plinth.charger = false) ∧
  (∀ (s : State) (n : Nat), (sensor s n).hot = true → s.plinth.st = 2 → s.glb.memReady = true → s.thm.timing = true → s.pwr.drain = 0 →
    let e := event 0x0A06 0xB n s
    Engages (.thermalStop n) s (warn 3 { e with
      thm := { e.thm with stopping := true, timing := false, cntStop := sat 64 e.thm.cntStop 1 }
      pwr := { e.pwr with drain := 0, drainSt := 0 } })) ∧
  (∀ (s : State) (n : Nat), (sensor s n).hot = true → s.plinth.st = 2 → s.glb.memReady = true → s.thm.timing = true →
    ∃ t, Engages (.thermalStop n) s t ∧ t.plinth.st = 3 ∧ t.plinth.cause = 3 ∧ t.plinth.pfw = true ∧ t.plinth.charger = false ∧
      t.hst.pfw = true ∧ t.pwr.drain = 0 ∧ t.thm.stopping = true ∧ t.thm.timing = false ∧ t.thm.cntStop = sat 64 s.thm.cntStop 1) ∧
  (∀ (s : State) (n : Nat), (sensor s n).hot = false → Takes (.thermalStop n) s s) ∧
  (∀ (s : State) (n : Nat) (temp : Int), (67 < n ∧ n ≠ 84) ∨ sensorHere s n = false ∨ s.plinth.st = 0 → Takes (.thermalTrip n temp) s s) ∧
  (∀ (s : State) (n : Nat) (temp : Int), (n ≤ 67 ∨ n = 84) → sensorHere s n = true → s.plinth.st ≠ 0 →
    ∃ t, Takes (.thermalTrip n temp) s t ∧ t.plinth.st = 0 ∧ t.plinth.pfw = true ∧ t.plinth.agtRst = 0xFF ∧ t.plinth.latched = true ∧
      t.plinth.firstRail = 255 ∧ t.plinth.tripValid = true ∧ t.plinth.tripSensor = n ∧ t.plinth.tripTemp = temp ∧
      n ∈ t.plinth.hotComps ∧ t.glb = {} ∧ t.cch = {} ∧ ∀ r, r < 24 → railSt t r = 0)

/-! ## Coherence and ordering -/

/-- Every request for this home that a port receives on an ACTIVE link within its credits, and every request of an agent, joins the requests
of its port in order of arrival, and nothing of it is lost: it stands last among the held ones, under a number of its own (R189, R201). One
that came over Coping for another member is passed on (R310). Its credit is owed (R286). ATOMIC and ACCUM are requests between
members only (R285). One beyond its credits is an AGENT_PROTOCOL error of its port instead (R288); on a link that is not ACTIVE no message
arrives.
-/
def Obligations.RequestsJoinTheirPort : Prop :=
  let counted (p : Port) (s : State) := match p with | .hal p => count (0x40 + p) 0x12 1 s | .cop l => count (0x48 + l) 0x12 1 s
  let taken (m : Msg) (s : State) := counted m.port (received (portIdx m.port) 0 s)
  let joined (m : Msg) (c : Instr) (s : State) := overCredit s m c = false →
    (∀ l, m.port = .cop l → isBarrierCmd c = false → awayHome s m.gaddr = none) →
    ∃ t, t = arrive (srcOf m.port) c (taken m s) ∧ Engages c s t ∧ Joins (srcOf m.port) c s t
  let relayed (m : Msg) (c : Instr) (s : State) := ∀ l h, m.port = .cop l → awayHome s m.gaddr = some h → overCredit s m c = false →
    Engages c s (passOn h m c (taken m s))
  (∀ (s : State) (m : Msg), linkIn s m.port 5 = true →
    (joined m (.rdShared m) s ∧ relayed m (.rdShared m) s) ∧
    (joined m (.rdUnique m) s ∧ relayed m (.rdUnique m) s) ∧
    (joined m (.upgrade m) s ∧ relayed m (.upgrade m) s) ∧
    (joined m (.rdOnce m) s ∧ relayed m (.rdOnce m) s) ∧
    (∀ mask data poison, joined m (.wrNc m mask data poison) s ∧ relayed m (.wrNc m mask data poison) s) ∧
    (∀ arg, joined m (.orderBarrier m arg) s) ∧
    (∀ arg, joined m (.complBarrier m arg) s)) ∧
  (∀ (s : State) (m : Msg) (l : Nat), m.port = .cop l → linkIn s m.port 5 = true →
    (∀ op size off pay, joined m (.atomic m op size off pay) s ∧ relayed m (.atomic m op size off pay) s) ∧
    (∀ ws, joined m (.accum m ws) s ∧ relayed m (.accum m ws) s)) ∧
  (∀ (s : State) (m : Msg) (c : Instr), linkIn s m.port 5 = true → overCredit s m c = true →
    c = .rdShared m ∨ c = .rdUnique m ∨ c = .upgrade m ∨ c = .rdOnce m ∨ (∃ mask data poison, c = .wrNc m mask data poison) ∨
      (∃ arg, c = .orderBarrier m arg ∨ c = .complBarrier m arg) →
    Engages c s (creditBroken (portIdx m.port) (agentOf s m) s)) ∧
  (∀ (s : State) (m : Msg), linkIn s m.port 5 = false →
    Takes (.rdShared m) s s ∧ Takes (.rdUnique m) s s ∧ Takes (.upgrade m) s s ∧ Takes (.rdOnce m) s s ∧
    (∀ mask data poison, Takes (.wrNc m mask data poison) s s) ∧ (∀ arg, Takes (.orderBarrier m arg) s s ∧ Takes (.complBarrier m arg) s s) ∧
    (∀ op size off pay, Takes (.atomic m op size off pay) s s) ∧ ∀ ws, Takes (.accum m ws) s s) ∧
  (∀ (src : Src) (c : Instr) (s : State),
    (arrive src c s).dir.held = s.dir.held ++ [{ id := s.dir.nextId, src, cmd := c, tick := s.tck.course }] ∧
    (arrive src c s).dir.nextId = s.dir.nextId + 1 ∧ (arrive src c s).dir.txns = s.dir.txns ∧ (arrive src c s).cch = s.cch ∧
    (arrive src c s).med = s.med ∧ (arrive src c s).ord = s.ord ∧ (arrive src c s).out = s.out) ∧
  (∀ (s : State) (m : Msg) (c : Instr) (h l : Nat), routeFor s h m.gaddr = some l → ∃ n,
    passOn h m c s = emit (.forward l h 0 m.gaddr (withMsg (onCoping s l m) c)) { s with grp := { s.grp with cntRelay := n } })

/-- Writebacks, evictions, acknowledgements and snoop answers that reach their home on an ACTIVE link within their credits act there at
once (R194, R197, R200). Data of a WB_DIRTY of the owner, or of one that a snoop crosses, and of a SNP_DATA, stands in a reserved entry of
the gather buffers, a SNP_DATA before the W message of its agent that has overtaken it; a WB_DIRTY of an agent that owns nothing is an error of its own, and writes nothing. An ACK ends its transaction, and
a snoop answer marks its snoop answered. For a granule of another home they are passed on to it (R17), and a W message of an agent stays
its earlier write until its WB_ACK comes (R226).
-/
def Obligations.AnswersActAtTheHome : Prop :=
  let credited (c : Instr) (m : Msg) (s : State) := received (portIdx m.port) (classOfMsg c) s
  let relayed (m : Msg) (s : State) := match m.port with
    | .hal _ => s
    | .cop _ => { s with grp := { s.grp with cntRelay := sat 64 s.grp.cntRelay 1 } }
  (∀ (s : State) (m : Msg) (lg : Nat), linkIn s m.port 5 = true → localGranule s m.gaddr = some lg → awayHome s m.gaddr = none →
    (∀ data poison, overCredit s m (.wbDirty m data poison) = false →
      ∃ t, t = takeWb (srcOf m.port) (agentOf s m) m.gaddr lg data poison (credited (.wbDirty m data poison) m s) ∧ Engages (.wbDirty m data poison) s t ∧ t.cch = s.cch ∧
        ((openSnoop s (agentOf s m) lg).isSome = true ∨ recordedState s lg = .owned (agentOf s m) →
          ∃ g, t.ord.gbs = s.ord.gbs ++ [g] ∧ g.lg = lg ∧ g.data = data ∧ g.poison = poison ∧ g.rsv = 1 ∧ g.agent = agentOf s m) ∧
        ((openSnoop s (agentOf s m) lg) = none → recordedState s lg ≠ .owned (agentOf s m) →
          t.ord.gbs = s.ord.gbs ∧ t.dir.cntProto = sat 64 s.dir.cntProto 1)) ∧
    (∀ given, overCredit s m (.evictClean m given) = false →
      ∃ t, t = takeEvict (agentOf s m) m.gaddr lg (credited (.evictClean m given) m s) ∧ Engages (.evictClean m given) s t ∧ t.cch = s.cch ∧ t.ord = s.ord ∧
        (∀ x, openSnoop s (agentOf s m) lg = none → (s.dir.txns.find? fun y => y.busy && y.req.lg == lg) = some x →
          recordedState t lg = if agentOf s m ∈ holders x.after then removeHolder (agentOf s m) x.after else x.after)) ∧
    (∀ htid, overCredit s m (.ack m htid) = false →
      ∃ t, t = takeAck (agentOf s m) htid (credited (.ack m htid) m s) ∧ Engages (.ack m htid) s t ∧
        ∀ x, (s.dir.txns.find? fun y => y.slot == some htid && y.stage == .ack && y.req.agent == agentOf s m) = some x →
          t.dir.txns = s.dir.txns.filter fun y => y.req.id != x.req.id) ∧
    (∀ htid st ev, overCredit s m (.snpResp m htid st ev) = false →
      ∃ t, t = takeResp (srcOf m.port) (agentOf s m) htid m.gaddr lg st ev none (credited (.snpResp m htid st ev) m s) ∧ Engages (.snpResp m htid st ev) s t ∧
        t.ord.gbs = s.ord.gbs ∧
        ∀ x, (s.dir.txns.find? fun y => y.slot == some htid && y.snoops.any fun z => z.agent == agentOf s m && z.lg == lg && !z.resp) = some x →
          ∃ y, y ∈ t.dir.txns ∧ y.req = x.req ∧ ∀ z, z ∈ y.snoops → z.agent = agentOf s m → z.lg = lg → z.resp = true) ∧
    (∀ htid st data poison, overCredit s m (.snpData m htid st data poison) = false →
      ∃ t, t = takeResp (srcOf m.port) (agentOf s m) htid m.gaddr lg st false (some (data, poison))
          (credited (.snpData m htid st data poison) m s) ∧
        Engages (.snpData m htid st data poison) s t ∧
        ∀ x, (s.dir.txns.find? fun y => y.slot == some htid && y.snoops.any fun z => z.agent == agentOf s m && z.lg == lg && !z.resp) = some x →
          (∃ l₁ g l₂, s.ord.gbs = l₁ ++ l₂ ∧ t.ord.gbs = l₁ ++ g :: l₂ ∧ g.lg = lg ∧ g.data = data ∧ g.poison = poison ∧ g.rsv = 2 ∧
            (∀ x, x ∈ l₁ → x.rsv = 1 → x.agent = agentOf s m → x.lg ≠ lg)) ∧
          ∃ y, y ∈ t.dir.txns ∧ y.req = x.req ∧ ∀ z, z ∈ y.snoops → z.agent = agentOf s m → z.lg = lg → z.resp = true)) ∧
  (∀ (s : State) (m : Msg) (h l : Nat), linkIn s m.port 5 = true → awayHome s m.gaddr = some h → routeFor s h m.gaddr = some l →
    (∀ htid, overCredit s m (.ack m htid) = false → Engages (.ack m htid) s
      (emit (.forward l h 0 m.gaddr (.ack (onCoping s l m) htid)) (relayed m (credited (.ack m htid) m s)))) ∧
    (∀ htid st ev, overCredit s m (.snpResp m htid st ev) = false →
      Engages (.snpResp m htid st ev) s (emit (.forward l h 0 m.gaddr (.snpResp (onCoping s l m) htid st ev))
        (relayed m (snoopAnswered m htid (credited (.snpResp m htid st ev) m s))))) ∧
    (∀ htid st data poison, overCredit s m (.snpData m htid st data poison) = false →
      Engages (.snpData m htid st data poison) s (emit (.forward l h 0 m.gaddr (.snpData (onCoping s l m) htid st data poison))
        (relayed m (snoopAnswered m htid (credited (.snpData m htid st data poison) m s)))))) ∧
  (∀ (s : State) (m : Msg) (h l : Nat) (c : Instr), linkIn s m.port 5 = true → awayHome s m.gaddr = some h → routeFor s h m.gaddr = some l →
    unreachable s h = false → (∃ data poison, c = .wbDirty m data poison) ∨ (∃ given, c = .evictClean m given) → overCredit s m c = false →
    (∀ k, m.port = .cop k → Engages c s (emit (.forward l h 0 m.gaddr c) (relayed m (credited c m s)))) ∧
    (∀ p, m.port = .hal p → ∃ t, Engages c s (emit (.forward l h 0 m.gaddr (withMsg (onCoping s l m) c)) (credited c m t)) ∧ t = { s with dir := { s.dir with
      nextId := s.dir.nextId + 1
      fwds := s.dir.fwds ++ [{ home := h, port := l, req := s.dir.nextId, txid := 0, gaddr := m.gaddr, agent := agentOf s m
                               src := .hal p, write := true, cmd := c }] } })) ∧
  (∀ (s : State) (g : Nat), localGranule s g = none ∨ awayHome s g = none)

/-- A message with a reserved opcode is discarded: it is counted, AGENT_PROTOCOL is recorded, and nothing else changes (R191). On a
Halyard port the opcodes of ATOMIC and ACCUM are reserved (R285). -/
def Obligations.ReservedOpcodesAreDiscarded : Prop :=
  (∀ (s : State) (m : Msg), linkIn s m.port 5 = true →
    Takes (.reservedOpcodeMessage m) s
      (event 0x0501 2 (agentOf s m) { s with dir := { s.dir with cntProto := sat 64 s.dir.cntProto 1 } })) ∧
  (∀ (s : State) (m : Msg) (p : Nat), m.port = .hal p → linkIn s m.port 5 = true →
    (∀ op size off pay, exec (.atomic m op size off pay) s = exec (.reservedOpcodeMessage m) s) ∧
    (∀ ws, exec (.accum m ws) s = exec (.reservedOpcodeMessage m) s)) ∧
  (∀ (code src operand : Nat) (s : State), ∃ v f, event code src operand s = { s with evr := v, flash := f })

/-- The snoops of a request, and the states that it grants and leaves once they are answered, by the table of R201: for each request and
each exact state of the granule. `t` is a transaction whose snoops all answered with the states that the table names. -/
def Obligations.TheHomeFollowsItsTable : Prop :=
  ∀ (s : State) (a b : Nat) (l : List Nat), a ≠ b → s.dir.readGrantEff ≠ 1 → s.cch.holding = false →
    (snoopPlan .rdShared a .uncached = ([], .shared) ∧ snoopPlan .rdShared a (.shared l) = ([], .shared) ∧
      snoopPlan .rdShared a (.owned b) = ([b], .shared) ∧ snoopPlan .rdShared a (.owned a) = ([a], .inv)) ∧
    (∀ k, k = .rdUnique ∨ k = .upgrade → snoopPlan k a .uncached = ([], .inv) ∧
      snoopPlan k a (.shared l) = (l.filter (· != a), .inv) ∧ snoopPlan k a (.owned b) = ([b], .inv)) ∧
    (snoopPlan .rdOnce a .uncached = ([], .clean) ∧ snoopPlan .rdOnce a (.shared l) = ([], .clean) ∧
      snoopPlan .rdOnce a (.owned b) = ([b], .clean)) ∧
    (snoopPlan .write a .uncached = ([], .inv) ∧ snoopPlan .write a (.shared l) = (l, .inv) ∧
      snoopPlan .write a (.owned b) = ([b], .inv)) ∧
    (compUpgrade .upgrade a (.shared l) = decide (a ∈ l) ∧ compUpgrade .upgrade a (.owned b) = false ∧
      compUpgrade .upgrade a .uncached = false) ∧
    (∀ (t : Txn), t.req.agent = a → t.snoops = [] →
      (t.req.kind = .rdShared → t.after = .uncached → afterSnoops s t = (.owned a, .e)) ∧
      (t.req.kind = .rdShared → t.after = .shared l → afterSnoops s t = (addHolder a (.shared l), .s)) ∧
      (t.req.kind = .rdUnique ∨ t.req.kind = .upgrade → afterSnoops s t = (.owned a, .e)) ∧
      (t.req.kind = .rdOnce → afterSnoops s t = (t.after, .i)) ∧
      (t.req.kind = .write → afterSnoops s t = (.uncached, .i))) ∧
    (∀ (t : Txn) (x : Snoop), t.req.agent = a → t.snoops = [x] → x.lg = t.req.lg → x.agent = b →
      (t.req.kind = .rdShared → x.st = .i → afterSnoops s t = (.shared [a], .s)) ∧
      (t.req.kind = .rdShared → x.st ≠ .i → afterSnoops s t = (.shared [b, a], .s)) ∧
      (t.req.kind = .rdOnce → x.st = .i → afterSnoops s t = (.uncached, .i)) ∧
      (t.req.kind = .rdOnce → x.st ≠ .i → x.st ≠ .s → afterSnoops s t = (.owned b, .i)))

/-- The notice of a read that was forwarded lets its order stand (R227); an entry's greatest age drains it (R224); the oldest fence read
completes with DONE = 0 after its time; and a fence read drains the host's entries and waits for the host writes and device accesses that
stand when it comes (R210, R229). A notice that names no forwarded read, and the age of an entry that is gone, change nothing.
-/
def Obligations.OrderingHasItsTimes : Prop :=
  (∀ (s : State) (m : Msg) (f : Fwd), s.dir.fwds.find? (noticeFor m) = some f →
    Engages (.readNotice m) s { s with dir := { s.dir with fwds := s.dir.fwds.map fun x => if x.req = f.req then { x with noticed := true } else x } }) ∧
  (∀ (s : State) (m : Msg), s.dir.fwds.find? (noticeFor m) = none → Takes (.readNotice m) s s) ∧
  (∀ (s : State) (g : GbEnt), g ∈ s.ord.gbs → g.rsv = 0 → Engages (.gatherMaxAge g.id) s (drainEntry g.id s)) ∧
  (∀ (s : State) (g : GbEnt), (s.ord.gbs.find? fun x => x.id == g.id) = some g → g.rsv = 0 →
    ∃ t, Engages (.gatherMaxAge g.id) s t ∧ (t.ord.gbs.find? fun x => x.id == g.id) = some { g with drained := true } ∧
      t.ord.gbs.length = s.ord.gbs.length ∧ t.cch = s.cch ∧ t.med = s.med) ∧
  (∀ (s : State) (i : Nat), (∀ g, g ∈ s.ord.gbs → g.id ≠ i) → Takes (.gatherMaxAge i) s s) ∧
  (∀ s : State, hostUp s = true → served s 0x0600010 = true →
    ∃ t, t = drainWhere (fun g => g.buf == 12) (tlpIn s) ∧
      Engages .hostFenceRead s { t with ord := { t.ord with fences := t.ord.fences ++ [hostWriteIds s ++ hostDeviceIds s] } } ∧
      t.ord.fences = s.ord.fences ∧ t.cch = s.cch ∧ t.med = s.med ∧
      ∀ g, (t.ord.gbs.find? fun x => x.id == g.id) = some g → g.buf = 12 → g.rsv = 0 → g.drained = true) ∧
  (∀ s : State, hostUp s = false ∨ served s 0x0600010 = false → Takes .hostFenceRead s s) ∧
  (∀ s : State, s.ord.fences ≠ [] →
    ∃ t, t = emit (.reg 0x0600010 0)
        { s with ord := { s.ord with fences := s.ord.fences.drop 1, cntFence := sat 64 s.ord.cntFence 1 } } ∧
      Takes .hostFenceTimeout s t ∧ t.out = .reg 0x0600010 0 :: s.out ∧ t.ord.fences = s.ord.fences.drop 1) ∧
  (∀ s : State, s.ord.fences = [] → Takes .hostFenceTimeout s s)

/-- What cuts the host interface off: PERST_N and a Function Level Reset reset it, PCLK_LOSS and PCIE_LINK_DOWN take its link down, and
PCIE_REF_RETURN brings the link back (R235, R238, R325, R456); D3hot is a state of the function (R323). Its queues have their reset
values after a reset, but for the commands that had started, which run on without entries; MPS and MRRS of the function take their reset values with
PERST_N (log 52); no read or fence of the host stands, its
interrupt vectors are masked, and its scratch SRAM and the cache are as they were. What does not concern a link that is down changes
nothing.
That PCLK_LOSS resets the interface, and that the link comes back only so, is the model's reading (log 77). -/
def Obligations.TheHostInterfaceIsReset : Prop :=
  let cut (t : State) : Prop := t.dir.hostRds = [] ∧ t.ord.fences = []
  let fresh (s t : State) : Prop := cut t ∧ t.hst.msix = [] ∧ t.hst.msixPend = [] ∧ t.hst.d3 = false ∧ t.hst.scratch = s.hst.scratch ∧
    { t.cch with jobs := s.cch.jobs } = s.cch
  (∀ s : State, s.hst.cfgReady = true → ∃ t, t = resetHost s ∧ Engages .perstN s { t with hst := { t.hst with linkUp := s.clk.pcieRef, mps := 0, mrrs := 2 } } ∧
    fresh s t) ∧
  (∀ s : State, s.hst.cfgReady = true → s.hst.linkUp = true → ∃ t, t = resetHost s ∧ Engages .functionLevelReset s t ∧ fresh s t ∧
    t.hst.linkUp = true) ∧
  (∀ s : State, s.hst.linkUp = true → ∃ t, t = cutHost s ∧ Engages .pcieLinkDown s { t with hst := { t.hst with linkUp := false } } ∧ cut t ∧
    t.cch = s.cch ∧ t.hst.scratch = s.hst.scratch) ∧
  (∀ s : State, s.clk.pcieRef = true → ∃ t, t = resetHost s ∧
    Engages .pclkLoss s { t with hst := { t.hst with linkUp := false }, clk := { t.clk with pcieRef := false } } ∧ fresh s t) ∧
  (∀ s : State, s.hst.cfgReady = true → s.clk.pcieRef = false →
    Engages .pcieRefReturn s { s with hst := { s.hst with linkUp := true }, clk := { s.clk with pcieRef := true } }) ∧
  (∀ (s : State) (d3 : Bool), s.hst.cfgReady = true → s.hst.linkUp = true →
    Takes (.d3hotTransition d3) s { s with hst := { s.hst with d3 } }) ∧
  (∀ (s : State) (d3 : Bool), s.hst.linkUp = false →
    Takes .functionLevelReset s s ∧ Takes .pcieLinkDown s s ∧ Takes (.d3hotTransition d3) s s) ∧
  (∀ (s : State) (q : Nat), TablesWf s → q < 64 → (queue (resetHost s) q).started = [] ∧
    (queue (resetHost s) q).mute = (queue s q).mute ++ (queue s q).started.map (muteCmd q) ∧ (queue (resetHost s) q).fetched = [] ∧ (queue (resetHost s) q).enable = false ∧ (queue (resetHost s) q).winSt = 0) ∧
  (∀ s : State, (resetHost s).hst.msix = [] ∧ (resetHost s).hst.msixPend = [] ∧ (resetHost s).dir.hostRds = [] ∧
    (resetHost s).ord.fences = [] ∧ (resetHost s).hst.scratch = s.hst.scratch ∧ { (resetHost s).cch with jobs := s.cch.jobs } = s.cch)


/-! ## Streams -/

/-- A record is what the descramblers of the two lanes make of a received pair (R303). One that is accepted stands last in the FIFO of its port
with the tick of its course; one that comes while the FIFO is full is
discarded with cause OVERFLOW, and one that comes while ingress is IDLE, or after a change of acceptance, with cause STOPPED (R252, R256,
R268). Each is counted, and the first stands in the port's error log with its cause (8 OVERFLOW, 9 STOPPED); the port's state and the
records already in the FIFO stand. What is left of a record that was flushed is counted and not logged (R270). A pair with invalid block
headers is counted (R304). Lanes that are not in operation take no record, and what arrives on lanes that are off changes nothing; lanes go into
and out of operation by the counts of R306 also (log 169). -/
def Obligations.RecordsAreAcceptedOrDiscarded : Prop :=
  let rec' (s : State) (p : Nat) (wire : BitVec 128) := (receivePair p 1 1 wire s).1
  (∀ (s : State) (p : Nat) (wire : BitVec 128) (early : Bool), receives s p = true → (port s p).linkUp = true →
    let r := rec' s p wire
    let t := onPort p (fun x => { x with inCrc := x.inCrc ++ [r] }) (receivePair p 1 1 wire s).2
    ((early && (port s p).flushed) = false →
      (recordTaken s p early = true → (port s p).fifo.length < 16384 → Takes (.streamRecord p wire early) s (acceptRecord p r t)) ∧
      (recordTaken s p early = true → 16384 ≤ (port s p).fifo.length → Takes (.streamRecord p wire early) s (dropRecord p 8 r t)) ∧
      (recordTaken s p early = false → Takes (.streamRecord p wire early) s (dropRecord p 9 r t))) ∧
    ((early && (port s p).flushed) = true →
      Takes (.streamRecord p wire early) s (onPort p (fun x => { x with cntDrop := sat 64 x.cntDrop 1 }) t))) ∧
  (∀ (s : State) (p : Nat) (wire : BitVec 128) (early : Bool), receives s p = true → (port s p).linkUp = true →
    (early && (port s p).flushed) = false → recordTaken s p early = true → (port s p).fifo.length < 16384 →
    ∃ t, Takes (.streamRecord p wire early) s t ∧ (port t p).fifo = (port s p).fifo ++ [(rec' s p wire, s.tck.count)] ∧
      (port t p).cntAccept = sat 64 (port s p).cntAccept 1 ∧ t.stm.comb = s.stm.comb) ∧
  (∀ (s : State) (p : Nat), (port s p).inSt = 0 → recordTaken s p false = false) ∧
  (∀ (s : State) (p : Nat) (h0 h1 : BitVec 2) (wire : BitVec 128),
    (receivePair p h0 h1 wire s).1 = (descrPair (port s p).scrIn wire).1 ∧
    (p < 8 → (port s p).linkUp = true → (port (receivePair p h0 h1 wire s).2 p).scrIn = (descrPair (port s p).scrIn wire).2)) ∧
  (∀ (s : State) (p : Nat) (r : BitVec 128),
    (port (acceptRecord p r s) p).fifo = (port s p).fifo ++ [(r, s.tck.count)] ∧
    (port (acceptRecord p r s) p).cntAccept = sat 64 (port s p).cntAccept 1) ∧
  (∀ (s : State) (p cause : Nat) (r : BitVec 128),
    (port (dropRecord p cause r s) p).fifo = (port s p).fifo ∧ (port (dropRecord p cause r s) p).inSt = (port s p).inSt ∧
    (port (dropRecord p cause r s) p).cntDrop = sat 64 (port s p).cntDrop 1 ∧
    ((port s p).errValid = false → (port (dropRecord p cause r s) p).errValid = true ∧ (port (dropRecord p cause r s) p).errCause = cause)) ∧
  (∀ (s : State) (p : Nat) (h0 h1 : BitVec 2) (wire : BitVec 128), receives s p = true → (port s p).linkUp = true → ingressKind h0 h1 = none →
    ∃ t, t = onPort p (fun x => { x with cntBad := sat 64 x.cntBad 1 }) (receivePair p h0 h1 wire s).2 ∧
      Takes (.streamFramingError p h0 h1 wire) s (judgeLanes p t) ∧
      (port t p).cntBad = sat 64 (port s p).cntBad 1 ∧ (port t p).fifo = (port s p).fifo) ∧
  (∀ (s : State) (p : Nat) (h0 h1 : BitVec 2) (wire : BitVec 128) (early : Bool), receives s p = true → (port s p).linkUp = false →
    Takes (.streamRecord p wire early) s (judgeLanes p (receivePair p 1 1 wire s).2) ∧
    (ingressKind h0 h1 = none → Takes (.streamFramingError p h0 h1 wire) s (judgeLanes p (receivePair p h0 h1 wire s).2))) ∧
  (∀ (s : State) (p : Nat) (h0 h1 : BitVec 2) (wire : BitVec 128) (early : Bool),
    (receives s p = false → Takes (.streamRecord p wire early) s s ∧ Takes (.streamFramingError p h0 h1 wire) s s) ∧
    (ingressKind h0 h1 ≠ none → Takes (.streamFramingError p h0 h1 wire) s s))

/-- A CHECK that matches the records since the last one only starts the next sum; one that does not is counted and recorded, and the
records already accepted stand (R305). ALIGN with the pairing check 0xA5 aligns a port that trains, and any other word leaves it (R305,
R306); both lanes up put an aligned port into operation, and lanes that go down, or 16 invalid headers of one lane among 64, stop both
directions at the next course start (R275, R306); 1,024 aligned pairs put a port into operation too.
Lanes that are not aligned, or not up, stay so.
The event of a CHECK that fails carries operand 0 by the model's choice (log 97), and so is which of these counts the commands show (log 169). -/
def Obligations.LanesAreCheckedAndAligned : Prop :=
  let word (s : State) (p : Nat) (wire : BitVec 128) := (receivePair p 2 2 wire s).1
  let seen (s : State) (p : Nat) (wire : BitVec 128) := (receivePair p 2 2 wire s).2
  (∀ (s : State) (p : Nat) (wire : BitVec 128), receives s p = true → (port s p).linkUp = true → (word s p wire).extractLsb' 0 8 = 0x4B →
    let crc := (word s p wire).extractLsb' 32 32
    let t := onPort p (fun x => { x with inCrc := [] }) (seen s p wire)
    (Config.crc32 (wordBytes (port s p).inCrc) = crc → Takes (.streamCheckWord p wire) s t) ∧
    (Config.crc32 (wordBytes (port s p).inCrc) ≠ crc →
      Takes (.streamCheckWord p wire) s (event 0x0601 (0x50 + p) 0 (onPort p (fun x => { x with cntChk := sat 64 x.cntChk 1 }) t))) ∧
    (port t p).inCrc = [] ∧ (port t p).fifo = (port s p).fifo ∧ (port t p).cntChk = (port s p).cntChk) ∧
  (∀ (s : State) (p : Nat) (wire : BitVec 128), receives s p = true → (port s p).linkUp = true → (word s p wire).extractLsb' 0 8 = 0x4B →
    Config.crc32 (wordBytes (port s p).inCrc) ≠ (word s p wire).extractLsb' 32 32 →
    ∃ t, Takes (.streamCheckWord p wire) s t ∧ (port t p).inCrc = [] ∧ (port t p).fifo = (port s p).fifo ∧
      (port t p).cntChk = sat 64 (port s p).cntChk 1) ∧
  (∀ (s : State) (p : Nat) (wire : BitVec 128), receives s p = true → (port s p).linkUp = true → (word s p wire).extractLsb' 0 8 ≠ 0x4B →
    Takes (.streamCheckWord p wire) s (seen s p wire)) ∧
  (∀ (s : State) (p : Nat) (wire : BitVec 128), p < 8 → (port s p).lnkSt = 2 → (word s p wire).extractLsb' 0 16 = 0xA578 →
    ∃ t, t = onPort p (fun x => { x with aligned := true }) (seen s p wire) ∧ Takes (.streamAlignWord p wire) s (judgeLanes p t) ∧
      (port t p).aligned = true ∧ (port t p).lnkSt = 2) ∧
  (∀ (s : State) (p : Nat) (wire : BitVec 128), receives s p = true → ((port s p).lnkSt ≠ 2 ∨ (word s p wire).extractLsb' 0 16 ≠ 0xA578) →
    Takes (.streamAlignWord p wire) s (seen s p wire) ∧ (port (seen s p wire) p).aligned = (port s p).aligned) ∧
  (∀ (s : State) (p : Nat), p < 8 → (port s p).lnkSt = 2 → (port s p).aligned = true →
    ∃ t, t = lanesUp p s ∧ Takes (.streamLanesUp p) s t ∧ (port t p).lnkSt = 5 ∧ (port t p).linkUp = true ∧ (port t p).lanesLost = false ∧
      (port t p).fifo = (port s p).fifo) ∧
  (∀ (s : State) (p : Nat), p < 8 → (port s p).linkUp = true →
    ∃ t, t = loseLanes p s ∧ Takes (.streamLanesDown p) s t ∧ (port t p).stopNext = true ∧ (port t p).lanesLost = true ∧
      (port t p).linkUp = false ∧ (port t p).aligned = false ∧ (port t p).lnkSt = 2 ∧
      (port t p).cntLost = sat 64 (port s p).cntLost 1 ∧ (port t p).inSt = (port s p).inSt ∧ (port t p).fifo = (port s p).fifo) ∧
  (∀ (s : State) (p : Nat), let x := port s p
    let bad := decide (16 ≤ (x.headers.filter (!·.1)).length) || decide (16 ≤ (x.headers.filter (!·.2)).length)
    (x.linkUp = true → bad = true → judgeLanes p s = loseLanes p s) ∧ (x.linkUp = true → bad = false → x.lnkSt = 5 → judgeLanes p s = s) ∧
    (x.linkUp = false → x.lnkSt = 2 → x.aligned = true → 1024 ≤ x.run → judgeLanes p s = lanesUp p s) ∧
    (x.linkUp = false → (x.lnkSt ≠ 2 ∨ x.aligned = false ∨ x.run < 1024) → judgeLanes p s = s)) ∧
  (∀ (s : State) (p : Nat) (wire : BitVec 128),
    (receives s p = false → Takes (.streamCheckWord p wire) s s ∧ Takes (.streamAlignWord p wire) s s) ∧
    (receives s p = true → (port s p).linkUp = false → Takes (.streamCheckWord p wire) s (judgeLanes p (seen s p wire))) ∧
    ((port s p).linkUp = false → Takes (.streamLanesDown p) s s)) ∧
  (∀ (s : State) (p : Nat), ((port s p).lnkSt ≠ 2 ∨ (port s p).aligned = false) → Takes (.streamLanesUp p) s s)

/-- STM_STOP_N is the condition of R253 whenever no least time of the pin runs, and a change of the pin begins one; the end of that time
lets the pin follow again. A record leaves the FIFO for the combining buffer from its front (R252): an unknown operation or a misaligned
address is discarded with cause FORMAT, and a NOP leaves nothing (R245, R272). A record whose granule has no entry takes a free one, with
its word's pending state, its port and its tick (R247, R248). -/
def Obligations.StopFollowsItsCondition : Prop :=
  (∀ (s : State) (p : Nat), (port s p).stopHold = false →
    (port (updStop p s) p).stop = stopWanted (updStop p s) p ∧
    (port (updStop p s) p).stopHold = ((port (updStop p s) p).stop != (port s p).stop)) ∧
  (∀ (s : State) (p : Nat), (port s p).stopHold = true → (port (updStop p s) p).stop = (port s p).stop) ∧
  (∀ (s : State) (p : Nat), p < 8 → (port s p).stopHold = true →
    ∃ t, t = updStop p (onPort p (fun x => { x with stopHold := false }) s) ∧ Takes (.stmStopNHoldExpiry p) s t ∧
      (TablesWf s → (port t p).stop = stopWanted t p ∧ (port t p).stopHold = ((port t p).stop != (port s p).stop))) ∧
  (∀ (s : State) (p : Nat), (port s p).stopHold = false → Takes (.stmStopNHoldExpiry p) s s) ∧
  (∀ (s : State) (p : Nat), p < 8 → (port s p).fifo ≠ [] → Engages (.combineRecord p) s (updStop p (combineOne p s))) ∧
  (∀ (s : State) (p : Nat), (port s p).fifo = [] → Takes (.combineRecord p) s s) ∧
  (∀ (s : State) (p tick : Nat) (r : BitVec 128) (l : List (BitVec 128 × Nat)), p < 8 → (port s p).fifo = (r, tick) :: l →
    (7 ≤ recOp r ∨ recAddr r % 8 ≠ 0 → ∃ t, Engages (.combineRecord p) s t ∧ (port t p).fifo = l ∧
      (port t p).cntDrop = sat 64 (port s p).cntDrop 1 ∧ t.stm.comb = s.stm.comb) ∧
    (recOp r = 0 → recAddr r % 8 = 0 → TablesWf s → ∃ t, Engages (.combineRecord p) s t ∧ (port t p).fifo = l ∧
      (port t p).cntDrop = (port s p).cntDrop ∧ t.stm.comb = s.stm.comb) ∧
    (1 ≤ recOp r → recOp r < 7 → (recOp r = 6 → recData r ≠ 0) → recAddr r % 8 = 0 → recordCause s (recAddr r) = 0 →
      (s.stm.comb.find? fun c => c.gaddr == recAddr r / 64) = none → combRoom s = true →
      ∃ t c, Engages (.combineRecord p) s t ∧ t.stm.comb = s.stm.comb ++ [c] ∧ c.gaddr = recAddr r / 64 ∧ c.port = p ∧ c.tick = tick ∧
        c.due = false ∧ nth c.words (recAddr r / 8 % 8) = some (recWord (recOp r) (recData r)) ∧ (TablesWf s → (port t p).fifo = l))) ∧
  (∀ (s : State) (p tick : Nat) (r : BitVec 128) (l : List (BitVec 128 × Nat)), (port s p).fifo = (r, tick) :: l →
    let popped := onPort p (fun x => { x with fifo := l }) s
    (7 ≤ recOp r ∨ recAddr r % 8 ≠ 0 → combineOne p s = dropRecord p 1 r popped) ∧
    (recOp r = 0 → recAddr r % 8 = 0 → combineOne p s = popped))

/-- Playback: a course of a RUNNING direction sends its word positions and one CHECK (R263, R305); a read that has all its granules takes
its words' places (R262). At a word position the front word is sent, with the headers of its kind and through the lanes' scramblers (R303,
R304), and the list goes on; without one a not-valid word goes out, and
the list stands (R263). A counter that overflows may send its interrupt after it (R508). A direction that is not RUNNING sends nothing, and
a read of an IDLE one has no place. -/
def Obligations.PlaybackSendsItsWords : Prop :=
  let sent (s : State) (p kind : Nat) (w : BitVec 128) := Out.egress p kind w (egressHeaders kind).1 (egressHeaders kind).2
    (BitVec.ofNat 64 (scrPair (port s p).scrOut w).1.1) (BitVec.ofNat 64 (scrPair (port s p).scrOut w).1.2)
  (∀ (s : State) (p : Nat), p < 8 → (port s p).egSt = 2 → (port s p).egSent ≠ some s.tck.course → s.tck.running = true →
    clocked s (12 + p) = true →
    ∃ t, t = sendCourse p s ∧ Engages (.egressWordPositions p) s t ∧ (port t p).egSent = some s.tck.course ∧ (port t p).outCrc = [] ∧
      ∃ w h0 h1 b0 b1, t.out.head? = some (.egress p 3 w h0 h1 b0 b1)) ∧
  (∀ (s : State) (p : Nat), ((port s p).egSt ≠ 2 ∨ (port s p).egSent = some s.tck.course ∨ s.tck.running = false) →
    Takes (.egressWordPositions p) s s) ∧
  (∀ (s : State) (p req : Nat), p < 8 → (port s p).egSt ≠ 0 → Engages (.playbackReadData p req) s (placeRead p req s)) ∧
  (∀ (s : State) (p req : Nat) (r : EgRead), p < 8 → (port s p).egSt ≠ 0 → ((port s p).inFlight.find? fun x => x.id == req) = some r →
    8 ≤ r.got.length →
    ∃ t, Engages (.playbackReadData p req) s t ∧ (port t p).inFlight = ((port s p).inFlight.filter fun x => x.id != req) ∧
      (port t p).egFifo.length = (port s p).egFifo.length ∧ (∀ k, EgWord.wait req k ∉ (port t p).egFifo) ∧
      ∀ k, EgWord.wait req k ∉ (port t p).standby) ∧
  (∀ (s : State) (p req : Nat), (port s p).egSt = 0 → Takes (.playbackReadData p req) s s) ∧
  (∀ (s : State) (p : Nat) (w : BitVec 128) (l : List EgWord), (port s p).egFifo = .data w :: l →
    (∃ l, (wordPosition p s).out = l ++ sent s p 0 w :: s.out ∧ ∀ o ∈ l, ∃ v, o = .msix v) ∧ (port (wordPosition p s) p).egFifo = l ∧
    (port (wordPosition p s) p).cntWords = sat 64 (port s p).cntWords 1) ∧
  (∀ (s : State) (p : Nat), (port s p).egFifo = [] →
    (∃ l, (wordPosition p s).out = l ++ sent s p 1 0 :: s.out ∧ ∀ o ∈ l, ∃ v, o = .msix v) ∧ (port (wordPosition p s) p).play = (port s p).play ∧
    (port (wordPosition p s) p).cntNv = sat 64 (port s p).cntNv 1)

/-- The host's writes to a stream port. ARM writes STM_EG_CTRL, and takes an IDLE direction to READY with the list that LIST_INIT names
(R261). The flushes empty the ingress FIFO, whose records count as discarded, and skip the egress words that stand (R270, R271). A
list entry takes the half that was written, and is left when it is of the current list of an active direction (R267). Where BAR0 is not decoded nothing comes of
them.
What a flush leaves of words still being read is the model's reading (log 84). -/
def Obligations.StreamWritesAct : Prop :=
  (∀ (s : State) (p : Nat) (v : BitVec 32), p < 8 → HostReaches s (offStream p + 0x100) →
    ∃ t, t = writeStmPort p 0x100 (slotOf (offStream p + 0x100) ((v ||| 2).setWidth 64)) (tlpIn s) ∧ Engages (.arm p v) s t ∧
      (TablesWf s → ((port s p).egSt = 0 → (port t p).egSt = 1 ∧ (port t p).cur = bits v.toNat 2 1) ∧
        ((port s p).egSt ≠ 0 → (port t p).egSt = (port s p).egSt ∧ (port t p).cur = (port s p).cur) ∧
        (port t p).wpt = clamp 1 (wptMax s) (bits v.toNat 16 12))) ∧
  (∀ (s : State) (p : Nat), (port s p).egSt = 0 →
    armPort p s = prefetchPort p (onPort p (fun x => { x with
      egSt := 1, cur := x.listInit, egFifo := [], standby := [], standbyFull := false, pos := {}, sbPos := {}, play := normPos s p x.listInit 33 {} }) s)) ∧
  (∀ (s : State) (p : Nat), (port s p).egSt ≠ 0 → armPort p s = s) ∧
  (∀ (s : State) (p : Nat), p < 8 → HostReaches s (offStream p) →
    ∃ t, t = flushIn p (tlpIn s) ∧ Takes (.ingressFlush p) s t ∧ (port t p).fifo = [] ∧ (port t p).inSt = (port s p).inSt ∧
    (port t p).cntDrop = sat 64 (port s p).cntDrop (port s p).fifo.length ∧ t.stm.comb = s.stm.comb) ∧
  (∀ (s : State) (p : Nat), p < 8 → HostReaches s (offStream p + 0x100) →
    ∃ t, t = flushEg p (tlpIn s) ∧ Engages (.egressFlush p) s t ∧ (port t p).egSt = (port s p).egSt ∧
      ((port s p).egSt ≠ 0 → ∀ w, w ∈ (port t p).egFifo → ∃ i k, w = .wait i k)) ∧
  (∀ (s : State) (p list entry : Nat) (v : BitVec 64), p < 8 → list < 2 → entry < 16 →
    let k := list * 16 + entry
    let old := tget {} (port s p).lists k
    (HostReaches s (offStream p + (0x200 + 0x100 * list + 0x10 * entry)) →
      Engages (.playlistEntryWrite p list entry false v) s
        (writeEntry p k { old with addr := bits v.toNat 0 42, rep := bits v.toNat 42 16 } (tlpIn s))) ∧
    (HostReaches s (offStream p + (0x200 + 0x100 * list + 0x10 * entry + 8)) →
      Engages (.playlistEntryWrite p list entry true v) s
        (writeEntry p k { old with len := bits v.toNat 0 32, last := bitOf v.toNat 32, wrap := bitOf v.toNat 33 } (tlpIn s)))) ∧
  (∀ (s : State) (p list entry : Nat) (v : BitVec 32) (w : BitVec 64) (high : Bool), p < 8 → list < 2 → entry < 16 → hostUp s = false →
    Engages (.arm p v) s s ∧ Takes (.ingressFlush p) s s ∧ Engages (.egressFlush p) s s ∧ Engages (.playlistEntryWrite p list entry high w) s s) ∧
  (∀ (s : State) (p k : Nat) (e : PlEnt), ((port s p).egSt = 0 ∨ k / 16 ≠ (port s p).cur) → e ≠ {} →
    tget {} (port (writeEntry p k e s) p).lists k = e ∧ (port (writeEntry p k e s) p).egSt = (port s p).egSt) ∧
  (∀ (s : State) (p k : Nat) (e : PlEnt), (port s p).egSt ≠ 0 → k / 16 = (port s p).cur → writeEntry p k e s = s)

/-! ## Links and groups -/

/-- Flits: what comes off the lanes of a link that carries flits is descrambled (R282), corrected and checked (R281), counted, and its sequence,
ACK and credits are
read; the first bad sequenced one of a run is answered with a NAK, which is repeated while the link waits (R281, R289). One with another FSEQ
than the next
changes no sequence, an idle one only acknowledges, the next in sequence moves the sequence on before its messages act, and a received
message of a reserved type is recorded and ignored (R296). A flit that is sent takes the next FSEQ and is held for replay (R289). -/
def Obligations.FlitsAreTakenInSequence : Prop :=
  (∀ (s : State) (p : Port) (wire : BitVec 2048), portHere p = true → Engages (.flitReceived p wire) s (receiveFlit (portIdx p) wire s)) ∧
  (∀ (s : State) (i : Nat) (wire : BitVec 2048),
    (link s i).closing = true ∨ (link s i).st = 5 ∨ ((link s i).st = 4 ∧ (link s i).agree = 8) →
    let d := scrFlit (link s i).width (link s i).scrRx wire
    let c := checkFlit d.1
    receiveFlit i wire s = takeFlit i c.1 c.2.1 c.2.2 (onLink i (fun k => { k with scrRx := d.2 }) s)) ∧
  (∀ (s : State) (i : Nat) (f : BitVec 2048) (fixed : Bool), (link s i).closing = false → (link s i).st = 5 →
    let v := f.toNat
    (bits v 126 2 ≠ 0 → ∃ t, t = takeFlit i f fixed false s ∧ (link t i).rxSeq = (link s i).rxSeq ∧ (link t i).txSeq = (link s i).txSeq ∧
      (link t i).waiting = true ∧ (link t i).cntBad = sat 64 (link s i).cntBad 1 ∧ t.dir = s.dir ∧
      ((link s i).waiting = false → ∃ w, t.out.head? = some (.flit (portOf i) w))) ∧
    (bits v 126 2 ≠ 0 → bits v 114 12 ≠ (link s i).rxSeq → ∃ t, t = takeFlit i f fixed true s ∧
      (link t i).rxSeq = (link s i).rxSeq ∧ t.dir = s.dir ∧ t.cch = s.cch) ∧
    (bits v 126 2 = 0 → bitOf v 101 = false → ∃ t, t = takeFlit i f fixed true s ∧
      (link t i).rxSeq = (link s i).rxSeq ∧ (link t i).nakRun = (link s i).nakRun ∧ t.dir = s.dir ∧
      (seqAfter (bits v 102 12) (link s i).peerAck < 2048 → (link t i).peerAck = bits v 102 12)) ∧
    (bits v 126 2 = 1 → bits v 114 12 = (link s i).rxSeq → bitOf v 101 = false → (i < 8 ∨ (link s i).keyed = false) →
      ∃ u l t, t = releaseHeld i (takeMsgs i l u) ∧ (takeFlit i f fixed true s = t ∨ takeFlit i f fixed true s = sendIdle i false t) ∧
        (link u i).rxSeq = ((link s i).rxSeq + 1) % 4096 ∧ (link u i).lastAck = (link s i).rxSeq ∧ (link u i).waiting = false ∧
        u.dir = s.dir)) ∧
  (∀ (s : State) (p : Port) (wire : BitVec 2048), (link s (portIdx p)).closing = false →
    (link s (portIdx p)).st ≠ 5 → ((link s (portIdx p)).st ≠ 4 ∨ (link s (portIdx p)).agree ≠ 8) → portHere p = true →
    Engages (.flitReceived p wire) s s) ∧
  (∀ (s : State) (i ty start cr : Nat) (slots : List (BitVec 128)) (msg : Option Out),
    let t := sendRaw i ty start cr slots msg s
    (link t i).txSeq = ((link s i).txSeq + 1) % 4096 ∧
    ∃ x, (link t i).replay = (link s i).replay ++ [x] ∧ x.fseq = (link s i).txSeq ∧ x.msg = msg) ∧
  (∀ (s : State) (p : Port), linkIn s p 5 = true → (link s (portIdx p)).waiting = true →
    ∃ t, t = sendIdle (portIdx p) true s ∧ Takes (.nakRepeat p) s t ∧ (∃ w, t.out = .flit (portOf (portIdx p)) w :: s.out) ∧ t.dir = s.dir ∧
      (link t (portIdx p)).txSeq = (link s (portIdx p)).txSeq ∧ (link t (portIdx p)).waiting = true) ∧
  (∀ (s : State) (p : Port), (linkIn s p 5 = false ∨ (link s (portIdx p)).waiting = false) → Takes (.nakRepeat p) s s) ∧
  (∀ (s : State) (p : Port) (lt : Byte), portHere p = true →
    ((link s (portIdx p)).st = 5 ∨ ((link s (portIdx p)).st = 4 ∧ (link s (portIdx p)).agree = 8)) → knownLtype p lt.toNat = false →
    ∃ t, t = event 0x0504 (0x40 + portIdx p) (eventPort (portIdx p)) s ∧ Takes (.reservedLtype p lt) s t ∧ t.links = s.links ∧
      t.dir = s.dir) ∧
  (∀ (s : State) (p : Port) (lt : Byte), knownLtype p lt.toNat = true → Takes (.reservedLtype p lt) s s)

/-- Training and its times (R292 to R294): what a training state's timeout, a detected receiver, the retry of DETECT, the failure to
train and the end of a reset stretch do to a link. In DETECT the timeout marks a failure, from POLLING and EQUALIZE the link returns to
DETECT, and from EQUALIZE it tries the lower rate next; a Halyard link that does not leave RECOVERY in time, or CONFIG, is back in DETECT.
LINK_TRAIN_FAIL is that of a port that has failed at its smallest width at half rate (R294); in which states it acts is the model's reading
(logs 100 and 170). -/
def Obligations.TrainingHasItsTimes : Prop :=
  (∀ (s : State) (p : Port), portHere p = true → Engages (.linkStateTimeout p) s (stateTimeout (portIdx p) s)) ∧
  (∀ (s : State) (p : Port), portHere p = true →
    let i := portIdx p
    ((link s i).st = 1 → ∃ t, Engages (.linkStateTimeout p) s t ∧ (link t i).st = 1 ∧ (link t i).failed = true) ∧
    ((link s i).st = 2 → ∃ t, Engages (.linkStateTimeout p) s t ∧ (link t i).st = 1 ∧ (link t i).tryHalf = (link s i).tryHalf) ∧
    ((link s i).st = 3 → ∃ t, Engages (.linkStateTimeout p) s t ∧ (link t i).st = 1 ∧ (link t i).tryHalf = true) ∧
    (i < 8 → (link s i).st = 4 ∨ (link s i).st = 6 → ∃ t, Engages (.linkStateTimeout p) s t ∧ (link t i).st = 1) ∧
    ((link s i).st = 5 ∨ (link s i).st = 0 → Engages (.linkStateTimeout p) s s)) ∧
  (∀ (s : State) (i : Nat),
    ((link s i).st = 1 → (link (stateTimeout i s) i).failed = true ∧ (link (stateTimeout i s) i).st = 1) ∧
    ((link s i).st = 2 → (link (stateTimeout i s) i).st = 1 ∧ (link (stateTimeout i s) i).tryHalf = (link s i).tryHalf) ∧
    ((link s i).st = 3 → (link (stateTimeout i s) i).st = 1 ∧ (link (stateTimeout i s) i).tryHalf = true) ∧
    ((link s i).st = 5 ∨ (link s i).st = 0 → stateTimeout i s = s)) ∧
  (∀ (s : State) (p : Port), linkIn s p 1 = true → (link s (portIdx p)).failed = true →
    ∃ t, t = onLink (portIdx p) (fun k => { k with failed := false }) s ∧ Takes (.detectRetry p) s t ∧
      (link t (portIdx p)).failed = false ∧ (link t (portIdx p)).st = 1) ∧
  (∀ (s : State) (p : Port), linkIn s p 1 = true → (link s (portIdx p)).failed = false →
    ∃ t, t = startPolling (portIdx p) s ∧ Takes (.receiverDetected p) s t ∧
      (link t (portIdx p)).st = 2 ∧ (link t (portIdx p)).lock = 0) ∧
  (∀ (s : State) (p : Port), linkIn s p 1 = false → Takes (.detectRetry p) s s ∧ Takes (.receiverDetected p) s s) ∧
  (∀ (s : State) (p : Port), portHere p = true → 1 ≤ (link s (portIdx p)).st → (link s (portIdx p)).st ≤ 4 → (link s (portIdx p)).cannot = true →
    ∃ t, t = event 0x0503 (0x40 + portIdx p) (eventPort (portIdx p)) s ∧ Takes (.linkTrainFail p) s t ∧ t.links = s.links) ∧
  (∀ (s : State) (p : Port), ((link s (portIdx p)).st = 0 ∨ 5 ≤ (link s (portIdx p)).st ∨ (link s (portIdx p)).cannot = false) →
    Takes (.linkTrainFail p) s s) ∧
  (∀ (s : State) (p : Nat), p < 8 → (link s p).stretch = true → s.glb.memReady = true → s.plinth.st = 2 → s.pwr.drain = 0 →
    ∃ t, t = onLink p (fun k => { k with stretch := false }) s ∧
      Engages (.agentResetStretchEnd p) s (startDetect p { t with plinth := { t.plinth with agtRst := clr8 t.plinth.agtRst p } })) ∧
  (∀ (s : State) (p : Nat), p < 8 → (link s p).stretch = true → s.glb.memReady = true → s.plinth.st = 2 → s.pwr.drain = 0 →
    ∃ t, Engages (.agentResetStretchEnd p) s t ∧ t.plinth.agtRst.getLsbD p = false ∧ (TablesWf s → (link t p).stretch = false ∧
      ((link s p).enable = true → (link s p).dead = false → (link s p).st = 0 → (link s p).closing = false → clocked s p = true →
        (link t p).st = 1))) ∧
  (∀ (s : State) (p : Nat), p < 8 → (link s p).stretch = false → Engages (.agentResetStretchEnd p) s s)

/-- What arrives while a link trains or is in operation: training sets, CREDIT_INIT, the three messages of the key exchange, and
LINK_DOWN (R287, R293, R298, R301). Lock on every lane of the agreed width ends POLLING; the credits complete the training of a Halyard
link; a Coping link first exchanges keys, and a failure of its checks disables it until module reset (R302). LINK_DOWN takes an operating
Halyard link back to DETECT. -/
def Obligations.LinksCompleteTheirTraining : Prop :=
  (∀ (s : State) (p : Port) (v : BitVec 256) (low : Bool), portHere p = true → Engages (.trainingSet p v low) s (takeSet (portIdx p) v low s)) ∧
  (∀ (s : State) (p : Port) (v : BitVec 256) (low : Bool) (x : TrainSet), portHere p = true → readSet v = some x → x.lane < lanesOf (portIdx p) →
    (link s (portIdx p)).st = 2 → 1 ≤ x.state → x.state ≤ 3 →
    let i := portIdx p
    let lock := (link s i).lock ||| (1 <<< x.lane)
    let w := min (lanesTried i (link s i)) (widthOf i x.width)
    (lanesDone lock w = true → ∃ t, Engages (.trainingSet p v low) s t ∧ (link t i).st = 3 ∧ (link t i).width = w ∧ (link t i).lock = 0) ∧
    (lanesDone lock w = false → ∃ t, Engages (.trainingSet p v low) s t ∧ (link t i).st = 2 ∧ (link t i).lock = lock)) ∧
  (∀ (s : State) (p : Port) (q sc w pc d : Nat), portHere p = true →
    Engages (.creditInit p q sc w pc d) s (takeCredits (portIdx p) q sc w pc d s)) ∧
  (∀ (s : State) (p q sc w pc d : Nat), p < 8 → (link s p).st = 4 → (link s p).agree = 8 → (link s p).credInit = false →
    (16 ≤ sc → ∃ t, Engages (.creditInit (.hal p) q sc w pc d) s t ∧ (link t p).st = 5 ∧ (link t p).credInit = true) ∧
    (sc < 16 → ∃ t, Engages (.creditInit (.hal p) q sc w pc d) s t ∧ (link t p).st = 1)) ∧
  (∀ (s : State) (l q sc w pc d : Nat), l < 4 → (link s (8 + l)).st = 4 → (link s (8 + l)).agree = 8 → (link s (8 + l)).credInit = false →
    (link s (8 + l)).epoch + 1 < 0xFFFF → ∃ t, Engages (.creditInit (.cop l) q sc w pc d) s t ∧ (link t (8 + l)).st = 4 ∧
      (link t (8 + l)).credInit = true ∧ (link t (8 + l)).epoch = (link s (8 + l)).epoch + 1) ∧
  (∀ (s : State) (p : Port) (reason : Nat), portHere p = true → Engages (.linkDown p reason) s (takeLinkDown (portIdx p) reason s)) ∧
  (∀ (s : State) (p reason : Nat), p < 8 → s.grp.id < 8 → inOperation (link s p) = true →
    ∃ t, Engages (.linkDown (.hal p) reason) s t ∧ (link t p).st = 1 ∧ t.dir.lost.getLsbD (s.grp.id * 8 + p) = true) ∧
  (∀ (s : State) (l : Nat), l < 4 →
    (∀ o, Engages (.keyOffer l o) s (takeOffer l o s)) ∧ (∀ w g, Engages (.keyWrap l w g) s (takeWrap l w g s)) ∧
    (∀ e, Engages (.keyDone l e) s (takeDone l e s))) ∧
  (∀ (s : State) (l : Nat) (o : KeyOffer), l < 4 → (link s (8 + l)).st = 4 → (link s (8 + l)).credInit = true → (link s (8 + l)).keyStage = 0 →
    (keyHash o.idKey ∈ s.glb.groupKeys → peerOf s.grp.id s.grp.size l = some o.grp →
      ∃ t, Engages (.keyOffer l o) s t ∧ (link t (8 + l)).keyStage = 1 ∧ (link t (8 + l)).peerOffer = some o ∧ (link t (8 + l)).st = 4) ∧
    (keyHash o.idKey ∉ s.glb.groupKeys ∨ peerOf s.grp.id s.grp.size l ≠ some o.grp →
      ∃ t, Engages (.keyOffer l o) s t ∧ (link t (8 + l)).st = 0 ∧ (link t (8 + l)).dead = true)) ∧
  (∀ (s : State) (l w g : Nat) (o : KeyOffer), l < 4 → (link s (8 + l)).st = 4 → (link s (8 + l)).keyStage = 1 →
    (link s (8 + l)).peerOffer = some o →
    let own := ownOffer s (link s (8 + l))
    ∃ t, Engages (.keyWrap l w g) s t ∧
      match Config.keyUnwrap (wrapKeyOf own o (link s (8 + l)).offPriv) w, Config.ecdsaOk o.idKey (offersHash own o) g with
      | some key, true => (link t (8 + l)).keyStage = 2 ∧ (link t (8 + l)).peerKey = key ∧ tget none t.grp.proven o.grp = some (keyHash o.idKey)
      | _, _ => (link t (8 + l)).st = 0 ∧ (link t (8 + l)).dead = true) ∧
  (∀ (s : State) (l epoch : Nat), l < 4 → (link s (8 + l)).st = 4 → (link s (8 + l)).keyStage = 2 →
    ((link s (8 + l)).peerOffer.map (·.epoch)) = some epoch →
    ∃ t, Engages (.keyDone l epoch) s t ∧ (link t (8 + l)).st = 5 ∧ (link t (8 + l)).keyed = true ∧ (link t (8 + l)).rxCount = 0) ∧
  (∀ (s : State) (i : Nat) (v : BitVec 256) (low : Bool), readSet v = none →
    ((link s i).st ≠ 4 ∨ 8 ≤ (link s i).agree → takeSet i v low s = s) ∧
    ((link s i).st = 4 → (link s i).agree < 8 → takeSet i v low s = onLink i (fun k => { k with agree := 0 }) s)) ∧
  (∀ (s : State) (i : Nat) (q sc w pc d : Nat), i < 8 → (link s i).st = 4 → (link s i).agree = 8 → (link s i).credInit = false → 16 ≤ sc →
    takeCredits i q sc w pc d s = activate i (onLink i (fun k => { k with
      credInit := true, crQ := q % 4096, crS := sc % 4096, crW := w % 4096 }) s)) ∧
  (∀ (s : State) (l : Nat) (o : KeyOffer), (link s (8 + l)).st = 4 → (link s (8 + l)).credInit = true → (link s (8 + l)).keyStage = 0 →
    keyHash o.idKey ∉ s.glb.groupKeys → takeOffer l o s = authFail (8 + l) s) ∧
  (∀ (s : State) (l epoch : Nat), (link s (8 + l)).st = 4 → (link s (8 + l)).keyStage = 2 →
    ((link s (8 + l)).peerOffer.map (·.epoch)) = some epoch →
    takeDone l epoch s = activate (8 + l) (onLink (8 + l) (fun k => { k with keyed := true, rxCount := 0 }) s)) ∧
  (∀ (s : State) (i : Nat), inOperation (link s i) = false → takeLinkDown i 0 s = s)

/-- The host's writes to a port: ENABLE = 1 starts DETECT when the port may train, ENABLE = 0 takes the port out of operation, AGENT_RESET
asserts AGT_RST_N of its port with its stretch, and RETRAIN takes an ACTIVE link to RECOVERY (R292, R298, R307, R449). The third
RECOVERY within one second takes the link out of operation (R292).
LINK_DOWN of an AGENT_RESET carries reason 0 (log 103). -/
def Obligations.PortWritesAct : Prop :=
  (∀ (s : State) (p : Port) (on : Bool), portHere p = true → HostReaches s (offLink p) →
    Engages (.portEnable p on) s (enableLink (portIdx p) on (tlpIn s))) ∧
  (∀ (s : State) (p : Port), portHere p = true → HostReaches s (offLink p) →
    let i := portIdx p
    ((link s i).enable = false → ∃ t, Engages (.portEnable p true) s t ∧ (link t i).enable = true ∧
      ((link s i).dead = false → (link s i).st = 0 → (link s i).closing = false → (i < 8 → s.plinth.agtRst.getLsbD i = false) →
        clocked s i = true → s.glb.memReady = true → (link t i).st = 1)) ∧
    (TablesWf s → i < 8 → (link s i).enable = true → (link s i).st = 5 → ∃ t, Engages (.portEnable p false) s t ∧ (link t i).st = 0 ∧
      (link t i).enable = false ∧
      ((link s i).replay.length < 512 → s.plinth.agtRst.getLsbD i = false → (link t i).closing = true ∧ (link t i).width = (link s i).width))) ∧
  (∀ (s : State) (p : Nat), p < 8 → HostReaches s (offLink (.hal p)) →
    ∃ t, t = resetAgent p (tlpIn s) ∧ Engages (.agentReset p) s t ∧ t.plinth.agtRst.getLsbD p = true ∧ (link t p).stretch = true ∧
      (TablesWf s → inOperation (link t p) = false)) ∧
  (∀ (s : State) (p : Port), portHere p = true → HostReaches s (offLink p) → Engages (.retrain p) s (enterRecovery (portIdx p) (tlpIn s))) ∧
  (∀ (s : State) (p : Port), portHere p = true → HostReaches s (offLink p) → (link s (portIdx p)).st = 5 →
    ((link s (portIdx p)).recovs.filter fun t => decide (s.now < t + sec)).length < 2 →
    ∃ t, Engages (.retrain p) s t ∧ (link t (portIdx p)).st = 6 ∧
      (link t (portIdx p)).cntRecov = sat 64 (link s (portIdx p)).cntRecov 1) ∧
  (∀ (s : State) (p : Port) (n : Nat) (on : Bool), hostUp s = false → portHere p = true → n < 8 →
    Engages (.portEnable p on) s s ∧ Engages (.agentReset n) s s ∧ Engages (.retrain p) s s) ∧
  (∀ (s : State) (i : Nat), (link s i).enable = true → enableLink i true s = s) ∧
  (∀ (s : State) (i : Nat), (link s i).st ≠ 5 → enterRecovery i s = s) ∧
  (∀ (s : State) (i : Nat), (link s i).st = 5 → ((link s i).recovs.filter fun t => decide (s.now < t + sec)).length < 2 →
    link (enterRecovery i s) i = { link s i with
      cntRecov := sat 64 (link s i).cntRecov 1, recovs := s.now :: (link s i).recovs.filter fun t => decide (s.now < t + sec)
      st := 6, lock := 0, nakRun := 0 }) ∧
  (∀ (s : State) (p : Nat), TablesWf s → p < 8 → (resetAgent p s).plinth.agtRst.getLsbD p = true ∧ (link (resetAgent p s) p).stretch = true ∧
    inOperation (link (resetAgent p s) p) = false)

/-- A group message from another member on an ACTIVE Coping link acts by its type (R311, R315 to R320, R63). A GROUP_HELLO of another
size, interleave or part is a mismatch, and one that agrees makes its member present; a TICK_ALIGN with this member's own number only
goes on, and another sets the number (R318); a HOIST_ARM that passes its checks is held, and one that does not leaves the hoists; a reply
other than SUCCESS ends its group hoist; a cancel frees its hoist before the freeze; LINK_RESUME ends the wait of its port's messages; and
MEMBER_STATE and READMIT take members out of the group and back. -/
def Obligations.GroupMessagesAct : Prop :=
  (∀ (s : State) (l src : Nat), linkIn s (.cop l) 5 = true → src < s.grp.size → src ≠ s.grp.id →
    (∀ size il ts part tck, Engages (.groupHello l src size il ts part tck) s (takeHello src size il part s)) ∧
    (∀ t, Engages (.tickAlign l src t) s (takeAlign l src (t % 2 ^ 64) s)) ∧
    (∀ tag e, Engages (.hoistArm l src tag e) s (takeHoistArm src tag e.toNat s)) ∧
    (∀ tag st, Engages (.hoistReply l src tag st) s (takeHoistReply src tag st s)) ∧
    (∀ id, Engages (.groupHoistCancel l src id) s (takeHoistCancel id s)) ∧
    (∀ port fseq, port < 4 → Engages (.linkResume l src port fseq) s (linkResumed (8 + port) fseq s)) ∧
    (∀ present lost waiting, Engages (.memberState l src present lost waiting) s (takeMemberState present lost waiting s)) ∧
    (∀ mask, Engages (.readmit l src mask) s (takeReadmit mask s))) ∧
  (∀ (s : State) (l src : Nat), linkIn s (.cop l) 5 = true → src < s.grp.size → src ≠ s.grp.id → src < 8 →
    (∀ ts part tck, part = (if isBig s then 0x7240 else 0x7212) → s.grp.gone.getLsbD src = false →
      ∃ t, Engages (.groupHello l src s.grp.size s.grp.interleave ts part tck) s t ∧ t.grp.present.getLsbD src = true) ∧
    (∀ n, ∃ t, Engages (.tickAlign l src n) s t ∧ t.tck.count = n % 2 ^ 64) ∧
    (∀ (tag : Nat) (e : BitVec 256) (i : Nat), checkHoist s e.toNat (hoistOf e.toNat none) = 0 →
      ((upto 64).find? fun j => (tget none s.tck.hoists j).isNone) = some i →
      ∃ t, Engages (.hoistArm l src tag e) s t ∧ tget none t.tck.hoists i = some { hoistOf e.toNat none with queue := none }) ∧
    (∀ (tag : Nat) (e : BitVec 256), checkHoist s e.toNat (hoistOf e.toNat none) ≠ 0 →
      ∃ t, Engages (.hoistArm l src tag e) s t ∧ t.tck.hoists = s.tck.hoists) ∧
    (∀ (tag st : Nat) (g : GroupHoist), (s.tck.groupHoists.find? fun x => x.tag == tag) = some g → st ≠ 0 →
      ∃ t, Engages (.hoistReply l src tag st) s t ∧ ∀ x, x ∈ t.tck.groupHoists → x.tag ≠ tag) ∧
    (∀ (tag : Nat) (g : GroupHoist), (s.tck.groupHoists.find? fun x => x.tag == tag) = some g → s.tck.course ≤ g.accepted + 2 →
      ∃ t, Engages (.hoistReply l src tag 0) s t ∧ ∀ x, x ∈ t.tck.groupHoists → x.tag = tag → x.replied.getLsbD src = true) ∧
    (∀ (id i : Nat) (h : Hoist), findHoist s id = some (i, h) → s.tck.count + 1 < h.launch →
      ∃ t, Engages (.groupHoistCancel l src id) s t ∧ t.tck.hoists = tset none s.tck.hoists i none) ∧
    (∀ port fseq, port < 4 →
      ((link s (8 + port)).resume = true → TablesWf s →
        ∃ t, Engages (.linkResume l src port fseq) s t ∧ (link t (8 + port)).resume = false) ∧
      ((link s (8 + port)).resume = false → inOperation (link s (8 + port)) = true →
        ∃ t, Engages (.linkResume l src port fseq) s t ∧ (link t (8 + port)).resumeAt = some fseq)) ∧
    (∀ (present lost waiting : BitVec 8) (m : Nat), m < 8 → m < s.grp.size → m ≠ s.grp.id → lost.getLsbD m = true →
      s.grp.gone.getLsbD m = false →
      ∃ t, Engages (.memberState l src present lost waiting) s t ∧ t.grp.gone.getLsbD m = true ∧ t.grp.present.getLsbD m = false) ∧
    (∀ (mask : BitVec 8) (m : Nat), m < 8 → mask.getLsbD m = true → s.grp.waiting.getLsbD m = true →
      ∃ t, Engages (.readmit l src mask) s t ∧ t.grp.waiting.getLsbD m = false ∧ t.grp.gone.getLsbD m = false ∧
        t.grp.present.getLsbD m = true)) ∧
  (∀ (s : State) (l src size il ts part tck : Nat), linkIn s (.cop l) 5 = true →
    Engages (.groupHello l src size il ts part tck) s (takeHello src size il part s)) ∧
  (∀ (s : State) (src size il part : Nat), src ≠ s.grp.id →
    (size ≠ s.grp.size ∨ il ≠ s.grp.interleave ∨ part ≠ (if isBig s then 0x7240 else 0x7212)) →
    takeHello src size il part s = event 0x0701 13 src s) ∧
  (∀ (s : State) (l src : Nat), takeAlign l src s.tck.count s = sendAlign l src s.tck.count s) ∧
  (∀ (s : State) (l src t : Nat), (takeAlign l src t s).tck.count = t)

/-- The times and writes of a group: at the end of the wait for formation the absent members are lost (R315, R316); the leader sends
TICK_ALIGN in courses whose number is a multiple of 4,096 (R318); a group hoist that its replies do not complete ends with GROUP_REJECT
after 2 ticks (R63); and a write of GRP_READMIT asks for its members: those that wait are readmitted, and the bit of one that is lost and
does not wait yet stands (R317). -/
def Obligations.TheGroupKeepsItsTimes : Prop :=
  (∀ s : State, s.glb.memReady = true → Engages .formWait s (formEnds s)) ∧
  (∀ s : State, s.glb.memReady = true → s.grp.formed = false → s.grp.size ≠ 1 →
    ∃ t, Engages .formWait s t ∧ t.grp.formed = true ∧
      ∀ m, m < 8 → m < s.grp.size → m ≠ s.grp.id → s.grp.present.getLsbD m = false → t.grp.gone.getLsbD m = true) ∧
  (∀ s : State, s.glb.memReady = false → Takes .formWait s s) ∧
  (∀ s : State, (s.grp.formed = true ∨ s.grp.size = 1) → formEnds s = s) ∧
  (∀ s : State, s.grp.formed = false → s.grp.size ≠ 1 → (formEnds s).grp.formed = true) ∧
  (∀ s : State, s.tck.running = true → s.tck.count % 4096 = 0 → 1 < s.grp.size → s.grp.leader = s.grp.id →
    ∃ t, t = sendAlign 99 s.grp.id s.tck.count s ∧ Takes .tickAlignSend s t ∧ t.tck = s.tck) ∧
  (∀ s : State, (s.tck.running = false ∨ s.tck.count % 4096 ≠ 0 ∨ s.grp.size ≤ 1 ∨ s.grp.leader ≠ s.grp.id) → Takes .tickAlignSend s s) ∧
  (∀ (s : State) (tag : Nat) (g : GroupHoist), (s.tck.groupHoists.find? fun g => g.tag == tag) = some g →
    (g.accepted + 2 ≤ s.tck.course → ∃ t, t = endGroupHoist g 0x0017 s ∧ Engages (.groupHoistTimeout tag) s t ∧
      (∀ x, x ∈ t.tck.groupHoists → x.tag ≠ tag) ∧ t.tck.groupHoists = (s.tck.groupHoists.filter fun x => x.tag != tag)) ∧
    (s.tck.course < g.accepted + 2 → Takes (.groupHoistTimeout tag) s s)) ∧
  (∀ (s : State) (mask : BitVec 8), (mask = 0 → Takes (.readmitWrite mask) s s) ∧
    (mask ≠ 0 → hostUp s = false → Engages (.readmitWrite mask) s s)) ∧
  (∀ (s : State) (mask : BitVec 8), mask ≠ 0 → HostReaches s 0x0800018 →
    ∃ t, t = askReadmit mask (tlpIn s) ∧ Engages (.readmitWrite mask) s t ∧
      ∀ m, m < 8 → mask.getLsbD m = true →
        (s.grp.waiting.getLsbD m = true → t.grp.waiting.getLsbD m = false ∧ t.grp.present.getLsbD m = true) ∧
        (s.grp.waiting.getLsbD m = false → t.grp.readmit.getLsbD m = s.grp.gone.getLsbD m))


/-! ## The host interface -/

/-- A BAR0 write that is aligned and of 4 or 8 bytes reaches its register, and any other is discarded with an Unsupported Request; a bad
read completes with one (R327). GLB_SCRATCH, for one, holds what was written (R531). A write that an earlier device access of the host
keeps back waits at the host's port, and so does every other access of it to a register (R217). Configuration requests are answered with
Request Retry Status until the space is ready (R324). Then a write sets the payload and request sizes within their ranges and the power state,
or resets the function, and a read returns what R322 gives, zero for a capability that it does not list, and free values where it gives
nothing (log 52). AtomicOps to BAR0 complete with Unsupported Request, and those to
BAR4 are refused with NOT_READY before memory ready (R328, R329). Where BAR0 is not decoded no access has an effect (R323). -/
def Obligations.Bar0AcceptsAlignedAccesses : Prop :=
  (∀ (s : State) (off size : Nat) (v : BitVec 64), hostUp s = true → barWaits s s.dir.nextId = false → (size = 4 ∨ size = 8) → off % size = 0 →
    ∃ t, t = regWrite 1 off size v (tlpIn s) ∧ Engages (.registerWrite off size v) s t ∧
      (off = 0x0000058 → size = 8 → t.glb.scratch = v ∧ t.dir = s.dir ∧ t.med = s.med ∧ t.cch = s.cch)) ∧
  (∀ (s : State) (off size : Nat) (v : BitVec 64), hostUp s = true → barWaits s s.dir.nextId = true → (size = 4 ∨ size = 8) → off % size = 0 →
    ∃ t, t = holdBar (.registerWrite off size v) (tlpIn s) ∧ Engages (.registerWrite off size v) s t ∧
      Joins .host (.registerWrite off size v) s t) ∧
  (∀ (s : State) (off size : Nat) (v : BitVec 64), hostUp s = true → ((size ≠ 4 ∧ size ≠ 8) ∨ off % size ≠ 0) →
    Takes (.registerWrite off size v) s (emit (.aer 0) (tlpIn s))) ∧
  (∀ s : State, hostUp s = true →
    Takes (.bar0BadAccess true) s (emit (.aer 0) (tlpIn s)) ∧
    Takes (.bar0BadAccess false) s (emit (.cpl 0 .ur false []) (emit (.aer 0) (tlpIn s)))) ∧
  (∀ (s : State) (write : Bool) (r : CfgReg) (v : BitVec 32) (tag : Nat),
    (s.hst.cfgReady = false → Takes (.configurationRequest write r v tag) s { s with out := .cpl tag .rrs false [] :: s.out }) ∧
    (s.hst.cfgReady = true →
      Engages (.configurationRequest true r v tag) s (emit (.cpl tag .sc false []) (cfgWrite r v (tlpIn s))) ∧
      (cfgListed r = false → Takes (.configurationRequest false r v tag) s (emit (.cpl tag .sc false [0, 0, 0, 0]) (tlpIn s))) ∧
      (cfgListed r = true → ∃ n t x, free (tlpIn s) = (n, t) ∧
        Takes (.configurationRequest false r v tag) s (emit (.cpl tag .sc false (leBytes 4 x)) t) ∧
        ∀ b, b < 32 → x.testBit b = if (cfgBits s r).1.testBit b then (cfgBits s r).2.testBit b else n.testBit b))) ∧
  (∀ (s : State) (v : BitVec 32), let t := cfgWrite (.cap 0x10 2) v s
    (v.getLsbD 15 = false → t.hst.mps = (if v.toNat / 32 % 8 ≤ 2 then v.toNat / 32 % 8 else s.hst.mps) ∧
      t.hst.mrrs = (if v.toNat / 4096 % 8 ≤ 5 then v.toNat / 4096 % 8 else s.hst.mrrs)) ∧
    (v.toNat % 4 = 3 → (cfgWrite (.cap 0x01 1) v s).hst.d3 = true) ∧ (v.toNat % 4 = 0 → (cfgWrite (.cap 0x01 1) v s).hst.d3 = false)) ∧
  (∀ (s : State) (off tag : Nat), hostUp s = true →
    Takes (.atomicUnsupported false off tag) s (emit (.cpl tag .ur false []) (emit (.aer 0) (tlpIn s))) ∧
    (s.hst.ready = true → Takes (.atomicUnsupported true off tag) s (emit (.cpl tag .ur false []) (emit (.aer 0) (tlpIn s)))) ∧
    (s.hst.ready = false → Takes (.atomicUnsupported true off tag) s (emit (.cpl tag .ur false []) (hostErr 2 3 off true (tlpIn s))))) ∧
  (∀ (s : State) (c : Instr), hostUp s = true → barWaits s s.dir.nextId = true →
    c ∈ [.expertClr, .freeze, .freezeRelease, .pmcClear, .glbResetKey, .cphLockRead .host] ∨
      (∃ u, isCounterUnit u = true ∧ c = .unitClear u) ∨ (∃ v, c = .clkGateWrite v) ∨ (∃ m, m ≠ 0 ∧ c = .readmitWrite m) ∨
      (∃ slot, c = .eraseSlot slot ∨ ∃ offset, c = .program slot offset) ∨
      (∃ q, q < 64 ∧ (c = .queueEnable q ∨ c = .queueDisable q ∨ ∃ v, c = .sqTailDoorbell q v ∨ c = .cqHeadDoorbell q v)) ∨
      (∃ j, j < 16 ∧ (c = .resume j ∨ c = .discard j)) ∨
      (∃ p, p < 8 ∧ (c = .ingressFlush p ∨ c = .egressFlush p ∨ (∃ v, c = .arm p v) ∨
        ∃ l e high v, l < 2 ∧ e < 16 ∧ c = .playlistEntryWrite p l e high v)) →
    ∃ t, (Takes c s t ∨ Engages c s t) ∧ Joins .host c s t) ∧
  (∀ (s : State), hostUp s = false →
    (∀ off size v, Takes (.registerWrite off size v) s s) ∧ (∀ write, Takes (.bar0BadAccess write) s s) ∧
    (∀ bar4 off tag, Takes (.atomicUnsupported bar4 off tag) s s))

/-- A register of the expert level accepts writes only while expert control is enabled: at other times a write to it, OVR included, changes
no expert register (R10); nor does one whose block's domain fails to wake (R368). EXPERT_CLR clears every OVR bit and keeps the fields; without expert control it has none either (R534). -/
def Obligations.ExpertWritesNeedExpertControl : Prop :=
  (∀ (s : State) (cls off size : Nat) (v : BitVec 64), isExpert (off / 8 * 8) = true → s.glb.expertEn = false →
    regWrite cls off size v s = (if served s off then wakeFor off s else s) ∧ (regWrite cls off size v s).expert = s.expert) ∧
  (∀ (s : State) (cls off size : Nat) (v : BitVec 64), isExpert off = true → size = 4 ∨ size = 8 → s.glb.expertEn = true →
    served s off = true → regWrite cls off size v s =
      if (wakeFor off s).glb.wakeBad = s.glb.wakeBad then setExpert off (v.toNat % 2 ^ 32) (wakeFor off s) else wakeFor off s) ∧
  (∀ s : State, HostReaches s 0x0000040 → s.glb.expertEn = false → Takes .expertClr s (tlpIn s)) ∧
  (∀ s : State, HostReaches s 0x0000040 → s.glb.expertEn = true → TablesWf s →
    ∃ e, Takes .expertClr s { tlpIn s with expert := e } ∧
      ∀ off, isExpert off = true →
        tget (BitVec.ofNat 32 (expertReset off)) e off = tget (BitVec.ofNat 32 (expertReset off)) s.expert off &&& 0x7FFFFFFF) ∧
  (∀ s : State, hostUp s = false → Takes .expertClr s s) ∧
  (∀ s : State, hostUp s = true → barWaits s s.dir.nextId = true →
    ∃ t, t = holdBar .expertClr (tlpIn s) ∧ Takes .expertClr s t ∧ Joins .host .expertClr s t)

/-- Writes to the region table of the ORD block and, once they are locked, to the region rights of the SEC block have no effect (R374, R364);
where start-up ends before the lock, a write of SEC_RIGHTS takes effect, but for the firmware's own classes (R7, R390). Nothing but a mark of a gated access is left of a write to a gated unit (R461), and nothing of one to
a block that the failed state does not serve (R383). -/
def Obligations.LockedAndUnservedWritesDoNothing : Prop :=
  (∀ (s : State) (cls off size : Nat) (v : BitVec 64), (off / 2 ^ 20 = 6 ∨ (off / 2 ^ 20 = 0xA ∧ off % 2 ^ 20 < 0x80000)) →
    (off / 2 ^ 20 = 0xA → s.ord.locked = true) → isExpert (off / 8 * 8) = false → gatedOff s off = false → regWrite cls off size v s = s) ∧
  (∀ (s : State) (cls n : Nat) (v : BitVec 64), n < 64 → s.ord.locked = false → served s (0xA01000 + 8 * n) = true →
    gatedOff s (0xA01000 + 8 * n) = false →
    ∃ t, t = regWrite cls (0xA01000 + 8 * n) 8 v s ∧
      (tget {} t.ord.regions n).rights = BitVec.ofNat 26 (v.toNat % 2 ^ 24 + 3 * 2 ^ 24) ∧
      ∀ k, k ≠ n → tget {} t.ord.regions k = tget {} s.ord.regions k) ∧
  (∀ (s : State) (cls off size : Nat) (v : BitVec 64), served s off = true → gatedOff s off = true →
    regWrite cls off size v s = { s with clk := { s.clk with gatedAccess := true } }) ∧
  (∀ (s : State) (cls off size : Nat) (v : BitVec 64), s.glb.failed = true → s.flash.lc ≠ 4 →
    off / 2 ^ 20 ∉ [0, 0xB, 0xD, 0x10, 0x11] → regWrite cls off size v s = s)

/-- A BAR2 request joins the host's port (R218). When the port takes it, it is checked whole: what meets a condition of R328 is refused
with its cause and, unless it is posted, its completion; a posted write that carries poison is taken with cause POISONED_TLP. Of several
refusals the first stands in HST_ERR, and the others are counted (R328). A write of no byte asks for nothing.
Which cause a request with several shows is the model's reading (log 78). -/
def Obligations.Bar2RequestsAreCheckedWhole : Prop :=
  (∀ (s : State) (addr len tag : Nat), hostUp s = true →
    ∃ t, t = arrive .host (.bar2Read addr len tag) (tlpIn s) ∧ Engages (.bar2Read addr len tag) s t ∧ Joins .host (.bar2Read addr len tag) s t) ∧
  (∀ (s : State) (addr : Nat) (op : AtomicOp) (size : Nat) (x y : BitVec 128) (poisoned : Bool) (tag : Nat), hostUp s = true →
    ∃ t, t = arrive .host (.bar2Atomic addr op size x y poisoned tag) (tlpIn s) ∧ Engages (.bar2Atomic addr op size x y poisoned tag) s t ∧
      Joins .host (.bar2Atomic addr op size x y poisoned tag) s t) ∧
  (∀ (s : State) (addr : Nat) (data : List Byte) (relaxed poisoned : Bool), hostUp s = true →
    (data ≠ [] → ∃ t, t = arrive .host (.bar2Write addr data relaxed poisoned) (tlpIn s) ∧
      Engages (.bar2Write addr data relaxed poisoned) s t ∧ Joins .host (.bar2Write addr data relaxed poisoned) s t) ∧
    (data = [] → Takes (.bar2Write addr data relaxed poisoned) s (tlpIn s))) ∧
  (∀ s : State, hostUp s = false →
    (∀ addr len tag, Takes (.bar2Read addr len tag) s s) ∧ (∀ addr data relaxed poisoned, Takes (.bar2Write addr data relaxed poisoned) s s) ∧
    (∀ addr op size x y poisoned tag, Takes (.bar2Atomic addr op size x y poisoned tag) s s)) ∧
  (∀ (s : State) (h : Held) (addr len tag c : Nat), h.cmd = .bar2Read addr len tag → (∀ r, r ∈ s.dir.hostRds → r.id ≠ h.id) →
    hostCause s addr len true false = some c →
    admitHost h s = (true, emit (.cpl tag (cplOfCause c) false []) (hostErr 0 c (refusedAt s addr len true false c) false (hostDenied c (dropHeld h.id s))))) ∧
  (∀ (s : State) (h : Held) (addr : Nat) (data : List Byte) (relaxed poisoned : Bool) (c : Nat),
    h.cmd = .bar2Write addr data relaxed poisoned → h.checked = false → hostCause s addr data.length false true = some c →
    admitHost h s = (true, hostErr 1 c (refusedAt s addr data.length false true c) false (hostDenied c (dropHeld h.id s)))) ∧
  (∀ (s : State) (h : Held) (addr : Nat) (op : AtomicOp) (size : Nat) (x y : BitVec 128) (tag : Nat),
    (h.cmd = .bar2Atomic addr op size x y true tag → hostCause s addr (4 * 2 ^ size) true true = none →
      admitHost h s = (true, emit (.cpl tag .ca false []) (hostErr 2 8 (refusedAt s addr (4 * 2 ^ size) true true 8) false (dropHeld h.id s)))) ∧
    (∀ poisoned c, h.cmd = .bar2Atomic addr op size x y poisoned tag → hostCause s addr (4 * 2 ^ size) true true = some c →
      admitHost h s = (true, emit (.cpl tag (cplOfCause c) false []) (hostErr 2 c (refusedAt s addr (4 * 2 ^ size) true true c) false (hostDenied c (dropHeld h.id s)))))) ∧
  (∀ (s : State) (kind cause addr : Nat) (bar4 : Bool), s.hst.errValid = false →
    let t := hostErr kind cause addr bar4 s
    t.hst.errValid = true ∧ t.hst.errKind = kind ∧ t.hst.errCause = cause ∧ t.hst.errAddr = addr % 2 ^ 48 ∧ t.hst.errBar4 = bar4 ∧
    t.hst.errCount = 0) ∧
  (∀ (s : State) (kind cause addr : Nat) (bar4 : Bool), s.hst.errValid = true →
    let t := hostErr kind cause addr bar4 s
    t.hst.errKind = s.hst.errKind ∧ t.hst.errCause = s.hst.errCause ∧ t.hst.errAddr = s.hst.errAddr ∧
    t.hst.errCount = sat 16 s.hst.errCount 1)

/-- BAR4 is the host scratch SRAM: once memory is ready a write stores its bytes and marks their words, a read answers with the bytes, and
both are refused with NOT_READY before (R324, R327, R492). What was written reads back, and every other byte reads as before. An access
that an earlier device access of the host keeps back waits (R217), and one beyond the SRAM, or to a BAR that is not decoded, has no effect.
-/
def Obligations.Bar4ReadsWhatWasWritten : Prop :=
  (∀ (s : State) (off : Nat) (data : List Byte), hostUp s = true → barWaits s s.dir.nextId = false → off + data.length ≤ 2 ^ 22 →
    (s.hst.ready = true → ∃ t, t = scratchWrite off data (tlpIn s) ∧ Takes (.bar4Write off data) s t ∧
      (Memory.wf 0 s.hst.scratch = true → Memory.readN 0 t.hst.scratch off data.length = data) ∧
      ∀ a, (a < off ∨ off + data.length ≤ a) → Memory.read 0 t.hst.scratch a = Memory.read 0 s.hst.scratch a) ∧
    (s.hst.ready = false → Takes (.bar4Write off data) s (hostErr 1 3 off true (tlpIn s)))) ∧
  (∀ (s : State) (off len tag : Nat), hostUp s = true → barWaits s s.dir.nextId = false → off + len ≤ 2 ^ 22 →
    (s.hst.ready = true → ∃ t, Takes (.bar4Read off len tag) s
        (emit (.cpl tag .sc false (Memory.readN 0 s.hst.scratch off len)) t) ∧ t.hst.scratch = s.hst.scratch ∧ t.hst.marks = s.hst.marks) ∧
    (s.hst.ready = false → Takes (.bar4Read off len tag) s (emit (.cpl tag .ur false []) (hostErr 0 3 off true (tlpIn s))))) ∧
  (∀ (s : State) (off len tag : Nat) (data : List Byte),
    (hostUp s = false ∨ 2 ^ 22 < off + data.length → Takes (.bar4Write off data) s s) ∧
    (hostUp s = false ∨ 2 ^ 22 < off + len → Takes (.bar4Read off len tag) s s)) ∧
  (∀ (s : State) (off len tag : Nat) (data : List Byte), hostUp s = true → barWaits s s.dir.nextId = true →
    (off + data.length ≤ 2 ^ 22 → ∃ t, Takes (.bar4Write off data) s t ∧ Joins .host (.bar4Write off data) s t) ∧
    (off + len ≤ 2 ^ 22 → ∃ t, Takes (.bar4Read off len tag) s t ∧ Joins .host (.bar4Read off len tag) s t)) ∧
  (∀ (s : State) (off : Nat) (data : List Byte), Memory.wf 0 s.hst.scratch = true →
    let t := scratchWrite off data s
    Memory.readN 0 t.hst.scratch off data.length = data ∧ Memory.wf 0 t.hst.scratch = true ∧
    ∀ a, (a < off ∨ off + data.length ≤ a) → Memory.read 0 t.hst.scratch a = Memory.read 0 s.hst.scratch a)

/-- The debug port answers an access while it works: a register access outside GLB, SEC and EVR, and any to memory, is refused from SEALED
on (R396); before, a write of host scratch stores its bytes, a read answers with them, and a register answers with its value. A write that
comes before step 6 is held (R364). The TAP lets the start go on only under BYPASS and IDCODE (R366), and DAP_EN_N opens and ends
sessions (R542). The port has one request in service, and what comes meanwhile, or for memory before memory ready, waits (R14, R368).
No session attaches to a gated port (log 96). -/
def Obligations.TheDebugPortIsLimited : Prop :=
  (∀ (s : State) (a : DebugAcc), debugOn s = true → s.glb.dbgWait = [] → debugWaits s a = false →
    Engages (.debugAccess a) s (debugAccess a s)) ∧
  (∀ (s : State) (a : DebugAcc), debugOn s = true → s.glb.dbgWait ≠ [] ∨ debugWaits s a = true →
    ∃ t, Engages (.debugAccess a) s t ∧ t = { s with glb := { s.glb with dbgWait := s.glb.dbgWait ++ [a] } }) ∧
  (∀ (s : State) (a : DebugAcc), debugOn s = false → Takes (.debugAccess a) s s) ∧
  (∀ (s : State) (off : Nat) (data : List Byte), debugOn s = true → s.glb.dbgWait = [] → debugBusy s = false → s.flash.lc < 2 →
    off + data.length ≤ 2 ^ 22 →
    ∃ t, Engages (.debugAccess (.scratchWrite off data)) s t ∧ t.out = .debug (some []) :: s.out ∧
      (Memory.wf 0 s.hst.scratch = true → Memory.readN 0 t.hst.scratch off data.length = data) ∧
      ∀ a, (a < off ∨ off + data.length ≤ a) → Memory.read 0 t.hst.scratch a = Memory.read 0 s.hst.scratch a) ∧
  (∀ (s : State) (off len : Nat), debugOn s = true → s.glb.dbgWait = [] → debugBusy s = false → s.flash.lc < 2 → off + len ≤ 2 ^ 22 →
    ∃ t, Engages (.debugAccess (.scratchRead off len)) s t ∧ t.out = .debug (some (Memory.readN 0 s.hst.scratch off len)) :: s.out) ∧
  (∀ s : State, debugOn s = true → s.glb.dbgWait = [] → debugBusy s = false →
    (∀ v, 6 ≤ s.glb.step ∨ s.glb.failed = true → ∃ t, Engages (.debugAccess (.regWrite 0x0000058 8 v)) s t ∧ t.glb.scratch = v) ∧
    (∀ v, s.glb.step < 6 → s.glb.failed = false →
      ∃ t, Engages (.debugAccess (.regWrite 0x0000058 8 v)) s t ∧ t.glb.heldWrites = s.glb.heldWrites ++ [(0x0000058, 8, v)] ∧
        t.glb.scratch = s.glb.scratch) ∧
    ∃ t, Engages (.debugAccess (.regRead 0x0000058 8)) s t ∧ t.out = .debug (some (leBytes 8 s.glb.scratch.toNat)) :: s.out) ∧
  (∀ (s : State) (addr len : Nat) (data : List Byte), 2 ≤ s.flash.lc →
    debugAccess (.memRead addr len) s = emit (.debug none) s ∧ debugAccess (.memWrite addr data) s = emit (.debug none) s ∧
    debugAccess (.scratchRead addr len) s = emit (.debug none) s ∧ debugAccess (.scratchWrite addr data) s = emit (.debug none) s) ∧
  (∀ (s : State) (off size : Nat) (v : BitVec 64), 2 ≤ s.flash.lc → off / 2 ^ 20 ∉ [0, 0x10, 0xA] →
    debugAccess (.regRead off size) s = emit (.debug none) s ∧ debugAccess (.regWrite off size v) s = emit (.debug none) s) ∧
  (∀ s : State, s.plinth.st ≠ 0 →
    Takes (.tapInstruction false) s { s with plinth := { s.plinth with tapHold := true } } ∧
    ∃ t, t = bootSteps { s with plinth := { s.plinth with tapHold := false } } ∧ Engages (.tapInstruction true) s t ∧
      (s.glb.step ≠ 3 ∨ s.glb.failed = true → t = { s with plinth := { s.plinth with tapHold := false } })) ∧
  (∀ (s : State) (b : Bool), s.plinth.st = 0 → Takes (.tapInstruction b) s s) ∧
  (∀ s : State, Takes (.dapEnChange false) s { s with dap := false }) ∧
  (∀ s : State, s.plinth.st ≠ 0 → (s.glb.step < 6 ∨ clocked s 23 = true) → Takes (.dapEnChange true) s { s with dap := true }) ∧
  (∀ s : State, s.plinth.st = 0 ∨ (6 ≤ s.glb.step ∧ clocked s 23 = false) → Takes (.dapEnChange true) s s)

/-- The doorbells of an enabled queue: a legal tail is taken, the current one having no effect, a head that does not pass the CQ tail
releases its entries, and an index beyond the ring, or a head beyond the tail, puts the queue into ERROR with its cause; a doorbell of a
disabled queue is ignored (R335), as one that BAR0 does not decode. -/
def Obligations.DoorbellsMoveTheRings : Prop :=
  (∀ (s : State) (q v : Nat), q < 64 → v < 4096 → HostReaches s (0x0920000 + 0x10 * q) → (queue s q).enable = true →
    (v ≤ (queue s q).sqSize → ∃ t, t = onQueue q (fun h => { h with sqTail := v }) (tlpIn s) ∧ Takes (.sqTailDoorbell q v) s t ∧
      queue t q = { queue s q with sqTail := v } ∧ ∀ k, k ≠ q → queue t k = queue s k) ∧
    (v ≤ (queue s q).sqSize → v = (queue s q).sqTail → TablesWf s → Takes (.sqTailDoorbell q v) s (tlpIn s)) ∧
    ((queue s q).sqSize < v → (queue s q).error = false →
      Takes (.sqTailDoorbell q v) s (onQueue q (fun h => { h with error := true, errCause := 1 }) (tlpIn s)))) ∧
  (∀ (s : State) (q v : Nat), q < 64 → v < 4096 → HostReaches s (0x0920000 + 0x10 * q + 8) → (queue s q).enable = true →
    let h := queue s q
    let n := h.cqSize + 1
    (v ≤ h.cqSize → (v + n - h.cqHead) % n ≤ (h.cqTail + n - h.cqHead) % n →
      ∃ t, t = checkFenced q (writeCqes q (onQueue q (fun h => { h with cqHead := v }) (tlpIn s))) ∧ Takes (.cqHeadDoorbell q v) s t ∧
        (queue t q).cqHead = v ∧ (h.dones = [] → h.fenced = none → queue t q = { h with cqHead := v })) ∧
    ((h.cqSize < v ∨ (h.cqTail + n - h.cqHead) % n < (v + n - h.cqHead) % n) → h.error = false →
      Takes (.cqHeadDoorbell q v) s (onQueue q (fun h => { h with error := true, errCause := 2 }) (tlpIn s)))) ∧
  (∀ (s : State) (q v : Nat), q < 64 → HostReaches s (0x0920000 + 0x10 * q) → HostReaches s (0x0920000 + 0x10 * q + 8) →
    (queue s q).enable = false → Takes (.sqTailDoorbell q v) s (tlpIn s) ∧ Takes (.cqHeadDoorbell q v) s (tlpIn s)) ∧
  (∀ (s : State) (q v : Nat), hostUp s = false ∨ 64 ≤ q → Takes (.sqTailDoorbell q v) s s ∧ Takes (.cqHeadDoorbell q v) s s)

/-- Queues are enabled and disabled, entries are fetched from the queues in turn, and the gap between the messages of a queue ends (R336,
R339, R340). ENABLE = 1 sets the pointers to 0 and the phase to 1; ENABLE = 0 leaves no entry of the queue to be written. A fetch reads the
ring at the SQ head. An entry that passes its checks waits to start, one with FENCE being checked only when every earlier command has
completed (R332), and the SQ head moves on; a fetch that fails puts the queue into ERROR.
A second write of ENABLE = 1 changes no pointer by the model's reading (log 40). -/
def Obligations.QueuesTakeTheirEntries : Prop :=
  (∀ (s : State) (q : Nat), q < 64 → HostReaches s (0x0910010 + 0x20 * q) →
    (∃ t, t = enableQueue q (tlpIn s) ∧ Takes (.queueEnable q) s t ∧
      ((queue s q).enable = true → t = tlpIn s) ∧
      ((queue s q).enable = false → queue t q = { queue s q with
        enable := true, sqHead := 0, cqTail := 0, sqTail := 0, cqHead := 0, phase := true, error := false, errCause := 0
        cqSize := max 1 (queue s q).cqSize, sqSize := max 1 (queue s q).sqSize })) ∧
    (∃ t, t = disableQueue q (tlpIn s) ∧ Takes (.queueDisable q) s t ∧
      ((queue s q).enable = false → t = tlpIn s) ∧
      (TablesWf s → (queue s q).enable = true → (queue t q).enable = false ∧ (queue t q).fetched = [] ∧ (queue t q).fenced = none ∧
        (queue t q).dones = [] ∧ (queue t q).started = [] ∧ (queue t q).mute = (queue s q).mute ++ (queue s q).started.map (muteCmd q)))) ∧
  (∀ (s : State) (q : Nat), (queue s q).enable = false →
    queue (enableQueue q s) q = { queue s q with
      enable := true, sqHead := 0, cqTail := 0, sqTail := 0, cqHead := 0, phase := true, error := false, errCause := 0
      cqSize := max 1 (queue s q).cqSize, sqSize := max 1 (queue s q).sqSize }) ∧
  (∀ (s : State) (q : Nat), TablesWf s → (queue s q).enable = true →
    (queue (disableQueue q s) q).enable = false ∧ (queue (disableQueue q s) q).fetched = [] ∧ (queue (disableQueue q s) q).dones = [] ∧
    (queue (disableQueue q s) q).started = [] ∧
    (queue (disableQueue q s) q).mute = (queue s q).mute ++ (queue s q).started.map (muteCmd q)) ∧
  (∀ (s : State) (q : Nat), 64 ≤ q ∨ hostUp s = false → Takes (.queueEnable q) s s ∧ Takes (.queueDisable q) s s) ∧
  (∀ (s : State) (q : Nat), nextQueue s = some q →
    let h := queue s q
    let t := emit (.sqRead q h.sqHead (h.sqBase * 4096 + 64 * h.sqHead)) { s with hst := { s.hst with turn := (q + 1) % 64 } }
    (Takes (.sqEntryFetched q .failed) s (queueError q 3 t) ∧ (queue (queueError q 3 t) q).error = true) ∧
    (∀ e, ∃ u, u = takeEntry q e t ∧ Takes (.sqEntryFetched q (.entry e)) s u ∧ u.hst.turn = (q + 1) % 64 ∧
      (queue u q).sqHead = ((queue s q).sqHead + 1) % ((queue s q).sqSize + 1) ∧
      ((readEntry t q e).1.fence = false → ∀ i, (readEntry t q e).2 = .inr i → (queue u q).fetched = h.fetched ++ [i]) ∧
      ((readEntry t q e).1.fence = true → h.fetched ≠ [] ∨ earlierDone s q = false →
        (queue u q).fenced = some e ∧ (queue u q).fetched = h.fetched))) ∧
  (∀ (s : State) (q : Nat) (e : BitVec 512), (queue s q).fenced = some e →
    ((queue s q).fetched ≠ [] ∨ earlierDone s q = false → checkFenced q s = s) ∧
    ((queue s q).fetched = [] → earlierDone s q = true →
      let t := onQueue q (fun h => { h with fenced := none }) s
      ∀ i, (readEntry t q e).2 = .inr i → (queue (checkFenced q s) q).fetched = [i] ∧ (queue (checkFenced q s) q).fenced = none)) ∧
  (∀ (s : State) (q : Nat) (f : Fetch), nextQueue s ≠ some q → Takes (.sqEntryFetched q f) s s) ∧
  (∀ (s : State) (q : Nat), (queue s q).gap = true →
    ((queue s q).gapPend = false → Takes (.interruptGap q) s (onQueue q (fun h => { h with gap := false }) s)) ∧
    ((queue s q).gapPend = true →
      Takes (.interruptGap q) s (queueInt q (onQueue q (fun h => { h with gap := false, gapPend := false }) s)))) ∧
  (∀ (s : State) (q : Nat), (queue s q).gap = false → Takes (.interruptGap q) s s)

/-! ## Quoin commands -/

/-- A command that has started ends with one completion entry, unless its queue was disabled or reset since, from when it goes by another
number (R333, R340): its CID, its status and its result stand in the entry, which is written to its place in the ring while the queue has
room and else waits (R338). -/
def Obligations.CommandsEndWithOneEntry : Prop :=
  (∀ (s : State) (c : Cmd) (status result : Nat), TablesWf s → 64 ≤ c.q →
    (finish c status result s).out = s.out ∧ (∀ k, (queue (finish c status result s) k).dones = (queue s k).dones) ∧
    (queue (finish c status result s) (c.q % 64)).mute = (queue s (c.q % 64)).mute.erase c) ∧
  (∀ (s : State) (c : Cmd) (status result : Nat), c.q < 64 → (queue s c.q).enable = true → pastCommit s = false →
    (queue s c.q).dones = [] → cqRoom (queue s c.q) = false →
    let d : Done := { kind := 0, cid := c.cid, status, result := BitVec.ofNat 64 result, noInt := c.noInt
                      win := decide ((queue s c.q).winRun = some c) }
    (queue (finish c status result s) c.q).dones = [d] ∧ (finish c status result s).out = s.out ∧
    (queue (finish c status result s) c.q).started = (queue s c.q).started.erase c) ∧
  (∀ (s : State) (c : Cmd) (status result : Nat), c.q < 64 → (queue s c.q).enable = true → pastCommit s = false →
    (queue s c.q).dones = [] → (queue s c.q).fenced = none → cqRoom (queue s c.q) = true →
    let d : Done := { kind := 0, cid := c.cid, status, result := BitVec.ofNat 64 result, noInt := c.noInt
                      win := decide ((queue s c.q).winRun = some c) }
    let h := queue s c.q
    (queue (finish c status result s) c.q).dones = [] ∧
    (queue (finish c status result s) c.q).started = h.started.erase c ∧
    (queue (finish c status result s) c.q).cqTail = (h.cqTail + 1) % (h.cqSize + 1) ∧
    (s.hst.linkUp = true →
      .cqe c.q h.cqTail (h.cqBase * 4096 + 16 * h.cqTail) (cqEntry d h.sqHead h.phase) ∈ (finish c status result s).out))

/-- NOP, SNAPSHOT, ATTEST and the hoist commands start when they are the next of their queue (R336, R343): NOP ends with SUCCESS at once,
SNAPSHOT waits for the next course start (R353), ATTEST for its report (R413), and the hoists are checked and armed, or cancelled (R58,
R61, R351). ATTEST starts in Stop too (R358). A command that something holds does nothing yet, and one that Stop does not serve ends with
status 0x0009 (R358).
A command without a fetched entry is fetched with its start (log 51), and what was not started when STOP began waits (log 102). -/
def Obligations.ShortCommandsStart : Prop :=
  (∀ (s : State) (c : Cmd),
    (Starts s c (.nop c) → ∃ t, t = finish c 0 0 (begun c s) ∧ Takes (.nop c) s t ∧ t.cch = s.cch ∧ t.dir = s.dir ∧ t.med = s.med ∧
      t.tck = s.tck ∧ (TablesWf s → (queue s c.q).fenced = none → (queue t c.q).fetched = (queue s c.q).fetched.drop 1)) ∧
    (Starts s c (.snapshot c) → ∃ t, Takes (.snapshot c) s t ∧
      t = { begun c s with hst := { (begun c s).hst with snaps := (begun c s).hst.snaps ++ [c] } } ∧ t.hst.snaps = s.hst.snaps ++ [c]) ∧
    (∀ e, Starts s c (.hoistSubmit c e) → ∃ t, t = submitHoist c e.toNat (begun c s) ∧ Takes (.hoistSubmit c e) s t ∧
      (∀ i, checkHoist s e.toNat (hoistOf e.toNat (some s.grp.id)) = 0 →
        ((upto 64).find? fun j => (tget none s.tck.hoists j).isNone) = some i →
        tget none t.tck.hoists i = some { hoistOf e.toNat (some s.grp.id) with queue := some c.q }) ∧
      (checkHoist s e.toNat (hoistOf e.toNat (some s.grp.id)) ≠ 0 → t.tck = s.tck)) ∧
    (∀ id, Starts s c (.hoistCancel c id) → ∃ t, t = cancelHoist c id (begun c s) ∧ Takes (.hoistCancel c id) s t ∧
      (findHoist s id = none → t.tck = s.tck) ∧
      ∀ i h, findHoist s id = some (i, h) →
        t.tck.hoists = if h.launch < s.tck.count + (if h.group then 4 else 2) then s.tck.hoists else tset none s.tck.hoists i none)) ∧
  (∀ (s : State) (c : Cmd) (n : BitVec 256),
    let asked (kind : Nat) (i : Instr) := i ∈ (queue s c.q).fetched → canStart s c i = true →
      ∃ t, t = startAttest c kind n (begun c s) ∧ Takes i s t ∧ t.hst.attests = s.hst.attests ++ [(c, kind, n.toNat)] ∧
        (queue t c.q).winSt = 1 ∧ (queue t c.q).winCid = c.cid
    asked 0 (.attestCert c n) ∧ asked 1 (.attestIdentity c n) ∧ asked 2 (.attestConfig c n) ∧ asked 3 (.attestGroup c n)) ∧
  (∀ (s : State) (c : Cmd) (kind nonce : Nat) (rest : List (Cmd × Nat × Nat)), s.hst.attests = (c, kind, nonce) :: rest →
    ∃ t, Takes .attestDone s t ∧ t = finish c 0 (report s kind nonce).length
      (fillWindow c (report s kind nonce) { s with hst := { s.hst with attests := rest } }) ∧ t.hst.attests = rest ∧
      (c.q < 64 → (queue s c.q).winSt = 1 → (queue s c.q).winCid = c.cid → (queue s c.q).winRun = some c →
        (queue t c.q).winSt = 2 ∧ (queue t c.q).winData = report s kind nonce)) ∧
  (∀ s : State, s.hst.attests = [] → Takes .attestDone s s) ∧
  (∀ (s : State) (c : Cmd) (i : Instr), cmdOf i = some c →
    (i ∈ (queue s c.q).fetched → canStart s c i = false → Takes i s s ∨ Engages i s s) ∧
    (i ∈ (queue s c.q).fetched → canStart s c i = true → inStop s = true ∨ s.pwr.runSt = 1 → servedInStop i = false →
      ((∀ src dst len ch pk, i ≠ .copy c src dst len ch pk) →
        Takes i s (finish c 9 0 (begun c s)) ∨ Engages i s (finish c 9 0 (begun c s))) ∧
      (∀ src dst len ch pk, i = .copy c src dst len ch pk →
        Engages i s (finish c 9 0 (onQueue c.q (fun h => { h with fetched := h.fetched.drop 1 }) s)))) ∧
    (i ∉ (queue s c.q).fetched → c.q < 64 → mayFetch s c.q = true → c.fence = false ∨ earlierDone s c.q = true → cmdStatus s i = 0 →
      exec i s = exec i (onQueue c.q (fun h => { h with fetched := h.fetched ++ [i] }) (count 8 0x12 1 s))))

/-- The commands of the cache, of the copy channels and of the sealed import start (R163, R165, R166, R345, R346, R348, R354): a range or
set command becomes a job of the cache with its operation and its lines, CACHE_UNLOCK ends at once and leaves no sector of its range
locked, up to the first at a member that cannot be reached (R344), a COPY joins its channel, where it has not started yet, and an import that its checks let start holds the cipher engine. RESUME lets a halted channel go on, and
DISCARD ends the commands that it holds (R350).
What another member does of a command is not in this state (logs 34 and 83). -/
def Obligations.DataCommandsStart : Prop :=
  (∀ (s : State) (c : Cmd) (addr len : Nat),
    let ranged (op : Nat) (lock : Bool) (i : Instr) := Starts s c i → ∃ t, t = rangeJob c op lock addr len (begun c s) ∧ Engages i s t ∧
      t.cch = { s.cch with jobs := s.cch.jobs ++
        [{ cmd := c, op, lock, next := addr / 512, last := (addr + len) / 512, base := addr, id := s.dir.nextId }] }
    (∀ lock, ranged 0 lock (.cachePreload c addr len lock)) ∧ ranged 1 false (.cacheMaintClean c addr len) ∧
    ranged 2 false (.cacheMaintFlush c addr len) ∧ ranged 3 false (.cacheMaintInvalidate c addr len) ∧
    (∀ a, Starts s c (.cacheUnlock c addr len) → lostIn s addr len = some a →
      Engages (.cacheUnlock c addr len) s (finish c 5 a (unlockRange addr (a - addr) (begun c s)))) ∧
    (Starts s c (.cacheUnlock c addr len) → lostIn s addr len = none →
      ∃ t, t = finish c 0 0 (unlockRange addr len (begun c s)) ∧ Engages (.cacheUnlock c addr len) s t ∧
      ∀ k, let g := groupAddr s (pageOfWay k (way s k) 0 * 512)
        ((way s k).valid = true → addr ≤ g → g < addr + len → way t k = { way s k with lock := false }) ∧
        ((way s k).valid = false ∨ g < addr ∨ addr + len ≤ g → way t k = way s k))) ∧
  (∀ (s : State) (c : Cmd) (grp first n : Nat),
    let set (op : Nat) (i : Instr) := Starts s c i → ∃ t, t = setJob c op grp first n (begun c s) ∧ Engages i s t ∧
      (grp = s.grp.id → t.cch = { s.cch with jobs := s.cch.jobs ++
        [{ cmd := c, op, bySet := true, next := first * 12 * 32, last := (first + n) * 12 * 32, id := s.dir.nextId }] }) ∧
      (grp ≠ s.grp.id → t = finish c 0 0 (begun c s))
    set 1 (.cacheMaintSetClean c grp first n) ∧ set 2 (.cacheMaintSetFlush c grp first n) ∧ set 3 (.cacheMaintSetInvalidate c grp first n)) ∧
  (∀ (s : State) (c : Cmd) (src dst len ch : Nat) (pk : Bool), Starts s c (.copy c src dst len ch pk) →
    ∃ t, t = onCopy ch (fun x => { x with queue := x.queue ++ [.copy c src dst len ch pk] })
        (onQueue c.q (fun h => { h with fetched := h.fetched.drop 1 }) s) ∧ (TablesWf s → (queue t c.q).started = (queue s c.q).started) ∧
      Engages (.copy c src dst len ch pk) s t ∧ (copyCh t ch).queue = (copyCh s ch).queue ++ [.copy c src dst len ch pk] ∧
      ∀ j, j ≠ ch → copyCh t j = copyCh s j) ∧
  (∀ (s : State) (c : Cmd) (src dst len : Nat) (iv : BitVec 96) (slot : Nat), Starts s c (.sealedImport c src dst len iv slot) →
    ∃ t, t = startImport c src dst len iv.toNat slot (begun c s) ∧ Engages (.sealedImport c src dst len iv slot) s t ∧
      (∀ a, slotOk s 1 slot = true → s.cph.holder = 0 → s.cph.disabled = false → (lostIn s src (len + 16)).or (lostIn s dst len) = some a →
        t = finish c 5 a (begun c s)) ∧
      (slotOk s 1 slot = true → s.cph.holder = 0 → s.cph.disabled = false → lostIn s src (len + 16) = none → lostIn s dst len = none →
        t.cph.holder = 3 ∧ t.cph.imp = some { cmd := c, src, dst, len, iv := iv.toNat, slot }) ∧
      (slotOk s 1 slot = false → t = finish c 2 0 (begun c s)) ∧
      (slotOk s 1 slot = true → s.cph.holder ≠ 0 → t = finish c 0x000A 0 (begun c s)) ∧
      (slotOk s 1 slot = true → s.cph.holder = 0 → s.cph.disabled = true → t = finish c 0x000C 0 (begun c s))) ∧
  (∀ (s : State) (j : Nat), j < 16 → HostReaches s (0x0900100 + 0x10 * j) →
    (∃ t, t = onCopy j (fun c => { c with halted := false }) (tlpIn s) ∧ Engages (.resume j) s t ∧
      (TablesWf s → copyCh t j = { copyCh s j with halted := false })) ∧
    (∃ t, t = discardCopy j (tlpIn s) ∧ Engages (.discard j) s t ∧ ((copyCh s j).halted = false → t = tlpIn s) ∧
      (TablesWf s → (copyCh s j).halted = true → copyCh t j = { copyCh s j with halted := false, queue := [] }))) ∧
  (∀ (s : State) (j : Nat), 16 ≤ j → Takes (.resume j) s s ∧ Takes (.discard j) s s) ∧
  (∀ (s : State) (j : Nat), j < 16 → hostUp s = false → Engages (.resume j) s s ∧ Engages (.discard j) s s) ∧
  (∀ (c : Cmd) (op addr len : Nat) (lock : Bool) (s : State), rangeJob c op lock addr len s = { s with
    cch := { s.cch with
      jobs := s.cch.jobs ++ [{ cmd := c, op, lock, next := addr / 512, last := (addr + len) / 512, base := addr, id := s.dir.nextId }] }
    dir := { s.dir with nextId := s.dir.nextId + 1 } })

/-- LIFECYCLE, SELF_TEST, STOP and RUN start on their queue (R356 to R358): a change that verifies completes, stops the fetched commands
and begins its drain (R388), and one that does not ends with its status; a location that is free is tested, and one in use ends with outcome
3; STOP asks for Stop entry and RUN for Run (R463, R464), and each ends at once where the module is in that state already. At the end of
its entry the module is in Stop, unless a RUN waits. -/
def Obligations.ModuleCommandsStart : Prop :=
  (∀ (s : State) (c : Cmd) (off len : Nat),
    let change (dst : Nat) (i : Instr) := Starts s c i → ∃ t, t = lifecycle c dst off len (begun c s) ∧ Engages i s t ∧
      ((lcCheck s dst off len).1 = 0 → t.hst.lc = some (dst, (lcCheck s dst off len).2) ∧ t.pwr.drain = 3 ∧ t.flash.lc = s.flash.lc) ∧
      ((lcCheck s dst off len).1 ≠ 0 → t = finish c (lcCheck s dst off len).1 0 (begun c s))
    change 1 (.lifecycleOwned c off len) ∧ change 2 (.lifecycleSealed c off len) ∧ change 3 (.lifecycleReturn c off len) ∧
    change 4 (.lifecycleEnd c off len) ∧
    (Starts s c (.selfTest c off len) → ∃ t, t = hostTest c off len (begun c s) ∧ Engages (.selfTest c off len) s t ∧
      (testBusy s off len = true → t.err.tests = s.err.tests) ∧
      (testBusy s off len = false → testOf s off len = none → (off = 7 → mediaRoom s = true) →
        t.err.tests = s.err.tests ++ [{ mem := off, loc := len, cmd := some c, after := false, running := true }]))) ∧
  (∀ (s : State) (c : Cmd),
    (.stop c ∈ (queue s c.q).fetched → canStart s c (.stop c) = true → ∃ t, t = askStop c (begun c s) ∧ Engages (.stop c) s t ∧
      (s.pwr.runSt = 2 → t = finish c 0 0 (begun c s)) ∧ (s.pwr.runSt ≠ 2 → t.hst.stops = s.hst.stops ++ [c]) ∧
      (s.pwr.runSt = 0 → s.pwr.entry = 0 → t.pwr.entry = 1)) ∧
    (.run c ∈ (queue s c.q).fetched → canStart s c (.run c) = true → ∃ t, t = askRun c (begun c s) ∧ Engages (.run c) s t ∧
      (s.pwr.runSt = 0 → s.pwr.entry = 0 → t = finish c 0 0 (begun c s)) ∧
      (s.pwr.runSt ≠ 0 ∨ s.pwr.entry ≠ 0 → t.hst.runs = s.hst.runs ++ [c]) ∧
      (s.pwr.runSt = 2 → t.pwr.runSt = 3 ∧ t.pwr.wakeAt = s.now))) ∧
  (∀ (s : State) (us : Nat), s.pwr.entry = 5 → ∃ t, t = stopDone us s ∧ Engages (.stopEntryComplete us) s t ∧ t.pwr.entryUs = us ∧
    t.pwr.entry = 0 ∧ t.hst.stops = [] ∧ t.pwr.runSt = (if s.hst.runs = [] then 2 else 3)) ∧
  (∀ (s : State) (us : Nat), s.pwr.entry ≠ 5 → Engages (.stopEntryComplete us) s s) ∧
  (∀ (s : State) (us : Nat), s.pwr.entry = 5 → s.hst.runs = [] → (stopDone us s).pwr.runSt = 2 ∧ (stopDone us s).pwr.entryUs = us ∧
    (stopDone us s).hst.stops = []) ∧
  (∀ (s : State) (c : Cmd) (dst off len : Nat), (lcCheck s dst off len).1 ≠ 0 →
    lifecycle c dst off len s = finish c (lcCheck s dst off len).1 0 s) ∧
  (∀ (s : State) (c : Cmd) (dst off len : Nat), let ok := (lcCheck s dst off len).1 = 0
    (lifecycle c dst off len s).hst.lc = (if ok then some (dst, (lcCheck s dst off len).2) else s.hst.lc) ∧
    (lifecycle c dst off len s).pwr.drain = (if ok then 3 else s.pwr.drain) ∧
    (lifecycle c dst off len s).flash.lc = s.flash.lc ∧ (lifecycle c dst off len s).fuses = s.fuses) ∧
  (∀ (s : State) (c : Cmd), s.pwr.runSt = 0 → s.pwr.entry = 0 → askRun c s = finish c 0 0 s)

/-! ## The cipher engine -/

/-- One user at a time holds the engine. A read of CPH_LOCK while it is free grants it to the reading class with a fresh ticket, whatever
number that is, and one while it is held returns the holder's class and changes nothing; a write of the ticket in force frees it; and a
command with another ticket, or from another class, is ignored and counted (R404). -/
def Obligations.TheCipherLockHasOneUser : Prop :=
  (∀ (cls : Nat) (s : State), s.cph.holder = 0 → ∃ t, t < 2 ^ 16 ∧
    lockRead cls s = (2 ^ 31 + cls * 2 ^ 28 + t, { s with fv := s.fv + 1, cph := { s.cph with holder := cls, ticket := t } })) ∧
  (∀ (cls : Nat) (s : State), s.cph.holder ≠ 0 → lockRead cls s = (s.cph.holder * 2 ^ 28, s)) ∧
  (∀ s : State, s.cph.holder ≠ 0 → releaseLock s.cph.ticket s = freeLock s) ∧
  (∀ (ticket : Nat) (s : State), s.cph.holder = 0 ∨ s.cph.ticket ≠ ticket → releaseLock ticket s = s) ∧
  (∀ (cls ticket op key subj : Nat) (s : State), (s.cph.holder ≠ cls ∨ s.cph.ticket ≠ ticket) →
    cphCommand cls ticket op key subj s = { s with cph := { s.cph with badTicket := sat 16 s.cph.badTicket 1 } }) ∧
  (∀ s : State, (freeLock s).cph.inp = [] ∧ (freeLock s).cph.out = [] ∧ (freeLock s).cph.nonce = 0 ∧ (freeLock s).cph.tag = 0 ∧
    (freeLock s).cph.st = 0 ∧ (freeLock s).cph.holder = 0 ∧ (freeLock s).cph.slots = s.cph.slots ∧ (freeLock s).cph.nonceCtr = s.cph.nonceCtr)

/-- The commands of the engine from each of its users: a read of CPH_LOCK, a release and the five operations act through the host's
registers, the debug port's, or the firmware's own use of the engine (R404, R406). A read grants the lock when it is free; the release of
the ticket in force frees it; and an operation of the holder starts, or is refused with its cause. The lock times out while no operation
runs (R405). A user that the engine does not answer, its clock or its port being off, does nothing; nor does the firmware
while it imports.
An operation takes its inputs when it starts (log 47). -/
def Obligations.CipherCommandsReachTheEngine : Prop :=
  (∀ s : State, HostReaches s 0x0A80000 →
    ∃ v t, lockRead 1 (tlpIn s) = (v, t) ∧ Takes (.cphLockRead .host) s (emit (.reg 0x0A80000 (BitVec.ofNat 64 v)) t) ∧
      (s.cph.holder = 0 → t.cph.holder = 1 ∧ v = 2 ^ 31 + 2 ^ 28 + t.cph.ticket) ∧
      (s.cph.holder ≠ 0 → t.cph = s.cph ∧ v = s.cph.holder * 2 ^ 28)) ∧
  (∀ s : State, debugOn s = true → s.flash.lc < 2 → served s 0x0A80000 = true → clocked s 20 = true →
    ∃ t, t = debugAccess (.regRead 0x0A80000 8) s ∧ Takes (.cphLockRead .debug) s t ∧ (s.cph.holder = 0 → t.cph.holder = 2) ∧
      (s.cph.holder ≠ 0 → t.cph = s.cph)) ∧
  (∀ s : State, clocked s 20 = true → ∃ t, t = (lockRead 3 s).2 ∧ Takes (.cphLockRead .firmware) s t ∧
    (s.cph.holder = 0 → t.cph.holder = 3) ∧ (s.cph.holder ≠ 0 → t = s)) ∧
  (∀ (s : State) (ticket : BitVec 16), HostReaches s 0x0A80008 → HostReaches s 0x0A80010 →
    Takes (.cphRelease .host ticket) s (releaseLock ticket.toNat (tlpIn s)) ∧
    ∀ key subj, key < 16 → subj < 16 →
      (∃ t, CipherTakes 1 ticket.toNat 1 key 0 (tlpIn s) t ∧ Takes (.encrypt .host ticket key) s t) ∧
      (∃ t, CipherTakes 1 ticket.toNat 2 key 0 (tlpIn s) t ∧ Takes (.decrypt .host ticket key) s t) ∧
      (∃ t, CipherTakes 1 ticket.toNat 3 key subj (tlpIn s) t ∧ Takes (.unwrap .host ticket key subj) s t) ∧
      (∃ t, CipherTakes 1 ticket.toNat 4 key subj (tlpIn s) t ∧ Takes (.wrap .host ticket key subj) s t) ∧
      (∃ t, CipherTakes 1 ticket.toNat 5 0 subj (tlpIn s) t ∧ Takes (.clear .host ticket subj) s t)) ∧
  (∀ (s : State) (ticket : BitVec 16), debugOn s = true → s.flash.lc < 2 → 6 ≤ s.glb.step → served s 0x0A80000 = true → clocked s 20 = true →
    let answered (i : Instr) (t : State) := Takes i s (emit (.debug (some [])) t)
    answered (.cphRelease .debug ticket) (releaseLock ticket.toNat s) ∧
    ∀ key subj, key < 16 → subj < 16 →
      (∃ t, CipherTakes 2 ticket.toNat 1 key 0 s t ∧ answered (.encrypt .debug ticket key) t) ∧
      (∃ t, CipherTakes 2 ticket.toNat 2 key 0 s t ∧ answered (.decrypt .debug ticket key) t) ∧
      (∃ t, CipherTakes 2 ticket.toNat 3 key subj s t ∧ answered (.unwrap .debug ticket key subj) t) ∧
      (∃ t, CipherTakes 2 ticket.toNat 4 key subj s t ∧ answered (.wrap .debug ticket key subj) t) ∧
      (∃ t, CipherTakes 2 ticket.toNat 5 0 subj s t ∧ answered (.clear .debug ticket subj) t)) ∧
  (∀ (s : State) (ticket : BitVec 16), clocked s 20 = true → s.cph.imp = none →
    Takes (.cphRelease .firmware ticket) s (releaseLock ticket.toNat s) ∧
    ∀ key subj, key < 16 → subj < 16 →
      (∃ t, CipherTakes 3 ticket.toNat 1 key 0 s t ∧ Takes (.encrypt .firmware ticket key) s t) ∧
      (∃ t, CipherTakes 3 ticket.toNat 2 key 0 s t ∧ Takes (.decrypt .firmware ticket key) s t) ∧
      (∃ t, CipherTakes 3 ticket.toNat 3 key subj s t ∧ Takes (.unwrap .firmware ticket key subj) s t) ∧
      (∃ t, CipherTakes 3 ticket.toNat 4 key subj s t ∧ Takes (.wrap .firmware ticket key subj) s t) ∧
      (∃ t, CipherTakes 3 ticket.toNat 5 0 subj s t ∧ Takes (.clear .firmware ticket subj) s t)) ∧
  (∀ (s : State) (ticket : BitVec 16) (key subj : Nat), s.cph.imp.isSome = true →
    Takes (.cphRelease .firmware ticket) s s ∧ Takes (.encrypt .firmware ticket key) s s ∧ Takes (.decrypt .firmware ticket key) s s ∧
    Takes (.unwrap .firmware ticket key subj) s s ∧ Takes (.wrap .firmware ticket key subj) s s ∧ Takes (.clear .firmware ticket subj) s s) ∧
  (∀ (s : State) (cls : CphClass) (ticket : BitVec 16) (key subj : Nat),
    cls = .host ∧ hostUp s = false ∨ cls = .debug ∧ debugOn s = false ∨ cls = .firmware ∧ clocked s 20 = false →
    Takes (.cphLockRead cls) s s ∧ Takes (.cphRelease cls ticket) s s ∧ Takes (.encrypt cls ticket key) s s ∧
    Takes (.decrypt cls ticket key) s s ∧ Takes (.unwrap cls ticket key subj) s s ∧ Takes (.wrap cls ticket key subj) s s ∧
    Takes (.clear cls ticket subj) s s) ∧
  (∀ s : State, s.cph.holder ≠ 0 → s.cph.run = none → s.cph.imp = none →
    ∃ t, t = event 0x0802 7 s.cph.holder (freeLock s) ∧ Takes .cipherLockTimeout s t ∧ t.cph.holder = 0) ∧
  (∀ s : State, s.cph.holder = 0 ∨ s.cph.run.isSome = true ∨ s.cph.imp.isSome = true → Takes .cipherLockTimeout s s)

/-- An operation's end releases its result when both computations agree, and else is a fault: STATE is FAULT, no result stands, no nonce
is consumed and no key slot changes; the third fault within 1 s disables the engine (R408, R409). A decryption whose tag fails leaves no
plaintext and AUTH_FAIL. The same ends act on a sealed import (R411).
An import that a fault ends completes with AUTH_FAIL by the model's reading (log 69). -/
def Obligations.CipherOperationsEnd : Prop :=
  (∀ (s : State) (r : CphOp), s.cph.run = some r → (r.op ≠ 1 ∨ r.nonce < s.flash.nonceReserved) →
    (∃ t, t = cipherRelease r s ∧ Takes (.cipherOpDone true) s t ∧ t.cph.run = none ∧
      (r.op = 1 → t.cph.st = 2 ∧ t.cph.nonceCtr = s.cph.nonceCtr + 1) ∧
      (r.op = 2 → t.cph.st = if (Config.gcmOpen (slotKey s r.keySlot) r.iv r.aad r.text).2 = r.tag then 2 else 3)) ∧
    (∃ t, t = cipherFault r.op s ∧ Takes (.cipherOpDone false) s t ∧ t.cph.run = none ∧ t.cph.st = 4 ∧ t.cph.out = [] ∧
      t.cph.slots = s.cph.slots ∧ t.cph.nonceCtr = s.cph.nonceCtr)) ∧
  (∀ (s : State) (r : CphOp) (b : Bool), s.cph.run = some r → r.op = 1 → s.flash.nonceReserved ≤ r.nonce → Takes (.cipherOpDone b) s s) ∧
  (∀ (s : State) (m : Import), s.cph.run = none → s.cph.imp = some m → m.phase = 2 →
    (∃ t, t = impDecrypt m s ∧ Engages (.cipherOpDone true) s t ∧ ∃ x, t.cph.imp = some x ∧ x.phase = 3 ∧ x.cmd = m.cmd) ∧
    (∃ t, t = endImport m 0x000C (cipherFault 2 s) ∧ Engages (.cipherOpDone false) s t ∧ t.cph.imp = none ∧
      (s.cph.holder = 3 → t.cph.holder = 0))) ∧
  (∀ (s : State) (b : Bool), s.cph.run = none → (∀ m, s.cph.imp = some m → m.phase ≠ 2) → Takes (.cipherOpDone b) s s) ∧
  (∀ (s : State) (op : Nat), (cipherFault op s).cph.st = 4 ∧ (cipherFault op s).cph.run = none ∧ (cipherFault op s).cph.out = [] ∧
    (cipherFault op s).cph.slots = s.cph.slots ∧ (cipherFault op s).cph.nonceCtr = s.cph.nonceCtr ∧
    (cipherFault op s).cph.disabled =
      (s.cph.disabled || decide (2 ≤ (s.cph.faults.filter fun t => decide (s.now < t + sec)).length))) ∧
  (∀ (s : State) (r : CphOp), r.op = 2 → (Config.gcmOpen (slotKey s r.keySlot) r.iv r.aad r.text).2 ≠ r.tag →
    (cipherRelease r s).cph.st = 3 ∧ (cipherRelease r s).cph.out = [] ∧ (cipherRelease r s).cph.run = none) ∧
  (∀ (s : State) (r : CphOp), r.op = 1 → (cipherRelease r s).cph.st = 2 ∧ (cipherRelease r s).cph.nonceCtr = s.cph.nonceCtr + 1) ∧
  (∀ (cls ticket op key subj : Nat) (s : State), s.cph.holder = cls → s.cph.ticket = ticket → s.cph.run = none →
    cphCause s cls op key subj = 0 → (cphCommand cls ticket op key subj s).cph.st = 1 ∧ (cphCommand cls ticket op key subj s).cph.out = [] ∧
      (cphCommand cls ticket op key subj s).cph.slots = s.cph.slots) ∧
  (∀ (cls ticket op key subj : Nat) (s : State), s.cph.holder = cls → s.cph.ticket = ticket → s.cph.run = none →
    cphCause s cls op key subj ≠ 0 → cphCommand cls ticket op key subj s =
      { s with cph := { s.cph with st := 5, cause := cphCause s cls op key subj } })


/-! ## Start-up, supply and power -/

/-- The start sequence: power up from Off enables rail 0 alone; a rail that becomes good enables the next, and rail 23 ends the sequence;
a rail that does not, and a clock that does not come, turn the start down and latch (R360, R382, R423, R425, R455). With the clocks stable
the identity is shown and the start goes on; and the module restarts by itself where R442 says so. In another state, or for a rail whose
turn it is not, none of them has an effect, and a latch lets no start be made (R427). -/
def Obligations.TheStartSequenceRuns : Prop :=
  (∀ (s : State) (vin : Nat), s.plinth.st = 0 → s.plinth.latched = false → s.plinth.onReq = true ∨ s.plinth.alive = false →
    restartMv s ≤ vin →
    ∃ t, Takes (.powerUp vin) s t ∧ t.plinth.st = 1 ∧ t.plinth.vin = vin ∧ t.glb.step = 1 ∧ t.plinth.agtRst = 0xFF ∧ railSt t 0 = 1 ∧
      t.plinth.alive = true ∧ ∀ r, 1 ≤ r → r < 24 → railSt t r = 0) ∧
  (∀ (s : State) (vin : Nat), s.plinth.st ≠ 0 ∨ s.plinth.latched = true ∨ (s.plinth.onReq = false ∧ s.plinth.alive = true) ∨ vin < restartMv s →
    Takes (.powerUp vin) s s) ∧
  (∀ (s : State) (rail mv : Nat), rail < 23 → s.plinth.st = 1 → railSt s rail = 1 → railInWindow rail mv = true →
    ∃ t, t = setRail (rail + 1) 1 0 (setRail rail 2 mv s) ∧ Takes (.railGood rail mv) s t ∧ railSt t (rail + 1) = 1 ∧
      ∀ r, r ≠ rail → r ≠ rail + 1 → railSt t r = railSt s r) ∧
  (∀ (s : State) (mv : Nat), s.plinth.st = 1 → railSt s 23 = 1 → railInWindow 23 mv = true →
    ∃ t u, t = setRail 23 2 mv s ∧
      u = { t with glb := { t.glb with step := 2 }, plinth := { t.plinth with charger := true } } ∧
      (s.plinth.latchClr = false → Takes (.railGood 23 mv) s u) ∧
      (s.plinth.latchClr = true → Takes (.railGood 23 mv) s (supplyLog 7 0xFF 0 0 { u with plinth := { u.plinth with latchClr := false } }))) ∧
  (∀ (s : State) (rail mv : Nat), rail < 24 → s.plinth.st = 1 → railSt s rail = 1 →
    ∃ t, t = railsDown 6 (latch rail (supplyLog 1 rail mv 0 (setRail rail 3 mv s))) ∧ Takes (.railStart rail mv) s t ∧
      t.plinth.st = 7 ∧ t.plinth.cause = 6 ∧ t.plinth.latched = true ∧ t.plinth.firstRail = rail ∧ railSt t rail = 3 ∧
      t.plinth.logLast.isSome = true) ∧
  (∀ (s : State) (rail mv : Nat), s.plinth.st ≠ 1 ∨ railSt s rail ≠ 1 ∨ 24 ≤ rail →
    Takes (.railGood rail mv) s s ∧ Takes (.railStart rail mv) s s) ∧
  (∀ (s : State) (rail mv : Nat), railInWindow rail mv = false → Takes (.railGood rail mv) s s) ∧
  (∀ (s : State) (cycles : Nat), s.glb.step = 2 → (s.plinth.st = 1 ∨ s.plinth.st = 2) → s.glb.failed = false →
    ∃ t, Takes (.refStable cycles) s (bootSteps t) ∧ t = { s with
      clk := { s.clk with refCnt := cycles, refStable := true, locked := true }
      glb := { s.glb with identity := true, step := 3 }
      plinth := { s.plinth with idSeen := true } } ∧ (s.plinth.tapHold = true → bootSteps t = t)) ∧
  (∀ (s : State) (cycles : Nat), s.glb.step ≠ 2 ∨ (s.plinth.st ≠ 1 ∧ s.plinth.st ≠ 2) ∨ s.glb.failed = true → Takes (.refStable cycles) s s) ∧
  (∀ s : State, s.glb.step = 2 → (s.plinth.st = 1 ∨ s.plinth.st = 2) →
    ∃ t, t = railsDown 6 (latch 255 (supplyLog 8 0xFF 0 0 (saveEvents (event 0x0903 0 3 { s with glb := { s.glb with failCause := 3 } })))) ∧
      Takes .clockTimeout s t ∧ t.plinth.st = 7 ∧ t.plinth.cause = 6 ∧ t.plinth.latched = true ∧ t.plinth.firstRail = 255 ∧
      t.glb.failCause = 3) ∧
  (∀ s : State, s.glb.step ≠ 2 ∨ (s.plinth.st ≠ 1 ∧ s.plinth.st ≠ 2) → Takes .clockTimeout s s) ∧
  (∀ s : State, s.plinth.st = 0 → s.plinth.latched = false → s.plinth.alive = true → s.plinth.autoRe = true ∨ s.plinth.onReq = true →
    s.plinth.down = false →
    ∃ t, t = startRails s.plinth.vin s ∧ Takes .autoRestart s t ∧ t.plinth.st = 1 ∧ t.glb.step = 1 ∧ railSt t 0 = 1 ∧
      ∀ r, 1 ≤ r → r < 24 → railSt t r = 0) ∧
  (∀ s : State, s.plinth.st ≠ 0 ∨ s.plinth.alive = false ∨ (s.plinth.autoRe = false ∧ s.plinth.onReq = false) ∨ s.plinth.down = true →
    Takes .autoRestart s s) ∧
  (∀ s : State, s.plinth.latched = true → (∀ vin, Takes (.powerUp vin) s s) ∧ Takes .autoRestart s s)

/-- The paths of R360 meet at memory ready: the media path ends at step 12, or in the failed state with its cause (R382), the step of a domain
that was woken on demand being skipped, and a wake that failed ending start-up as its step would (R368); the bank is
measured once, and memory ready sets READY, ends AGT_RST_N and PFW_N and shows Run (R361, R449). -/
def Obligations.MemoryBecomesReady : Prop :=
  (∀ (s : State) (b : BootMedia) (off us : Nat), Engages (.dramTrained b off us) s (dramReady b off us s)) ∧
  (∀ (s : State) (b : BootMedia) (off us : Nat), s.glb.step = 6 → s.glb.failed = false → s.plinth.tapHold = false → tooHot s = false →
    ∃ t, t = dramReady b off us s ∧ Engages (.dramTrained b off us) s t ∧
      (∀ k, b = .dramFail k → s.clk.dram ≠ 0xFFFF → t.glb.failed = true ∧ t.glb.failCause = 4 ∧ t.glb.failUnit = k % 16) ∧
      (∀ c, b = .mediaFail c → s.clk.media ≠ 0xFFFFFFFF → t.glb.failed = true ∧ t.glb.failCause = 5 ∧ t.glb.failUnit = c % 32) ∧
      (b = .noMark ∨ s.medium.ckpts = [] ∧ b = .good → t.glb.failed = true ∧ t.glb.failCause = 6) ∧
      (b = .olderMark → s.medium.ckpts.length < 2 → t.glb.failed = true ∧ t.glb.failCause = 6) ∧
      (b = .good ∨ (∃ k, b = .dramFail k) ∧ s.clk.dram = 0xFFFF ∨ (∃ c, b = .mediaFail c) ∧ s.clk.media = 0xFFFFFFFF →
        s.medium.ckpts ≠ [] → t.glb.step = 12 ∧ t.tck.running = true ∧ t.clk.dram = 0xFFFF ∧ t.clk.media = 0xFFFFFFFF) ∧
      (b = .olderMark → 2 ≤ s.medium.ckpts.length → t.glb.step = 12 ∧ t.tck.running = true ∧ t.clk.dram = 0xFFFF ∧
        t.clk.media = 0xFFFFFFFF)) ∧
  (∀ (s : State) (c u : Nat), s.glb.wakeBad = some (c, u) → (wakeStep s).glb.failed = true ∧ (wakeStep s).glb.failCause = c ∧
    (wakeStep s).glb.failUnit = u) ∧
  (∀ s : State, s.glb.wakeBad = none → wakeStep s = s) ∧
  (∀ (s : State) (b : BootMedia) (off us : Nat), s.glb.step ≠ 6 ∨ s.glb.failed = true ∨ s.plinth.tapHold = true ∨ tooHot s = true →
    Engages (.dramTrained b off us) s s) ∧
  (∀ (s : State) (c vbank : Nat), 2 ≤ s.glb.step → s.glb.charged = false → (s.plinth.st = 1 ∨ s.plinth.st = 2) →
    ∃ t, Takes (.holdupCharged c vbank) s t ∧ t.glb.charged = true ∧ t.pwr.cMeas = c ∧ t.plinth.vbank = vbank ∧
      t.cch.limit = derivedLimit c vbank ∧ t.pwr.degraded = decide (c < 900)) ∧
  (∀ (s : State) (c vbank : Nat), s.glb.step < 2 ∨ s.glb.charged = true ∨ (s.plinth.st ≠ 1 ∧ s.plinth.st ≠ 2) →
    Takes (.holdupCharged c vbank) s s) ∧
  (∀ (s : State) (us : Nat), s.glb.step = 12 → s.glb.charged = true → s.glb.failed = false → s.plinth.tapHold = false → s.glb.memReady = false →
    (s.flash.appends.any fun a => a.part == 2 && a.r.key == 1) = false →
    ∃ t, t = memoryReady us s ∧ Engages (.memoryReady us) s t ∧ t.hst.ready = true ∧ t.glb.memReady = true ∧
    t.glb.readyUs = us ∧ t.plinth.st = 2 ∧ t.plinth.agtRst = 0 ∧ t.plinth.pfw = false ∧ t.medium.lossy = false) ∧
  (∀ (s : State) (us : Nat), s.glb.step ≠ 12 ∨ s.glb.charged = false ∨ s.glb.failed = true ∨ s.plinth.tapHold = true ∨ s.glb.memReady = true ∨
    (s.flash.appends.any fun a => a.part == 2 && a.r.key == 1) = true → Engages (.memoryReady us) s s)

/-- The shutdown of R434: a trip in Run warns, the interval's end quiesces toward the commit point, or toward HOLD when the input has
risen again (R440), the commit point takes the dump and takes the ports down, and the dump's end powers down. A good input cancels the
shutdown in HOLD alone. Over-voltage opens the input switch, which is a trip (R417), and its end closes it. What comes in another state has
no effect. What becomes of a drain that the trip cut short is the model's choice (log 156). -/
def Obligations.TheShutdownRunsItsSteps : Prop :=
  (∀ (s : State) (vin : Nat) (kind : TripKind), s.plinth.alive = true → s.plinth.down = false →
    kind = .threshold ∧ vin < s.pwr.trip * 50 ∨ kind = .relative ∧ s.pwr.dropPct ≠ 0 →
    ∃ t, t = tripped { s with plinth := { s.plinth with vin } } ∧ Engages (.inputTrip kind vin) s t ∧ t.plinth.down = true ∧
      (s.plinth.st = 2 → s.glb.memReady = true → s.pwr.drain = 0 → t.pwr.cntTrip = sat 64 s.pwr.cntTrip 1 ∧ t.plinth.st = 3 ∧
        t.plinth.pfw = true ∧ t.plinth.charger = false ∧ t.plinth.cause = 0 ∧ t.hst.pfw = true) ∧
      (s.plinth.st = 1 ∨ s.plinth.st = 2 ∧ s.glb.memReady = false → t.plinth.st = 7 ∧ t.plinth.cause = 6 ∧ t.plinth.autoRe = true) ∧
      (s.plinth.st = 4 → t.plinth.st = 5 ∧ t.tck.running = false) ∧
      (s.plinth.st = 6 → t.plinth.st = 3 ∧ t.pwr.drainSt = 0 ∧ t.ord.draining = true)) ∧
  (∀ (s : State) (vin : Nat) (kind : TripKind), s.plinth.alive = false ∨ s.plinth.down = true ∨
    kind = .threshold ∧ s.pwr.trip * 50 ≤ vin ∨ kind = .relative ∧ s.pwr.dropPct = 0 → Takes (.inputTrip kind vin) s s) ∧
  (∀ s : State, s.plinth.st = 2 → s.glb.memReady = true → s.pwr.drain = 0 →
    (tripped s).pwr.cntTrip = sat 64 s.pwr.cntTrip 1 ∧ (tripped s).plinth.st = 3 ∧ (tripped s).plinth.pfw = true ∧
    (tripped s).plinth.down = true ∧ (tripped s).plinth.charger = false ∧ (tripped s).plinth.cause = 0 ∧ (tripped s).hst.pfw = true) ∧
  (∀ s : State, s.plinth.st = 3 → s.ord.draining = false →
    ∃ t, t = warningEnds s ∧ Engages .warningIntervalEnd s t ∧ t.ord.draining = true ∧
      t.plinth.st = (if s.plinth.down = false ∧ s.plinth.cause = 0 then 4 else 3)) ∧
  (∀ s : State, s.plinth.st ≠ 3 ∨ s.ord.draining = true → Engages .warningIntervalEnd s s) ∧
  (∀ s : State, s.plinth.st = 3 → s.ord.draining = true →
    ∃ t, t = commit s ∧ Engages .commitPoint s t ∧ t.plinth.st = 5 ∧ t.tck.running = false ∧ t.hst.linkUp = false ∧
      (s.plinth.cause ≠ 1 → t.pwr.cntDump = sat 64 s.pwr.cntDump 1 ∧ ∃ d, t.medium.dump = some d ∧ d.gen = s.med.wseq ∧ d.complete = false)) ∧
  (∀ s : State, s.plinth.st ≠ 3 ∨ s.ord.draining = false → Takes .commitPoint s s) ∧
  (∀ (s : State) (us : Nat), s.plinth.st = 5 → s.plinth.cause ≠ 1 → ∃ t, Takes (.dumpComplete us) s t ∧ t.plinth.st = 7 ∧
    t.plinth.cause = s.plinth.cause ∧ t.plinth.logLast.isSome = true ∧ t.plinth.latched = (s.plinth.latched || s.plinth.cause == 2) ∧
    (s.medium.dump = none → t.medium.dump = none) ∧
    ∀ d, s.medium.dump = some d → ∃ e, t.medium.dump = some e ∧ e.complete = (s.plinth.cause != 2) ∧ e.us = us ∧ e.gen = d.gen ∧
      e.items.length = d.items.length) ∧
  (∀ (s : State) (us : Nat), s.plinth.st ≠ 5 ∨ s.plinth.cause = 1 → Takes (.dumpComplete us) s s) ∧
  (∀ (s : State) (vin : Nat), s.plinth.alive = true →
    Takes (.inputRise vin) s { s with plinth := { s.plinth with vin, down := s.plinth.down && (s.plinth.swOpen || decide (vin < restartMv s)) } }) ∧
  (∀ (s : State) (vin : Nat), s.plinth.alive = false → Takes (.inputRise vin) s s) ∧
  (∀ s : State, s.plinth.st = 4 → s.plinth.down = false → ∃ t, t = cancelShutdown s ∧ Engages .inputGood s t ∧
    t.plinth.st = (if s.pwr.drain = 2 then 6 else 2) ∧
    t.plinth.pfw = false ∧ t.hst.pfw = false ∧ t.ord.draining = false ∧ t.pwr.cntCancel = sat 64 s.pwr.cntCancel 1 ∧ t.links = s.links) ∧
  (∀ s : State, s.plinth.st ≠ 4 ∨ s.plinth.down = true → Engages .inputGood s s) ∧
  (∀ (s : State) (vin : Nat), s.plinth.alive = true → s.plinth.swOpen = false → 46000 < vin →
    ∃ t, t = { s with plinth := { s.plinth with swOpen := true, vin } } ∧
      (s.plinth.down = false → Engages (.overVoltage vin) s (tripped t) ∧ (tripped t).plinth.swOpen = true ∧ (tripped t).plinth.down = true) ∧
      (s.plinth.down = true → Engages (.overVoltage vin) s t)) ∧
  (∀ (s : State) (vin : Nat), s.plinth.alive = false ∨ s.plinth.swOpen = true ∨ vin ≤ 46000 → Takes (.overVoltage vin) s s) ∧
  (∀ (s : State) (vin : Nat), s.plinth.swOpen = true → vin < 44000 →
    Takes (.overVoltageEnd vin) s { s with plinth := { s.plinth with swOpen := false, vin, down := s.plinth.down && decide (vin < restartMv s) } }) ∧
  (∀ (s : State) (vin : Nat), s.plinth.swOpen = false ∨ 44000 ≤ vin → Takes (.overVoltageEnd vin) s s)

/-- The input's surges are recorded once each (R417, R450) and its limiting stops the charger until 64 courses have passed without it
(R421); a rail or a clock that fails after memory ready goes to the commit point without a warning (R426, R456): with a dump in the banks
that are powered when a package rail fails, and without one for any other; and a power-down takes the rails down in descending order, the
last one leaving the module Off (R423).
Each limiting that comes is counted (log 94). -/
def Obligations.TheSupplyIsWatched : Prop :=
  (∀ (s : State) (vin : Nat), s.plinth.alive = true → s.plinth.high = false → 40000 < vin →
    ∃ t, t = { s with plinth := { s.plinth with high := true, vin } } ∧
      (controllerUp s = true → Takes (.inputHigh vin) s (event 0x0A01 0xA vin t)) ∧
      (controllerUp s = false → Takes (.inputHigh vin) s t)) ∧
  (∀ (s : State) (vin : Nat), s.plinth.alive = false ∨ s.plinth.high = true ∨ vin ≤ 40000 → Takes (.inputHigh vin) s s) ∧
  (∀ (s : State) (vin : Nat), s.plinth.high = true → vin ≤ 40000 →
    Takes (.inputHighEnd vin) s { s with plinth := { s.plinth with high := false, vin } }) ∧
  (∀ (s : State) (vin : Nat), s.plinth.high = false ∨ 40000 < vin → Takes (.inputHighEnd vin) s s) ∧
  (∀ s : State, controllerUp s = true → ∃ t, Takes .inputLimit s t ∧ t = event 0x0A02 0xA s.plinth.vin { s with
      pwr := { s.pwr with limitNext := true, inputLimit := true, limitCourses := 0, cntLimit := sat 64 s.pwr.cntLimit 1 }
      plinth := { s.plinth with charger := false } } ∧
    t.pwr.inputLimit = true ∧ t.plinth.charger = false) ∧
  (∀ s : State, controllerUp s = false → Takes .inputLimit s s) ∧
  (∀ s : State, s.pwr.inputLimit = true → 64 ≤ s.pwr.limitCourses →
    Takes .inputLimitClear s (chargeAgain { s with pwr := { s.pwr with inputLimit := false } })) ∧
  (∀ s : State, s.pwr.limitCourses < 64 ∨ s.pwr.inputLimit = false → Takes .inputLimitClear s s) ∧
  (∀ (s : State) (rail mv : Nat), rail < 24 → railSt s rail = 2 → railInWindow rail mv = false →
    ∃ t, t = railFails rail mv 2 s ∧ Engages (.railRun rail mv) s t ∧ railSt t rail = 3 ∧
      (s.plinth.st = 2 → s.glb.memReady = true →
        (rail < 16 → t.plinth.st = 7 ∧ t.plinth.cause = 1 ∧ t.plinth.latched = true ∧ t.medium.lossy = true) ∧
        (16 ≤ rail → t.plinth.st = 5 ∧ t.plinth.cause = 2 ∧ t.plinth.firstRail = rail ∧ t.plinth.pfw = true ∧ t.tck.running = false)) ∧
      (s.plinth.st = 1 → t.plinth.st = 7 ∧ t.plinth.cause = 6 ∧ t.plinth.latched = true ∧ t.plinth.firstRail = rail)) ∧
  (∀ (s : State) (rail mv : Nat), 24 ≤ rail ∨ railSt s rail ≠ 2 ∨ railInWindow rail mv = true → Takes (.railRun rail mv) s s) ∧
  (∀ s : State, s.glb.memReady = true → ∃ t, t = railFails 255 0 8 s ∧ Engages .clockFail s t ∧
    (s.plinth.st = 2 → t.plinth.st = 7 ∧ t.plinth.cause = 1 ∧ t.plinth.latched = true ∧ t.plinth.firstRail = 255 ∧ t.medium.lossy = true)) ∧
  (∀ s : State, s.glb.memReady = false → Takes .clockFail s s) ∧
  (∀ (s : State) (mv rail kind : Nat), s.plinth.st = 2 → s.glb.memReady = true → (rail < 16 ∨ 24 ≤ rail) →
    (railFails rail mv kind s).plinth.st = 7 ∧ (railFails rail mv kind s).plinth.pfw = true ∧ (railFails rail mv kind s).plinth.latched = true ∧
    (railFails rail mv kind s).medium.lossy = true) ∧
  (∀ (s : State) (r : Nat), s.plinth.st = 7 → topRail s = some r → railHeld s r = false →
    ((topRail (setRail r 0 0 s)).isSome = true → Takes (.railDisable r) s (setRail r 0 0 s)) ∧
    (topRail (setRail r 0 0 s) = none → ∃ t, t = controllerOff (setRail r 0 0 s) ∧ Takes (.railDisable r) s t ∧ t.plinth.st = 0 ∧
      t.glb = {} ∧ t.tck = {} ∧ t.cch = {})) ∧
  (∀ (s : State) (r : Nat), s.plinth.st ≠ 7 ∨ topRail s ≠ some r ∨ railHeld s r = true → Takes (.railDisable r) s s)

/-- The bank: a measurement stops the charger, is due after 24 operating hours, and gives C, DEGRADED below 9 mF, and L; the limit follows
the present bank voltage (R430 to R432). L is the whole number of 512 B units that the energy of R431 leaves after its 1.5 J, and 4 GiB at
most: it never falls when C or the bank voltage rises. A measurement that is not due, or not under way, has no effect, and the limit stands
while C has not been measured.
The rounding to whole units is the model's choice (log 26). -/
def Obligations.TheLimitFollowsTheBank : Prop :=
  (∀ s : State, s.glb.memReady = true → s.plinth.st = 2 → s.pwr.measuring = false → 24 ≤ hoursSince s →
    Takes .holdupMeasure s { s with pwr := { s.pwr with measuring := true }, plinth := { s.plinth with charger := false } }) ∧
  (∀ s : State, s.glb.memReady = false ∨ s.plinth.st ≠ 2 ∨ s.pwr.measuring = true ∨ hoursSince s < 24 → Takes .holdupMeasure s s) ∧
  (∀ (s : State) (c v : Nat), s.pwr.measuring = true →
    ∃ t, t = chargeAgain (measured c v 1 s) ∧ Engages (.holdupMeasureDone c v) s t ∧ t.pwr.cMeas = c ∧
      t.pwr.degraded = decide (c < 900) ∧ t.pwr.measuring = false ∧ t.cch.limit = derivedLimit c v ∧ t.plinth.vbank = v ∧
      t.pwr.cntMeasure = sat 64 s.pwr.cntMeasure 1) ∧
  (∀ (s : State) (c v : Nat), s.pwr.measuring = false → Takes (.holdupMeasureDone c v) s s) ∧
  (∀ (s : State) (v : Nat), s.glb.charged = true → Engages (.dirtyLimitRecompute v) s { s with
    plinth := { s.plinth with vbank := v }, cch := { s.cch with limit := derivedLimit s.pwr.cMeas v } }) ∧
  (∀ (s : State) (v : Nat), s.glb.charged = false → Takes (.dirtyLimitRecompute v) s s) ∧
  (∀ c v : Nat, derivedLimit c v ≤ 8388608 ∧ (v ≤ 1600 → derivedLimit c v = 0) ∧ (4500 ≤ v → derivedLimit c v = derivedLimit c 4500)) ∧
  (∀ c c' v v' : Nat, c ≤ c' → v ≤ v' → derivedLimit c v ≤ derivedLimit c' v') ∧
  (∀ c v l : Nat, v ≤ 4500 → derivedLimit c v = l → l < 8388608 → 150000000000 ≤ 36 * c * (v * v - 2560000) →
    l * 90000000000 ≤ (36 * c * (v * v - 2560000) - 150000000000) * 2097152 ∧
    (36 * c * (v * v - 2560000) - 150000000000) * 2097152 < (l + 1) * 90000000000)

/-- Requests and resets (R427, R443 to R448, R531): a press clears a latch and asks for a start, an off request in Run begins the orderly
shutdown, forced off takes the rails down at once, and a module reset is asked for by MR_N or the key, merged into one under way, and ends
its drain in a reset. The orderly shutdown's drain ends in the power-down, and that of a life-cycle change in its record (R388, R444). A
hard reset and the loss of the plinth domain act at once.
Requests in the states between Off and Run act as log 56 says. -/
def Obligations.RequestsAndResetsAct : Prop :=
  (∀ s : State, s.plinth.alive = true →
    (s.plinth.latched = true → s.plinth.hotComps = [] → s.plinth.st = 0 →
      Takes .pbShortPress s { s with plinth := { s.plinth with latched := false, latchClr := true, onReq := true } }) ∧
    (s.plinth.latched = true → s.plinth.hotComps ≠ [] → Takes .pbShortPress s s) ∧
    (s.plinth.latched = false → s.glb.failed = false → s.plinth.st = 0 →
      Takes .pbShortPress s { s with plinth := { s.plinth with onReq := true } }) ∧
    (s.plinth.latched = false → s.glb.failed = false → s.plinth.st = 2 → Takes .pbShortPress s s) ∧
    (s.plinth.latched = false → s.glb.failed = true → Takes .pbShortPress s (requestReset s))) ∧
  (∀ s : State, s.plinth.alive = false → Takes .pbShortPress s s ∧ Takes .pbHoldOff s s ∧ Takes .forcedOff s s) ∧
  (∀ s : State, s.plinth.alive = true →
    (s.plinth.st = 2 → s.glb.memReady = true → s.pwr.drain < 2 →
      Engages .pbHoldOff s { s with pwr := { s.pwr with drain := 2 }, plinth := { s.plinth with st := 6 } }) ∧
    (s.plinth.st = 2 → s.glb.memReady = true → 2 ≤ s.pwr.drain → Engages .pbHoldOff s s) ∧
    (s.plinth.st = 1 ∨ s.plinth.st = 2 ∧ s.glb.memReady = false → ∃ t, Engages .pbHoldOff s t ∧ t.plinth.st = 7 ∧ t.plinth.cause = 6 ∧
      t.plinth.onReq = false ∧ t.plinth.autoRe = false) ∧
    (s.plinth.st = 0 ∨ 3 ≤ s.plinth.st →
      Engages .pbHoldOff s { s with plinth := { s.plinth with onReq := false, autoRe := false } })) ∧
  (∀ s : State, s.plinth.alive = true → s.plinth.st = 2 → s.glb.memReady = true → ∃ t, Takes .forcedOff s t ∧ t.plinth.st = 7 ∧
    t.plinth.cause = 4 ∧ t.medium.lossy = true ∧ t.plinth.onReq = false) ∧
  (∀ s : State, s.plinth.st = 0 → Takes .forcedOff s s) ∧
  (∀ s : State, s.plinth.st = 2 → s.glb.memReady = true → s.pwr.drain = 0 → Engages .mrRelease s { s with pwr := { s.pwr with drain := 1 } }) ∧
  (∀ s : State, s.plinth.st = 2 → s.glb.memReady = true → s.pwr.drain ≠ 0 → Engages .mrRelease s s) ∧
  (∀ s : State, s.plinth.st = 1 ∨ s.plinth.st = 2 → s.glb.memReady = false → Engages .mrRelease s (moduleReset s)) ∧
  (∀ s : State, s.plinth.st ≠ 1 → s.plinth.st ≠ 2 → Engages .mrRelease s s) ∧
  (∀ s : State, HostReaches s 0x0000050 →
    (s.glb.failed = false → ∃ t, t = requestReset (tlpIn s) ∧ Engages .glbResetKey s t ∧
      (s.plinth.st = 2 → s.glb.memReady = true → s.pwr.drain = 0 → t.pwr.drain = 1) ∧
      (s.plinth.st = 1 ∨ s.plinth.st = 2 → s.glb.memReady = false → t = moduleReset (tlpIn s))) ∧
    (s.glb.failed = true → Engages .glbResetKey s (tlpIn s))) ∧
  (∀ s : State, hostUp s = false → Engages .glbResetKey s s) ∧
  (∀ s : State, s.pwr.drainSt = 5 →
    (s.pwr.drain = 1 → ∃ t, t = moduleReset s ∧ Takes .drainComplete s t ∧ t.glb = {} ∧ t.plinth.agtRst = 0xFF) ∧
    (s.pwr.drain = 2 → ∃ t, Takes .drainComplete s t ∧ t.plinth.st = 7 ∧ t.plinth.cause = 5 ∧ t.plinth.off = true ∧
      t.plinth.logLast.isSome = true) ∧
    (∀ target owner, s.pwr.drain = 3 → s.hst.lc = some (target, owner) → s.sec.lcStep = 0 →
      ∃ t, Takes .drainComplete s t ∧ t.sec.lcStep = 3 ∧ t.flash.appends.length = s.flash.appends.length + 1 ∧ t.fuses = s.fuses)) ∧
  (∀ s : State, s.pwr.drainSt ≠ 5 → Takes .drainComplete s s) ∧
  (∀ s : State, s.plinth.st = 2 ∨ s.plinth.st = 3 → ∃ t, Takes .hardReset s t ∧ t.plinth.st = 2 ∧ t.plinth.agtRst = 0xFF ∧ t.glb = {} ∧
    t.tck = {} ∧ t.cch = {} ∧ t.plinth.logLast.isSome = true) ∧
  (∀ s : State, s.plinth.st = 0 ∨ s.plinth.st = 7 → Takes .hardReset s s) ∧
  (∀ s : State, ∃ t, Takes .plinthDomainLoss s t ∧ t.plinth.alive = false ∧ t.plinth.st = 0 ∧ t.plinth.latched = false ∧ t.glb = {} ∧
    t.tck = {} ∧ ∀ r, r < 24 → railSt t r = 0) ∧
  (∀ s : State, (moduleReset s).tck = {} ∧ (moduleReset s).glb = {} ∧ (moduleReset s).cch = {} ∧ (moduleReset s).dir = {} ∧
    (moduleReset s).pmc = {} ∧ (moduleReset s).plinth.agtRst = 0xFF ∧ (moduleReset s).plinth.st = 2 ∧ (moduleReset s).fuses = s.fuses ∧
    (moduleReset s).medium = s.medium ∧ (moduleReset s).grp.id = s.grp.id)

/-- CLK_GATE in flat mode takes every unit bit and keeps its parents' bits 1 (R458); in tree mode a bit is refused, with REFUSED set, when
it would stop a unit in use, or a parent of a running child, or start one under a stopped parent, and keeps its value (R459). A unit
whose bit is 1 is clocked when it has been ungated (R460). -/
def Obligations.ClockGatingFollowsItsTree : Prop :=
  (∀ (s : State) (v : BitVec 32), HostReaches s 0x0C00010 →
    ∃ t, t = writeGate (v.setWidth 27) (tlpIn s) ∧ Engages (.clkGateWrite v) s t ∧ t.clk.gate = (gateAfter s (v.setWidth 27)).1 ∧
      t.clk.refused = (s.clk.refused || (gateAfter s (v.setWidth 27)).2)) ∧
  (∀ (s : State) (v : BitVec 32), hostUp s = false → Engages (.clkGateWrite v) s s) ∧
  (∀ (s : State) (v : BitVec 27), s.clk.tree = false →
    ∀ u, u < 27 → (gateAfter s v).1.getLsbD u = (v.getLsbD u || decide (24 ≤ u)) ∧ (gateAfter s v).2 = false) ∧
  (∀ (s : State) (v : BitVec 27) (u : Nat), s.clk.tree = true → u < 24 →
    (s.clk.gate.getLsbD u = true → v.getLsbD u = false → (gateAfter s v).1.getLsbD u = inUse s u) ∧
    (s.clk.gate.getLsbD u = false → v.getLsbD u = true →
      (gateAfter s v).1.getLsbD u = (s.clk.gate.getLsbD (parentOf u) || v.getLsbD (parentOf u))) ∧
    (v.getLsbD u = s.clk.gate.getLsbD u → (gateAfter s v).1.getLsbD u = v.getLsbD u)) ∧
  (∀ (s : State) (v : BitVec 27) (p : Nat), s.clk.tree = true → 24 ≤ p → p < 27 →
    (gateAfter s v).1.getLsbD p = (v.getLsbD p ||
      (s.clk.gate.getLsbD p && (upto 24).any fun u => parentOf u == p && (gateAfter s v).1.getLsbD u))) ∧
  (∀ (s : State) (v : BitVec 27), s.clk.tree = true → ((gateAfter s v).2 = true ↔ (gateAfter s v).1 ≠ v)) ∧
  (∀ (s : State) (v : BitVec 27), (writeGate v s).clk.gate = (gateAfter s v).1 ∧
    (writeGate v s).clk.refused = (s.clk.refused || (gateAfter s v).2)) ∧
  (∀ (s : State) (u : Nat), u < 27 → s.clk.gate.getLsbD u = true → s.clk.gateSt.getLsbD u = false →
    ∃ t, t = ungateUnit u s ∧ Takes (.unitUngated u) s t ∧ t.clk.gateSt = s.clk.gateSt ||| ((1 : BitVec 27) <<< u) ∧ t.clk.gate = s.clk.gate) ∧
  (∀ (s : State) (u : Nat), 27 ≤ u ∨ s.clk.gate.getLsbD u = false ∨ s.clk.gateSt.getLsbD u = true → Takes (.unitUngated u) s s) ∧
  (∀ (s : State) (u : Nat), u < 27 → s.clk.gate.getLsbD u = true → (ungateUnit u s).clk.gateSt.getLsbD u = true) ∧
  (∀ (s : State) (u : Nat), s.clk.gate.getLsbD u = false → ungateUnit u s = s)

/-! ## Errors, the cornerstone flash and the observers -/

/-- A location that failed is tested, retried while it is in use, and dropped after its hundredth attempt (R486); a test ends with its
outcome (R488), and a scrubber's finding takes its route (R481, R482, R490). A corrected error is counted, and every detection starts a
test of its location.
A page that partly fails is an upset by the model's reading (log 43), and the end of a lap is too (log 44). -/
def Obligations.ErrorsAreTestedAndScrubbed : Prop :=
  (∀ (s : State) (m loc : Nat) (t : STest), testOf s m loc = some t → t.running = false →
    let tried (u : State) := u = tryTest t s ∧
      (testBusy s m loc = false → (m = 7 → mediaRoom s = true) → testOf u m loc = some { t with running := true }) ∧
      (testBusy s m loc = true → t.tries < 99 → u.med = s.med ∧ testOf u m loc = some { t with tries := t.tries + 1 }) ∧
      (testBusy s m loc = true → 99 ≤ t.tries → testOf u m loc = none)
    (t.tries = 0 → (∃ u, Engages (.selfTestAuto m loc) s u ∧ tried u) ∧ Takes (.selfTestRetry m loc) s s) ∧
    (t.tries ≠ 0 → (∃ u, Engages (.selfTestRetry m loc) s u ∧ tried u) ∧ Takes (.selfTestAuto m loc) s s)) ∧
  (∀ (s : State) (m loc : Nat), (testOf s m loc).all (fun t => t.running) = true →
    Takes (.selfTestAuto m loc) s s ∧ Takes (.selfTestRetry m loc) s s) ∧
  (∀ (s : State) (t : STest), testBusy s t.mem t.loc = true →
    (t.tries < 99 → tryTest t s = onTest t.mem t.loc (fun t => { t with tries := t.tries + 1 }) s) ∧
    (99 ≤ t.tries → tryTest t s = event 0x0B02 0 t.loc (dropTest t.mem t.loc s))) ∧
  (∀ (s : State) (m loc : Nat) (good : Bool) (t : STest), testOf s m loc = some t → t.running = true → (m ≠ 7 ∨ 3 ≤ t.senses) →
    ∃ u, u = endTest t good s ∧ Engages (.selfTestDone m loc good) s u ∧ (m ≠ 7 → outcome s t good ≠ 2 → testOf u m loc = none) ∧
      (m ≠ 7 → good = false → u.err.status ||| 2 = u.err.status)) ∧
  (∀ (s : State) (m loc : Nat) (good : Bool), (testOf s m loc).all (fun t => !t.running || (m == 7 && decide (t.senses < 3))) = true →
    Takes (.selfTestDone m loc good) s s) ∧
  (∀ (s : State) (m loc : Nat) (f : EccFind), s.glb.memReady = true → s.pwr.runSt ≠ 2 → m < 7 → testLocOk s m loc = true →
    ∃ t, t = scrubbed m loc f s ∧ Engages (.scrubCorrection m loc f) s t ∧
      (f = .clean → loc ≠ lastLoc s m → t = s) ∧
      (f = .corrected → (t.err.tests.any fun x => x.mem == m && x.loc == loc) = true ∧ (m, loc) ∈ t.err.errLocs)) ∧
  (∀ (s : State) (m loc : Nat) (f : EccFind), s.glb.memReady = false ∨ s.pwr.runSt = 2 ∨ 7 ≤ m ∨ testLocOk s m loc = false →
    Takes (.scrubCorrection m loc f) s s) ∧
  (∀ (s : State) (m loc : Nat), (corrected m loc s).err.tests.any (fun t => t.mem == m && t.loc == loc) = true ∧
    (m, loc) ∈ (corrected m loc s).err.errLocs) ∧
  (∀ (s : State) (t : STest), t.mem ≠ 7 → outcome s t false = 2) ∧
  (∀ (s : State) (t : STest), t.mem ≠ 7 → (t.mem, t.loc) ∉ s.err.errLocs → outcome s t true = 0)

/-- The cornerstone flash: the end of an append on one device goes on with the other, and a record is durable once the last device that
works has it (R496, R501); an erased sector is ready (R494); a power-cycle's seconds are recorded every 360 (R498). An image operation
starts on a slot that the module did not start from and is refused on the other, and its end erases the slot or programs its page (R503).
OFFSET takes the nearest multiple of 256 below 4 MiB (R505, R554).
That an operation asked for during another has no effect, and what a failed one leaves, are the model's choices (logs 45 and 74). -/
def Obligations.TheFlashTakesRecordsAndImages : Prop :=
  (∀ (s : State) (part dev : Nat) (ok : Bool), s.plinth.st ≠ 0 →
    Takes (.cornerstoneAppendDone part dev ok) s (lcRecorded (appendDone part dev ok s))) ∧
  (∀ (s : State) (n : Nat) (a : Append), (s.flash.appends.find? fun a => a.part == n) = some a → a.phase = 0 → s.flash.ok1 = true →
    appendDone n 0 true s = { s with flash := { s.flash with
      appends := s.flash.appends.map fun x => if x = a then { a with r := { a.r with dev0 := true }, phase := 1 } else x } }) ∧
  (∀ (s : State) (n : Nat) (a : Append), (s.flash.appends.find? fun a => a.part == n) = some a → a.phase = 1 →
    appendDone n 1 true s = recordDurable n { a.r with dev1 := true } { s with flash := { s.flash with appends := s.flash.appends.erase a } }) ∧
  (∀ (s : State) (dev sector : Nat), s.plinth.st ≠ 0 → sector ≠ 66 → Takes (.cornerstoneEraseDone dev sector true) s (eraseDone dev sector true s)) ∧
  (∀ (s : State) (dev : Nat), s.plinth.st ≠ 0 → Takes (.cornerstoneEraseDone dev 66 true) s (keyErased dev s)) ∧
  (∀ s : State, s.plinth.st ≠ 0 → 3 ≤ s.glb.step →
    ∃ t, Takes .operatingSecondsRecord s t ∧ t.flash.opSeconds = s.flash.opSeconds + 360 ∧ t.flash.parts = s.flash.parts) ∧
  (∀ (s : State) (part dev sector : Nat) (ok : Bool), s.plinth.st = 0 →
    Takes (.cornerstoneAppendDone part dev ok) s s ∧ Takes (.cornerstoneEraseDone dev sector ok) s s) ∧
  (∀ s : State, s.plinth.st = 0 ∨ s.glb.step < 3 → Takes .operatingSecondsRecord s s) ∧
  (∀ (s : State) (slot : Nat), slot < 2 → HostReaches s 0x1100040 →
    ∃ t, Takes (.eraseSlot slot) s t ∧ t.flash = s.flash ∧ t.ldg.slot = slot ∧ t.ldg.offset = s.ldg.offset ∧
      (s.ldg.busy = true → t.ldg = { s.ldg with slot }) ∧
      (s.ldg.busy = false → s.glb.imageApplied = true → s.glb.slot = slot → t.ldg.busy = false ∧ t.ldg.status = 2) ∧
      (s.ldg.busy = false → (s.glb.imageApplied = false ∨ s.glb.slot ≠ slot) →
        t.ldg.busy = true ∧ t.ldg.op = 1 ∧ t.ldg.opSlot = slot ∧ t.ldg.status = 0)) ∧
  (∀ (s : State) (slot offset : Nat), slot < 2 → offset % 256 = 0 → offset < 4 * 2 ^ 20 → HostReaches s 0x1100040 →
    ∃ t, Takes (.program slot offset) s t ∧ t.flash = s.flash ∧ t.ldg.slot = slot ∧ t.ldg.offset = offset ∧
      (s.ldg.busy = true → t.ldg = { s.ldg with slot, offset }) ∧
      (s.ldg.busy = false → s.glb.imageApplied = true → s.glb.slot = slot → t.ldg.busy = false ∧ t.ldg.status = 2) ∧
      (s.ldg.busy = false → (s.glb.imageApplied = false ∨ s.glb.slot ≠ slot) →
        t.ldg.busy = true ∧ t.ldg.op = 2 ∧ t.ldg.opSlot = slot ∧ t.ldg.opOff = offset ∧ t.ldg.status = 0)) ∧
  (∀ (s : State) (slot offset : Nat), slot < 2 → HostReaches s 0x1100040 →
    ∃ t, Takes (.program slot offset) s t ∧ t.ldg.slot = slot ∧
      t.ldg.offset = min ((offset % 2 ^ 32 + 128) / 256 * 256) (4 * 2 ^ 20 - 256)) ∧
  (∀ (s : State) (slot offset : Nat), hostUp s = false → Takes (.eraseSlot slot) s s ∧ Takes (.program slot offset) s s) ∧
  (∀ (s : State) (ok : Bool), s.ldg.busy = true → ∃ t, t = endImageOp ok s ∧ Takes (.imageOpDone ok) s t ∧ t.ldg.busy = false ∧
    t.ldg.status = (if ok then 0 else 1) ∧
    (ok = true → s.ldg.op = 1 → t.flash = if s.ldg.opSlot = 0 then { s.flash with slotA := [] } else { s.flash with slotB := [] }) ∧
    (ok = true → s.ldg.op = 2 → t.flash =
      let page := Memory.readN 0 s.ldg.buf 0 256
      if s.ldg.opSlot = 0 then { s.flash with slotA := Memory.writeN 0xFF s.flash.slotA s.ldg.opOff page }
      else { s.flash with slotB := Memory.writeN 0xFF s.flash.slotB s.ldg.opOff page })) ∧
  (∀ (s : State) (ok : Bool), s.ldg.busy = false → Takes (.imageOpDone ok) s s)

/-- A write of FREEZE = 1 stops every counter: no event counts (R509). FREEZE = 0 lets them count, CLEAR zeroes every counter, overflow bit
and shadow, and a unit's own CLEAR those of its unit alone. A counter at its last value carries: it wraps to 0 and sets its overflow bit,
or the counter it is chained to counts (R508).
The row PMC_OVERFLOW is one more event (log 98). -/
def Obligations.CountersFreezeClearAndCarry : Prop :=
  (∀ s : State, HostReaches s 0x0F00000 →
    Takes .freeze s { tlpIn s with pmc := { (tlpIn s).pmc with freeze := true } } ∧
    Takes .freezeRelease s { tlpIn s with pmc := { (tlpIn s).pmc with freeze := false } } ∧
    ∃ t, t = clearCounters (tlpIn s) ∧ Takes .pmcClear s t ∧ t.pmc.freeze = s.pmc.freeze ∧
      (Table.wf {} s.pmc.units = true → ∀ u, (pmcUnit t u).cyc = 0 ∧ (pmcUnit t u).pc = [] ∧ (pmcUnit t u).ovf = 0)) ∧
  (∀ (s : State) (u : Nat), hostUp s = false →
    Takes .freeze s s ∧ Takes .freezeRelease s s ∧ Takes .pmcClear s s ∧ Takes (.unitClear u) s s) ∧
  (∀ (s : State) (u code n : Nat), s.pmc.freeze = true → count u code n s = s) ∧
  (∀ (s : State) (u : Nat), Table.wf {} s.pmc.units = true →
    pmcUnit (clearCounters s) u = { pmcUnit s u with cyc := 0, scyc := 0, pc := [], spc := [], ovf := 0 }) ∧
  (∀ (s : State) (u : Nat), isCounterUnit u = true → HostReaches s (0x0F01008 + 0x100 * u) →
    ∃ t, t = clearUnit u (tlpIn s) ∧ Takes (.unitClear u) s t ∧
      (Table.wf {} s.pmc.units = true → (pmcUnit t u).cyc = 0 ∧ (pmcUnit t u).pc = [] ∧ (pmcUnit t u).ovf = 0)) ∧
  (∀ (s : State) (u : Nat), isCounterUnit u = false → Takes (.unitClear u) s s) ∧
  (∀ (s : State) (u v : Nat), v ≠ u → pmcUnit (clearUnit u s) v = pmcUnit s v) ∧
  (∀ (s : State) (u i : Nat), isCounterUnit u = true → i < 8 → pmcStopped s = false → chained (pmcUnit s u) i = false →
    tget 0 (pmcUnit s u).pc i = 2 ^ 32 - 1 →
    Takes (.pmcOverflow u i) s (pmcCarry u i (onUnit u (fun p => { p with pc := tset 0 p.pc i 0 }) s))) ∧
  (∀ (s : State) (u i : Nat), isCounterUnit u = false ∨ 8 ≤ i ∨ pmcStopped s = true ∨ chained (pmcUnit s u) i = true ∨
    tget 0 (pmcUnit s u).pc i ≠ 2 ^ 32 - 1 → Takes (.pmcOverflow u i) s s)

/-- Records are appended four to a slot, or after 100 ms (R519), a suppressed event is recorded by itself at last, and a FATAL event is
always recorded: it takes no token, and neither bucket nor a full store suppresses it (R518). An event that is suppressed is counted and
leaves the store as it stands.
A late record waits while the store is full (log 99). -/
def Obligations.EventsAreRecordedOrSuppressed : Prop :=
  (∀ s : State, ∃ t, t = appendSlot (s.evr.waiting.length - evInFlight s) s ∧ Takes .eventSlotTimer s t ∧ t.evr = s.evr ∧
    (s.evr.waiting.length ≤ evInFlight s → t = s) ∧
    (evInFlight s < s.evr.waiting.length → ∃ a, t.flash.appends = s.flash.appends ++ [a] ∧ a.part = 5 ∧
      a.r.key = s.evr.waiting.length - evInFlight s)) ∧
  (∀ (s : State) (code : Nat) (e : EvRec), (bucket s code).lastEv = some e → s.evr.waiting.length < 4096 →
    ∃ t, t = recordEvent { e with suppressed := min ((bucket s code).supp - 1) 65535 }
      { s with evr := { s.evr with buckets := tset {} s.evr.buckets code { bucket s code with supp := 0, lastEv := none } } } ∧
      Takes (.eventLateRecord code) s t ∧ ∃ r, t.evr.waiting = r :: s.evr.waiting ∧ r.code = e.code ∧ r.operand = e.operand ∧
        r.suppressed = min ((bucket s code).supp - 1) 65535) ∧
  (∀ (s : State) (code : Nat), (bucket s code).lastEv = none ∨ 4096 ≤ s.evr.waiting.length → Takes (.eventLateRecord code) s s) ∧
  (∀ (s : State) (code src operand : Nat), severity code = 4 →
    ∃ e, (event code src operand s).evr.waiting = e :: s.evr.waiting ∧ e.code = code ∧ e.source = src ∧ e.severity = 4 ∧
      e.operand = BitVec.ofNat 64 operand ∧ e.seq = newestSeq s + 1 ∧
      (event code src operand s).evr.cntWritten = sat 64 s.evr.cntWritten 1 ∧
      (event code src operand s).evr.all.level = (refill s.now s.evr.all).level) ∧
  (∀ (s : State) (code src operand : Nat), severity code ≠ 4 → 4096 ≤ s.evr.waiting.length →
    (event code src operand s).evr.waiting = s.evr.waiting ∧ (event code src operand s).evr.cntSupp = sat 64 s.evr.cntSupp 1 ∧
    (event code src operand s).flash = s.flash) ∧
  (∀ (s : State) (code src operand : Nat), severity code ≠ 4 → token ≤ (refill s.now (bucket s code)).level → token ≤ (refill s.now s.evr.all).level →
    s.evr.waiting.length < 4096 →
    ∃ e, (event code src operand s).evr.waiting = e :: s.evr.waiting ∧ e.code = code ∧ e.operand = BitVec.ofNat 64 operand ∧
      (event code src operand s).evr.all.level = (refill s.now s.evr.all).level - token)

/-- The side-band answers each read command with its bytes, least significant first, and discards a transaction whose PEC fails (R546,
R547); it acknowledges its three writes, which act as R443 and R548 say, answers the Alert Response Address while ALERT_N is asserted,
and NACKs an unknown code or another value (R548).
The place of the address in its byte is that of the SMBus specification (log 54), and TEMP_MAX while Off is any value (log 101). -/
def Obligations.TheSideBandAnswers : Prop :=
  (∀ s : State, s.plinth.alive = true →
    let answer (d : List Byte) (s : State) : State := { s with out := .smbus (some d) :: s.out }
    Takes (.status true) s (answer (leBytes 2 (smbusStatus s)) s) ∧
    smbusStatus s = s.plinth.st % 16 + 16 * b2n s.plinth.latched
      + 32 * b2n (if s.plinth.st = 0 then s.plinth.degHeld else s.pwr.degraded) + 64 * b2n s.glb.failed + 128 * b2n (alert s)
      + s.plinth.firstRail % 256 * 256 ∧
    Takes (.vin true) s (answer (leBytes 2 s.plinth.vin) s) ∧
    (s.plinth.st ≠ 0 → Takes (.tempMax true) s (answer (leBytes 2 (twos 16 (sensor s (hottest s)).temp)) s)) ∧
    (s.plinth.st = 0 → ∃ v, Takes (.tempMax true) s (answer (leBytes 2 v) { s with fv := s.fv + 1 })) ∧
    Takes (.inlet true) s (answer (leBytes 2 (if s.plinth.st = 0 then 0x8000 else twos 16 (sensor s 85).temp)) s) ∧
    Takes (.tripLast true) s (answer (leBytes 4 (readThm s 0x20)) s) ∧
    Takes (.fatalLast true) s (answer (leBytes 4 (fatalLastWord s)) s) ∧
    Takes (.ident true) s (answer (if s.plinth.idSeen then leBytes 4 (idWord s) ++ leBytes 4 s.fuses.serial.toNat
      ++ leBytes 4 s.fuses.fwLevel.toNat ++ leBytes 1 s.grp.id ++ leBytes 3 0 else leBytes 16 0) s) ∧
    Takes (.holdup true) s (answer (leBytes 2 (if s.plinth.st = 0 then s.plinth.cHeld else s.pwr.cMeas) ++ leBytes 2 s.plinth.vbank
      ++ leBytes 2 (b2n (if s.plinth.st = 0 then s.plinth.degHeld else s.pwr.degraded))) s) ∧
    Takes (.logLast true) s (answer (match s.plinth.logLast with | some r => supplyBytes r | none => leBytes 24 0) s) ∧
    Engages (.powerOn true) s (onRequest (answer [] s)) ∧ Engages (.powerOff true) s (offRequest (answer [] s)) ∧
    Engages (.clearLatch true) s (clearLatch (answer [] s)) ∧
    (alert s = true → Takes (.alertResponse true) s (answer (leBytes 1 (2 * (0x58 + s.grp.id))) s)) ∧
    (alert s = false → Takes (.alertResponse true) s { s with out := .smbus none :: s.out }) ∧
    (∀ code data, smbusBad code data = true → Takes (.smbusUnknownCommand code data) s { s with out := .smbus none :: s.out })) ∧
  (∀ (s : State) (b : Bool), s.plinth.alive = false →
    Takes (.status b) s s ∧ Takes (.vin b) s s ∧ Takes (.tempMax b) s s ∧ Takes (.inlet b) s s ∧ Takes (.tripLast b) s s ∧
    Takes (.fatalLast b) s s ∧ Takes (.ident b) s s ∧ Takes (.holdup b) s s ∧ Takes (.logLast b) s s ∧ Takes (.powerOn b) s s ∧
    Takes (.powerOff b) s s ∧ Takes (.clearLatch b) s s ∧ Takes (.alertResponse b) s s ∧
    ∀ code data, Takes (.smbusUnknownCommand code data) s s) ∧
  (∀ (s : State) (code data : Byte), smbusBad code data = false → Takes (.smbusUnknownCommand code data) s s) ∧
  (∀ s : State, Takes (.status false) s s ∧ Takes (.vin false) s s ∧ Takes (.tempMax false) s s ∧ Takes (.inlet false) s s ∧
    Takes (.tripLast false) s s ∧ Takes (.fatalLast false) s s ∧ Takes (.ident false) s s ∧ Takes (.holdup false) s s ∧
    Takes (.logLast false) s s ∧ Takes (.powerOn false) s s ∧ Takes (.powerOff false) s s ∧ Takes (.clearLatch false) s s ∧
    Takes (.alertResponse false) s s) ∧
  (∀ s : State, s.plinth.latched = true → onRequest s = s) ∧
  (∀ s : State, s.plinth.latched = false → s.plinth.st = 0 ∨ 3 ≤ s.plinth.st → onRequest s = { s with plinth := { s.plinth with onReq := true } }) ∧
  (∀ s : State, s.plinth.latched = true → s.plinth.hotComps = [] →
    clearLatch s = { s with plinth := { s.plinth with latched := false, latchClr := true } }) ∧
  (∀ s : State, s.plinth.latched = true → s.plinth.hotComps ≠ [] → clearLatch s = s) ∧
  (∀ s : State, s.plinth.latched = false → clearLatch s = s)

/-- What reset leaves, as the rules give it: TCK_COUNT 0 and no course running (R33, R360), every counter and every counter unit 0 (R507),
an empty directory, cache, FIFO and queue, AGT_RST_N asserted, memory not ready, no trap, no event suppressed, every link DISABLED, GLB_SCRATCH
0 (R531) and no memory of host scratch (R492). -/
def Obligations.ResetLeavesTheRulesValues : Prop :=
  let s := State.reset
  s.pending = [] ∧ s.tck.count = 0 ∧ s.tck.running = false ∧ s.pmc.units = [] ∧ s.dir.ents = [] ∧ s.dir.txns = [] ∧ s.cch.ways = [] ∧
  s.stm.comb = [] ∧ (∀ p, (port s p).fifo = [] ∧ (port s p).inSt = 0 ∧ (port s p).egSt = 0) ∧
  (∀ q, (queue s q).enable = false ∧ (queue s q).dones = []) ∧ (∀ i, (link s i).st = 0) ∧ s.plinth.agtRst = 0xFF ∧
  s.glb.memReady = false ∧ s.hst.ready = false ∧ s.glb.scratch = 0 ∧ s.err.status = 0 ∧ s.evr.cntSupp = 0 ∧ s.cph.holder = 0 ∧
  s.hst.scratch = [] ∧ s.hst.marks = [] ∧ s.pwr.runSt = 0
end

