-- ==== Sys2Proof/Laws/Memory.lean ====
section
/-!
SUPPORT. The laws of the sparse tables and byte memories: a read after a write, that a write leaves every other place alone, and that
every operation keeps the canonical form.
-/

namespace Sys2Proof.Machine
open Sys2Proof

variable {α : Type}

/-! ## What a table holds after a write -/

/-- An index holds what was last written to it. Where the value is that of an unlisted index, the indexes must rise. -/
theorem tget_tset_of_ne [DecidableEq α] (d : α) (t : Table α) (i : Nat) {v : α} (h : v ≠ d) : tget d (tset d t i v) i = v := by
  induction t with
  | nil => simp [tset, tget, h]
  | cons p t ih =>
    obtain ⟨k, w⟩ := p
    simp only [tset]
    split
    · simp [tget]
    · split
      · simp [tget]
      · rename_i hk
        simp [tget, hk, ih]

/-- Every other index holds what it held. -/
theorem tget_tset_other [DecidableEq α] (d : α) (t : Table α) {i j : Nat} (v : α) (h : j ≠ i) : tget d (tset d t i v) j = tget d t j := by
  induction t with
  | nil =>
    simp only [tset]
    split <;> simp [tget, h]
  | cons p t ih =>
    obtain ⟨k, w⟩ := p
    simp only [tset]
    split
    · split <;> simp [tget, h]
    · split
      · rename_i hk
        subst hk
        split <;> simp [tget, h]
      · simp [tget, ih]

/-- Every index of a rising table is above that of its first entry. -/
theorem keysRise_cons {k : Nat} {v : α} {t : Table α} : keysRise ((k, v) :: t) = true ↔ (∀ p ∈ t, k < p.1) ∧ keysRise t = true := by
  induction t generalizing k v with
  | nil => simp [keysRise]
  | cons q t ih =>
    obtain ⟨j, w⟩ := q
    simp only [keysRise, Bool.and_eq_true, decide_eq_true_eq, List.mem_cons, forall_eq_or_imp]
    constructor
    · rintro ⟨h1, h2⟩
      exact ⟨⟨h1, fun p hp => Nat.lt_trans h1 ((ih.mp h2).1 p hp)⟩, h2⟩
    · rintro ⟨⟨h1, -⟩, h2⟩
      exact ⟨h1, h2⟩

/-- An index below every listed one is not listed. -/
theorem tget_of_below (d : α) {t : Table α} {i : Nat} (h : ∀ p ∈ t, i < p.1) : tget d t i = d := by
  induction t with
  | nil => rfl
  | cons p t ih =>
    have h1 := h p (by simp)
    rw [tget, if_neg (by omega)]
    exact ih fun q hq => h q (by simp [hq])

theorem wf_cons [DecidableEq α] {d : α} {k : Nat} {v : α} {t : Table α} :
    Table.wf d ((k, v) :: t) = true ↔ (∀ p ∈ t, k < p.1) ∧ v ≠ d ∧ Table.wf d t = true := by
  simp only [Table.wf, Bool.and_eq_true, keysRise_cons, List.all_cons, decide_eq_true_eq]
  tauto

/-- In the canonical form an index holds what was last written to it, whatever that is. -/
theorem tget_tset_same [DecidableEq α] (d : α) (t : Table α) (i : Nat) (v : α) (h : Table.wf d t = true) : tget d (tset d t i v) i = v := by
  by_cases hv : v = d
  · subst hv
    induction t with
    | nil => simp [tset, tget]
    | cons p t ih =>
      obtain ⟨k, w⟩ := p
      obtain ⟨h1, h2, h3⟩ := wf_cons.mp h
      simp only [tset, if_true]
      split
      · rename_i hk
        refine tget_of_below v fun p hp => ?_
        rcases List.mem_cons.mp hp with hp | hp
        · subst hp; exact hk
        · exact Nat.lt_trans hk (h1 p hp)
      · split
        · rename_i hk
          subst hk
          exact tget_of_below v h1
        · rename_i hk
          rw [tget, if_neg hk]
          exact ih h3
  · exact tget_tset_of_ne d t i hv

/-- The indexes after a write are those before and the one written. -/
theorem mem_tset [DecidableEq α] {d : α} {t : Table α} {i : Nat} {v : α} {p : Nat × α} (h : p ∈ tset d t i v) : p ∈ t ∨ p = (i, v) := by
  induction t with
  | nil =>
    simp only [tset] at h
    split at h <;> simp_all
  | cons q t ih =>
    obtain ⟨k, w⟩ := q
    simp only [tset] at h
    split at h
    · split at h
      · exact .inl h
      · rcases List.mem_cons.mp h with h | h
        · exact .inr h
        · exact .inl h
    · split at h
      · split at h
        · exact .inl (List.mem_cons_of_mem _ h)
        · rcases List.mem_cons.mp h with h | h
          · exact .inr h
          · exact .inl (List.mem_cons_of_mem _ h)
      · rcases List.mem_cons.mp h with h | h
        · exact .inl (by rw [h]; exact List.mem_cons_self)
        · rcases ih h with h | h
          · exact .inl (List.mem_cons_of_mem _ h)
          · exact .inr h

/-! ## The canonical form -/

/-- A write keeps the canonical form. -/
theorem wf_tset [DecidableEq α] {d : α} {t : Table α} (i : Nat) (v : α) (h : Table.wf d t = true) : Table.wf d (tset d t i v) = true := by
  induction t with
  | nil =>
    simp only [tset]
    split
    · rfl
    · rename_i hv
      exact wf_cons.mpr ⟨by simp, hv, rfl⟩
  | cons p t ih =>
    obtain ⟨k, w⟩ := p
    obtain ⟨h1, h2, h3⟩ := wf_cons.mp h
    simp only [tset]
    split
    · rename_i hk
      split
      · exact h
      · rename_i hv
        refine wf_cons.mpr ⟨fun p hp => ?_, hv, h⟩
        rcases List.mem_cons.mp hp with hp | hp
        · subst hp; exact hk
        · exact Nat.lt_trans hk (h1 p hp)
    · split
      · rename_i hk
        subst hk
        split
        · exact h3
        · rename_i hv
          exact wf_cons.mpr ⟨h1, hv, h3⟩
      · rename_i hk hk'
        refine wf_cons.mpr ⟨fun p hp => ?_, h2, ih h3⟩
        rcases mem_tset hp with hp | hp
        · exact h1 p hp
        · subst hp; show k < i; omega

theorem wf_tmod [DecidableEq α] {d : α} {t : Table α} (i : Nat) (f : α → α) (h : Table.wf d t = true) : Table.wf d (tmod d t i f) = true :=
  wf_tset i _ h

/-- A filter keeps the canonical form. -/
theorem wf_filter [DecidableEq α] {d : α} {t : Table α} (q : Nat × α → Bool) (h : Table.wf d t = true) : Table.wf d (t.filter q) = true := by
  induction t with
  | nil => rfl
  | cons p t ih =>
    obtain ⟨k, w⟩ := p
    obtain ⟨h1, h2, h3⟩ := wf_cons.mp h
    rw [List.filter_cons]
    split
    · exact wf_cons.mpr ⟨fun p hp => h1 p (List.mem_filter.mp hp).1, h2, ih h3⟩
    · exact ih h3

/-- A change of every listed value keeps the canonical form. -/
theorem wf_tall [DecidableEq α] {d : α} {t : Table α} (f : α → α) (h : Table.wf d t = true) : Table.wf d (tall d t f) = true := by
  induction t with
  | nil => rfl
  | cons p t ih =>
    obtain ⟨k, w⟩ := p
    obtain ⟨h1, -, h3⟩ := wf_cons.mp h
    have hm : ∀ q ∈ tall d t f, k < q.1 := by
      intro q hq
      simp only [tall, List.mem_filter, List.mem_map] at hq
      obtain ⟨⟨p, hp, rfl⟩, -⟩ := hq
      exact h1 p hp
    show Table.wf d (List.filter _ ((k, f w) :: t.map _)) = true
    rw [List.filter_cons]
    split
    · rename_i hv
      exact wf_cons.mpr ⟨hm, by simpa using hv, ih h3⟩
    · exact ih h3

theorem tget_tmod_same [DecidableEq α] (d : α) (t : Table α) (i : Nat) (f : α → α) (h : Table.wf d t = true) :
    tget d (tmod d t i f) i = f (tget d t i) := tget_tset_same d t i _ h

theorem tget_tmod_other [DecidableEq α] (d : α) (t : Table α) {i j : Nat} (f : α → α) (h : j ≠ i) :
    tget d (tmod d t i f) j = tget d t j := tget_tset_other d t _ h

/-! ## Byte memories -/

/-- A write of bytes keeps the canonical form. -/
theorem wf_writeN {d : Byte} {m : List Host.Cell} (a : Nat) (l : List Byte) (h : Memory.wf d m = true) :
    Memory.wf d (Memory.writeN d m a l) = true := by
  induction l generalizing m a with
  | nil => exact h
  | cons b l ih => exact ih (a + 1) (wf_tset a b h)

/-- Every byte below the written ones reads as before. -/
theorem read_writeN_below (d : Byte) (m : List Host.Cell) (a : Nat) (l : List Byte) {k : Nat} (h : k < a) :
    Memory.read d (Memory.writeN d m a l) k = Memory.read d m k := by
  induction l generalizing m a with
  | nil => rfl
  | cons b l ih =>
    have h1 := ih (Memory.write d m a b) (a + 1) (by omega)
    exact h1.trans (tget_tset_other d m b (by omega))

/-- Every byte above the written ones reads as before. -/
theorem read_writeN_above (d : Byte) (m : List Host.Cell) (a : Nat) (l : List Byte) {k : Nat} (h : a + l.length ≤ k) :
    Memory.read d (Memory.writeN d m a l) k = Memory.read d m k := by
  induction l generalizing m a with
  | nil => rfl
  | cons b l ih =>
    rw [List.length_cons] at h
    have h1 := ih (Memory.write d m a b) (a + 1) (by omega)
    exact h1.trans (tget_tset_other d m b (by omega))

/-- Bytes read as they were written. -/
theorem readN_writeN (d : Byte) (m : List Host.Cell) (a : Nat) (l : List Byte) (h : Memory.wf d m = true) :
    Memory.readN d (Memory.writeN d m a l) a l.length = l := by
  induction l generalizing m a with
  | nil => rfl
  | cons b l ih =>
    have h1 : Memory.read d (Memory.writeN d (Memory.write d m a b) (a + 1) l) a = b :=
      (read_writeN_below d _ (a + 1) l (Nat.lt_succ_self a)).trans (tget_tset_same d m a b h)
    have h2 := ih (Memory.write d m a b) (a + 1) (wf_tset a b h)
    show Memory.read d _ a :: Memory.readN d _ (a + 1) l.length = b :: l
    exact congrArg₂ List.cons h1 h2

end Sys2Proof.Machine
end

