-- ==== Sys2Proof/Laws/Parts.lean ====
section
/-!
SUPPORT. One lemma per field for each update of one element of a table or list of the state (a transaction, a way, a block, a program, a
queue): the block that holds it is given whole, and every other field is as it was.
-/

namespace Sys2Proof.Machine
open Sys2Proof

section
variable (i : Nat) (f : Txn → Txn) (s : State)
@[simp] theorem onTxn_fuses : (onTxn i f s).fuses = s.fuses := rfl
@[simp] theorem onTxn_medium : (onTxn i f s).medium = s.medium := rfl
@[simp] theorem onTxn_flash : (onTxn i f s).flash = s.flash := rfl
@[simp] theorem onTxn_plinth : (onTxn i f s).plinth = s.plinth := rfl
@[simp] theorem onTxn_expert : (onTxn i f s).expert = s.expert := rfl
@[simp] theorem onTxn_expertEff : (onTxn i f s).expertEff = s.expertEff := rfl
@[simp] theorem onTxn_glb : (onTxn i f s).glb = s.glb := rfl
@[simp] theorem onTxn_tck : (onTxn i f s).tck = s.tck := rfl
@[simp] theorem onTxn_med : (onTxn i f s).med = s.med := rfl
@[simp] theorem onTxn_drf : (onTxn i f s).drf = s.drf := rfl
@[simp] theorem onTxn_cch : (onTxn i f s).cch = s.cch := rfl
@[simp] theorem onTxn_dir : (onTxn i f s).dir = { s.dir with txns := s.dir.txns.map fun t => if t.req.id = i then f t else t } := rfl
@[simp] theorem onTxn_ord : (onTxn i f s).ord = s.ord := rfl
@[simp] theorem onTxn_stm : (onTxn i f s).stm = s.stm := rfl
@[simp] theorem onTxn_links : (onTxn i f s).links = s.links := rfl
@[simp] theorem onTxn_grp : (onTxn i f s).grp = s.grp := rfl
@[simp] theorem onTxn_hst : (onTxn i f s).hst = s.hst := rfl
@[simp] theorem onTxn_sec : (onTxn i f s).sec = s.sec := rfl
@[simp] theorem onTxn_cph : (onTxn i f s).cph = s.cph := rfl
@[simp] theorem onTxn_pwr : (onTxn i f s).pwr = s.pwr := rfl
@[simp] theorem onTxn_clk : (onTxn i f s).clk = s.clk := rfl
@[simp] theorem onTxn_thm : (onTxn i f s).thm = s.thm := rfl
@[simp] theorem onTxn_err : (onTxn i f s).err = s.err := rfl
@[simp] theorem onTxn_pmc : (onTxn i f s).pmc = s.pmc := rfl
@[simp] theorem onTxn_evr : (onTxn i f s).evr = s.evr := rfl
@[simp] theorem onTxn_ldg : (onTxn i f s).ldg = s.ldg := rfl
@[simp] theorem onTxn_dap : (onTxn i f s).dap = s.dap := rfl
@[simp] theorem onTxn_now : (onTxn i f s).now = s.now := rfl
@[simp] theorem onTxn_fv : (onTxn i f s).fv = s.fv := rfl
@[simp] theorem onTxn_out : (onTxn i f s).out = s.out := rfl
@[simp] theorem onTxn_pending : (onTxn i f s).pending = s.pending := rfl
end

section
variable (i : Nat) (f : GbEnt → GbEnt) (s : State)
@[simp] theorem onGb_fuses : (onGb i f s).fuses = s.fuses := rfl
@[simp] theorem onGb_medium : (onGb i f s).medium = s.medium := rfl
@[simp] theorem onGb_flash : (onGb i f s).flash = s.flash := rfl
@[simp] theorem onGb_plinth : (onGb i f s).plinth = s.plinth := rfl
@[simp] theorem onGb_expert : (onGb i f s).expert = s.expert := rfl
@[simp] theorem onGb_expertEff : (onGb i f s).expertEff = s.expertEff := rfl
@[simp] theorem onGb_glb : (onGb i f s).glb = s.glb := rfl
@[simp] theorem onGb_tck : (onGb i f s).tck = s.tck := rfl
@[simp] theorem onGb_med : (onGb i f s).med = s.med := rfl
@[simp] theorem onGb_drf : (onGb i f s).drf = s.drf := rfl
@[simp] theorem onGb_cch : (onGb i f s).cch = s.cch := rfl
@[simp] theorem onGb_dir : (onGb i f s).dir = s.dir := rfl
@[simp] theorem onGb_ord : (onGb i f s).ord = { s.ord with gbs := s.ord.gbs.map fun g => if g.id = i then f g else g } := rfl
@[simp] theorem onGb_stm : (onGb i f s).stm = s.stm := rfl
@[simp] theorem onGb_links : (onGb i f s).links = s.links := rfl
@[simp] theorem onGb_grp : (onGb i f s).grp = s.grp := rfl
@[simp] theorem onGb_hst : (onGb i f s).hst = s.hst := rfl
@[simp] theorem onGb_sec : (onGb i f s).sec = s.sec := rfl
@[simp] theorem onGb_cph : (onGb i f s).cph = s.cph := rfl
@[simp] theorem onGb_pwr : (onGb i f s).pwr = s.pwr := rfl
@[simp] theorem onGb_clk : (onGb i f s).clk = s.clk := rfl
@[simp] theorem onGb_thm : (onGb i f s).thm = s.thm := rfl
@[simp] theorem onGb_err : (onGb i f s).err = s.err := rfl
@[simp] theorem onGb_pmc : (onGb i f s).pmc = s.pmc := rfl
@[simp] theorem onGb_evr : (onGb i f s).evr = s.evr := rfl
@[simp] theorem onGb_ldg : (onGb i f s).ldg = s.ldg := rfl
@[simp] theorem onGb_dap : (onGb i f s).dap = s.dap := rfl
@[simp] theorem onGb_now : (onGb i f s).now = s.now := rfl
@[simp] theorem onGb_fv : (onGb i f s).fv = s.fv := rfl
@[simp] theorem onGb_out : (onGb i f s).out = s.out := rfl
@[simp] theorem onGb_pending : (onGb i f s).pending = s.pending := rfl
end

section
variable (i : Nat) (f : StmPort → StmPort) (s : State)
@[simp] theorem onPort_fuses : (onPort i f s).fuses = s.fuses := rfl
@[simp] theorem onPort_medium : (onPort i f s).medium = s.medium := rfl
@[simp] theorem onPort_flash : (onPort i f s).flash = s.flash := rfl
@[simp] theorem onPort_plinth : (onPort i f s).plinth = s.plinth := rfl
@[simp] theorem onPort_expert : (onPort i f s).expert = s.expert := rfl
@[simp] theorem onPort_expertEff : (onPort i f s).expertEff = s.expertEff := rfl
@[simp] theorem onPort_glb : (onPort i f s).glb = s.glb := rfl
@[simp] theorem onPort_tck : (onPort i f s).tck = s.tck := rfl
@[simp] theorem onPort_med : (onPort i f s).med = s.med := rfl
@[simp] theorem onPort_drf : (onPort i f s).drf = s.drf := rfl
@[simp] theorem onPort_cch : (onPort i f s).cch = s.cch := rfl
@[simp] theorem onPort_dir : (onPort i f s).dir = s.dir := rfl
@[simp] theorem onPort_ord : (onPort i f s).ord = s.ord := rfl
@[simp] theorem onPort_stm : (onPort i f s).stm = { s.stm with ports := tmod {} s.stm.ports i f } := rfl
@[simp] theorem onPort_links : (onPort i f s).links = s.links := rfl
@[simp] theorem onPort_grp : (onPort i f s).grp = s.grp := rfl
@[simp] theorem onPort_hst : (onPort i f s).hst = s.hst := rfl
@[simp] theorem onPort_sec : (onPort i f s).sec = s.sec := rfl
@[simp] theorem onPort_cph : (onPort i f s).cph = s.cph := rfl
@[simp] theorem onPort_pwr : (onPort i f s).pwr = s.pwr := rfl
@[simp] theorem onPort_clk : (onPort i f s).clk = s.clk := rfl
@[simp] theorem onPort_thm : (onPort i f s).thm = s.thm := rfl
@[simp] theorem onPort_err : (onPort i f s).err = s.err := rfl
@[simp] theorem onPort_pmc : (onPort i f s).pmc = s.pmc := rfl
@[simp] theorem onPort_evr : (onPort i f s).evr = s.evr := rfl
@[simp] theorem onPort_ldg : (onPort i f s).ldg = s.ldg := rfl
@[simp] theorem onPort_dap : (onPort i f s).dap = s.dap := rfl
@[simp] theorem onPort_now : (onPort i f s).now = s.now := rfl
@[simp] theorem onPort_fv : (onPort i f s).fv = s.fv := rfl
@[simp] theorem onPort_out : (onPort i f s).out = s.out := rfl
@[simp] theorem onPort_pending : (onPort i f s).pending = s.pending := rfl
end

section
variable (i : Nat) (f : HQueue → HQueue) (s : State)
@[simp] theorem onQueue_fuses : (onQueue i f s).fuses = s.fuses := rfl
@[simp] theorem onQueue_medium : (onQueue i f s).medium = s.medium := rfl
@[simp] theorem onQueue_flash : (onQueue i f s).flash = s.flash := rfl
@[simp] theorem onQueue_plinth : (onQueue i f s).plinth = s.plinth := rfl
@[simp] theorem onQueue_expert : (onQueue i f s).expert = s.expert := rfl
@[simp] theorem onQueue_expertEff : (onQueue i f s).expertEff = s.expertEff := rfl
@[simp] theorem onQueue_glb : (onQueue i f s).glb = s.glb := rfl
@[simp] theorem onQueue_tck : (onQueue i f s).tck = s.tck := rfl
@[simp] theorem onQueue_med : (onQueue i f s).med = s.med := rfl
@[simp] theorem onQueue_drf : (onQueue i f s).drf = s.drf := rfl
@[simp] theorem onQueue_cch : (onQueue i f s).cch = s.cch := rfl
@[simp] theorem onQueue_dir : (onQueue i f s).dir = s.dir := rfl
@[simp] theorem onQueue_ord : (onQueue i f s).ord = s.ord := rfl
@[simp] theorem onQueue_stm : (onQueue i f s).stm = s.stm := rfl
@[simp] theorem onQueue_links : (onQueue i f s).links = s.links := rfl
@[simp] theorem onQueue_grp : (onQueue i f s).grp = s.grp := rfl
@[simp] theorem onQueue_hst : (onQueue i f s).hst = { s.hst with queues := tmod {} s.hst.queues i f } := rfl
@[simp] theorem onQueue_sec : (onQueue i f s).sec = s.sec := rfl
@[simp] theorem onQueue_cph : (onQueue i f s).cph = s.cph := rfl
@[simp] theorem onQueue_pwr : (onQueue i f s).pwr = s.pwr := rfl
@[simp] theorem onQueue_clk : (onQueue i f s).clk = s.clk := rfl
@[simp] theorem onQueue_thm : (onQueue i f s).thm = s.thm := rfl
@[simp] theorem onQueue_err : (onQueue i f s).err = s.err := rfl
@[simp] theorem onQueue_pmc : (onQueue i f s).pmc = s.pmc := rfl
@[simp] theorem onQueue_evr : (onQueue i f s).evr = s.evr := rfl
@[simp] theorem onQueue_ldg : (onQueue i f s).ldg = s.ldg := rfl
@[simp] theorem onQueue_dap : (onQueue i f s).dap = s.dap := rfl
@[simp] theorem onQueue_now : (onQueue i f s).now = s.now := rfl
@[simp] theorem onQueue_fv : (onQueue i f s).fv = s.fv := rfl
@[simp] theorem onQueue_out : (onQueue i f s).out = s.out := rfl
@[simp] theorem onQueue_pending : (onQueue i f s).pending = s.pending := rfl
end

section
variable (i : Nat) (f : CopyCh → CopyCh) (s : State)
@[simp] theorem onCopy_fuses : (onCopy i f s).fuses = s.fuses := rfl
@[simp] theorem onCopy_medium : (onCopy i f s).medium = s.medium := rfl
@[simp] theorem onCopy_flash : (onCopy i f s).flash = s.flash := rfl
@[simp] theorem onCopy_plinth : (onCopy i f s).plinth = s.plinth := rfl
@[simp] theorem onCopy_expert : (onCopy i f s).expert = s.expert := rfl
@[simp] theorem onCopy_expertEff : (onCopy i f s).expertEff = s.expertEff := rfl
@[simp] theorem onCopy_glb : (onCopy i f s).glb = s.glb := rfl
@[simp] theorem onCopy_tck : (onCopy i f s).tck = s.tck := rfl
@[simp] theorem onCopy_med : (onCopy i f s).med = s.med := rfl
@[simp] theorem onCopy_drf : (onCopy i f s).drf = s.drf := rfl
@[simp] theorem onCopy_cch : (onCopy i f s).cch = s.cch := rfl
@[simp] theorem onCopy_dir : (onCopy i f s).dir = s.dir := rfl
@[simp] theorem onCopy_ord : (onCopy i f s).ord = s.ord := rfl
@[simp] theorem onCopy_stm : (onCopy i f s).stm = s.stm := rfl
@[simp] theorem onCopy_links : (onCopy i f s).links = s.links := rfl
@[simp] theorem onCopy_grp : (onCopy i f s).grp = s.grp := rfl
@[simp] theorem onCopy_hst : (onCopy i f s).hst = { s.hst with copies := tmod {} s.hst.copies i f } := rfl
@[simp] theorem onCopy_sec : (onCopy i f s).sec = s.sec := rfl
@[simp] theorem onCopy_cph : (onCopy i f s).cph = s.cph := rfl
@[simp] theorem onCopy_pwr : (onCopy i f s).pwr = s.pwr := rfl
@[simp] theorem onCopy_clk : (onCopy i f s).clk = s.clk := rfl
@[simp] theorem onCopy_thm : (onCopy i f s).thm = s.thm := rfl
@[simp] theorem onCopy_err : (onCopy i f s).err = s.err := rfl
@[simp] theorem onCopy_pmc : (onCopy i f s).pmc = s.pmc := rfl
@[simp] theorem onCopy_evr : (onCopy i f s).evr = s.evr := rfl
@[simp] theorem onCopy_ldg : (onCopy i f s).ldg = s.ldg := rfl
@[simp] theorem onCopy_dap : (onCopy i f s).dap = s.dap := rfl
@[simp] theorem onCopy_now : (onCopy i f s).now = s.now := rfl
@[simp] theorem onCopy_fv : (onCopy i f s).fv = s.fv := rfl
@[simp] theorem onCopy_out : (onCopy i f s).out = s.out := rfl
@[simp] theorem onCopy_pending : (onCopy i f s).pending = s.pending := rfl
end

section
variable (i : Nat) (f : Sensor → Sensor) (s : State)
@[simp] theorem onSensor_fuses : (onSensor i f s).fuses = s.fuses := rfl
@[simp] theorem onSensor_medium : (onSensor i f s).medium = s.medium := rfl
@[simp] theorem onSensor_flash : (onSensor i f s).flash = s.flash := rfl
@[simp] theorem onSensor_plinth : (onSensor i f s).plinth = s.plinth := rfl
@[simp] theorem onSensor_expert : (onSensor i f s).expert = s.expert := rfl
@[simp] theorem onSensor_expertEff : (onSensor i f s).expertEff = s.expertEff := rfl
@[simp] theorem onSensor_glb : (onSensor i f s).glb = s.glb := rfl
@[simp] theorem onSensor_tck : (onSensor i f s).tck = s.tck := rfl
@[simp] theorem onSensor_med : (onSensor i f s).med = s.med := rfl
@[simp] theorem onSensor_drf : (onSensor i f s).drf = s.drf := rfl
@[simp] theorem onSensor_cch : (onSensor i f s).cch = s.cch := rfl
@[simp] theorem onSensor_dir : (onSensor i f s).dir = s.dir := rfl
@[simp] theorem onSensor_ord : (onSensor i f s).ord = s.ord := rfl
@[simp] theorem onSensor_stm : (onSensor i f s).stm = s.stm := rfl
@[simp] theorem onSensor_links : (onSensor i f s).links = s.links := rfl
@[simp] theorem onSensor_grp : (onSensor i f s).grp = s.grp := rfl
@[simp] theorem onSensor_hst : (onSensor i f s).hst = s.hst := rfl
@[simp] theorem onSensor_sec : (onSensor i f s).sec = s.sec := rfl
@[simp] theorem onSensor_cph : (onSensor i f s).cph = s.cph := rfl
@[simp] theorem onSensor_pwr : (onSensor i f s).pwr = s.pwr := rfl
@[simp] theorem onSensor_clk : (onSensor i f s).clk = s.clk := rfl
@[simp] theorem onSensor_thm : (onSensor i f s).thm = { s.thm with sensors := tmod {} s.thm.sensors i f } := rfl
@[simp] theorem onSensor_err : (onSensor i f s).err = s.err := rfl
@[simp] theorem onSensor_pmc : (onSensor i f s).pmc = s.pmc := rfl
@[simp] theorem onSensor_evr : (onSensor i f s).evr = s.evr := rfl
@[simp] theorem onSensor_ldg : (onSensor i f s).ldg = s.ldg := rfl
@[simp] theorem onSensor_dap : (onSensor i f s).dap = s.dap := rfl
@[simp] theorem onSensor_now : (onSensor i f s).now = s.now := rfl
@[simp] theorem onSensor_fv : (onSensor i f s).fv = s.fv := rfl
@[simp] theorem onSensor_out : (onSensor i f s).out = s.out := rfl
@[simp] theorem onSensor_pending : (onSensor i f s).pending = s.pending := rfl
end

section
variable (i : Nat) (f : Pmc1 → Pmc1) (s : State)
@[simp] theorem onUnit_fuses : (onUnit i f s).fuses = s.fuses := rfl
@[simp] theorem onUnit_medium : (onUnit i f s).medium = s.medium := rfl
@[simp] theorem onUnit_flash : (onUnit i f s).flash = s.flash := rfl
@[simp] theorem onUnit_plinth : (onUnit i f s).plinth = s.plinth := rfl
@[simp] theorem onUnit_expert : (onUnit i f s).expert = s.expert := rfl
@[simp] theorem onUnit_expertEff : (onUnit i f s).expertEff = s.expertEff := rfl
@[simp] theorem onUnit_glb : (onUnit i f s).glb = s.glb := rfl
@[simp] theorem onUnit_tck : (onUnit i f s).tck = s.tck := rfl
@[simp] theorem onUnit_med : (onUnit i f s).med = s.med := rfl
@[simp] theorem onUnit_drf : (onUnit i f s).drf = s.drf := rfl
@[simp] theorem onUnit_cch : (onUnit i f s).cch = s.cch := rfl
@[simp] theorem onUnit_dir : (onUnit i f s).dir = s.dir := rfl
@[simp] theorem onUnit_ord : (onUnit i f s).ord = s.ord := rfl
@[simp] theorem onUnit_stm : (onUnit i f s).stm = s.stm := rfl
@[simp] theorem onUnit_links : (onUnit i f s).links = s.links := rfl
@[simp] theorem onUnit_grp : (onUnit i f s).grp = s.grp := rfl
@[simp] theorem onUnit_hst : (onUnit i f s).hst = s.hst := rfl
@[simp] theorem onUnit_sec : (onUnit i f s).sec = s.sec := rfl
@[simp] theorem onUnit_cph : (onUnit i f s).cph = s.cph := rfl
@[simp] theorem onUnit_pwr : (onUnit i f s).pwr = s.pwr := rfl
@[simp] theorem onUnit_clk : (onUnit i f s).clk = s.clk := rfl
@[simp] theorem onUnit_thm : (onUnit i f s).thm = s.thm := rfl
@[simp] theorem onUnit_err : (onUnit i f s).err = s.err := rfl
@[simp] theorem onUnit_pmc : (onUnit i f s).pmc = { s.pmc with units := tmod {} s.pmc.units i f } := rfl
@[simp] theorem onUnit_evr : (onUnit i f s).evr = s.evr := rfl
@[simp] theorem onUnit_ldg : (onUnit i f s).ldg = s.ldg := rfl
@[simp] theorem onUnit_dap : (onUnit i f s).dap = s.dap := rfl
@[simp] theorem onUnit_now : (onUnit i f s).now = s.now := rfl
@[simp] theorem onUnit_fv : (onUnit i f s).fv = s.fv := rfl
@[simp] theorem onUnit_out : (onUnit i f s).out = s.out := rfl
@[simp] theorem onUnit_pending : (onUnit i f s).pending = s.pending := rfl
end

section
variable (i : Nat) (f : Partition → Partition) (s : State)
@[simp] theorem onPart_fuses : (onPart i f s).fuses = s.fuses := rfl
@[simp] theorem onPart_medium : (onPart i f s).medium = s.medium := rfl
@[simp] theorem onPart_flash : (onPart i f s).flash = { s.flash with parts := tmod {} s.flash.parts i f } := rfl
@[simp] theorem onPart_plinth : (onPart i f s).plinth = s.plinth := rfl
@[simp] theorem onPart_expert : (onPart i f s).expert = s.expert := rfl
@[simp] theorem onPart_expertEff : (onPart i f s).expertEff = s.expertEff := rfl
@[simp] theorem onPart_glb : (onPart i f s).glb = s.glb := rfl
@[simp] theorem onPart_tck : (onPart i f s).tck = s.tck := rfl
@[simp] theorem onPart_med : (onPart i f s).med = s.med := rfl
@[simp] theorem onPart_drf : (onPart i f s).drf = s.drf := rfl
@[simp] theorem onPart_cch : (onPart i f s).cch = s.cch := rfl
@[simp] theorem onPart_dir : (onPart i f s).dir = s.dir := rfl
@[simp] theorem onPart_ord : (onPart i f s).ord = s.ord := rfl
@[simp] theorem onPart_stm : (onPart i f s).stm = s.stm := rfl
@[simp] theorem onPart_links : (onPart i f s).links = s.links := rfl
@[simp] theorem onPart_grp : (onPart i f s).grp = s.grp := rfl
@[simp] theorem onPart_hst : (onPart i f s).hst = s.hst := rfl
@[simp] theorem onPart_sec : (onPart i f s).sec = s.sec := rfl
@[simp] theorem onPart_cph : (onPart i f s).cph = s.cph := rfl
@[simp] theorem onPart_pwr : (onPart i f s).pwr = s.pwr := rfl
@[simp] theorem onPart_clk : (onPart i f s).clk = s.clk := rfl
@[simp] theorem onPart_thm : (onPart i f s).thm = s.thm := rfl
@[simp] theorem onPart_err : (onPart i f s).err = s.err := rfl
@[simp] theorem onPart_pmc : (onPart i f s).pmc = s.pmc := rfl
@[simp] theorem onPart_evr : (onPart i f s).evr = s.evr := rfl
@[simp] theorem onPart_ldg : (onPart i f s).ldg = s.ldg := rfl
@[simp] theorem onPart_dap : (onPart i f s).dap = s.dap := rfl
@[simp] theorem onPart_now : (onPart i f s).now = s.now := rfl
@[simp] theorem onPart_fv : (onPart i f s).fv = s.fv := rfl
@[simp] theorem onPart_out : (onPart i f s).out = s.out := rfl
@[simp] theorem onPart_pending : (onPart i f s).pending = s.pending := rfl
end

section
variable (i : Nat) (f : MemErr → MemErr) (s : State)
@[simp] theorem onMemErr_fuses : (onMemErr i f s).fuses = s.fuses := rfl
@[simp] theorem onMemErr_medium : (onMemErr i f s).medium = s.medium := rfl
@[simp] theorem onMemErr_flash : (onMemErr i f s).flash = s.flash := rfl
@[simp] theorem onMemErr_plinth : (onMemErr i f s).plinth = s.plinth := rfl
@[simp] theorem onMemErr_expert : (onMemErr i f s).expert = s.expert := rfl
@[simp] theorem onMemErr_expertEff : (onMemErr i f s).expertEff = s.expertEff := rfl
@[simp] theorem onMemErr_glb : (onMemErr i f s).glb = s.glb := rfl
@[simp] theorem onMemErr_tck : (onMemErr i f s).tck = s.tck := rfl
@[simp] theorem onMemErr_med : (onMemErr i f s).med = s.med := rfl
@[simp] theorem onMemErr_drf : (onMemErr i f s).drf = s.drf := rfl
@[simp] theorem onMemErr_cch : (onMemErr i f s).cch = s.cch := rfl
@[simp] theorem onMemErr_dir : (onMemErr i f s).dir = s.dir := rfl
@[simp] theorem onMemErr_ord : (onMemErr i f s).ord = s.ord := rfl
@[simp] theorem onMemErr_stm : (onMemErr i f s).stm = s.stm := rfl
@[simp] theorem onMemErr_links : (onMemErr i f s).links = s.links := rfl
@[simp] theorem onMemErr_grp : (onMemErr i f s).grp = s.grp := rfl
@[simp] theorem onMemErr_hst : (onMemErr i f s).hst = s.hst := rfl
@[simp] theorem onMemErr_sec : (onMemErr i f s).sec = s.sec := rfl
@[simp] theorem onMemErr_cph : (onMemErr i f s).cph = s.cph := rfl
@[simp] theorem onMemErr_pwr : (onMemErr i f s).pwr = s.pwr := rfl
@[simp] theorem onMemErr_clk : (onMemErr i f s).clk = s.clk := rfl
@[simp] theorem onMemErr_thm : (onMemErr i f s).thm = s.thm := rfl
@[simp] theorem onMemErr_err : (onMemErr i f s).err = { s.err with mems := tmod {} s.err.mems i f } := rfl
@[simp] theorem onMemErr_pmc : (onMemErr i f s).pmc = s.pmc := rfl
@[simp] theorem onMemErr_evr : (onMemErr i f s).evr = s.evr := rfl
@[simp] theorem onMemErr_ldg : (onMemErr i f s).ldg = s.ldg := rfl
@[simp] theorem onMemErr_dap : (onMemErr i f s).dap = s.dap := rfl
@[simp] theorem onMemErr_now : (onMemErr i f s).now = s.now := rfl
@[simp] theorem onMemErr_fv : (onMemErr i f s).fv = s.fv := rfl
@[simp] theorem onMemErr_out : (onMemErr i f s).out = s.out := rfl
@[simp] theorem onMemErr_pending : (onMemErr i f s).pending = s.pending := rfl
end

section
variable (i : Nat) (f : Blk → Blk) (s : State)
@[simp] theorem onBlk_fuses : (onBlk i f s).fuses = s.fuses := rfl
@[simp] theorem onBlk_medium : (onBlk i f s).medium = s.medium := rfl
@[simp] theorem onBlk_flash : (onBlk i f s).flash = s.flash := rfl
@[simp] theorem onBlk_plinth : (onBlk i f s).plinth = s.plinth := rfl
@[simp] theorem onBlk_expert : (onBlk i f s).expert = s.expert := rfl
@[simp] theorem onBlk_expertEff : (onBlk i f s).expertEff = s.expertEff := rfl
@[simp] theorem onBlk_glb : (onBlk i f s).glb = s.glb := rfl
@[simp] theorem onBlk_tck : (onBlk i f s).tck = s.tck := rfl
@[simp] theorem onBlk_med : (onBlk i f s).med = { s.med with blocks := tmod (blkDefault s i) s.med.blocks i f, chSegs := addNew (1000000 + i * 6 / 65536) s.med.chSegs } := rfl
@[simp] theorem onBlk_drf : (onBlk i f s).drf = s.drf := rfl
@[simp] theorem onBlk_cch : (onBlk i f s).cch = s.cch := rfl
@[simp] theorem onBlk_dir : (onBlk i f s).dir = s.dir := rfl
@[simp] theorem onBlk_ord : (onBlk i f s).ord = s.ord := rfl
@[simp] theorem onBlk_stm : (onBlk i f s).stm = s.stm := rfl
@[simp] theorem onBlk_links : (onBlk i f s).links = s.links := rfl
@[simp] theorem onBlk_grp : (onBlk i f s).grp = s.grp := rfl
@[simp] theorem onBlk_hst : (onBlk i f s).hst = s.hst := rfl
@[simp] theorem onBlk_sec : (onBlk i f s).sec = s.sec := rfl
@[simp] theorem onBlk_cph : (onBlk i f s).cph = s.cph := rfl
@[simp] theorem onBlk_pwr : (onBlk i f s).pwr = s.pwr := rfl
@[simp] theorem onBlk_clk : (onBlk i f s).clk = s.clk := rfl
@[simp] theorem onBlk_thm : (onBlk i f s).thm = s.thm := rfl
@[simp] theorem onBlk_err : (onBlk i f s).err = s.err := rfl
@[simp] theorem onBlk_pmc : (onBlk i f s).pmc = s.pmc := rfl
@[simp] theorem onBlk_evr : (onBlk i f s).evr = s.evr := rfl
@[simp] theorem onBlk_ldg : (onBlk i f s).ldg = s.ldg := rfl
@[simp] theorem onBlk_dap : (onBlk i f s).dap = s.dap := rfl
@[simp] theorem onBlk_now : (onBlk i f s).now = s.now := rfl
@[simp] theorem onBlk_fv : (onBlk i f s).fv = s.fv := rfl
@[simp] theorem onBlk_out : (onBlk i f s).out = s.out := rfl
@[simp] theorem onBlk_pending : (onBlk i f s).pending = s.pending := rfl
end

section
variable (i : Nat) (f : Pkg → Pkg) (s : State)
@[simp] theorem onPkg_fuses : (onPkg i f s).fuses = s.fuses := rfl
@[simp] theorem onPkg_medium : (onPkg i f s).medium = s.medium := rfl
@[simp] theorem onPkg_flash : (onPkg i f s).flash = s.flash := rfl
@[simp] theorem onPkg_plinth : (onPkg i f s).plinth = s.plinth := rfl
@[simp] theorem onPkg_expert : (onPkg i f s).expert = s.expert := rfl
@[simp] theorem onPkg_expertEff : (onPkg i f s).expertEff = s.expertEff := rfl
@[simp] theorem onPkg_glb : (onPkg i f s).glb = s.glb := rfl
@[simp] theorem onPkg_tck : (onPkg i f s).tck = s.tck := rfl
@[simp] theorem onPkg_med : (onPkg i f s).med = s.med := rfl
@[simp] theorem onPkg_drf : (onPkg i f s).drf = { s.drf with pkgs := tmod {} s.drf.pkgs i f } := rfl
@[simp] theorem onPkg_cch : (onPkg i f s).cch = s.cch := rfl
@[simp] theorem onPkg_dir : (onPkg i f s).dir = s.dir := rfl
@[simp] theorem onPkg_ord : (onPkg i f s).ord = s.ord := rfl
@[simp] theorem onPkg_stm : (onPkg i f s).stm = s.stm := rfl
@[simp] theorem onPkg_links : (onPkg i f s).links = s.links := rfl
@[simp] theorem onPkg_grp : (onPkg i f s).grp = s.grp := rfl
@[simp] theorem onPkg_hst : (onPkg i f s).hst = s.hst := rfl
@[simp] theorem onPkg_sec : (onPkg i f s).sec = s.sec := rfl
@[simp] theorem onPkg_cph : (onPkg i f s).cph = s.cph := rfl
@[simp] theorem onPkg_pwr : (onPkg i f s).pwr = s.pwr := rfl
@[simp] theorem onPkg_clk : (onPkg i f s).clk = s.clk := rfl
@[simp] theorem onPkg_thm : (onPkg i f s).thm = s.thm := rfl
@[simp] theorem onPkg_err : (onPkg i f s).err = s.err := rfl
@[simp] theorem onPkg_pmc : (onPkg i f s).pmc = s.pmc := rfl
@[simp] theorem onPkg_evr : (onPkg i f s).evr = s.evr := rfl
@[simp] theorem onPkg_ldg : (onPkg i f s).ldg = s.ldg := rfl
@[simp] theorem onPkg_dap : (onPkg i f s).dap = s.dap := rfl
@[simp] theorem onPkg_now : (onPkg i f s).now = s.now := rfl
@[simp] theorem onPkg_fv : (onPkg i f s).fv = s.fv := rfl
@[simp] theorem onPkg_out : (onPkg i f s).out = s.out := rfl
@[simp] theorem onPkg_pending : (onPkg i f s).pending = s.pending := rfl
end

section
variable (i : Nat) (f : Reloc → Reloc) (s : State)
@[simp] theorem onReloc_fuses : (onReloc i f s).fuses = s.fuses := rfl
@[simp] theorem onReloc_medium : (onReloc i f s).medium = s.medium := rfl
@[simp] theorem onReloc_flash : (onReloc i f s).flash = s.flash := rfl
@[simp] theorem onReloc_plinth : (onReloc i f s).plinth = s.plinth := rfl
@[simp] theorem onReloc_expert : (onReloc i f s).expert = s.expert := rfl
@[simp] theorem onReloc_expertEff : (onReloc i f s).expertEff = s.expertEff := rfl
@[simp] theorem onReloc_glb : (onReloc i f s).glb = s.glb := rfl
@[simp] theorem onReloc_tck : (onReloc i f s).tck = s.tck := rfl
@[simp] theorem onReloc_med : (onReloc i f s).med = { s.med with relocs := s.med.relocs.map fun r => if r.id = i then f r else r } := rfl
@[simp] theorem onReloc_drf : (onReloc i f s).drf = s.drf := rfl
@[simp] theorem onReloc_cch : (onReloc i f s).cch = s.cch := rfl
@[simp] theorem onReloc_dir : (onReloc i f s).dir = s.dir := rfl
@[simp] theorem onReloc_ord : (onReloc i f s).ord = s.ord := rfl
@[simp] theorem onReloc_stm : (onReloc i f s).stm = s.stm := rfl
@[simp] theorem onReloc_links : (onReloc i f s).links = s.links := rfl
@[simp] theorem onReloc_grp : (onReloc i f s).grp = s.grp := rfl
@[simp] theorem onReloc_hst : (onReloc i f s).hst = s.hst := rfl
@[simp] theorem onReloc_sec : (onReloc i f s).sec = s.sec := rfl
@[simp] theorem onReloc_cph : (onReloc i f s).cph = s.cph := rfl
@[simp] theorem onReloc_pwr : (onReloc i f s).pwr = s.pwr := rfl
@[simp] theorem onReloc_clk : (onReloc i f s).clk = s.clk := rfl
@[simp] theorem onReloc_thm : (onReloc i f s).thm = s.thm := rfl
@[simp] theorem onReloc_err : (onReloc i f s).err = s.err := rfl
@[simp] theorem onReloc_pmc : (onReloc i f s).pmc = s.pmc := rfl
@[simp] theorem onReloc_evr : (onReloc i f s).evr = s.evr := rfl
@[simp] theorem onReloc_ldg : (onReloc i f s).ldg = s.ldg := rfl
@[simp] theorem onReloc_dap : (onReloc i f s).dap = s.dap := rfl
@[simp] theorem onReloc_now : (onReloc i f s).now = s.now := rfl
@[simp] theorem onReloc_fv : (onReloc i f s).fv = s.fv := rfl
@[simp] theorem onReloc_out : (onReloc i f s).out = s.out := rfl
@[simp] theorem onReloc_pending : (onReloc i f s).pending = s.pending := rfl
end

section
variable (i : Nat) (f : Prog → Prog) (s : State)
@[simp] theorem onProg_fuses : (onProg i f s).fuses = s.fuses := rfl
@[simp] theorem onProg_medium : (onProg i f s).medium = s.medium := rfl
@[simp] theorem onProg_flash : (onProg i f s).flash = s.flash := rfl
@[simp] theorem onProg_plinth : (onProg i f s).plinth = s.plinth := rfl
@[simp] theorem onProg_expert : (onProg i f s).expert = s.expert := rfl
@[simp] theorem onProg_expertEff : (onProg i f s).expertEff = s.expertEff := rfl
@[simp] theorem onProg_glb : (onProg i f s).glb = s.glb := rfl
@[simp] theorem onProg_tck : (onProg i f s).tck = s.tck := rfl
@[simp] theorem onProg_med : (onProg i f s).med = { s.med with progs := s.med.progs.map fun p => if p.id = i then f p else p } := rfl
@[simp] theorem onProg_drf : (onProg i f s).drf = s.drf := rfl
@[simp] theorem onProg_cch : (onProg i f s).cch = s.cch := rfl
@[simp] theorem onProg_dir : (onProg i f s).dir = s.dir := rfl
@[simp] theorem onProg_ord : (onProg i f s).ord = s.ord := rfl
@[simp] theorem onProg_stm : (onProg i f s).stm = s.stm := rfl
@[simp] theorem onProg_links : (onProg i f s).links = s.links := rfl
@[simp] theorem onProg_grp : (onProg i f s).grp = s.grp := rfl
@[simp] theorem onProg_hst : (onProg i f s).hst = s.hst := rfl
@[simp] theorem onProg_sec : (onProg i f s).sec = s.sec := rfl
@[simp] theorem onProg_cph : (onProg i f s).cph = s.cph := rfl
@[simp] theorem onProg_pwr : (onProg i f s).pwr = s.pwr := rfl
@[simp] theorem onProg_clk : (onProg i f s).clk = s.clk := rfl
@[simp] theorem onProg_thm : (onProg i f s).thm = s.thm := rfl
@[simp] theorem onProg_err : (onProg i f s).err = s.err := rfl
@[simp] theorem onProg_pmc : (onProg i f s).pmc = s.pmc := rfl
@[simp] theorem onProg_evr : (onProg i f s).evr = s.evr := rfl
@[simp] theorem onProg_ldg : (onProg i f s).ldg = s.ldg := rfl
@[simp] theorem onProg_dap : (onProg i f s).dap = s.dap := rfl
@[simp] theorem onProg_now : (onProg i f s).now = s.now := rfl
@[simp] theorem onProg_fv : (onProg i f s).fv = s.fv := rfl
@[simp] theorem onProg_out : (onProg i f s).out = s.out := rfl
@[simp] theorem onProg_pending : (onProg i f s).pending = s.pending := rfl
end

section
variable (i : Nat) (f : Rst → Rst) (s : State)
@[simp] theorem onRst_fuses : (onRst i f s).fuses = s.fuses := rfl
@[simp] theorem onRst_medium : (onRst i f s).medium = s.medium := rfl
@[simp] theorem onRst_flash : (onRst i f s).flash = s.flash := rfl
@[simp] theorem onRst_plinth : (onRst i f s).plinth = s.plinth := rfl
@[simp] theorem onRst_expert : (onRst i f s).expert = s.expert := rfl
@[simp] theorem onRst_expertEff : (onRst i f s).expertEff = s.expertEff := rfl
@[simp] theorem onRst_glb : (onRst i f s).glb = s.glb := rfl
@[simp] theorem onRst_tck : (onRst i f s).tck = s.tck := rfl
@[simp] theorem onRst_med : (onRst i f s).med = { s.med with resets := s.med.resets.map fun r => if r.block = i then f r else r } := rfl
@[simp] theorem onRst_drf : (onRst i f s).drf = s.drf := rfl
@[simp] theorem onRst_cch : (onRst i f s).cch = s.cch := rfl
@[simp] theorem onRst_dir : (onRst i f s).dir = s.dir := rfl
@[simp] theorem onRst_ord : (onRst i f s).ord = s.ord := rfl
@[simp] theorem onRst_stm : (onRst i f s).stm = s.stm := rfl
@[simp] theorem onRst_links : (onRst i f s).links = s.links := rfl
@[simp] theorem onRst_grp : (onRst i f s).grp = s.grp := rfl
@[simp] theorem onRst_hst : (onRst i f s).hst = s.hst := rfl
@[simp] theorem onRst_sec : (onRst i f s).sec = s.sec := rfl
@[simp] theorem onRst_cph : (onRst i f s).cph = s.cph := rfl
@[simp] theorem onRst_pwr : (onRst i f s).pwr = s.pwr := rfl
@[simp] theorem onRst_clk : (onRst i f s).clk = s.clk := rfl
@[simp] theorem onRst_thm : (onRst i f s).thm = s.thm := rfl
@[simp] theorem onRst_err : (onRst i f s).err = s.err := rfl
@[simp] theorem onRst_pmc : (onRst i f s).pmc = s.pmc := rfl
@[simp] theorem onRst_evr : (onRst i f s).evr = s.evr := rfl
@[simp] theorem onRst_ldg : (onRst i f s).ldg = s.ldg := rfl
@[simp] theorem onRst_dap : (onRst i f s).dap = s.dap := rfl
@[simp] theorem onRst_now : (onRst i f s).now = s.now := rfl
@[simp] theorem onRst_fv : (onRst i f s).fv = s.fv := rfl
@[simp] theorem onRst_out : (onRst i f s).out = s.out := rfl
@[simp] theorem onRst_pending : (onRst i f s).pending = s.pending := rfl
end

section
variable (i : Nat) (f : Way → Way) (s : State)
@[simp] theorem onWay_fuses : (onWay i f s).fuses = s.fuses := rfl
@[simp] theorem onWay_medium : (onWay i f s).medium = s.medium := rfl
@[simp] theorem onWay_flash : (onWay i f s).flash = s.flash := rfl
@[simp] theorem onWay_plinth : (onWay i f s).plinth = s.plinth := rfl
@[simp] theorem onWay_expert : (onWay i f s).expert = s.expert := rfl
@[simp] theorem onWay_expertEff : (onWay i f s).expertEff = s.expertEff := rfl
@[simp] theorem onWay_glb : (onWay i f s).glb = s.glb := rfl
@[simp] theorem onWay_tck : (onWay i f s).tck = s.tck := rfl
@[simp] theorem onWay_med : (onWay i f s).med = s.med := rfl
@[simp] theorem onWay_drf : (onWay i f s).drf = s.drf := rfl
@[simp] theorem onWay_cch : (onWay i f s).cch = { s.cch with ways := tmod {} s.cch.ways i f } := rfl
@[simp] theorem onWay_dir : (onWay i f s).dir = s.dir := rfl
@[simp] theorem onWay_ord : (onWay i f s).ord = s.ord := rfl
@[simp] theorem onWay_stm : (onWay i f s).stm = s.stm := rfl
@[simp] theorem onWay_links : (onWay i f s).links = s.links := rfl
@[simp] theorem onWay_grp : (onWay i f s).grp = s.grp := rfl
@[simp] theorem onWay_hst : (onWay i f s).hst = s.hst := rfl
@[simp] theorem onWay_sec : (onWay i f s).sec = s.sec := rfl
@[simp] theorem onWay_cph : (onWay i f s).cph = s.cph := rfl
@[simp] theorem onWay_pwr : (onWay i f s).pwr = s.pwr := rfl
@[simp] theorem onWay_clk : (onWay i f s).clk = s.clk := rfl
@[simp] theorem onWay_thm : (onWay i f s).thm = s.thm := rfl
@[simp] theorem onWay_err : (onWay i f s).err = s.err := rfl
@[simp] theorem onWay_pmc : (onWay i f s).pmc = s.pmc := rfl
@[simp] theorem onWay_evr : (onWay i f s).evr = s.evr := rfl
@[simp] theorem onWay_ldg : (onWay i f s).ldg = s.ldg := rfl
@[simp] theorem onWay_dap : (onWay i f s).dap = s.dap := rfl
@[simp] theorem onWay_now : (onWay i f s).now = s.now := rfl
@[simp] theorem onWay_fv : (onWay i f s).fv = s.fv := rfl
@[simp] theorem onWay_out : (onWay i f s).out = s.out := rfl
@[simp] theorem onWay_pending : (onWay i f s).pending = s.pending := rfl
end

section
variable (m l : Nat) (f : STest → STest) (s : State)
@[simp] theorem onTest_fuses : (onTest m l f s).fuses = s.fuses := rfl
@[simp] theorem onTest_medium : (onTest m l f s).medium = s.medium := rfl
@[simp] theorem onTest_flash : (onTest m l f s).flash = s.flash := rfl
@[simp] theorem onTest_plinth : (onTest m l f s).plinth = s.plinth := rfl
@[simp] theorem onTest_expert : (onTest m l f s).expert = s.expert := rfl
@[simp] theorem onTest_expertEff : (onTest m l f s).expertEff = s.expertEff := rfl
@[simp] theorem onTest_glb : (onTest m l f s).glb = s.glb := rfl
@[simp] theorem onTest_tck : (onTest m l f s).tck = s.tck := rfl
@[simp] theorem onTest_med : (onTest m l f s).med = s.med := rfl
@[simp] theorem onTest_drf : (onTest m l f s).drf = s.drf := rfl
@[simp] theorem onTest_cch : (onTest m l f s).cch = s.cch := rfl
@[simp] theorem onTest_dir : (onTest m l f s).dir = s.dir := rfl
@[simp] theorem onTest_ord : (onTest m l f s).ord = s.ord := rfl
@[simp] theorem onTest_stm : (onTest m l f s).stm = s.stm := rfl
@[simp] theorem onTest_links : (onTest m l f s).links = s.links := rfl
@[simp] theorem onTest_grp : (onTest m l f s).grp = s.grp := rfl
@[simp] theorem onTest_hst : (onTest m l f s).hst = s.hst := rfl
@[simp] theorem onTest_sec : (onTest m l f s).sec = s.sec := rfl
@[simp] theorem onTest_cph : (onTest m l f s).cph = s.cph := rfl
@[simp] theorem onTest_pwr : (onTest m l f s).pwr = s.pwr := rfl
@[simp] theorem onTest_clk : (onTest m l f s).clk = s.clk := rfl
@[simp] theorem onTest_thm : (onTest m l f s).thm = s.thm := rfl
@[simp] theorem onTest_err : (onTest m l f s).err = { s.err with tests := s.err.tests.map fun t => if t.mem = m ∧ t.loc = l then f t else t } := rfl
@[simp] theorem onTest_pmc : (onTest m l f s).pmc = s.pmc := rfl
@[simp] theorem onTest_evr : (onTest m l f s).evr = s.evr := rfl
@[simp] theorem onTest_ldg : (onTest m l f s).ldg = s.ldg := rfl
@[simp] theorem onTest_dap : (onTest m l f s).dap = s.dap := rfl
@[simp] theorem onTest_now : (onTest m l f s).now = s.now := rfl
@[simp] theorem onTest_fv : (onTest m l f s).fv = s.fv := rfl
@[simp] theorem onTest_out : (onTest m l f s).out = s.out := rfl
@[simp] theorem onTest_pending : (onTest m l f s).pending = s.pending := rfl
end

section
variable (i : Nat) (f : CacheJob → CacheJob) (s : State)
@[simp] theorem onJob_fuses : (onJob i f s).fuses = s.fuses := rfl
@[simp] theorem onJob_medium : (onJob i f s).medium = s.medium := rfl
@[simp] theorem onJob_flash : (onJob i f s).flash = s.flash := rfl
@[simp] theorem onJob_plinth : (onJob i f s).plinth = s.plinth := rfl
@[simp] theorem onJob_expert : (onJob i f s).expert = s.expert := rfl
@[simp] theorem onJob_expertEff : (onJob i f s).expertEff = s.expertEff := rfl
@[simp] theorem onJob_glb : (onJob i f s).glb = s.glb := rfl
@[simp] theorem onJob_tck : (onJob i f s).tck = s.tck := rfl
@[simp] theorem onJob_med : (onJob i f s).med = s.med := rfl
@[simp] theorem onJob_drf : (onJob i f s).drf = s.drf := rfl
@[simp] theorem onJob_cch : (onJob i f s).cch = { s.cch with jobs := s.cch.jobs.map fun j => if j.id = i then f j else j } := rfl
@[simp] theorem onJob_dir : (onJob i f s).dir = s.dir := rfl
@[simp] theorem onJob_ord : (onJob i f s).ord = s.ord := rfl
@[simp] theorem onJob_stm : (onJob i f s).stm = s.stm := rfl
@[simp] theorem onJob_links : (onJob i f s).links = s.links := rfl
@[simp] theorem onJob_grp : (onJob i f s).grp = s.grp := rfl
@[simp] theorem onJob_hst : (onJob i f s).hst = s.hst := rfl
@[simp] theorem onJob_sec : (onJob i f s).sec = s.sec := rfl
@[simp] theorem onJob_cph : (onJob i f s).cph = s.cph := rfl
@[simp] theorem onJob_pwr : (onJob i f s).pwr = s.pwr := rfl
@[simp] theorem onJob_clk : (onJob i f s).clk = s.clk := rfl
@[simp] theorem onJob_thm : (onJob i f s).thm = s.thm := rfl
@[simp] theorem onJob_err : (onJob i f s).err = s.err := rfl
@[simp] theorem onJob_pmc : (onJob i f s).pmc = s.pmc := rfl
@[simp] theorem onJob_evr : (onJob i f s).evr = s.evr := rfl
@[simp] theorem onJob_ldg : (onJob i f s).ldg = s.ldg := rfl
@[simp] theorem onJob_dap : (onJob i f s).dap = s.dap := rfl
@[simp] theorem onJob_now : (onJob i f s).now = s.now := rfl
@[simp] theorem onJob_fv : (onJob i f s).fv = s.fv := rfl
@[simp] theorem onJob_out : (onJob i f s).out = s.out := rfl
@[simp] theorem onJob_pending : (onJob i f s).pending = s.pending := rfl
end

section
variable (f : Import → Import) (s : State)
@[simp] theorem onImp_fuses : (onImp f s).fuses = s.fuses := rfl
@[simp] theorem onImp_medium : (onImp f s).medium = s.medium := rfl
@[simp] theorem onImp_flash : (onImp f s).flash = s.flash := rfl
@[simp] theorem onImp_plinth : (onImp f s).plinth = s.plinth := rfl
@[simp] theorem onImp_expert : (onImp f s).expert = s.expert := rfl
@[simp] theorem onImp_expertEff : (onImp f s).expertEff = s.expertEff := rfl
@[simp] theorem onImp_glb : (onImp f s).glb = s.glb := rfl
@[simp] theorem onImp_tck : (onImp f s).tck = s.tck := rfl
@[simp] theorem onImp_med : (onImp f s).med = s.med := rfl
@[simp] theorem onImp_drf : (onImp f s).drf = s.drf := rfl
@[simp] theorem onImp_cch : (onImp f s).cch = s.cch := rfl
@[simp] theorem onImp_dir : (onImp f s).dir = s.dir := rfl
@[simp] theorem onImp_ord : (onImp f s).ord = s.ord := rfl
@[simp] theorem onImp_stm : (onImp f s).stm = s.stm := rfl
@[simp] theorem onImp_links : (onImp f s).links = s.links := rfl
@[simp] theorem onImp_grp : (onImp f s).grp = s.grp := rfl
@[simp] theorem onImp_hst : (onImp f s).hst = s.hst := rfl
@[simp] theorem onImp_sec : (onImp f s).sec = s.sec := rfl
@[simp] theorem onImp_cph : (onImp f s).cph = { s.cph with imp := s.cph.imp.map f } := rfl
@[simp] theorem onImp_pwr : (onImp f s).pwr = s.pwr := rfl
@[simp] theorem onImp_clk : (onImp f s).clk = s.clk := rfl
@[simp] theorem onImp_thm : (onImp f s).thm = s.thm := rfl
@[simp] theorem onImp_err : (onImp f s).err = s.err := rfl
@[simp] theorem onImp_pmc : (onImp f s).pmc = s.pmc := rfl
@[simp] theorem onImp_evr : (onImp f s).evr = s.evr := rfl
@[simp] theorem onImp_ldg : (onImp f s).ldg = s.ldg := rfl
@[simp] theorem onImp_dap : (onImp f s).dap = s.dap := rfl
@[simp] theorem onImp_now : (onImp f s).now = s.now := rfl
@[simp] theorem onImp_fv : (onImp f s).fv = s.fv := rfl
@[simp] theorem onImp_out : (onImp f s).out = s.out := rfl
@[simp] theorem onImp_pending : (onImp f s).pending = s.pending := rfl
end

end Sys2Proof.Machine
end

