-- ==== Sys2Proof/Laws/State.lean ====
section
/-!
SUPPORT. One lemma per field per update of the state, so that no proof unfolds a record update: `onX f` applies `f` to its own part and
leaves every other part alone; `onLink` and `push` likewise.
-/

namespace Sys2Proof.Machine
open Sys2Proof

section
variable (f : Glb → Glb) (s : State)
@[simp] theorem onGlb_fuses : (onGlb f s).fuses = s.fuses := rfl
@[simp] theorem onGlb_medium : (onGlb f s).medium = s.medium := rfl
@[simp] theorem onGlb_flash : (onGlb f s).flash = s.flash := rfl
@[simp] theorem onGlb_plinth : (onGlb f s).plinth = s.plinth := rfl
@[simp] theorem onGlb_expert : (onGlb f s).expert = s.expert := rfl
@[simp] theorem onGlb_expertEff : (onGlb f s).expertEff = s.expertEff := rfl
@[simp] theorem onGlb_glb : (onGlb f s).glb = f s.glb := rfl
@[simp] theorem onGlb_tck : (onGlb f s).tck = s.tck := rfl
@[simp] theorem onGlb_med : (onGlb f s).med = s.med := rfl
@[simp] theorem onGlb_drf : (onGlb f s).drf = s.drf := rfl
@[simp] theorem onGlb_cch : (onGlb f s).cch = s.cch := rfl
@[simp] theorem onGlb_dir : (onGlb f s).dir = s.dir := rfl
@[simp] theorem onGlb_ord : (onGlb f s).ord = s.ord := rfl
@[simp] theorem onGlb_stm : (onGlb f s).stm = s.stm := rfl
@[simp] theorem onGlb_links : (onGlb f s).links = s.links := rfl
@[simp] theorem onGlb_grp : (onGlb f s).grp = s.grp := rfl
@[simp] theorem onGlb_hst : (onGlb f s).hst = s.hst := rfl
@[simp] theorem onGlb_sec : (onGlb f s).sec = s.sec := rfl
@[simp] theorem onGlb_cph : (onGlb f s).cph = s.cph := rfl
@[simp] theorem onGlb_pwr : (onGlb f s).pwr = s.pwr := rfl
@[simp] theorem onGlb_clk : (onGlb f s).clk = s.clk := rfl
@[simp] theorem onGlb_thm : (onGlb f s).thm = s.thm := rfl
@[simp] theorem onGlb_err : (onGlb f s).err = s.err := rfl
@[simp] theorem onGlb_pmc : (onGlb f s).pmc = s.pmc := rfl
@[simp] theorem onGlb_evr : (onGlb f s).evr = s.evr := rfl
@[simp] theorem onGlb_ldg : (onGlb f s).ldg = s.ldg := rfl
@[simp] theorem onGlb_dap : (onGlb f s).dap = s.dap := rfl
@[simp] theorem onGlb_now : (onGlb f s).now = s.now := rfl
@[simp] theorem onGlb_fv : (onGlb f s).fv = s.fv := rfl
@[simp] theorem onGlb_out : (onGlb f s).out = s.out := rfl
@[simp] theorem onGlb_pending : (onGlb f s).pending = s.pending := rfl
end

section
variable (f : Tck → Tck) (s : State)
@[simp] theorem onTck_fuses : (onTck f s).fuses = s.fuses := rfl
@[simp] theorem onTck_medium : (onTck f s).medium = s.medium := rfl
@[simp] theorem onTck_flash : (onTck f s).flash = s.flash := rfl
@[simp] theorem onTck_plinth : (onTck f s).plinth = s.plinth := rfl
@[simp] theorem onTck_expert : (onTck f s).expert = s.expert := rfl
@[simp] theorem onTck_expertEff : (onTck f s).expertEff = s.expertEff := rfl
@[simp] theorem onTck_glb : (onTck f s).glb = s.glb := rfl
@[simp] theorem onTck_tck : (onTck f s).tck = f s.tck := rfl
@[simp] theorem onTck_med : (onTck f s).med = s.med := rfl
@[simp] theorem onTck_drf : (onTck f s).drf = s.drf := rfl
@[simp] theorem onTck_cch : (onTck f s).cch = s.cch := rfl
@[simp] theorem onTck_dir : (onTck f s).dir = s.dir := rfl
@[simp] theorem onTck_ord : (onTck f s).ord = s.ord := rfl
@[simp] theorem onTck_stm : (onTck f s).stm = s.stm := rfl
@[simp] theorem onTck_links : (onTck f s).links = s.links := rfl
@[simp] theorem onTck_grp : (onTck f s).grp = s.grp := rfl
@[simp] theorem onTck_hst : (onTck f s).hst = s.hst := rfl
@[simp] theorem onTck_sec : (onTck f s).sec = s.sec := rfl
@[simp] theorem onTck_cph : (onTck f s).cph = s.cph := rfl
@[simp] theorem onTck_pwr : (onTck f s).pwr = s.pwr := rfl
@[simp] theorem onTck_clk : (onTck f s).clk = s.clk := rfl
@[simp] theorem onTck_thm : (onTck f s).thm = s.thm := rfl
@[simp] theorem onTck_err : (onTck f s).err = s.err := rfl
@[simp] theorem onTck_pmc : (onTck f s).pmc = s.pmc := rfl
@[simp] theorem onTck_evr : (onTck f s).evr = s.evr := rfl
@[simp] theorem onTck_ldg : (onTck f s).ldg = s.ldg := rfl
@[simp] theorem onTck_dap : (onTck f s).dap = s.dap := rfl
@[simp] theorem onTck_now : (onTck f s).now = s.now := rfl
@[simp] theorem onTck_fv : (onTck f s).fv = s.fv := rfl
@[simp] theorem onTck_out : (onTck f s).out = s.out := rfl
@[simp] theorem onTck_pending : (onTck f s).pending = s.pending := rfl
end

section
variable (f : Med → Med) (s : State)
@[simp] theorem onMed_fuses : (onMed f s).fuses = s.fuses := rfl
@[simp] theorem onMed_medium : (onMed f s).medium = s.medium := rfl
@[simp] theorem onMed_flash : (onMed f s).flash = s.flash := rfl
@[simp] theorem onMed_plinth : (onMed f s).plinth = s.plinth := rfl
@[simp] theorem onMed_expert : (onMed f s).expert = s.expert := rfl
@[simp] theorem onMed_expertEff : (onMed f s).expertEff = s.expertEff := rfl
@[simp] theorem onMed_glb : (onMed f s).glb = s.glb := rfl
@[simp] theorem onMed_tck : (onMed f s).tck = s.tck := rfl
@[simp] theorem onMed_med : (onMed f s).med = f s.med := rfl
@[simp] theorem onMed_drf : (onMed f s).drf = s.drf := rfl
@[simp] theorem onMed_cch : (onMed f s).cch = s.cch := rfl
@[simp] theorem onMed_dir : (onMed f s).dir = s.dir := rfl
@[simp] theorem onMed_ord : (onMed f s).ord = s.ord := rfl
@[simp] theorem onMed_stm : (onMed f s).stm = s.stm := rfl
@[simp] theorem onMed_links : (onMed f s).links = s.links := rfl
@[simp] theorem onMed_grp : (onMed f s).grp = s.grp := rfl
@[simp] theorem onMed_hst : (onMed f s).hst = s.hst := rfl
@[simp] theorem onMed_sec : (onMed f s).sec = s.sec := rfl
@[simp] theorem onMed_cph : (onMed f s).cph = s.cph := rfl
@[simp] theorem onMed_pwr : (onMed f s).pwr = s.pwr := rfl
@[simp] theorem onMed_clk : (onMed f s).clk = s.clk := rfl
@[simp] theorem onMed_thm : (onMed f s).thm = s.thm := rfl
@[simp] theorem onMed_err : (onMed f s).err = s.err := rfl
@[simp] theorem onMed_pmc : (onMed f s).pmc = s.pmc := rfl
@[simp] theorem onMed_evr : (onMed f s).evr = s.evr := rfl
@[simp] theorem onMed_ldg : (onMed f s).ldg = s.ldg := rfl
@[simp] theorem onMed_dap : (onMed f s).dap = s.dap := rfl
@[simp] theorem onMed_now : (onMed f s).now = s.now := rfl
@[simp] theorem onMed_fv : (onMed f s).fv = s.fv := rfl
@[simp] theorem onMed_out : (onMed f s).out = s.out := rfl
@[simp] theorem onMed_pending : (onMed f s).pending = s.pending := rfl
end

section
variable (f : Drf → Drf) (s : State)
@[simp] theorem onDrf_fuses : (onDrf f s).fuses = s.fuses := rfl
@[simp] theorem onDrf_medium : (onDrf f s).medium = s.medium := rfl
@[simp] theorem onDrf_flash : (onDrf f s).flash = s.flash := rfl
@[simp] theorem onDrf_plinth : (onDrf f s).plinth = s.plinth := rfl
@[simp] theorem onDrf_expert : (onDrf f s).expert = s.expert := rfl
@[simp] theorem onDrf_expertEff : (onDrf f s).expertEff = s.expertEff := rfl
@[simp] theorem onDrf_glb : (onDrf f s).glb = s.glb := rfl
@[simp] theorem onDrf_tck : (onDrf f s).tck = s.tck := rfl
@[simp] theorem onDrf_med : (onDrf f s).med = s.med := rfl
@[simp] theorem onDrf_drf : (onDrf f s).drf = f s.drf := rfl
@[simp] theorem onDrf_cch : (onDrf f s).cch = s.cch := rfl
@[simp] theorem onDrf_dir : (onDrf f s).dir = s.dir := rfl
@[simp] theorem onDrf_ord : (onDrf f s).ord = s.ord := rfl
@[simp] theorem onDrf_stm : (onDrf f s).stm = s.stm := rfl
@[simp] theorem onDrf_links : (onDrf f s).links = s.links := rfl
@[simp] theorem onDrf_grp : (onDrf f s).grp = s.grp := rfl
@[simp] theorem onDrf_hst : (onDrf f s).hst = s.hst := rfl
@[simp] theorem onDrf_sec : (onDrf f s).sec = s.sec := rfl
@[simp] theorem onDrf_cph : (onDrf f s).cph = s.cph := rfl
@[simp] theorem onDrf_pwr : (onDrf f s).pwr = s.pwr := rfl
@[simp] theorem onDrf_clk : (onDrf f s).clk = s.clk := rfl
@[simp] theorem onDrf_thm : (onDrf f s).thm = s.thm := rfl
@[simp] theorem onDrf_err : (onDrf f s).err = s.err := rfl
@[simp] theorem onDrf_pmc : (onDrf f s).pmc = s.pmc := rfl
@[simp] theorem onDrf_evr : (onDrf f s).evr = s.evr := rfl
@[simp] theorem onDrf_ldg : (onDrf f s).ldg = s.ldg := rfl
@[simp] theorem onDrf_dap : (onDrf f s).dap = s.dap := rfl
@[simp] theorem onDrf_now : (onDrf f s).now = s.now := rfl
@[simp] theorem onDrf_fv : (onDrf f s).fv = s.fv := rfl
@[simp] theorem onDrf_out : (onDrf f s).out = s.out := rfl
@[simp] theorem onDrf_pending : (onDrf f s).pending = s.pending := rfl
end

section
variable (f : Cch → Cch) (s : State)
@[simp] theorem onCch_fuses : (onCch f s).fuses = s.fuses := rfl
@[simp] theorem onCch_medium : (onCch f s).medium = s.medium := rfl
@[simp] theorem onCch_flash : (onCch f s).flash = s.flash := rfl
@[simp] theorem onCch_plinth : (onCch f s).plinth = s.plinth := rfl
@[simp] theorem onCch_expert : (onCch f s).expert = s.expert := rfl
@[simp] theorem onCch_expertEff : (onCch f s).expertEff = s.expertEff := rfl
@[simp] theorem onCch_glb : (onCch f s).glb = s.glb := rfl
@[simp] theorem onCch_tck : (onCch f s).tck = s.tck := rfl
@[simp] theorem onCch_med : (onCch f s).med = s.med := rfl
@[simp] theorem onCch_drf : (onCch f s).drf = s.drf := rfl
@[simp] theorem onCch_cch : (onCch f s).cch = f s.cch := rfl
@[simp] theorem onCch_dir : (onCch f s).dir = s.dir := rfl
@[simp] theorem onCch_ord : (onCch f s).ord = s.ord := rfl
@[simp] theorem onCch_stm : (onCch f s).stm = s.stm := rfl
@[simp] theorem onCch_links : (onCch f s).links = s.links := rfl
@[simp] theorem onCch_grp : (onCch f s).grp = s.grp := rfl
@[simp] theorem onCch_hst : (onCch f s).hst = s.hst := rfl
@[simp] theorem onCch_sec : (onCch f s).sec = s.sec := rfl
@[simp] theorem onCch_cph : (onCch f s).cph = s.cph := rfl
@[simp] theorem onCch_pwr : (onCch f s).pwr = s.pwr := rfl
@[simp] theorem onCch_clk : (onCch f s).clk = s.clk := rfl
@[simp] theorem onCch_thm : (onCch f s).thm = s.thm := rfl
@[simp] theorem onCch_err : (onCch f s).err = s.err := rfl
@[simp] theorem onCch_pmc : (onCch f s).pmc = s.pmc := rfl
@[simp] theorem onCch_evr : (onCch f s).evr = s.evr := rfl
@[simp] theorem onCch_ldg : (onCch f s).ldg = s.ldg := rfl
@[simp] theorem onCch_dap : (onCch f s).dap = s.dap := rfl
@[simp] theorem onCch_now : (onCch f s).now = s.now := rfl
@[simp] theorem onCch_fv : (onCch f s).fv = s.fv := rfl
@[simp] theorem onCch_out : (onCch f s).out = s.out := rfl
@[simp] theorem onCch_pending : (onCch f s).pending = s.pending := rfl
end

section
variable (f : Dir → Dir) (s : State)
@[simp] theorem onDir_fuses : (onDir f s).fuses = s.fuses := rfl
@[simp] theorem onDir_medium : (onDir f s).medium = s.medium := rfl
@[simp] theorem onDir_flash : (onDir f s).flash = s.flash := rfl
@[simp] theorem onDir_plinth : (onDir f s).plinth = s.plinth := rfl
@[simp] theorem onDir_expert : (onDir f s).expert = s.expert := rfl
@[simp] theorem onDir_expertEff : (onDir f s).expertEff = s.expertEff := rfl
@[simp] theorem onDir_glb : (onDir f s).glb = s.glb := rfl
@[simp] theorem onDir_tck : (onDir f s).tck = s.tck := rfl
@[simp] theorem onDir_med : (onDir f s).med = s.med := rfl
@[simp] theorem onDir_drf : (onDir f s).drf = s.drf := rfl
@[simp] theorem onDir_cch : (onDir f s).cch = s.cch := rfl
@[simp] theorem onDir_dir : (onDir f s).dir = f s.dir := rfl
@[simp] theorem onDir_ord : (onDir f s).ord = s.ord := rfl
@[simp] theorem onDir_stm : (onDir f s).stm = s.stm := rfl
@[simp] theorem onDir_links : (onDir f s).links = s.links := rfl
@[simp] theorem onDir_grp : (onDir f s).grp = s.grp := rfl
@[simp] theorem onDir_hst : (onDir f s).hst = s.hst := rfl
@[simp] theorem onDir_sec : (onDir f s).sec = s.sec := rfl
@[simp] theorem onDir_cph : (onDir f s).cph = s.cph := rfl
@[simp] theorem onDir_pwr : (onDir f s).pwr = s.pwr := rfl
@[simp] theorem onDir_clk : (onDir f s).clk = s.clk := rfl
@[simp] theorem onDir_thm : (onDir f s).thm = s.thm := rfl
@[simp] theorem onDir_err : (onDir f s).err = s.err := rfl
@[simp] theorem onDir_pmc : (onDir f s).pmc = s.pmc := rfl
@[simp] theorem onDir_evr : (onDir f s).evr = s.evr := rfl
@[simp] theorem onDir_ldg : (onDir f s).ldg = s.ldg := rfl
@[simp] theorem onDir_dap : (onDir f s).dap = s.dap := rfl
@[simp] theorem onDir_now : (onDir f s).now = s.now := rfl
@[simp] theorem onDir_fv : (onDir f s).fv = s.fv := rfl
@[simp] theorem onDir_out : (onDir f s).out = s.out := rfl
@[simp] theorem onDir_pending : (onDir f s).pending = s.pending := rfl
end

section
variable (f : Ord → Ord) (s : State)
@[simp] theorem onOrd_fuses : (onOrd f s).fuses = s.fuses := rfl
@[simp] theorem onOrd_medium : (onOrd f s).medium = s.medium := rfl
@[simp] theorem onOrd_flash : (onOrd f s).flash = s.flash := rfl
@[simp] theorem onOrd_plinth : (onOrd f s).plinth = s.plinth := rfl
@[simp] theorem onOrd_expert : (onOrd f s).expert = s.expert := rfl
@[simp] theorem onOrd_expertEff : (onOrd f s).expertEff = s.expertEff := rfl
@[simp] theorem onOrd_glb : (onOrd f s).glb = s.glb := rfl
@[simp] theorem onOrd_tck : (onOrd f s).tck = s.tck := rfl
@[simp] theorem onOrd_med : (onOrd f s).med = s.med := rfl
@[simp] theorem onOrd_drf : (onOrd f s).drf = s.drf := rfl
@[simp] theorem onOrd_cch : (onOrd f s).cch = s.cch := rfl
@[simp] theorem onOrd_dir : (onOrd f s).dir = s.dir := rfl
@[simp] theorem onOrd_ord : (onOrd f s).ord = f s.ord := rfl
@[simp] theorem onOrd_stm : (onOrd f s).stm = s.stm := rfl
@[simp] theorem onOrd_links : (onOrd f s).links = s.links := rfl
@[simp] theorem onOrd_grp : (onOrd f s).grp = s.grp := rfl
@[simp] theorem onOrd_hst : (onOrd f s).hst = s.hst := rfl
@[simp] theorem onOrd_sec : (onOrd f s).sec = s.sec := rfl
@[simp] theorem onOrd_cph : (onOrd f s).cph = s.cph := rfl
@[simp] theorem onOrd_pwr : (onOrd f s).pwr = s.pwr := rfl
@[simp] theorem onOrd_clk : (onOrd f s).clk = s.clk := rfl
@[simp] theorem onOrd_thm : (onOrd f s).thm = s.thm := rfl
@[simp] theorem onOrd_err : (onOrd f s).err = s.err := rfl
@[simp] theorem onOrd_pmc : (onOrd f s).pmc = s.pmc := rfl
@[simp] theorem onOrd_evr : (onOrd f s).evr = s.evr := rfl
@[simp] theorem onOrd_ldg : (onOrd f s).ldg = s.ldg := rfl
@[simp] theorem onOrd_dap : (onOrd f s).dap = s.dap := rfl
@[simp] theorem onOrd_now : (onOrd f s).now = s.now := rfl
@[simp] theorem onOrd_fv : (onOrd f s).fv = s.fv := rfl
@[simp] theorem onOrd_out : (onOrd f s).out = s.out := rfl
@[simp] theorem onOrd_pending : (onOrd f s).pending = s.pending := rfl
end

section
variable (f : Stm → Stm) (s : State)
@[simp] theorem onStm_fuses : (onStm f s).fuses = s.fuses := rfl
@[simp] theorem onStm_medium : (onStm f s).medium = s.medium := rfl
@[simp] theorem onStm_flash : (onStm f s).flash = s.flash := rfl
@[simp] theorem onStm_plinth : (onStm f s).plinth = s.plinth := rfl
@[simp] theorem onStm_expert : (onStm f s).expert = s.expert := rfl
@[simp] theorem onStm_expertEff : (onStm f s).expertEff = s.expertEff := rfl
@[simp] theorem onStm_glb : (onStm f s).glb = s.glb := rfl
@[simp] theorem onStm_tck : (onStm f s).tck = s.tck := rfl
@[simp] theorem onStm_med : (onStm f s).med = s.med := rfl
@[simp] theorem onStm_drf : (onStm f s).drf = s.drf := rfl
@[simp] theorem onStm_cch : (onStm f s).cch = s.cch := rfl
@[simp] theorem onStm_dir : (onStm f s).dir = s.dir := rfl
@[simp] theorem onStm_ord : (onStm f s).ord = s.ord := rfl
@[simp] theorem onStm_stm : (onStm f s).stm = f s.stm := rfl
@[simp] theorem onStm_links : (onStm f s).links = s.links := rfl
@[simp] theorem onStm_grp : (onStm f s).grp = s.grp := rfl
@[simp] theorem onStm_hst : (onStm f s).hst = s.hst := rfl
@[simp] theorem onStm_sec : (onStm f s).sec = s.sec := rfl
@[simp] theorem onStm_cph : (onStm f s).cph = s.cph := rfl
@[simp] theorem onStm_pwr : (onStm f s).pwr = s.pwr := rfl
@[simp] theorem onStm_clk : (onStm f s).clk = s.clk := rfl
@[simp] theorem onStm_thm : (onStm f s).thm = s.thm := rfl
@[simp] theorem onStm_err : (onStm f s).err = s.err := rfl
@[simp] theorem onStm_pmc : (onStm f s).pmc = s.pmc := rfl
@[simp] theorem onStm_evr : (onStm f s).evr = s.evr := rfl
@[simp] theorem onStm_ldg : (onStm f s).ldg = s.ldg := rfl
@[simp] theorem onStm_dap : (onStm f s).dap = s.dap := rfl
@[simp] theorem onStm_now : (onStm f s).now = s.now := rfl
@[simp] theorem onStm_fv : (onStm f s).fv = s.fv := rfl
@[simp] theorem onStm_out : (onStm f s).out = s.out := rfl
@[simp] theorem onStm_pending : (onStm f s).pending = s.pending := rfl
end

section
variable (f : Grp → Grp) (s : State)
@[simp] theorem onGrp_fuses : (onGrp f s).fuses = s.fuses := rfl
@[simp] theorem onGrp_medium : (onGrp f s).medium = s.medium := rfl
@[simp] theorem onGrp_flash : (onGrp f s).flash = s.flash := rfl
@[simp] theorem onGrp_plinth : (onGrp f s).plinth = s.plinth := rfl
@[simp] theorem onGrp_expert : (onGrp f s).expert = s.expert := rfl
@[simp] theorem onGrp_expertEff : (onGrp f s).expertEff = s.expertEff := rfl
@[simp] theorem onGrp_glb : (onGrp f s).glb = s.glb := rfl
@[simp] theorem onGrp_tck : (onGrp f s).tck = s.tck := rfl
@[simp] theorem onGrp_med : (onGrp f s).med = s.med := rfl
@[simp] theorem onGrp_drf : (onGrp f s).drf = s.drf := rfl
@[simp] theorem onGrp_cch : (onGrp f s).cch = s.cch := rfl
@[simp] theorem onGrp_dir : (onGrp f s).dir = s.dir := rfl
@[simp] theorem onGrp_ord : (onGrp f s).ord = s.ord := rfl
@[simp] theorem onGrp_stm : (onGrp f s).stm = s.stm := rfl
@[simp] theorem onGrp_links : (onGrp f s).links = s.links := rfl
@[simp] theorem onGrp_grp : (onGrp f s).grp = f s.grp := rfl
@[simp] theorem onGrp_hst : (onGrp f s).hst = s.hst := rfl
@[simp] theorem onGrp_sec : (onGrp f s).sec = s.sec := rfl
@[simp] theorem onGrp_cph : (onGrp f s).cph = s.cph := rfl
@[simp] theorem onGrp_pwr : (onGrp f s).pwr = s.pwr := rfl
@[simp] theorem onGrp_clk : (onGrp f s).clk = s.clk := rfl
@[simp] theorem onGrp_thm : (onGrp f s).thm = s.thm := rfl
@[simp] theorem onGrp_err : (onGrp f s).err = s.err := rfl
@[simp] theorem onGrp_pmc : (onGrp f s).pmc = s.pmc := rfl
@[simp] theorem onGrp_evr : (onGrp f s).evr = s.evr := rfl
@[simp] theorem onGrp_ldg : (onGrp f s).ldg = s.ldg := rfl
@[simp] theorem onGrp_dap : (onGrp f s).dap = s.dap := rfl
@[simp] theorem onGrp_now : (onGrp f s).now = s.now := rfl
@[simp] theorem onGrp_fv : (onGrp f s).fv = s.fv := rfl
@[simp] theorem onGrp_out : (onGrp f s).out = s.out := rfl
@[simp] theorem onGrp_pending : (onGrp f s).pending = s.pending := rfl
end

section
variable (f : Hst → Hst) (s : State)
@[simp] theorem onHst_fuses : (onHst f s).fuses = s.fuses := rfl
@[simp] theorem onHst_medium : (onHst f s).medium = s.medium := rfl
@[simp] theorem onHst_flash : (onHst f s).flash = s.flash := rfl
@[simp] theorem onHst_plinth : (onHst f s).plinth = s.plinth := rfl
@[simp] theorem onHst_expert : (onHst f s).expert = s.expert := rfl
@[simp] theorem onHst_expertEff : (onHst f s).expertEff = s.expertEff := rfl
@[simp] theorem onHst_glb : (onHst f s).glb = s.glb := rfl
@[simp] theorem onHst_tck : (onHst f s).tck = s.tck := rfl
@[simp] theorem onHst_med : (onHst f s).med = s.med := rfl
@[simp] theorem onHst_drf : (onHst f s).drf = s.drf := rfl
@[simp] theorem onHst_cch : (onHst f s).cch = s.cch := rfl
@[simp] theorem onHst_dir : (onHst f s).dir = s.dir := rfl
@[simp] theorem onHst_ord : (onHst f s).ord = s.ord := rfl
@[simp] theorem onHst_stm : (onHst f s).stm = s.stm := rfl
@[simp] theorem onHst_links : (onHst f s).links = s.links := rfl
@[simp] theorem onHst_grp : (onHst f s).grp = s.grp := rfl
@[simp] theorem onHst_hst : (onHst f s).hst = f s.hst := rfl
@[simp] theorem onHst_sec : (onHst f s).sec = s.sec := rfl
@[simp] theorem onHst_cph : (onHst f s).cph = s.cph := rfl
@[simp] theorem onHst_pwr : (onHst f s).pwr = s.pwr := rfl
@[simp] theorem onHst_clk : (onHst f s).clk = s.clk := rfl
@[simp] theorem onHst_thm : (onHst f s).thm = s.thm := rfl
@[simp] theorem onHst_err : (onHst f s).err = s.err := rfl
@[simp] theorem onHst_pmc : (onHst f s).pmc = s.pmc := rfl
@[simp] theorem onHst_evr : (onHst f s).evr = s.evr := rfl
@[simp] theorem onHst_ldg : (onHst f s).ldg = s.ldg := rfl
@[simp] theorem onHst_dap : (onHst f s).dap = s.dap := rfl
@[simp] theorem onHst_now : (onHst f s).now = s.now := rfl
@[simp] theorem onHst_fv : (onHst f s).fv = s.fv := rfl
@[simp] theorem onHst_out : (onHst f s).out = s.out := rfl
@[simp] theorem onHst_pending : (onHst f s).pending = s.pending := rfl
end

section
variable (f : Sec → Sec) (s : State)
@[simp] theorem onSec_fuses : (onSec f s).fuses = s.fuses := rfl
@[simp] theorem onSec_medium : (onSec f s).medium = s.medium := rfl
@[simp] theorem onSec_flash : (onSec f s).flash = s.flash := rfl
@[simp] theorem onSec_plinth : (onSec f s).plinth = s.plinth := rfl
@[simp] theorem onSec_expert : (onSec f s).expert = s.expert := rfl
@[simp] theorem onSec_expertEff : (onSec f s).expertEff = s.expertEff := rfl
@[simp] theorem onSec_glb : (onSec f s).glb = s.glb := rfl
@[simp] theorem onSec_tck : (onSec f s).tck = s.tck := rfl
@[simp] theorem onSec_med : (onSec f s).med = s.med := rfl
@[simp] theorem onSec_drf : (onSec f s).drf = s.drf := rfl
@[simp] theorem onSec_cch : (onSec f s).cch = s.cch := rfl
@[simp] theorem onSec_dir : (onSec f s).dir = s.dir := rfl
@[simp] theorem onSec_ord : (onSec f s).ord = s.ord := rfl
@[simp] theorem onSec_stm : (onSec f s).stm = s.stm := rfl
@[simp] theorem onSec_links : (onSec f s).links = s.links := rfl
@[simp] theorem onSec_grp : (onSec f s).grp = s.grp := rfl
@[simp] theorem onSec_hst : (onSec f s).hst = s.hst := rfl
@[simp] theorem onSec_sec : (onSec f s).sec = f s.sec := rfl
@[simp] theorem onSec_cph : (onSec f s).cph = s.cph := rfl
@[simp] theorem onSec_pwr : (onSec f s).pwr = s.pwr := rfl
@[simp] theorem onSec_clk : (onSec f s).clk = s.clk := rfl
@[simp] theorem onSec_thm : (onSec f s).thm = s.thm := rfl
@[simp] theorem onSec_err : (onSec f s).err = s.err := rfl
@[simp] theorem onSec_pmc : (onSec f s).pmc = s.pmc := rfl
@[simp] theorem onSec_evr : (onSec f s).evr = s.evr := rfl
@[simp] theorem onSec_ldg : (onSec f s).ldg = s.ldg := rfl
@[simp] theorem onSec_dap : (onSec f s).dap = s.dap := rfl
@[simp] theorem onSec_now : (onSec f s).now = s.now := rfl
@[simp] theorem onSec_fv : (onSec f s).fv = s.fv := rfl
@[simp] theorem onSec_out : (onSec f s).out = s.out := rfl
@[simp] theorem onSec_pending : (onSec f s).pending = s.pending := rfl
end

section
variable (f : Cph → Cph) (s : State)
@[simp] theorem onCph_fuses : (onCph f s).fuses = s.fuses := rfl
@[simp] theorem onCph_medium : (onCph f s).medium = s.medium := rfl
@[simp] theorem onCph_flash : (onCph f s).flash = s.flash := rfl
@[simp] theorem onCph_plinth : (onCph f s).plinth = s.plinth := rfl
@[simp] theorem onCph_expert : (onCph f s).expert = s.expert := rfl
@[simp] theorem onCph_expertEff : (onCph f s).expertEff = s.expertEff := rfl
@[simp] theorem onCph_glb : (onCph f s).glb = s.glb := rfl
@[simp] theorem onCph_tck : (onCph f s).tck = s.tck := rfl
@[simp] theorem onCph_med : (onCph f s).med = s.med := rfl
@[simp] theorem onCph_drf : (onCph f s).drf = s.drf := rfl
@[simp] theorem onCph_cch : (onCph f s).cch = s.cch := rfl
@[simp] theorem onCph_dir : (onCph f s).dir = s.dir := rfl
@[simp] theorem onCph_ord : (onCph f s).ord = s.ord := rfl
@[simp] theorem onCph_stm : (onCph f s).stm = s.stm := rfl
@[simp] theorem onCph_links : (onCph f s).links = s.links := rfl
@[simp] theorem onCph_grp : (onCph f s).grp = s.grp := rfl
@[simp] theorem onCph_hst : (onCph f s).hst = s.hst := rfl
@[simp] theorem onCph_sec : (onCph f s).sec = s.sec := rfl
@[simp] theorem onCph_cph : (onCph f s).cph = f s.cph := rfl
@[simp] theorem onCph_pwr : (onCph f s).pwr = s.pwr := rfl
@[simp] theorem onCph_clk : (onCph f s).clk = s.clk := rfl
@[simp] theorem onCph_thm : (onCph f s).thm = s.thm := rfl
@[simp] theorem onCph_err : (onCph f s).err = s.err := rfl
@[simp] theorem onCph_pmc : (onCph f s).pmc = s.pmc := rfl
@[simp] theorem onCph_evr : (onCph f s).evr = s.evr := rfl
@[simp] theorem onCph_ldg : (onCph f s).ldg = s.ldg := rfl
@[simp] theorem onCph_dap : (onCph f s).dap = s.dap := rfl
@[simp] theorem onCph_now : (onCph f s).now = s.now := rfl
@[simp] theorem onCph_fv : (onCph f s).fv = s.fv := rfl
@[simp] theorem onCph_out : (onCph f s).out = s.out := rfl
@[simp] theorem onCph_pending : (onCph f s).pending = s.pending := rfl
end

section
variable (f : Pwr → Pwr) (s : State)
@[simp] theorem onPwr_fuses : (onPwr f s).fuses = s.fuses := rfl
@[simp] theorem onPwr_medium : (onPwr f s).medium = s.medium := rfl
@[simp] theorem onPwr_flash : (onPwr f s).flash = s.flash := rfl
@[simp] theorem onPwr_plinth : (onPwr f s).plinth = s.plinth := rfl
@[simp] theorem onPwr_expert : (onPwr f s).expert = s.expert := rfl
@[simp] theorem onPwr_expertEff : (onPwr f s).expertEff = s.expertEff := rfl
@[simp] theorem onPwr_glb : (onPwr f s).glb = s.glb := rfl
@[simp] theorem onPwr_tck : (onPwr f s).tck = s.tck := rfl
@[simp] theorem onPwr_med : (onPwr f s).med = s.med := rfl
@[simp] theorem onPwr_drf : (onPwr f s).drf = s.drf := rfl
@[simp] theorem onPwr_cch : (onPwr f s).cch = s.cch := rfl
@[simp] theorem onPwr_dir : (onPwr f s).dir = s.dir := rfl
@[simp] theorem onPwr_ord : (onPwr f s).ord = s.ord := rfl
@[simp] theorem onPwr_stm : (onPwr f s).stm = s.stm := rfl
@[simp] theorem onPwr_links : (onPwr f s).links = s.links := rfl
@[simp] theorem onPwr_grp : (onPwr f s).grp = s.grp := rfl
@[simp] theorem onPwr_hst : (onPwr f s).hst = s.hst := rfl
@[simp] theorem onPwr_sec : (onPwr f s).sec = s.sec := rfl
@[simp] theorem onPwr_cph : (onPwr f s).cph = s.cph := rfl
@[simp] theorem onPwr_pwr : (onPwr f s).pwr = f s.pwr := rfl
@[simp] theorem onPwr_clk : (onPwr f s).clk = s.clk := rfl
@[simp] theorem onPwr_thm : (onPwr f s).thm = s.thm := rfl
@[simp] theorem onPwr_err : (onPwr f s).err = s.err := rfl
@[simp] theorem onPwr_pmc : (onPwr f s).pmc = s.pmc := rfl
@[simp] theorem onPwr_evr : (onPwr f s).evr = s.evr := rfl
@[simp] theorem onPwr_ldg : (onPwr f s).ldg = s.ldg := rfl
@[simp] theorem onPwr_dap : (onPwr f s).dap = s.dap := rfl
@[simp] theorem onPwr_now : (onPwr f s).now = s.now := rfl
@[simp] theorem onPwr_fv : (onPwr f s).fv = s.fv := rfl
@[simp] theorem onPwr_out : (onPwr f s).out = s.out := rfl
@[simp] theorem onPwr_pending : (onPwr f s).pending = s.pending := rfl
end

section
variable (f : Clk → Clk) (s : State)
@[simp] theorem onClk_fuses : (onClk f s).fuses = s.fuses := rfl
@[simp] theorem onClk_medium : (onClk f s).medium = s.medium := rfl
@[simp] theorem onClk_flash : (onClk f s).flash = s.flash := rfl
@[simp] theorem onClk_plinth : (onClk f s).plinth = s.plinth := rfl
@[simp] theorem onClk_expert : (onClk f s).expert = s.expert := rfl
@[simp] theorem onClk_expertEff : (onClk f s).expertEff = s.expertEff := rfl
@[simp] theorem onClk_glb : (onClk f s).glb = s.glb := rfl
@[simp] theorem onClk_tck : (onClk f s).tck = s.tck := rfl
@[simp] theorem onClk_med : (onClk f s).med = s.med := rfl
@[simp] theorem onClk_drf : (onClk f s).drf = s.drf := rfl
@[simp] theorem onClk_cch : (onClk f s).cch = s.cch := rfl
@[simp] theorem onClk_dir : (onClk f s).dir = s.dir := rfl
@[simp] theorem onClk_ord : (onClk f s).ord = s.ord := rfl
@[simp] theorem onClk_stm : (onClk f s).stm = s.stm := rfl
@[simp] theorem onClk_links : (onClk f s).links = s.links := rfl
@[simp] theorem onClk_grp : (onClk f s).grp = s.grp := rfl
@[simp] theorem onClk_hst : (onClk f s).hst = s.hst := rfl
@[simp] theorem onClk_sec : (onClk f s).sec = s.sec := rfl
@[simp] theorem onClk_cph : (onClk f s).cph = s.cph := rfl
@[simp] theorem onClk_pwr : (onClk f s).pwr = s.pwr := rfl
@[simp] theorem onClk_clk : (onClk f s).clk = f s.clk := rfl
@[simp] theorem onClk_thm : (onClk f s).thm = s.thm := rfl
@[simp] theorem onClk_err : (onClk f s).err = s.err := rfl
@[simp] theorem onClk_pmc : (onClk f s).pmc = s.pmc := rfl
@[simp] theorem onClk_evr : (onClk f s).evr = s.evr := rfl
@[simp] theorem onClk_ldg : (onClk f s).ldg = s.ldg := rfl
@[simp] theorem onClk_dap : (onClk f s).dap = s.dap := rfl
@[simp] theorem onClk_now : (onClk f s).now = s.now := rfl
@[simp] theorem onClk_fv : (onClk f s).fv = s.fv := rfl
@[simp] theorem onClk_out : (onClk f s).out = s.out := rfl
@[simp] theorem onClk_pending : (onClk f s).pending = s.pending := rfl
end

section
variable (f : Thm → Thm) (s : State)
@[simp] theorem onThm_fuses : (onThm f s).fuses = s.fuses := rfl
@[simp] theorem onThm_medium : (onThm f s).medium = s.medium := rfl
@[simp] theorem onThm_flash : (onThm f s).flash = s.flash := rfl
@[simp] theorem onThm_plinth : (onThm f s).plinth = s.plinth := rfl
@[simp] theorem onThm_expert : (onThm f s).expert = s.expert := rfl
@[simp] theorem onThm_expertEff : (onThm f s).expertEff = s.expertEff := rfl
@[simp] theorem onThm_glb : (onThm f s).glb = s.glb := rfl
@[simp] theorem onThm_tck : (onThm f s).tck = s.tck := rfl
@[simp] theorem onThm_med : (onThm f s).med = s.med := rfl
@[simp] theorem onThm_drf : (onThm f s).drf = s.drf := rfl
@[simp] theorem onThm_cch : (onThm f s).cch = s.cch := rfl
@[simp] theorem onThm_dir : (onThm f s).dir = s.dir := rfl
@[simp] theorem onThm_ord : (onThm f s).ord = s.ord := rfl
@[simp] theorem onThm_stm : (onThm f s).stm = s.stm := rfl
@[simp] theorem onThm_links : (onThm f s).links = s.links := rfl
@[simp] theorem onThm_grp : (onThm f s).grp = s.grp := rfl
@[simp] theorem onThm_hst : (onThm f s).hst = s.hst := rfl
@[simp] theorem onThm_sec : (onThm f s).sec = s.sec := rfl
@[simp] theorem onThm_cph : (onThm f s).cph = s.cph := rfl
@[simp] theorem onThm_pwr : (onThm f s).pwr = s.pwr := rfl
@[simp] theorem onThm_clk : (onThm f s).clk = s.clk := rfl
@[simp] theorem onThm_thm : (onThm f s).thm = f s.thm := rfl
@[simp] theorem onThm_err : (onThm f s).err = s.err := rfl
@[simp] theorem onThm_pmc : (onThm f s).pmc = s.pmc := rfl
@[simp] theorem onThm_evr : (onThm f s).evr = s.evr := rfl
@[simp] theorem onThm_ldg : (onThm f s).ldg = s.ldg := rfl
@[simp] theorem onThm_dap : (onThm f s).dap = s.dap := rfl
@[simp] theorem onThm_now : (onThm f s).now = s.now := rfl
@[simp] theorem onThm_fv : (onThm f s).fv = s.fv := rfl
@[simp] theorem onThm_out : (onThm f s).out = s.out := rfl
@[simp] theorem onThm_pending : (onThm f s).pending = s.pending := rfl
end

section
variable (f : Err → Err) (s : State)
@[simp] theorem onErr_fuses : (onErr f s).fuses = s.fuses := rfl
@[simp] theorem onErr_medium : (onErr f s).medium = s.medium := rfl
@[simp] theorem onErr_flash : (onErr f s).flash = s.flash := rfl
@[simp] theorem onErr_plinth : (onErr f s).plinth = s.plinth := rfl
@[simp] theorem onErr_expert : (onErr f s).expert = s.expert := rfl
@[simp] theorem onErr_expertEff : (onErr f s).expertEff = s.expertEff := rfl
@[simp] theorem onErr_glb : (onErr f s).glb = s.glb := rfl
@[simp] theorem onErr_tck : (onErr f s).tck = s.tck := rfl
@[simp] theorem onErr_med : (onErr f s).med = s.med := rfl
@[simp] theorem onErr_drf : (onErr f s).drf = s.drf := rfl
@[simp] theorem onErr_cch : (onErr f s).cch = s.cch := rfl
@[simp] theorem onErr_dir : (onErr f s).dir = s.dir := rfl
@[simp] theorem onErr_ord : (onErr f s).ord = s.ord := rfl
@[simp] theorem onErr_stm : (onErr f s).stm = s.stm := rfl
@[simp] theorem onErr_links : (onErr f s).links = s.links := rfl
@[simp] theorem onErr_grp : (onErr f s).grp = s.grp := rfl
@[simp] theorem onErr_hst : (onErr f s).hst = s.hst := rfl
@[simp] theorem onErr_sec : (onErr f s).sec = s.sec := rfl
@[simp] theorem onErr_cph : (onErr f s).cph = s.cph := rfl
@[simp] theorem onErr_pwr : (onErr f s).pwr = s.pwr := rfl
@[simp] theorem onErr_clk : (onErr f s).clk = s.clk := rfl
@[simp] theorem onErr_thm : (onErr f s).thm = s.thm := rfl
@[simp] theorem onErr_err : (onErr f s).err = f s.err := rfl
@[simp] theorem onErr_pmc : (onErr f s).pmc = s.pmc := rfl
@[simp] theorem onErr_evr : (onErr f s).evr = s.evr := rfl
@[simp] theorem onErr_ldg : (onErr f s).ldg = s.ldg := rfl
@[simp] theorem onErr_dap : (onErr f s).dap = s.dap := rfl
@[simp] theorem onErr_now : (onErr f s).now = s.now := rfl
@[simp] theorem onErr_fv : (onErr f s).fv = s.fv := rfl
@[simp] theorem onErr_out : (onErr f s).out = s.out := rfl
@[simp] theorem onErr_pending : (onErr f s).pending = s.pending := rfl
end

section
variable (f : Pmc → Pmc) (s : State)
@[simp] theorem onPmc_fuses : (onPmc f s).fuses = s.fuses := rfl
@[simp] theorem onPmc_medium : (onPmc f s).medium = s.medium := rfl
@[simp] theorem onPmc_flash : (onPmc f s).flash = s.flash := rfl
@[simp] theorem onPmc_plinth : (onPmc f s).plinth = s.plinth := rfl
@[simp] theorem onPmc_expert : (onPmc f s).expert = s.expert := rfl
@[simp] theorem onPmc_expertEff : (onPmc f s).expertEff = s.expertEff := rfl
@[simp] theorem onPmc_glb : (onPmc f s).glb = s.glb := rfl
@[simp] theorem onPmc_tck : (onPmc f s).tck = s.tck := rfl
@[simp] theorem onPmc_med : (onPmc f s).med = s.med := rfl
@[simp] theorem onPmc_drf : (onPmc f s).drf = s.drf := rfl
@[simp] theorem onPmc_cch : (onPmc f s).cch = s.cch := rfl
@[simp] theorem onPmc_dir : (onPmc f s).dir = s.dir := rfl
@[simp] theorem onPmc_ord : (onPmc f s).ord = s.ord := rfl
@[simp] theorem onPmc_stm : (onPmc f s).stm = s.stm := rfl
@[simp] theorem onPmc_links : (onPmc f s).links = s.links := rfl
@[simp] theorem onPmc_grp : (onPmc f s).grp = s.grp := rfl
@[simp] theorem onPmc_hst : (onPmc f s).hst = s.hst := rfl
@[simp] theorem onPmc_sec : (onPmc f s).sec = s.sec := rfl
@[simp] theorem onPmc_cph : (onPmc f s).cph = s.cph := rfl
@[simp] theorem onPmc_pwr : (onPmc f s).pwr = s.pwr := rfl
@[simp] theorem onPmc_clk : (onPmc f s).clk = s.clk := rfl
@[simp] theorem onPmc_thm : (onPmc f s).thm = s.thm := rfl
@[simp] theorem onPmc_err : (onPmc f s).err = s.err := rfl
@[simp] theorem onPmc_pmc : (onPmc f s).pmc = f s.pmc := rfl
@[simp] theorem onPmc_evr : (onPmc f s).evr = s.evr := rfl
@[simp] theorem onPmc_ldg : (onPmc f s).ldg = s.ldg := rfl
@[simp] theorem onPmc_dap : (onPmc f s).dap = s.dap := rfl
@[simp] theorem onPmc_now : (onPmc f s).now = s.now := rfl
@[simp] theorem onPmc_fv : (onPmc f s).fv = s.fv := rfl
@[simp] theorem onPmc_out : (onPmc f s).out = s.out := rfl
@[simp] theorem onPmc_pending : (onPmc f s).pending = s.pending := rfl
end

section
variable (f : Evr → Evr) (s : State)
@[simp] theorem onEvr_fuses : (onEvr f s).fuses = s.fuses := rfl
@[simp] theorem onEvr_medium : (onEvr f s).medium = s.medium := rfl
@[simp] theorem onEvr_flash : (onEvr f s).flash = s.flash := rfl
@[simp] theorem onEvr_plinth : (onEvr f s).plinth = s.plinth := rfl
@[simp] theorem onEvr_expert : (onEvr f s).expert = s.expert := rfl
@[simp] theorem onEvr_expertEff : (onEvr f s).expertEff = s.expertEff := rfl
@[simp] theorem onEvr_glb : (onEvr f s).glb = s.glb := rfl
@[simp] theorem onEvr_tck : (onEvr f s).tck = s.tck := rfl
@[simp] theorem onEvr_med : (onEvr f s).med = s.med := rfl
@[simp] theorem onEvr_drf : (onEvr f s).drf = s.drf := rfl
@[simp] theorem onEvr_cch : (onEvr f s).cch = s.cch := rfl
@[simp] theorem onEvr_dir : (onEvr f s).dir = s.dir := rfl
@[simp] theorem onEvr_ord : (onEvr f s).ord = s.ord := rfl
@[simp] theorem onEvr_stm : (onEvr f s).stm = s.stm := rfl
@[simp] theorem onEvr_links : (onEvr f s).links = s.links := rfl
@[simp] theorem onEvr_grp : (onEvr f s).grp = s.grp := rfl
@[simp] theorem onEvr_hst : (onEvr f s).hst = s.hst := rfl
@[simp] theorem onEvr_sec : (onEvr f s).sec = s.sec := rfl
@[simp] theorem onEvr_cph : (onEvr f s).cph = s.cph := rfl
@[simp] theorem onEvr_pwr : (onEvr f s).pwr = s.pwr := rfl
@[simp] theorem onEvr_clk : (onEvr f s).clk = s.clk := rfl
@[simp] theorem onEvr_thm : (onEvr f s).thm = s.thm := rfl
@[simp] theorem onEvr_err : (onEvr f s).err = s.err := rfl
@[simp] theorem onEvr_pmc : (onEvr f s).pmc = s.pmc := rfl
@[simp] theorem onEvr_evr : (onEvr f s).evr = f s.evr := rfl
@[simp] theorem onEvr_ldg : (onEvr f s).ldg = s.ldg := rfl
@[simp] theorem onEvr_dap : (onEvr f s).dap = s.dap := rfl
@[simp] theorem onEvr_now : (onEvr f s).now = s.now := rfl
@[simp] theorem onEvr_fv : (onEvr f s).fv = s.fv := rfl
@[simp] theorem onEvr_out : (onEvr f s).out = s.out := rfl
@[simp] theorem onEvr_pending : (onEvr f s).pending = s.pending := rfl
end

section
variable (f : Ldg → Ldg) (s : State)
@[simp] theorem onLdg_fuses : (onLdg f s).fuses = s.fuses := rfl
@[simp] theorem onLdg_medium : (onLdg f s).medium = s.medium := rfl
@[simp] theorem onLdg_flash : (onLdg f s).flash = s.flash := rfl
@[simp] theorem onLdg_plinth : (onLdg f s).plinth = s.plinth := rfl
@[simp] theorem onLdg_expert : (onLdg f s).expert = s.expert := rfl
@[simp] theorem onLdg_expertEff : (onLdg f s).expertEff = s.expertEff := rfl
@[simp] theorem onLdg_glb : (onLdg f s).glb = s.glb := rfl
@[simp] theorem onLdg_tck : (onLdg f s).tck = s.tck := rfl
@[simp] theorem onLdg_med : (onLdg f s).med = s.med := rfl
@[simp] theorem onLdg_drf : (onLdg f s).drf = s.drf := rfl
@[simp] theorem onLdg_cch : (onLdg f s).cch = s.cch := rfl
@[simp] theorem onLdg_dir : (onLdg f s).dir = s.dir := rfl
@[simp] theorem onLdg_ord : (onLdg f s).ord = s.ord := rfl
@[simp] theorem onLdg_stm : (onLdg f s).stm = s.stm := rfl
@[simp] theorem onLdg_links : (onLdg f s).links = s.links := rfl
@[simp] theorem onLdg_grp : (onLdg f s).grp = s.grp := rfl
@[simp] theorem onLdg_hst : (onLdg f s).hst = s.hst := rfl
@[simp] theorem onLdg_sec : (onLdg f s).sec = s.sec := rfl
@[simp] theorem onLdg_cph : (onLdg f s).cph = s.cph := rfl
@[simp] theorem onLdg_pwr : (onLdg f s).pwr = s.pwr := rfl
@[simp] theorem onLdg_clk : (onLdg f s).clk = s.clk := rfl
@[simp] theorem onLdg_thm : (onLdg f s).thm = s.thm := rfl
@[simp] theorem onLdg_err : (onLdg f s).err = s.err := rfl
@[simp] theorem onLdg_pmc : (onLdg f s).pmc = s.pmc := rfl
@[simp] theorem onLdg_evr : (onLdg f s).evr = s.evr := rfl
@[simp] theorem onLdg_ldg : (onLdg f s).ldg = f s.ldg := rfl
@[simp] theorem onLdg_dap : (onLdg f s).dap = s.dap := rfl
@[simp] theorem onLdg_now : (onLdg f s).now = s.now := rfl
@[simp] theorem onLdg_fv : (onLdg f s).fv = s.fv := rfl
@[simp] theorem onLdg_out : (onLdg f s).out = s.out := rfl
@[simp] theorem onLdg_pending : (onLdg f s).pending = s.pending := rfl
end

section
variable (f : Medium → Medium) (s : State)
@[simp] theorem onMedium_fuses : (onMedium f s).fuses = s.fuses := rfl
@[simp] theorem onMedium_medium : (onMedium f s).medium = f s.medium := rfl
@[simp] theorem onMedium_flash : (onMedium f s).flash = s.flash := rfl
@[simp] theorem onMedium_plinth : (onMedium f s).plinth = s.plinth := rfl
@[simp] theorem onMedium_expert : (onMedium f s).expert = s.expert := rfl
@[simp] theorem onMedium_expertEff : (onMedium f s).expertEff = s.expertEff := rfl
@[simp] theorem onMedium_glb : (onMedium f s).glb = s.glb := rfl
@[simp] theorem onMedium_tck : (onMedium f s).tck = s.tck := rfl
@[simp] theorem onMedium_med : (onMedium f s).med = s.med := rfl
@[simp] theorem onMedium_drf : (onMedium f s).drf = s.drf := rfl
@[simp] theorem onMedium_cch : (onMedium f s).cch = s.cch := rfl
@[simp] theorem onMedium_dir : (onMedium f s).dir = s.dir := rfl
@[simp] theorem onMedium_ord : (onMedium f s).ord = s.ord := rfl
@[simp] theorem onMedium_stm : (onMedium f s).stm = s.stm := rfl
@[simp] theorem onMedium_links : (onMedium f s).links = s.links := rfl
@[simp] theorem onMedium_grp : (onMedium f s).grp = s.grp := rfl
@[simp] theorem onMedium_hst : (onMedium f s).hst = s.hst := rfl
@[simp] theorem onMedium_sec : (onMedium f s).sec = s.sec := rfl
@[simp] theorem onMedium_cph : (onMedium f s).cph = s.cph := rfl
@[simp] theorem onMedium_pwr : (onMedium f s).pwr = s.pwr := rfl
@[simp] theorem onMedium_clk : (onMedium f s).clk = s.clk := rfl
@[simp] theorem onMedium_thm : (onMedium f s).thm = s.thm := rfl
@[simp] theorem onMedium_err : (onMedium f s).err = s.err := rfl
@[simp] theorem onMedium_pmc : (onMedium f s).pmc = s.pmc := rfl
@[simp] theorem onMedium_evr : (onMedium f s).evr = s.evr := rfl
@[simp] theorem onMedium_ldg : (onMedium f s).ldg = s.ldg := rfl
@[simp] theorem onMedium_dap : (onMedium f s).dap = s.dap := rfl
@[simp] theorem onMedium_now : (onMedium f s).now = s.now := rfl
@[simp] theorem onMedium_fv : (onMedium f s).fv = s.fv := rfl
@[simp] theorem onMedium_out : (onMedium f s).out = s.out := rfl
@[simp] theorem onMedium_pending : (onMedium f s).pending = s.pending := rfl
end

section
variable (f : Flash → Flash) (s : State)
@[simp] theorem onFlash_fuses : (onFlash f s).fuses = s.fuses := rfl
@[simp] theorem onFlash_medium : (onFlash f s).medium = s.medium := rfl
@[simp] theorem onFlash_flash : (onFlash f s).flash = f s.flash := rfl
@[simp] theorem onFlash_plinth : (onFlash f s).plinth = s.plinth := rfl
@[simp] theorem onFlash_expert : (onFlash f s).expert = s.expert := rfl
@[simp] theorem onFlash_expertEff : (onFlash f s).expertEff = s.expertEff := rfl
@[simp] theorem onFlash_glb : (onFlash f s).glb = s.glb := rfl
@[simp] theorem onFlash_tck : (onFlash f s).tck = s.tck := rfl
@[simp] theorem onFlash_med : (onFlash f s).med = s.med := rfl
@[simp] theorem onFlash_drf : (onFlash f s).drf = s.drf := rfl
@[simp] theorem onFlash_cch : (onFlash f s).cch = s.cch := rfl
@[simp] theorem onFlash_dir : (onFlash f s).dir = s.dir := rfl
@[simp] theorem onFlash_ord : (onFlash f s).ord = s.ord := rfl
@[simp] theorem onFlash_stm : (onFlash f s).stm = s.stm := rfl
@[simp] theorem onFlash_links : (onFlash f s).links = s.links := rfl
@[simp] theorem onFlash_grp : (onFlash f s).grp = s.grp := rfl
@[simp] theorem onFlash_hst : (onFlash f s).hst = s.hst := rfl
@[simp] theorem onFlash_sec : (onFlash f s).sec = s.sec := rfl
@[simp] theorem onFlash_cph : (onFlash f s).cph = s.cph := rfl
@[simp] theorem onFlash_pwr : (onFlash f s).pwr = s.pwr := rfl
@[simp] theorem onFlash_clk : (onFlash f s).clk = s.clk := rfl
@[simp] theorem onFlash_thm : (onFlash f s).thm = s.thm := rfl
@[simp] theorem onFlash_err : (onFlash f s).err = s.err := rfl
@[simp] theorem onFlash_pmc : (onFlash f s).pmc = s.pmc := rfl
@[simp] theorem onFlash_evr : (onFlash f s).evr = s.evr := rfl
@[simp] theorem onFlash_ldg : (onFlash f s).ldg = s.ldg := rfl
@[simp] theorem onFlash_dap : (onFlash f s).dap = s.dap := rfl
@[simp] theorem onFlash_now : (onFlash f s).now = s.now := rfl
@[simp] theorem onFlash_fv : (onFlash f s).fv = s.fv := rfl
@[simp] theorem onFlash_out : (onFlash f s).out = s.out := rfl
@[simp] theorem onFlash_pending : (onFlash f s).pending = s.pending := rfl
end

section
variable (f : Plinth → Plinth) (s : State)
@[simp] theorem onPlinth_fuses : (onPlinth f s).fuses = s.fuses := rfl
@[simp] theorem onPlinth_medium : (onPlinth f s).medium = s.medium := rfl
@[simp] theorem onPlinth_flash : (onPlinth f s).flash = s.flash := rfl
@[simp] theorem onPlinth_plinth : (onPlinth f s).plinth = f s.plinth := rfl
@[simp] theorem onPlinth_expert : (onPlinth f s).expert = s.expert := rfl
@[simp] theorem onPlinth_expertEff : (onPlinth f s).expertEff = s.expertEff := rfl
@[simp] theorem onPlinth_glb : (onPlinth f s).glb = s.glb := rfl
@[simp] theorem onPlinth_tck : (onPlinth f s).tck = s.tck := rfl
@[simp] theorem onPlinth_med : (onPlinth f s).med = s.med := rfl
@[simp] theorem onPlinth_drf : (onPlinth f s).drf = s.drf := rfl
@[simp] theorem onPlinth_cch : (onPlinth f s).cch = s.cch := rfl
@[simp] theorem onPlinth_dir : (onPlinth f s).dir = s.dir := rfl
@[simp] theorem onPlinth_ord : (onPlinth f s).ord = s.ord := rfl
@[simp] theorem onPlinth_stm : (onPlinth f s).stm = s.stm := rfl
@[simp] theorem onPlinth_links : (onPlinth f s).links = s.links := rfl
@[simp] theorem onPlinth_grp : (onPlinth f s).grp = s.grp := rfl
@[simp] theorem onPlinth_hst : (onPlinth f s).hst = s.hst := rfl
@[simp] theorem onPlinth_sec : (onPlinth f s).sec = s.sec := rfl
@[simp] theorem onPlinth_cph : (onPlinth f s).cph = s.cph := rfl
@[simp] theorem onPlinth_pwr : (onPlinth f s).pwr = s.pwr := rfl
@[simp] theorem onPlinth_clk : (onPlinth f s).clk = s.clk := rfl
@[simp] theorem onPlinth_thm : (onPlinth f s).thm = s.thm := rfl
@[simp] theorem onPlinth_err : (onPlinth f s).err = s.err := rfl
@[simp] theorem onPlinth_pmc : (onPlinth f s).pmc = s.pmc := rfl
@[simp] theorem onPlinth_evr : (onPlinth f s).evr = s.evr := rfl
@[simp] theorem onPlinth_ldg : (onPlinth f s).ldg = s.ldg := rfl
@[simp] theorem onPlinth_dap : (onPlinth f s).dap = s.dap := rfl
@[simp] theorem onPlinth_now : (onPlinth f s).now = s.now := rfl
@[simp] theorem onPlinth_fv : (onPlinth f s).fv = s.fv := rfl
@[simp] theorem onPlinth_out : (onPlinth f s).out = s.out := rfl
@[simp] theorem onPlinth_pending : (onPlinth f s).pending = s.pending := rfl
end

section
variable (i : Nat) (f : Lnk → Lnk) (s : State)
@[simp] theorem onLink_fuses : (onLink i f s).fuses = s.fuses := rfl
@[simp] theorem onLink_medium : (onLink i f s).medium = s.medium := rfl
@[simp] theorem onLink_flash : (onLink i f s).flash = s.flash := rfl
@[simp] theorem onLink_plinth : (onLink i f s).plinth = s.plinth := rfl
@[simp] theorem onLink_expert : (onLink i f s).expert = s.expert := rfl
@[simp] theorem onLink_expertEff : (onLink i f s).expertEff = s.expertEff := rfl
@[simp] theorem onLink_glb : (onLink i f s).glb = s.glb := rfl
@[simp] theorem onLink_tck : (onLink i f s).tck = s.tck := rfl
@[simp] theorem onLink_med : (onLink i f s).med = s.med := rfl
@[simp] theorem onLink_drf : (onLink i f s).drf = s.drf := rfl
@[simp] theorem onLink_cch : (onLink i f s).cch = s.cch := rfl
@[simp] theorem onLink_dir : (onLink i f s).dir = s.dir := rfl
@[simp] theorem onLink_ord : (onLink i f s).ord = s.ord := rfl
@[simp] theorem onLink_stm : (onLink i f s).stm = s.stm := rfl
@[simp] theorem onLink_links : (onLink i f s).links = tmod {} s.links i f := rfl
@[simp] theorem onLink_grp : (onLink i f s).grp = s.grp := rfl
@[simp] theorem onLink_hst : (onLink i f s).hst = s.hst := rfl
@[simp] theorem onLink_sec : (onLink i f s).sec = s.sec := rfl
@[simp] theorem onLink_cph : (onLink i f s).cph = s.cph := rfl
@[simp] theorem onLink_pwr : (onLink i f s).pwr = s.pwr := rfl
@[simp] theorem onLink_clk : (onLink i f s).clk = s.clk := rfl
@[simp] theorem onLink_thm : (onLink i f s).thm = s.thm := rfl
@[simp] theorem onLink_err : (onLink i f s).err = s.err := rfl
@[simp] theorem onLink_pmc : (onLink i f s).pmc = s.pmc := rfl
@[simp] theorem onLink_evr : (onLink i f s).evr = s.evr := rfl
@[simp] theorem onLink_ldg : (onLink i f s).ldg = s.ldg := rfl
@[simp] theorem onLink_dap : (onLink i f s).dap = s.dap := rfl
@[simp] theorem onLink_now : (onLink i f s).now = s.now := rfl
@[simp] theorem onLink_fv : (onLink i f s).fv = s.fv := rfl
@[simp] theorem onLink_out : (onLink i f s).out = s.out := rfl
@[simp] theorem onLink_pending : (onLink i f s).pending = s.pending := rfl
end

section
variable (o : Out) (s : State)
@[simp] theorem push_fuses : (push o s).fuses = s.fuses := rfl
@[simp] theorem push_medium : (push o s).medium = s.medium := rfl
@[simp] theorem push_flash : (push o s).flash = s.flash := rfl
@[simp] theorem push_plinth : (push o s).plinth = s.plinth := rfl
@[simp] theorem push_expert : (push o s).expert = s.expert := rfl
@[simp] theorem push_expertEff : (push o s).expertEff = s.expertEff := rfl
@[simp] theorem push_glb : (push o s).glb = s.glb := rfl
@[simp] theorem push_tck : (push o s).tck = s.tck := rfl
@[simp] theorem push_med : (push o s).med = s.med := rfl
@[simp] theorem push_drf : (push o s).drf = s.drf := rfl
@[simp] theorem push_cch : (push o s).cch = s.cch := rfl
@[simp] theorem push_dir : (push o s).dir = s.dir := rfl
@[simp] theorem push_ord : (push o s).ord = s.ord := rfl
@[simp] theorem push_stm : (push o s).stm = s.stm := rfl
@[simp] theorem push_links : (push o s).links = s.links := rfl
@[simp] theorem push_grp : (push o s).grp = s.grp := rfl
@[simp] theorem push_hst : (push o s).hst = s.hst := rfl
@[simp] theorem push_sec : (push o s).sec = s.sec := rfl
@[simp] theorem push_cph : (push o s).cph = s.cph := rfl
@[simp] theorem push_pwr : (push o s).pwr = s.pwr := rfl
@[simp] theorem push_clk : (push o s).clk = s.clk := rfl
@[simp] theorem push_thm : (push o s).thm = s.thm := rfl
@[simp] theorem push_err : (push o s).err = s.err := rfl
@[simp] theorem push_pmc : (push o s).pmc = s.pmc := rfl
@[simp] theorem push_evr : (push o s).evr = s.evr := rfl
@[simp] theorem push_ldg : (push o s).ldg = s.ldg := rfl
@[simp] theorem push_dap : (push o s).dap = s.dap := rfl
@[simp] theorem push_now : (push o s).now = s.now := rfl
@[simp] theorem push_fv : (push o s).fv = s.fv := rfl
@[simp] theorem push_out : (push o s).out = o :: s.out := rfl
@[simp] theorem push_pending : (push o s).pending = s.pending := rfl
end

end Sys2Proof.Machine
end

