-- ==== Sys2Proof/Laws/Cipher.lean ====
section
/-!
SUPPORT. What the ciphers of the medium and of the data cache do, said once: a sealed page opens to its data, and a unit that was written
reads as its data.
-/

namespace Sys2Proof.Machine
open Sys2Proof

theorem exchange_exchange (p : LineData × LineData) (d : LineData) : exchange p (exchange p d) = d := by
  unfold exchange
  by_cases h1 : d = p.1
  · by_cases h2 : p.2 = p.1 <;> simp [h1, h2]
  · by_cases h2 : d = p.2
    · simp [h2]
    · simp [h1, h2]

theorem foldr_foldl_exchange (l : List (LineData × LineData)) (d : LineData) :
    l.foldr exchange (l.foldl (fun d p => exchange p d) d) = d := by
  induction l generalizing d with
  | nil => rfl
  | cons p l ih => simp [ih, exchange_exchange]

/-- What the media cipher sealed under a tweak opens under it (R393). -/
@[simp] theorem mediaOpen_mediaSeal (s : State) (tweak : Nat) (d : LineData) : mediaOpen s tweak (mediaSeal s tweak d) = d :=
  foldr_foldl_exchange _ _

/-- The metadata of a page say its kind and its number (R72). -/
theorem mkPage_kind (kind pageId seq : Nat) (cold reloc : Bool) (d : LineData) (hk : kind < 16) (hp : pageId < 2 ^ 36) :
    (mkPage kind pageId seq cold reloc d).kind = kind ∧ (mkPage kind pageId seq cold reloc d).pageId = pageId := by
  simp only [mkPage, MPage.kind, MPage.pageId, metaBody, bits, BitVec.toNat_ofNat]
  constructor <;> omega

/-- A page reads as the data that it was programmed with, under the same media key (R393). -/
theorem pagePlain_sealedPage (s : State) (kind pageId seq : Nat) (cold reloc : Bool) (d : LineData) (hk : kind < 16) (hp : pageId < 2 ^ 36) :
    pagePlain s (sealedPage s kind pageId seq cold reloc d) = d := by
  have h := mkPage_kind kind pageId seq cold reloc (mediaSeal s (pageTweak kind pageId) d) hk hp
  simp only [pagePlain, sealedPage, h]
  exact mediaOpen_mediaSeal _ _ _

@[simp] theorem sendMsix_sec (v : Nat) (s : State) : (sendMsix v s).sec = s.sec := by
  unfold sendMsix
  repeat' split
  all_goals rfl

@[simp] theorem pmcFlag_sec (u i : Nat) (s : State) : (pmcFlag u i s).sec = s.sec := by
  unfold pmcFlag
  exact (apply_ite State.sec _ _ _).trans (by simp only [sendMsix_sec, onUnit, onPmc_sec, ite_self])

@[simp] theorem pmcCarry_sec (u i : Nat) (s : State) : (pmcCarry u i s).sec = s.sec := by
  simp only [pmcCarry]
  repeat' split
  all_goals simp [onUnit]

@[simp] theorem pmcAdd_sec (u c n i : Nat) (s : State) : (pmcAdd u c n i s).sec = s.sec := by
  simp only [pmcAdd]
  repeat' split
  all_goals simp [onUnit]

@[simp] theorem sendMsix_cch (v : Nat) (s : State) : (sendMsix v s).cch = s.cch := by
  unfold sendMsix
  repeat' split
  all_goals rfl

@[simp] theorem pmcFlag_cch (u i : Nat) (s : State) : (pmcFlag u i s).cch = s.cch := by
  unfold pmcFlag
  exact (apply_ite State.cch _ _ _).trans (by simp only [sendMsix_cch, onUnit, onPmc_cch, ite_self])

@[simp] theorem pmcCarry_cch (u i : Nat) (s : State) : (pmcCarry u i s).cch = s.cch := by
  simp only [pmcCarry]
  repeat' split
  all_goals simp [onUnit]

@[simp] theorem pmcAdd_cch (u c n i : Nat) (s : State) : (pmcAdd u c n i s).cch = s.cch := by
  simp only [pmcAdd]
  repeat' split
  all_goals simp [onUnit]

theorem each_keeps {α β : Type} (l : List α) (f : α → State → State) (g : State → β) (h : ∀ x s, g (f x s) = g s) (s : State) :
    g (each l f s) = g s := by
  unfold each
  induction l generalizing s with
  | nil => rfl
  | cons x l ih => simp only [List.foldl_cons, ih, h]

/-- Counting an event leaves the keys and counters alone, and the data cache. -/
@[simp] theorem count_sec (u c n : Nat) (s : State) : (count u c n s).sec = s.sec := by
  simp only [count]
  split
  · rfl
  · exact each_keeps _ _ (·.sec) (by simp) s

@[simp] theorem count_cch (u c n : Nat) (s : State) : (count u c n s).cch = s.cch := by
  simp only [count]
  split
  · rfl
  · exact each_keeps _ _ (·.cch) (by simp) s

/-- A unit that was written reads as its data (R397, R399). -/
theorem plain_putUnit (k i major minor : Nat) (d : LineData) (f : Line → Line) (s : State) (hc : Table.wf {} s.sec.ctrs = true)
    (hw : Table.wf {} s.cch.ways = true) (hl : Table.wf {} (way s k).lines = true) : plain (putUnit k i major minor d f s) k i = d := by
  have hkey : (putUnit k i major minor d f s).sec.bootKey = s.sec.bootKey := by
    simp only [putUnit, onLine, onWay_sec, onSec_sec, count_sec]
  have hrec : unitRec (putUnit k i major minor d f s) (k * 32 + i) =
      { minor, major, tag := unitTag s (k * 32 + i) major minor (d ^^^ unitPad s (k * 32 + i) major minor) } := by
    simp only [unitRec, putUnit, onLine, onWay_sec, onSec_sec, count_sec]
    exact tget_tset_same _ _ _ _ hc
  have hct : (lineIn (way (putUnit k i major minor d f s) k) i).ct = d ^^^ unitPad s (k * 32 + i) major minor := by
    have h : (putUnit k i major minor d f s).cch.ways = tmod {} s.cch.ways k fun w => { w with
        lines := tmod {} w.lines i fun l => { f l with ct := d ^^^ unitPad s (k * 32 + i) major minor } } := by
      simp only [putUnit, onLine, onWay_cch, onSec_cch, count_cch]
    rw [lineIn, way, h, tget_tmod_same _ _ _ _ hw]
    exact congrArg Line.ct (tget_tmod_same {} (way s k).lines i
      (fun l => { f l with ct := d ^^^ unitPad s (k * 32 + i) major minor }) hl)
  have hpad (n a b : Nat) : unitPad (putUnit k i major minor d f s) n a b = unitPad s n a b := by
    simp only [unitPad, dramKey, hkey]
  simp only [plain, hrec, hct, hpad, BitVec.xor_assoc, BitVec.xor_self, BitVec.xor_zero]

end Sys2Proof.Machine
end

