-- ==== Sys2Proof/Laws/Ops.lean ====
section
/-!
SUPPORT. What every shared operation does to a state at most, said once for each: `Evolves`, and one lemma per operation of
Machine/Ops.lean. The statements about every step go through these.
-/

namespace Sys2Proof.Machine
open Sys2Proof

-- one script proves every lemma below, so that each proof leaves some of its alternatives unused
set_option linter.unusedTactic false
set_option linter.unreachableTactic false

/-- What every operation and every command does to a state at most, whatever else it changes: memories and tables stay in their form, the
queue stands, nothing that manufacture or the strap fixed changes, the life-cycle fuses never fall, and neither the clock, the count of
free values nor the record of outputs runs back. -/
structure Evolves (s t : State) : Prop where
  mem : Canonical s → Canonical t
  pending : t.pending = s.pending
  fuses : { t.fuses with transitions := 0 } = { s.fuses with transitions := 0 }
  trans : s.fuses.transitions ≤ t.fuses.transitions
  now : s.now ≤ t.now
  fv : s.fv ≤ t.fv
  grp : t.grp.id = s.grp.id
  out : s.out <:+ t.out

theorem Evolves.refl (s : State) : Evolves s s := ⟨id, rfl, rfl, Nat.le_refl _, Nat.le_refl _, Nat.le_refl _, rfl, List.suffix_rfl⟩

theorem Evolves.trans' {a b c : State} (h : Evolves a b) (k : Evolves b c) : Evolves a c :=
  ⟨fun x => k.mem (h.mem x), k.pending.trans h.pending, k.fuses.trans h.fuses, Nat.le_trans h.trans k.trans, Nat.le_trans h.now k.now,
    Nat.le_trans h.fv k.fv, k.grp.trans h.grp, h.out.trans k.out⟩

theorem ev_eq {a s t : State} (h : s = t) (k : Evolves a t) : Evolves a s := h ▸ k

theorem ev_pair {α : Type} {a s : State} {p : α × State} {v : α} (h : p = (v, s)) (k : Evolves a p.2) : Evolves a s := by
  subst h; exact k

theorem ev_ite {c : Prop} [Decidable c] {a s t : State} (ht : Evolves a t) (hs : Evolves a t → Evolves a s) :
    Evolves a (if c then s else t) := by
  split
  · exact hs ht
  · exact ht

theorem ev_each {α : Type} (l : List α) (f : α → State → State) {a s : State} (h : Evolves a s)
    (hf : ∀ x s, Evolves a s → Evolves a (f x s)) : Evolves a (each l f s) := by
  unfold each
  induction l generalizing s with
  | nil => exact h
  | cons x l ih => exact ih (hf x s h)

theorem ev_foldl {α β : Type} (l : List α) (f : β × State → α → β × State) {a : State} {p : β × State} (h : Evolves a p.2)
    (hf : ∀ p x, Evolves a p.2 → Evolves a (f p x).2) : Evolves a (l.foldl f p).2 := by
  induction l generalizing p with
  | nil => exact h
  | cons x l ih => exact ih (hf p x h)

theorem ev_prod_ite {α : Type} {c : Prop} [Decidable c] {a : State} {p q : α × State} (hq : Evolves a q.2)
    (hp : Evolves a q.2 → Evolves a p.2) : Evolves a (if c then p else q).2 := by
  split
  · exact hp hq
  · exact hq

theorem ev_mk {α : Type} {a s : State} {v : α} (h : Evolves a s) : Evolves a (v, s).2 := h

theorem ev_onGlb {a0 : State} (f : Glb → Glb) (s : State) (h : Evolves a0 s) : Evolves a0 (onGlb f s) :=
  h.trans' ⟨id, rfl, rfl, Nat.le_refl _, Nat.le_refl _, Nat.le_refl _, rfl, List.suffix_rfl⟩

theorem ev_onTck {a0 : State} (f : Tck → Tck) (s : State) (h : Evolves a0 s) : Evolves a0 (onTck f s) :=
  h.trans' ⟨id, rfl, rfl, Nat.le_refl _, Nat.le_refl _, Nat.le_refl _, rfl, List.suffix_rfl⟩

theorem ev_onMed {a0 : State} (f : Med → Med) (s : State) (h : Evolves a0 s) : Evolves a0 (onMed f s) :=
  h.trans' ⟨id, rfl, rfl, Nat.le_refl _, Nat.le_refl _, Nat.le_refl _, rfl, List.suffix_rfl⟩

theorem ev_onDrf {a0 : State} (f : Drf → Drf) (s : State) (h : Evolves a0 s) : Evolves a0 (onDrf f s) :=
  h.trans' ⟨id, rfl, rfl, Nat.le_refl _, Nat.le_refl _, Nat.le_refl _, rfl, List.suffix_rfl⟩

theorem ev_onCch {a0 : State} (f : Cch → Cch) (s : State) (h : Evolves a0 s) : Evolves a0 (onCch f s) :=
  h.trans' ⟨id, rfl, rfl, Nat.le_refl _, Nat.le_refl _, Nat.le_refl _, rfl, List.suffix_rfl⟩

theorem ev_onDir {a0 : State} (f : Dir → Dir) (s : State) (h : Evolves a0 s) : Evolves a0 (onDir f s) :=
  h.trans' ⟨id, rfl, rfl, Nat.le_refl _, Nat.le_refl _, Nat.le_refl _, rfl, List.suffix_rfl⟩

theorem ev_onOrd {a0 : State} (f : Ord → Ord) (s : State) (h : Evolves a0 s) : Evolves a0 (onOrd f s) :=
  h.trans' ⟨id, rfl, rfl, Nat.le_refl _, Nat.le_refl _, Nat.le_refl _, rfl, List.suffix_rfl⟩

theorem ev_onSec {a0 : State} (f : Sec → Sec) (s : State) (h : Evolves a0 s)
    (hf : (Table.wf {} s.sec.ctrs = true → Table.wf {} (f s.sec).ctrs = true)) : Evolves a0 (onSec f s) :=
  h.trans' ⟨fun ⟨m, l, p, q, c, n, e, k⟩ => ⟨m, l, p, q, c, n, e, hf k⟩, rfl, rfl, Nat.le_refl _, Nat.le_refl _, Nat.le_refl _, rfl, List.suffix_rfl⟩

theorem ev_onPwr {a0 : State} (f : Pwr → Pwr) (s : State) (h : Evolves a0 s) : Evolves a0 (onPwr f s) :=
  h.trans' ⟨id, rfl, rfl, Nat.le_refl _, Nat.le_refl _, Nat.le_refl _, rfl, List.suffix_rfl⟩

theorem ev_onClk {a0 : State} (f : Clk → Clk) (s : State) (h : Evolves a0 s) : Evolves a0 (onClk f s) :=
  h.trans' ⟨id, rfl, rfl, Nat.le_refl _, Nat.le_refl _, Nat.le_refl _, rfl, List.suffix_rfl⟩

theorem ev_onErr {a0 : State} (f : Err → Err) (s : State) (h : Evolves a0 s) : Evolves a0 (onErr f s) :=
  h.trans' ⟨id, rfl, rfl, Nat.le_refl _, Nat.le_refl _, Nat.le_refl _, rfl, List.suffix_rfl⟩

theorem ev_onPmc {a0 : State} (f : Pmc → Pmc) (s : State) (h : Evolves a0 s) : Evolves a0 (onPmc f s) :=
  h.trans' ⟨id, rfl, rfl, Nat.le_refl _, Nat.le_refl _, Nat.le_refl _, rfl, List.suffix_rfl⟩

theorem ev_onEvr {a0 : State} (f : Evr → Evr) (s : State) (h : Evolves a0 s) : Evolves a0 (onEvr f s) :=
  h.trans' ⟨id, rfl, rfl, Nat.le_refl _, Nat.le_refl _, Nat.le_refl _, rfl, List.suffix_rfl⟩

theorem ev_onMedium {a0 : State} (f : Medium → Medium) (s : State) (h : Evolves a0 s) : Evolves a0 (onMedium f s) :=
  h.trans' ⟨id, rfl, rfl, Nat.le_refl _, Nat.le_refl _, Nat.le_refl _, rfl, List.suffix_rfl⟩

theorem ev_onPlinth {a0 : State} (f : Plinth → Plinth) (s : State) (h : Evolves a0 s) : Evolves a0 (onPlinth f s) :=
  h.trans' ⟨id, rfl, rfl, Nat.le_refl _, Nat.le_refl _, Nat.le_refl _, rfl, List.suffix_rfl⟩

theorem ev_onHst {a0 : State} (f : Hst → Hst) (s : State) (h : Evolves a0 s)
    (hf : (Memory.wf 0 s.hst.scratch = true ∧ Table.wf {} s.hst.queues = true ∧ Table.wf {} s.hst.copies = true →
      Memory.wf 0 (f s.hst).scratch = true ∧ Table.wf {} (f s.hst).queues = true ∧ Table.wf {} (f s.hst).copies = true)) :
    Evolves a0 (onHst f s) :=
  h.trans' ⟨fun ⟨⟨m1, m2⟩, l, p, q, c, n⟩ => have e := hf ⟨m1, q, c⟩; ⟨⟨e.1, m2⟩, l, p, e.2.1, e.2.2, n⟩, rfl, rfl, Nat.le_refl _, Nat.le_refl _, Nat.le_refl _, rfl, List.suffix_rfl⟩

theorem ev_onCph {a0 : State} (f : Cph → Cph) (s : State) (h : Evolves a0 s)
    (hf : (Memory.wf 0 s.cph.inp = true ∧ Memory.wf 0 s.cph.out = true → Memory.wf 0 (f s.cph).inp = true ∧ Memory.wf 0 (f s.cph).out = true)) :
    Evolves a0 (onCph f s) :=
  h.trans' ⟨fun ⟨⟨m1, m2, m3, m4⟩, t⟩ => have e := hf ⟨m2, m3⟩; ⟨⟨m1, e.1, e.2, m4⟩, t⟩, rfl, rfl, Nat.le_refl _, Nat.le_refl _, Nat.le_refl _, rfl, List.suffix_rfl⟩

theorem ev_onLdg {a0 : State} (f : Ldg → Ldg) (s : State) (h : Evolves a0 s)
    (hf : (Memory.wf 0 s.ldg.buf = true → Memory.wf 0 (f s.ldg).buf = true)) :
    Evolves a0 (onLdg f s) :=
  h.trans' ⟨fun ⟨⟨m1, m2, m3, m4, m5⟩, t⟩ => ⟨⟨m1, m2, m3, hf m4, m5⟩, t⟩, rfl, rfl, Nat.le_refl _, Nat.le_refl _, Nat.le_refl _, rfl, List.suffix_rfl⟩

theorem ev_onFlash {a0 : State} (f : Flash → Flash) (s : State) (h : Evolves a0 s)
    (hf : (Memory.wf 0xFF s.flash.slotA = true ∧ Memory.wf 0xFF s.flash.slotB = true → Memory.wf 0xFF (f s.flash).slotA = true ∧ Memory.wf 0xFF (f s.flash).slotB = true)) :
    Evolves a0 (onFlash f s) :=
  h.trans' ⟨fun ⟨⟨m1, m2, m3, m4, m5⟩, t⟩ => ⟨⟨m1, m2, m3, m4, hf m5⟩, t⟩, rfl, rfl, Nat.le_refl _, Nat.le_refl _, Nat.le_refl _, rfl, List.suffix_rfl⟩

theorem ev_onGrp {a0 : State} (f : Grp → Grp) (s : State) (h : Evolves a0 s)
    (hf : ((f s.grp).id = s.grp.id)) :
    Evolves a0 (onGrp f s) :=
  h.trans' ⟨id, rfl, rfl, Nat.le_refl _, Nat.le_refl _, Nat.le_refl _, hf, List.suffix_rfl⟩

theorem ev_onStm {a0 : State} (f : Stm → Stm) (s : State) (h : Evolves a0 s)
    (hf : (Table.wf {} s.stm.ports = true → Table.wf {} (f s.stm).ports = true)) :
    Evolves a0 (onStm f s) :=
  h.trans' ⟨fun ⟨m, l, p, r⟩ => ⟨m, l, hf p, r⟩, rfl, rfl, Nat.le_refl _, Nat.le_refl _, Nat.le_refl _, rfl, List.suffix_rfl⟩

theorem ev_onThm {a0 : State} (f : Thm → Thm) (s : State) (h : Evolves a0 s)
    (hf : (Table.wf {} s.thm.sensors = true → Table.wf {} (f s.thm).sensors = true)) :
    Evolves a0 (onThm f s) :=
  h.trans' ⟨fun ⟨m, l, p, q, c, n, e⟩ => ⟨m, l, p, q, c, hf n, e⟩, rfl, rfl, Nat.le_refl _, Nat.le_refl _, Nat.le_refl _, rfl, List.suffix_rfl⟩

theorem ev_free {a0 : State} (s : State) (h : Evolves a0 s) : Evolves a0 (free s).2 :=
  h.trans' ⟨id, rfl, rfl, Nat.le_refl _, Nat.le_refl _, Nat.le_succ _, rfl, List.suffix_rfl⟩

theorem ev_push {a0 : State} (o : Out) (s : State) (h : Evolves a0 s) : Evolves a0 (push o s) :=
  h.trans' ⟨id, rfl, rfl, Nat.le_refl _, Nat.le_refl _, Nat.le_refl _, rfl, List.suffix_cons _ _⟩

theorem ev_onLink {a0 : State} (i : Nat) (f : Lnk → Lnk) (s : State) (h : Evolves a0 s) : Evolves a0 (onLink i f s) :=
  h.trans' ⟨fun ⟨m, l, t⟩ => ⟨m, wf_tmod i f l, t⟩, rfl, rfl, Nat.le_refl _, Nat.le_refl _, Nat.le_refl _, rfl, List.suffix_rfl⟩

theorem ev_onPort {a0 : State} (i : Nat) (f : StmPort → StmPort) (s : State) (h : Evolves a0 s) : Evolves a0 (onPort i f s) :=
  ev_onStm _ s h fun t => wf_tmod i f t

theorem ev_onSensor {a0 : State} (i : Nat) (f : Sensor → Sensor) (s : State) (h : Evolves a0 s) : Evolves a0 (onSensor i f s) :=
  ev_onThm _ s h fun t => wf_tmod i f t

theorem ev_onQueue {a0 : State} (i : Nat) (f : HQueue → HQueue) (s : State) (h : Evolves a0 s) : Evolves a0 (onQueue i f s) :=
  ev_onHst _ s h fun t => ⟨t.1, wf_tmod i f t.2.1, t.2.2⟩

theorem ev_onCopy {a0 : State} (i : Nat) (f : CopyCh → CopyCh) (s : State) (h : Evolves a0 s) : Evolves a0 (onCopy i f s) :=
  ev_onHst _ s h fun t => ⟨t.1, t.2.1, wf_tmod i f t.2.2⟩

theorem ev_denied {a0 : State} (s : Sys2Proof.Machine.State) (h : Evolves a0 s) : Evolves a0 (denied s) := by
  unfold denied
  repeat' (first
    | with_reducible assumption | (refine fun _ => ?_) | (refine ev_pair (by with_reducible assumption) ?_)
    | (intro x; clear_value (hx : x = _); first | (refine (fun (hw : Evolves a0 x) => ?_) (ev_eq hx ?_); clear hx) | clear hx)
    | with_reducible apply ev_ite | with_reducible apply ev_each | with_reducible apply ev_onSec
    | exact id | exact rfl | split | dsimp only)

theorem ev_sendMsix {a0 : State} (x0 : Nat) (s : Sys2Proof.Machine.State) (h : Evolves a0 s) : Evolves a0 (sendMsix x0 s) := by
  unfold sendMsix
  repeat' (first
    | with_reducible assumption | (refine fun _ => ?_) | (refine ev_pair (by with_reducible assumption) ?_)
    | (intro x; clear_value (hx : x = _); first | (refine (fun (hw : Evolves a0 x) => ?_) (ev_eq hx ?_); clear hx) | clear hx)
    | with_reducible apply ev_ite | with_reducible apply ev_each | with_reducible apply ev_onHst | with_reducible apply ev_push
    | exact id | exact rfl | split | dsimp only)

theorem ev_onUnit {a0 : State} (x0 : Nat) (x1 : Sys2Proof.Machine.Pmc1 → Sys2Proof.Machine.Pmc1) (s : Sys2Proof.Machine.State) (h : Evolves a0 s) : Evolves a0 (onUnit x0 x1 s) := by
  unfold onUnit
  repeat' (first
    | with_reducible assumption | (refine fun _ => ?_) | (refine ev_pair (by with_reducible assumption) ?_)
    | (intro x; clear_value (hx : x = _); first | (refine (fun (hw : Evolves a0 x) => ?_) (ev_eq hx ?_); clear hx) | clear hx)
    | with_reducible apply ev_ite | with_reducible apply ev_each | with_reducible apply ev_onPmc
    | exact id | exact rfl | split | dsimp only)

theorem ev_pmcFlag {a0 : State} (x0 : Nat) (x1 : Nat) (s : Sys2Proof.Machine.State) (h : Evolves a0 s) : Evolves a0 (pmcFlag x0 x1 s) := by
  unfold pmcFlag
  repeat' (first
    | with_reducible assumption | (refine fun _ => ?_) | (refine ev_pair (by with_reducible assumption) ?_)
    | (intro x; clear_value (hx : x = _); first | (refine (fun (hw : Evolves a0 x) => ?_) (ev_eq hx ?_); clear hx) | clear hx)
    | with_reducible apply ev_ite | with_reducible apply ev_each | with_reducible apply ev_onUnit | with_reducible apply ev_sendMsix | with_reducible apply ev_onPmc
    | exact id | exact rfl | split | dsimp only)

theorem ev_pmcCarry {a0 : State} (x0 : Nat) (x1 : Nat) (s : Sys2Proof.Machine.State) (h : Evolves a0 s) : Evolves a0 (pmcCarry x0 x1 s) := by
  unfold pmcCarry
  repeat' (first
    | with_reducible assumption | (refine fun _ => ?_) | (refine ev_pair (by with_reducible assumption) ?_)
    | (intro x; clear_value (hx : x = _); first | (refine (fun (hw : Evolves a0 x) => ?_) (ev_eq hx ?_); clear hx) | clear hx)
    | with_reducible apply ev_ite | with_reducible apply ev_each | with_reducible apply ev_onUnit | with_reducible apply ev_pmcFlag
    | exact id | exact rfl | split | dsimp only)

theorem ev_pmcAdd {a0 : State} (x0 : Nat) (x1 : Nat) (x2 : Nat) (x3 : Nat) (s : Sys2Proof.Machine.State) (h : Evolves a0 s) : Evolves a0 (pmcAdd x0 x1 x2 x3 s) := by
  unfold pmcAdd
  repeat' (first
    | with_reducible assumption | (refine fun _ => ?_) | (refine ev_pair (by with_reducible assumption) ?_)
    | (intro x; clear_value (hx : x = _); first | (refine (fun (hw : Evolves a0 x) => ?_) (ev_eq hx ?_); clear hx) | clear hx)
    | with_reducible apply ev_ite | with_reducible apply ev_each | with_reducible apply ev_onUnit | with_reducible apply ev_pmcCarry
    | exact id | exact rfl | split | dsimp only)

theorem ev_count {a0 : State} (x0 : Nat) (x1 : Nat) (x2 : Nat) (s : Sys2Proof.Machine.State) (h : Evolves a0 s) : Evolves a0 (count x0 x1 x2 s) := by
  unfold count
  repeat' (first
    | with_reducible assumption | (refine fun _ => ?_) | (refine ev_pair (by with_reducible assumption) ?_)
    | (intro x; clear_value (hx : x = _); first | (refine (fun (hw : Evolves a0 x) => ?_) (ev_eq hx ?_); clear hx) | clear hx)
    | with_reducible apply ev_ite | with_reducible apply ev_each | with_reducible apply ev_pmcAdd
    | exact id | exact rfl | split | dsimp only)

theorem ev_msix {a0 : State} (x0 : Nat) (s : Sys2Proof.Machine.State) (h : Evolves a0 s) : Evolves a0 (msix x0 s) := by
  unfold msix
  repeat' (first
    | with_reducible assumption | (refine fun _ => ?_) | (refine ev_pair (by with_reducible assumption) ?_)
    | (intro x; clear_value (hx : x = _); first | (refine (fun (hw : Evolves a0 x) => ?_) (ev_eq hx ?_); clear hx) | clear hx)
    | with_reducible apply ev_ite | with_reducible apply ev_each | with_reducible apply ev_sendMsix | with_reducible apply ev_count
    | exact id | exact rfl | split | dsimp only)

theorem ev_sendRaw {a0 : State} (x0 x1 x2 x3 : Nat) (x4 : List (BitVec 128)) (x5 : Option Out) (s : Sys2Proof.Machine.State) (h : Evolves a0 s) : Evolves a0 (sendRaw x0 x1 x2 x3 x4 x5 s) := by
  unfold sendRaw
  repeat' (first
    | with_reducible assumption | (refine fun _ => ?_) | (refine ev_pair (by with_reducible assumption) ?_)
    | (intro x; clear_value (hx : x = _); first | (refine (fun (hw : Evolves a0 x) => ?_) (ev_eq hx ?_); clear hx) | clear hx)
    | with_reducible apply ev_ite | with_reducible apply ev_each | with_reducible apply ev_push | with_reducible apply ev_onLink | with_reducible apply ev_count
    | exact id | exact rfl | split | dsimp only)

theorem ev_sendIdle {a0 : State} (x0 : Nat) (x1 : Bool) (s : Sys2Proof.Machine.State) (h : Evolves a0 s) : Evolves a0 (sendIdle x0 x1 s) := by
  unfold sendIdle
  repeat' (first
    | with_reducible assumption | (refine fun _ => ?_) | (refine ev_pair (by with_reducible assumption) ?_)
    | (intro x; clear_value (hx : x = _); first | (refine (fun (hw : Evolves a0 x) => ?_) (ev_eq hx ?_); clear hx) | clear hx)
    | with_reducible apply ev_ite | with_reducible apply ev_each | with_reducible apply ev_push | with_reducible apply ev_onLink
    | exact id | exact rfl | split | dsimp only)

theorem ev_hold {a0 : State} (x0 x1 : Nat) (x2 : Out) (s : Sys2Proof.Machine.State) (h : Evolves a0 s) : Evolves a0 (hold x0 x1 x2 s) := by
  unfold hold
  repeat' (first
    | with_reducible assumption | (refine fun _ => ?_) | (refine ev_pair (by with_reducible assumption) ?_)
    | (intro x; clear_value (hx : x = _); first | (refine (fun (hw : Evolves a0 x) => ?_) (ev_eq hx ?_); clear hx) | clear hx)
    | with_reducible apply ev_ite | with_reducible apply ev_each | with_reducible apply ev_onLink
    | exact id | exact rfl | split | dsimp only)

theorem ev_sendFlit {a0 : State} (x0 : Nat) (x1 : Nat) (x2 : Sys2Proof.Machine.Out) (s : Sys2Proof.Machine.State) (h : Evolves a0 s) : Evolves a0 (sendFlit x0 x1 x2 s) := by
  unfold sendFlit
  repeat' (first
    | with_reducible assumption | (refine fun _ => ?_) | (refine ev_pair (by with_reducible assumption) ?_)
    | (intro x; clear_value (hx : x = _); first | (refine (fun (hw : Evolves a0 x) => ?_) (ev_eq hx ?_); clear hx) | clear hx)
    | with_reducible apply ev_ite | with_reducible apply ev_each | with_reducible apply ev_sendRaw | with_reducible apply ev_push | with_reducible apply ev_onLink | with_reducible apply ev_count
    | exact id | exact rfl | split | dsimp only)

theorem ev_emit {a0 : State} (x0 : Sys2Proof.Machine.Out) (s : Sys2Proof.Machine.State) (h : Evolves a0 s) : Evolves a0 (emit x0 s) := by
  unfold emit
  repeat' (first
    | with_reducible assumption | (refine fun _ => ?_) | (refine ev_pair (by with_reducible assumption) ?_)
    | (intro x; clear_value (hx : x = _); first | (refine (fun (hw : Evolves a0 x) => ?_) (ev_eq hx ?_); clear hx) | clear hx)
    | with_reducible apply ev_ite | with_reducible apply ev_each | with_reducible apply ev_push | with_reducible apply ev_count | with_reducible apply ev_sendFlit | with_reducible apply ev_hold | with_reducible apply ev_onLink
    | exact id | exact rfl | split | dsimp only)

theorem ev_releaseHeld {a0 : State} (x0 : Nat) (s : Sys2Proof.Machine.State) (h : Evolves a0 s) : Evolves a0 (releaseHeld x0 s) := by
  unfold releaseHeld
  repeat' (first
    | with_reducible assumption | (refine fun _ => ?_) | (refine ev_pair (by with_reducible assumption) ?_)
    | (intro x; clear_value (hx : x = _); first | (refine (fun (hw : Evolves a0 x) => ?_) (ev_eq hx ?_); clear hx) | clear hx)
    | with_reducible apply ev_ite | with_reducible apply ev_each | with_reducible apply ev_sendFlit | with_reducible apply ev_onLink
    | exact id | exact rfl | split | dsimp only)

theorem ev_onPart {a0 : State} (x0 : Nat) (x1 : Sys2Proof.Machine.Partition → Sys2Proof.Machine.Partition) (s : Sys2Proof.Machine.State) (h : Evolves a0 s) : Evolves a0 (onPart x0 x1 s) := by
  unfold onPart
  repeat' (first
    | with_reducible assumption | (refine fun _ => ?_) | (refine ev_pair (by with_reducible assumption) ?_)
    | (intro x; clear_value (hx : x = _); first | (refine (fun (hw : Evolves a0 x) => ?_) (ev_eq hx ?_); clear hx) | clear hx)
    | with_reducible apply ev_ite | with_reducible apply ev_each | with_reducible apply ev_onFlash
    | exact id | exact rfl | split | dsimp only)

theorem ev_append {a0 : State} (x0 : Nat) (x1 : Nat) (x2 : List Sys2Proof.Byte) (s : Sys2Proof.Machine.State) (h : Evolves a0 s) : Evolves a0 (append x0 x1 x2 s) := by
  unfold append
  repeat' (first
    | with_reducible assumption | (refine fun _ => ?_) | (refine ev_pair (by with_reducible assumption) ?_)
    | (intro x; clear_value (hx : x = _); first | (refine (fun (hw : Evolves a0 x) => ?_) (ev_eq hx ?_); clear hx) | clear hx)
    | with_reducible apply ev_ite | with_reducible apply ev_each | with_reducible apply ev_onFlash
    | exact id | exact rfl | split | dsimp only)

theorem ev_appendSlot {a0 : State} (x0 : Nat) (s : Sys2Proof.Machine.State) (h : Evolves a0 s) : Evolves a0 (appendSlot x0 s) := by
  unfold appendSlot
  repeat' (first
    | with_reducible assumption | (refine fun _ => ?_) | (refine ev_pair (by with_reducible assumption) ?_)
    | (intro x; clear_value (hx : x = _); first | (refine (fun (hw : Evolves a0 x) => ?_) (ev_eq hx ?_); clear hx) | clear hx)
    | with_reducible apply ev_ite | with_reducible apply ev_each | with_reducible apply ev_onFlash
    | exact id | exact rfl | split | dsimp only)

theorem ev_recordEvent {a0 : State} (x0 : Sys2Proof.Machine.EvRec) (s : Sys2Proof.Machine.State) (h : Evolves a0 s) : Evolves a0 (recordEvent x0 s) := by
  unfold recordEvent
  repeat' (first
    | with_reducible assumption | (refine fun _ => ?_) | (refine ev_pair (by with_reducible assumption) ?_)
    | (intro x; clear_value (hx : x = _); first | (refine (fun (hw : Evolves a0 x) => ?_) (ev_eq hx ?_); clear hx) | clear hx)
    | with_reducible apply ev_ite | with_reducible apply ev_each | with_reducible apply ev_onEvr | with_reducible apply ev_appendSlot
    | exact id | exact rfl | split | dsimp only)

theorem ev_event {a0 : State} (x0 : Nat) (x1 : Nat) (x2 : Nat) (s : Sys2Proof.Machine.State) (h : Evolves a0 s) : Evolves a0 (event x0 x1 x2 s) := by
  unfold event
  repeat' (first
    | with_reducible assumption | (refine fun _ => ?_) | (refine ev_pair (by with_reducible assumption) ?_)
    | (intro x; clear_value (hx : x = _); first | (refine (fun (hw : Evolves a0 x) => ?_) (ev_eq hx ?_); clear hx) | clear hx)
    | with_reducible apply ev_ite | with_reducible apply ev_each | with_reducible apply ev_recordEvent | with_reducible apply ev_onEvr
    | exact id | exact rfl | split | dsimp only)

theorem ev_supplyLog {a0 : State} (x0 : Nat) (x1 : Nat) (x2 : Nat) (x3 : Nat) (s : Sys2Proof.Machine.State) (h : Evolves a0 s) : Evolves a0 (supplyLog x0 x1 x2 x3 s) := by
  unfold supplyLog
  repeat' (first
    | with_reducible assumption | (refine fun _ => ?_) | (refine ev_pair (by with_reducible assumption) ?_)
    | (intro x; clear_value (hx : x = _); first | (refine (fun (hw : Evolves a0 x) => ?_) (ev_eq hx ?_); clear hx) | clear hx)
    | with_reducible apply ev_ite | with_reducible apply ev_each | with_reducible apply ev_append | with_reducible apply ev_onPlinth
    | exact id | exact rfl | split | dsimp only)

theorem ev_onMemErr {a0 : State} (x0 : Nat) (x1 : Sys2Proof.Machine.MemErr → Sys2Proof.Machine.MemErr) (s : Sys2Proof.Machine.State) (h : Evolves a0 s) : Evolves a0 (onMemErr x0 x1 s) := by
  unfold onMemErr
  repeat' (first
    | with_reducible assumption | (refine fun _ => ?_) | (refine ev_pair (by with_reducible assumption) ?_)
    | (intro x; clear_value (hx : x = _); first | (refine (fun (hw : Evolves a0 x) => ?_) (ev_eq hx ?_); clear hx) | clear hx)
    | with_reducible apply ev_ite | with_reducible apply ev_each | with_reducible apply ev_onErr
    | exact id | exact rfl | split | dsimp only)

theorem ev_trap {a0 : State} (x0 : Nat) (s : Sys2Proof.Machine.State) (h : Evolves a0 s) : Evolves a0 (trap x0 s) := by
  unfold trap
  repeat' (first
    | with_reducible assumption | (refine fun _ => ?_) | (refine ev_pair (by with_reducible assumption) ?_)
    | (intro x; clear_value (hx : x = _); first | (refine (fun (hw : Evolves a0 x) => ?_) (ev_eq hx ?_); clear hx) | clear hx)
    | with_reducible apply ev_ite | with_reducible apply ev_each | with_reducible apply ev_onErr | with_reducible apply ev_msix
    | exact id | exact rfl | split | dsimp only)

theorem ev_logError {a0 : State} (x0 : Nat) (x1 : Nat) (x2 : Nat) (s : Sys2Proof.Machine.State) (h : Evolves a0 s) : Evolves a0 (logError x0 x1 x2 s) := by
  unfold logError
  repeat' (first
    | with_reducible assumption | (refine fun _ => ?_) | (refine ev_pair (by with_reducible assumption) ?_)
    | (intro x; clear_value (hx : x = _); first | (refine (fun (hw : Evolves a0 x) => ?_) (ev_eq hx ?_); clear hx) | clear hx)
    | with_reducible apply ev_ite | with_reducible apply ev_each | with_reducible apply ev_onErr
    | exact id | exact rfl | split | dsimp only)

theorem ev_startTest {a0 : State} (x0 : Nat) (x1 : Nat) (s : Sys2Proof.Machine.State) (h : Evolves a0 s) : Evolves a0 (startTest x0 x1 s) := by
  unfold startTest
  repeat' (first
    | with_reducible assumption | (refine fun _ => ?_) | (refine ev_pair (by with_reducible assumption) ?_)
    | (intro x; clear_value (hx : x = _); first | (refine (fun (hw : Evolves a0 x) => ?_) (ev_eq hx ?_); clear hx) | clear hx)
    | with_reducible apply ev_ite | with_reducible apply ev_each | with_reducible apply ev_onErr
    | exact id | exact rfl | split | dsimp only)

theorem ev_poisonRoute {a0 : State} (x0 : Nat) (x1 : Nat) (x2 : Nat) (s : Sys2Proof.Machine.State) (h : Evolves a0 s) : Evolves a0 (poisonRoute x0 x1 x2 s) := by
  unfold poisonRoute
  repeat' (first
    | with_reducible assumption | (refine fun _ => ?_) | (refine ev_pair (by with_reducible assumption) ?_)
    | (intro x; clear_value (hx : x = _); first | (refine (fun (hw : Evolves a0 x) => ?_) (ev_eq hx ?_); clear hx) | clear hx)
    | with_reducible apply ev_ite | with_reducible apply ev_each | with_reducible apply ev_startTest | with_reducible apply ev_onMemErr | with_reducible apply ev_logError | with_reducible apply ev_event
    | exact id | exact rfl | split | dsimp only)

theorem ev_corrected {a0 : State} (x0 : Nat) (x1 : Nat) (s : Sys2Proof.Machine.State) (h : Evolves a0 s) : Evolves a0 (corrected x0 x1 s) := by
  unfold corrected
  repeat' (first
    | with_reducible assumption | (refine fun _ => ?_) | (refine ev_pair (by with_reducible assumption) ?_)
    | (intro x; clear_value (hx : x = _); first | (refine (fun (hw : Evolves a0 x) => ?_) (ev_eq hx ?_); clear hx) | clear hx)
    | with_reducible apply ev_ite | with_reducible apply ev_each | with_reducible apply ev_startTest | with_reducible apply ev_onMemErr | with_reducible apply ev_trap
    | exact id | exact rfl | split | dsimp only)

theorem ev_fatal {a0 : State} (x0 : Nat) (x1 : Nat) (s : Sys2Proof.Machine.State) (h : Evolves a0 s) : Evolves a0 (fatal x0 x1 s) := by
  unfold fatal
  repeat' (first
    | with_reducible assumption | (refine fun _ => ?_) | (refine ev_pair (by with_reducible assumption) ?_)
    | (intro x; clear_value (hx : x = _); first | (refine (fun (hw : Evolves a0 x) => ?_) (ev_eq hx ?_); clear hx) | clear hx)
    | with_reducible apply ev_ite | with_reducible apply ev_each | with_reducible apply ev_onPlinth | with_reducible apply ev_event | with_reducible apply ev_onPwr
    | exact id | exact rfl | split | dsimp only)

end Sys2Proof.Machine
end

