-- ==== Sys2Proof/Tests/Slice0.lean ====
section
/-!
SUPPORT. Tests of this slice: an ill-formed term for each check of WellFormed, the spec's worked examples, single commands on small
states, and, for every obligation, states and operands that meet the hypotheses of each of its clauses together.
-/

namespace Sys2Proof.Tests
open Sys2Proof Sys2Proof.Machine

set_option Elab.async false

/-! ## WellFormed refuses what no interface can carry -/

def okMsg : Msg := { port := .hal 0, agent := 0, txid := 0, gaddr := 0, req := 0 }
def copMsg : Msg := { port := .cop 0, agent := 0, txid := 0, gaddr := 0, req := 0 }
def okCmd : Cmd := { q := 0, cid := 0, fence := false, noInt := false }
def okMeas : CourseMeas := { vin := 12000, iin := 1000, pin := 1000, ptm := none }

theorem test_wf_accepts : ([Instr.rdShared okMsg, .nop okCmd, .courseStart 2000000 okMeas, .powerUp 12000].all Instr.wellFormed) = true := by decide
theorem test_wf_meas : Instr.wellFormed (.courseStart 0 { okMeas with vin := 65536 }) = false := by decide
theorem test_wf_port : Instr.wellFormed (.nakRepeat (.hal 8)) = false ∧ Instr.wellFormed (.nakRepeat (.cop 4)) = false := by decide
theorem test_wf_msg : ([{ okMsg with agent := 64 }, { okMsg with gaddr := 2 ^ 42 }, { okMsg with req := 128 }, { okMsg with txid := 512 },
    { copMsg with txid := 8192 }, { okMsg with port := .hal 8 }].all fun m => !Instr.wellFormed (.rdShared m)) = true := by decide
theorem test_wf_htid : Instr.wellFormed (.ack okMsg 1024) = false := by decide
theorem test_wf_cmd : ([{ okCmd with q := 64 }, { okCmd with cid := 65536 }].all fun c => !Instr.wellFormed (.nop c)) = true := by decide
theorem test_wf_level : Instr.wellFormed (.escalationFall 5 0) = false := by decide
theorem test_wf_reading : Instr.wellFormed (.packageSample [.temp 2048]) = false ∧ Instr.wellFormed (.sensorSample 0 (.temp (-2049))) = false
    ∧ Instr.wellFormed (.sensorSample 86 .absent) = false := by decide
theorem test_wf_atomic : Instr.wellFormed (.atomic copMsg .swap 4 0 0) = false ∧ Instr.wellFormed (.atomic copMsg .swap 0 64 0) = false := by decide
theorem test_wf_accum : Instr.wellFormed (.accum copMsg []) = false := by decide
theorem test_wf_stream : Instr.wellFormed (.streamRecord 8 0 false) = false ∧ Instr.wellFormed (.playlistEntryWrite 0 2 0 false 0) = false
    ∧ Instr.wellFormed (.playlistEntryWrite 0 0 16 false 0) = false := by decide
theorem test_wf_link : Instr.wellFormed (.creditInit (.hal 0) 65536 0 0 0 0) = false ∧ Instr.wellFormed (.linkDown (.hal 0) 256) = false
    ∧ Instr.wellFormed (.keyOffer 4 ⟨0, 0, 0, 0, 0⟩) = false ∧ Instr.wellFormed (.keyOffer 0 ⟨8, 0, 0, 0, 0⟩) = false
    ∧ Instr.wellFormed (.keyWrap 4 0 0) = false ∧ Instr.wellFormed (.keyDone 0 65536) = false ∧ Instr.wellFormed (.agentReset 8) = false := by decide
theorem test_wf_group : Instr.wellFormed (.groupHello 4 0 1 0 0 0 0) = false ∧ Instr.wellFormed (.tickAlign 0 8 0) = false
    ∧ Instr.wellFormed (.tickAlign 0 0 (2 ^ 64)) = false ∧ Instr.wellFormed (.hoistArm 0 0 65536 0) = false
    ∧ Instr.wellFormed (.hoistReply 0 0 65536 0) = false ∧ Instr.wellFormed (.groupHoistTimeout 65536) = false
    ∧ Instr.wellFormed (.groupHoistCancel 0 0 65536) = false ∧ Instr.wellFormed (.linkResume 0 0 4 0) = false
    ∧ Instr.wellFormed (.linkResume 0 0 0 4096) = false ∧ Instr.wellFormed (.memberState 0 8 0 0 0) = false
    ∧ Instr.wellFormed (.readmit 4 0 0) = false := by decide
theorem test_wf_bar : Instr.wellFormed (.registerWrite (2 ^ 25) 4 0) = false ∧ Instr.wellFormed (.registerWrite 0 2 0) = false
    ∧ Instr.wellFormed (.registerWrite 4 8 0) = false ∧ Instr.wellFormed (.bar2Read (2 ^ 64) 4 0) = false
    ∧ Instr.wellFormed (.bar2Read 0 4097 0) = false ∧ Instr.wellFormed (.bar2Read 0 4 16384) = false
    ∧ Instr.wellFormed (.bar2Write (2 ^ 64) [] false false) = false
    ∧ Instr.wellFormed (.bar2Atomic 0 .cas 2 0 0 false 0) = false ∧ Instr.wellFormed (.atomicUnsupported true 0 16384) = false ∧ Instr.wellFormed (.atomicUnsupported true (2 ^ 22) 0) = false
    ∧ Instr.wellFormed (.bar4Read (2 ^ 22) 4 0) = false ∧ Instr.wellFormed (.bar4Write (2 ^ 22) []) = false
    ∧ Instr.wellFormed (.debugAccess (.regRead 0 2)) = false
    ∧ Instr.wellFormed (.configurationRequest false (.cap 256 0) 0 0) = false ∧ Instr.wellFormed (.configurationRequest true (.cap 1 1) 0 16384) = false := by
  decide
theorem test_wf_queue : Instr.wellFormed (.sqTailDoorbell 64 0) = false ∧ Instr.wellFormed (.cqHeadDoorbell 0 (2 ^ 32)) = false
    ∧ Instr.wellFormed (.queueEnable 64) = false := by decide
theorem test_wf_quoin : Instr.wellFormed (.cachePreload okCmd (2 ^ 64) 0 false) = false ∧ Instr.wellFormed (.cacheUnlock okCmd 0 (2 ^ 64)) = false
    ∧ Instr.wellFormed (.cacheMaintSetClean okCmd 256 0 0) = false ∧ Instr.wellFormed (.cacheMaintSetFlush okCmd 0 (2 ^ 32) 0) = false
    ∧ Instr.wellFormed (.copy okCmd 0 0 0 256 false) = false ∧ Instr.wellFormed (.resume 16) = false
    ∧ Instr.wellFormed (.hoistCancel okCmd 65536) = false ∧ Instr.wellFormed (.sealedImport okCmd 0 0 (2 ^ 32) 0 0) = false
    ∧ Instr.wellFormed (.lifecycleOwned okCmd 0 (2 ^ 32)) = false ∧ Instr.wellFormed (.selfTest okCmd 256 0) = false
    ∧ Instr.wellFormed (.stopEntryComplete (2 ^ 32)) = false := by decide
theorem test_wf_cipher : Instr.wellFormed (.encrypt .host 0 16) = false ∧ Instr.wellFormed (.wrap .host 0 0 16) = false := by decide
theorem test_wf_supply : Instr.wellFormed (.powerUp 65536) = false ∧ Instr.wellFormed (.railGood 24 0) = false
    ∧ Instr.wellFormed (.refStable (2 ^ 32)) = false ∧ Instr.wellFormed (.dramTrained (.dramFail 16) 0 0) = false
    ∧ Instr.wellFormed (.dramTrained (.mediaFail 32) 0 0) = false ∧ Instr.wellFormed (.startupThermalTimeout 85) = false
    ∧ Instr.wellFormed (.thermalTrip 256 0) = false ∧ Instr.wellFormed (.holdupCharged 65536 0) = false
    ∧ Instr.wellFormed (.memoryReady (2 ^ 32)) = false ∧ Instr.wellFormed (.railDisable 24) = false ∧ Instr.wellFormed (.unitUngated 27) = false := by decide
theorem test_wf_errors : Instr.wellFormed (.selfTestAuto 8 0) = false ∧ Instr.wellFormed (.scrubCorrection 7 0 .clean) = false
    ∧ Instr.wellFormed (.cornerstoneAppendDone 0 0 true) = false ∧ Instr.wellFormed (.cornerstoneAppendDone 6 0 true) = false
    ∧ Instr.wellFormed (.cornerstoneAppendDone 1 2 true) = false ∧ Instr.wellFormed (.eraseSlot 2) = false
    ∧ Instr.wellFormed (.program 0 (2 ^ 32)) = false ∧ Instr.wellFormed (.cornerstoneEraseDone 0 2048 true) = false := by decide
theorem test_wf_observe : Instr.wellFormed (.unitClear 0x58) = false ∧ Instr.wellFormed (.pmcOverflow 0 8) = false
    ∧ Instr.wellFormed (.eventLateRecord 65536) = false := by decide

/-! ## The spec's worked examples -/

/-- "From a local address to a bank": page number, map page and entry, the fields of the physical page number, bounded placement. -/
theorem test_address : 0x300001E40 / 512 = 25165839 ∧ mapPageOf 25165839 = 262144 ∧ 25165839 % 96 = 15
    ∧ channelOfPpn 0x9DA870DDC = 19 ∧ bankOfPpn 0x9DA870DDC = 2522 ∧ blockOfPpn 0x9DA870DDC % 2 ^ 13 = 4321 ∧ pageInBlock 0x9DA870DDC = 1500
    ∧ placedBank {} 25165839 / 128 = 15 ∧ placedBank {} 25165839 % 128 = 0 := by decide
/-- "The set of an address": line 15, tag 6, set 6. -/
theorem test_cache_set : lineOf 25165839 = 15 ∧ tagOf 25165839 = 6 ∧ setOf 25165839 = 6 ∧ pageOf 6 6 15 = 25165839 := by decide
/-- R184: the granule of 0x3_0000_1E40 lies in directory set 0x379 with tag 0x300. -/
theorem test_dir_set : dirSet (0x300001E40 / 64) = 0x379 ∧ dirTag (0x300001E40 / 64) = 0x300 := by decide
/-- "Three register addresses" (R525): the host reaches them at these offsets, and their units gate them. -/
theorem test_register_units : gateOf 0x0515008 = some 5 ∧ gateOf 0x0704108 = some (12 + 3) ∧ gateOf 0x0F0526C = some 22 := by decide
/-- "Combining mixed records on one word": the folds of SAT8 and the word that the entry gives. -/
theorem test_combining :
    foldWord (foldWord (recWord 3 0x0101) (recWord 3 0x0101)) (recWord 3 0x0500) = { kind := .sat8, a := 0x0702 }
    ∧ applyWord { kind := .sat8, a := 0x0702 } 0xFE10 = 0xFF12 ∧ applyWord (recWord 1 0x0F) 0xFF12 = 0xFF1F
    ∧ foldWord (recWord 1 0x0F) (recWord 2 0x03) = { kind := .bit, a := 0x0C, b := 0x03 }
    ∧ applyWord { kind := .bit, a := 0x0C, b := 0x03 } 0xF0 = 0xFC := by decide
/-- "A new capacitance measurement lowers the limit": 6 mF at 45 V give 2.579 GiB; R431: 10 mF at 45 V reach the 4 GiB. -/
theorem test_derived_limit : derivedLimit 600 4500 / 2097 = 2579 ∧ derivedLimit 1000 4500 = 8388608 ∧ derivedLimit 1000 1600 = 0 := by decide
/-- R31: T runs from 1.0 µs to 8.0 µs in steps of 0.25 µs, 2.0 µs by default. -/
theorem test_period : periodPs {} = 2000000 ∧ periodPs { tck := { code := 0 } } = 1000000 ∧ periodPs { tck := { code := 28 } } = 8000000 := by decide
/-- R417: the restart threshold is 5.9 V by default. -/
theorem test_restart : restartMv {} = 5900 := by decide
/-- R467: bands at their edges, with the 2 °C below which a band falls. -/
theorem test_bands : bandOf 99 = 0 ∧ bandOf 100 = 1 ∧ bandOf 380 = 5 ∧ nextBand 1 99 = 1 ∧ nextBand 1 92 = 0 ∧ nextBand 0 380 = 5 := by decide
/-- R52: the levels of reclaim at F = 64, and "A reclaim under pressure": f = 40 is pressing. -/
theorem test_reclaim_level : reclaimLevel 128 64 false = 0 ∧ reclaimLevel 127 64 false = 1 ∧ reclaimLevel 40 64 false = 2 ∧ reclaimLevel 31 64 false = 3 := by decide

/-! ## Single commands on small states -/

/-- The module in Run: memory is ready, BAR0 decodes, every unit is clocked and courses run. -/
def up : State :=
  { glb := { memReady := true, step := 14, charged := true, expertEn := true }
    plinth := { agtRst := 0, vin := 12000 }
    hst := { ready := true, cfgReady := true, linkUp := true }
    clk := { gate := BitVec.allOnes 27, gateSt := BitVec.allOnes 27, pcieRef := true }
    tck := { running := true } }

/-- What a command makes of a state. -/
def after (c : Instr) (s : State) : State := match exec c s with
  | .next t => t
  | _ => s

theorem test_empty_queue_idles : step up = .next up := by rfl
/-- R34, R33: a course of the external source. -/
theorem test_course_start : (after (.courseStart 2000000 okMeas) up).tck.count = 1 := by decide +kernel
theorem test_early_edge : (after .earlyEdge up).tck.early = 1 := by decide
/-- R65: an edge that does not come is counted. -/
theorem test_missed_tick : (after (.missedTick okMeas) up).tck.missed = 1 := by decide +kernel
/-- R66. -/
theorem test_flywheel_clear : (after .flywheelClear { up with tck := { up.tck with flywheel := true, acceptRun := 16 } }).tck.flywheel = false := by decide
/-- R191: a reserved opcode is counted and recorded. -/
theorem test_reserved : (after (.reservedOpcodeMessage okMsg) { up with links := [(0, { st := 5 })] }).dir.cntProto = 1 := by decide
/-- R268: ingress is IDLE, so the record is discarded. -/
theorem test_record_stopped : (port (after (.streamRecord 0 0 false) { up with stm := { up.stm with ports := [(0, { lnkSt := 5, linkUp := true })] } }) 0).cntDrop = 1 := by
  decide
/-- R335: a tail above SQ_SIZE puts the queue into ERROR with cause 1. -/
theorem test_tail_error : (queue (after (.sqTailDoorbell 3 9) { up with hst := { up.hst with queues := [(3, { enable := true, sqSize := 8, cqSize := 8 })] } }) 3).errCause
    = 1 := by decide
/-- R534, R10. -/
theorem test_expert_clr : (after .expertClr { up with expert := [(0x0400018, 0x80000040)] }).expert = [(0x0400018, 0x40)] := by decide
/-- R404: a ticket that is not in force is counted. -/
theorem test_bad_ticket : (after (.clear .host 5 1) { up with cph := { up.cph with holder := 1, ticket := 4 } }).cph.badTicket = 1 := by decide
/-- R404: the release of the ticket in force. -/
theorem test_release : (after (.cphRelease .host 4) { up with cph := { up.cph with holder := 1, ticket := 4 } }).cph.holder = 0 := by decide
/-- R423: rail 4 follows rail 3 (0.75 V). -/
theorem test_rail_good : railSt (after (.railGood 3 750) { up with plinth := { up.plinth with st := 1, rails := [(3, (1, 0)), (4, (0, 0))] } }) 4 = 1 := by decide
/-- R425: a start that fails latches. -/
theorem test_rail_start : (after (.railStart 3 700) { up with plinth := { up.plinth with st := 1, rails := [(3, (1, 0))] } }).plinth.latched = true := by decide
/-- R417. -/
theorem test_over_voltage_end : (after (.overVoltageEnd 43999) { up with plinth := { up.plinth with swOpen := true } }).plinth.swOpen = false := by decide
/-- R509. -/
theorem test_freeze : (after .freeze up).pmc.freeze = true ∧ (after .freezeRelease (after .freeze up)).pmc.freeze = false := by decide
/-- R508: a counter that wraps sets its overflow bit. -/
theorem test_overflow : (pmcUnit (after (.pmcOverflow 8 3) { up with pmc := { up.pmc with units := [(8, { pc := [(3, 2 ^ 32 - 1)] })] } }) 8).ovf = 8 := by decide
/-- R547, R451: VIN least significant byte first, 12,000 mV = 0x2EE0. -/
theorem test_smbus_vin : (after (.vin true) up).out = [.smbus (some [0xE0, 0x2E])] ∧ after (.vin false) up = up := by decide
/-- R548: an unknown code is NACKed. -/
theorem test_smbus_unknown : (after (.smbusUnknownCommand 0x0A 0) up).out = [.smbus none] := by decide
/-- R503: the slot in use is refused. -/
theorem test_slot_refused : (after (.eraseSlot 1) { up with glb := { up.glb with imageApplied := true, slot := 1 } }).ldg.status = 2 := by decide
/-- R476: the trip cuts every rail and latches. -/
theorem test_thermal_trip : (after (.thermalTrip 10 440) up).plinth.latched = true ∧ (after (.thermalTrip 10 440) up).plinth.st = 0 := by decide
/-- R492, R327: BAR4 reads what was written. -/
theorem test_bar4 : ((after (.bar4Read 2 2 7) (after (.bar4Write 1 [1, 2, 3]) up)).out.head?) = some (.cpl 7 .sc false [2, 3]) := by decide
/-- R443: a press clears a latch and asks for a start. -/
theorem test_press : (after .pbShortPress { up with plinth := { up.plinth with st := 0, latched := true } }).plinth.onReq = true := by decide

/-! ## Witnesses: for each obligation, states and operands that meet the hypotheses of each of its clauses, at their boundary values.
A statement that is not named here has no hypotheses. -/

theorem witness_StepRunsTheFrontCommand : ({ up with pending := [.earlyEdge, .freeze] } : State).pending = .earlyEdge :: [.freeze] ∧ up.pending = [] := by
  decide

def waiting : State := { up with pending := [.earlyEdge] }
theorem witness_EveryStepKeepsTheCanonicalForms : ∃ t, Canonical waiting ∧ step waiting = .next t :=
  ⟨_, by unfold Canonical MemoriesWf TablesWf; decide, rfl⟩
theorem witness_EveryStepKeepsTheIdentityAndThePast : ∃ t, step waiting = .next t := ⟨_, rfl⟩

def flying : State := { up with tck := { up.tck with flywheel := true, missRun := 4, edgeRun := 1 } }
theorem witness_CoursesStartAndAreCounted :
    (({ up with tck := { up.tck with source := 1 } } : State).tck.running = true ∧ ({ up with tck := { up.tck with source := 1 } } : State).tck.source = 1) ∧
    (up.tck.running = true ∧ ownCourses up = false ∧ up.tck.returning = false ∧ 95 * periodPs up ≤ 100 * 1900000 ∧ 100 * 1900000 ≤ 105 * periodPs up ∧
      95 * periodPs up ≤ 100 * 2100000 ∧ 100 * 2100000 ≤ 105 * periodPs up) ∧
    100 * 1899999 < 95 * periodPs up ∧
    (({ up with tck := { up.tck with flywheel := true, returning := true } } : State).tck.flywheel = true ∧
      ({ up with tck := { up.tck with flywheel := true, returning := true } } : State).tck.returning = true) := by decide +kernel

theorem witness_TheFlywheelTakesOverAndReturns :
    up.tck.missRun ≠ 3 ∧ ({ up with tck := { up.tck with missRun := 3 } } : State).tck.missRun = 3 ∧
    16 ≤ ({ up with tck := { up.tck with acceptRun := 16 } } : State).tck.acceptRun ∧
    (flying.tck.running = true ∧ flying.tck.source ≠ 1 ∧ ownCourses flying = true ∧ flying.tck.returning = false ∧ 1 ≤ flying.tck.edgeRun ∧
      95 * periodPs flying ≤ 100 * 1900000 ∧ 100 * 1900000 ≤ 105 * periodPs flying) ∧
    (100 * 1899999 < 95 * periodPs flying ∧ 105 * periodPs flying < 100 * 2100001) ∧
    256 ≤ ({ up with tck := { up.tck with avgCnt := 256 } } : State).tck.avgCnt := by decide +kernel

theorem witness_TheWindowsAreFixedBeforeTheGuard : up.tck.running = true ∧ up.tck.guard = false := by decide +kernel

def aPage : MPage := { spare := 0, data := 0 }
def aProg : Prog := { id := 7, kind := .write 0, bank := 0, ppn := some 0, page := aPage, groups := 2, first := some 0, running := true }
def programming : State :=
  { up with med := { up.med with progs := [aProg], resets := [{ block := 5, owner := 0, rewrite := false, strip := 254, running := true }] }
            tck := { up.tck with count := 256, course := 256, fixed := true } }
theorem witness_LevelsFallAndProgramsAreAbandoned :
    64 ≤ (tget {} ({ up with tck := { up.tck with esc := [(escKey 1 3, { level := 2, below := 64, high := 1 })] } } : State).tck.esc (escKey 1 3)).below ∧
    ((programming.med.progs.find? fun q => q.id == 7) = some aProg ∧ aProg.ppn = some 0 ∧ aProg.first = some 0 ∧ 0 + 256 ≤ programming.tck.course) := by decide +kernel

def aRead : MRead := { id := 9, why := .selfTest 0, ppn := 0, cls := 3, level := 1, arrived := 0, queued := 0, inBudget := false, retry := 5,
                       assigned := some 1, inRead := false }
def reading : State := { up with med := { up.med with
  reads := [aRead, { aRead with id := 8, retry := 6 }, { aRead with id := 6, retry := 1 }]
  blocks := [(0, { st := .full, role := 0 })] } }
theorem witness_ReadsEndOrAreRetried :
    (readById reading 9 = some aRead ∧ aRead.assigned.isSome = true ∧ isMulti reading aRead.ppn = true ∧ 1 ≤ aRead.retry ∧ aRead.retry < 6) ∧
    (readById reading 6 = some { aRead with id := 6, retry := 1 }) ∧
    (readById reading 8 = some { aRead with id := 8, retry := 6 }) := by decide +kernel

theorem witness_PiecesMoveProgramsAndResetsOn :
    ((programming.med.progs.find? fun q => q.id == 7) = some aProg ∧ aProg.running = true ∧ programming.tck.guard = false ∧
      programming.tck.fixed = true ∧ splitPieces programming = false ∧ aProg.done + 1 < aProg.groups) ∧
    ({ aProg with done := 1 }.groups ≤ { aProg with done := 1 }.done + 1 ∧
      (({ programming with med := { programming.med with progs := [{ aProg with done := 1 }] } } : State).med.progs.find? fun q => q.id == 7) = some { aProg with done := 1 }) ∧
    (∃ r, (programming.med.resets.find? fun q => q.block == 5) = some r ∧ r.running = true ∧ r.strip < 255) ∧
    (∃ r, (({ programming with med := { programming.med with resets := [{ block := 5, owner := 0, rewrite := false, strip := 255, running := true }] } } : State).med.resets.find?
      fun q => q.block == 5) = some r ∧ r.running = true ∧ 255 ≤ r.strip) := by
  refine ⟨by decide +kernel, by decide +kernel, ⟨_, rfl, by decide +kernel⟩, ⟨_, rfl, by decide +kernel⟩⟩

/-- The key stream of the first unit before it is ever written: the ciphertext of zero. -/
def pad0 : LineData := unitPad up 0 0 0
def evicting : State :=
  { up with cch := { up.cch with ways := [(0, { valid := true, lines := [(0, { st := .evicting, ct := 1 ^^^ pad0 })] })] }
            ord := { up.ord with regions := [(0, { limit := 2 ^ 18, bound := 1, enable := true })] } }
theorem witness_TheMediaEngineKeepsItsTimes : (inRun up = true ∧ up.med.ckpt = none) ∧
    (findWay evicting 0 = some 0 ∧ (lineIn (way evicting 0) (lineOf 0)).st = .evicting ∧ (lineIn (way evicting 0) (lineOf 0)).pz = false ∧
      stagingRoom evicting (channelOfBank (bankForWrite evicting 0)) = true) := by decide +kernel
theorem witness_plain_evicting : plain evicting 0 (lineOf 0) ≠ 0 := by
  have h : plain evicting 0 (lineOf 0) = (1 ^^^ pad0) ^^^ pad0 := rfl
  rw [h, BitVec.xor_assoc, BitVec.xor_self, BitVec.xor_zero]
  exact fun e => absurd (congrArg (fun x : LineData => x.getLsbD 0) e) (by simp)

def hot : State := { up with thm := { up.thm with sensors := [(0, { band := 5, hot := true, lost := 2 })], timing := true } }
theorem witness_SensorsAreSampled : (¬ (4 ≤ 0 ∧ 0 ≤ 67) ∧ ¬ (4 ≤ 85 ∧ 85 ≤ 67) ∧ ¬ (4 ≤ 3 ∧ 3 ≤ 67) ∧ ¬ (4 ≤ 68 ∧ 68 ≤ 67) ∧ sensorsRead up = true) ∧
    up.tck.running = true ∧ TablesWf up ∧ (sensor up 84).lost < 2 ∧ (sensor hot 0).lost = 2 := by unfold TablesWf; decide +kernel
theorem witness_BandsRiseAtOnceAndFallLate : (5 : Nat) ≤ 5 ∧ nextBand 5 372 = 4 ∧ nextBand 5 373 = 5 := by decide +kernel
theorem witness_HeatStopsTheModule :
    (let s : State := { hot with glb := { hot.glb with step := 3 } };
      3 ≤ s.glb.step ∧ s.glb.step < 8 ∧ s.glb.failed = false ∧ (sensor s 0).band = 5 ∧ s.plinth.st = 2) ∧
    ((sensor hot 0).hot = true ∧ hot.plinth.st = 2 ∧ hot.glb.memReady = true ∧ hot.thm.timing = true ∧ hot.pwr.drain = 0) ∧
    (((67 : Nat) ≤ 67 ∨ (67 : Nat) = 84) ∧ sensorHere up 67 = true ∧ up.plinth.st ≠ 0) := by decide +kernel

def linked : State := { up with links := [(0, { st := 5 }), (8, { st := 5 })] }
theorem witness_RequestsJoinTheirPort : linkIn linked okMsg.port 5 = true ∧ copMsg.port = .cop 0 ∧ linkIn linked (.cop 0) 5 = true := by decide +kernel
def pair : State := { linked with grp := { linked.grp with size := 2 } }
def farMsg : Msg := { copMsg with gaddr := 0x180000000000 / 64 }
theorem witness_AnswersActAtTheHome :
    (linkIn linked okMsg.port 5 = true ∧ localGranule linked okMsg.gaddr = some 0 ∧ awayHome linked okMsg.gaddr = none) ∧
    (linkIn pair farMsg.port 5 = true ∧ awayHome pair farMsg.gaddr = some 1 ∧ routeFor pair 1 farMsg.gaddr = some 0) := by decide +kernel
theorem witness_ReservedOpcodesAreDiscarded : okMsg.port = .hal 0 ∧ linkIn linked (.hal 0) 5 = true := by decide +kernel

def aReq : Req := { id := 1, src := .hal 0, rq := 0, kind := .rdShared, txid := 0, agent := 3, gaddr := 8, lg := 8, tick := 0 }
def aTxn : Txn := { req := aReq, stage := .queued }
theorem witness_TheHomeFollowsItsTable : (3 : Nat) ≠ 4 ∧ up.dir.readGrantEff ≠ 1 ∧ up.cch.holding = false ∧
    (aTxn.req.agent = 3 ∧ aTxn.snoops = [] ∧ aTxn.req.kind = .rdShared ∧ aTxn.after = .uncached) ∧
    (∀ k, k ∈ [ReqKind.rdShared, .rdOnce] → ∀ c, c ∈ [CacheSt.i, .s, .e, .m] →
      ∃ (t : Txn) (x : Snoop), t.req.agent = 3 ∧ t.snoops = [x] ∧ x.lg = t.req.lg ∧ x.agent = 4 ∧ t.req.kind = k ∧ x.st = c) ∧
    (∀ k, k ∈ [ReqKind.rdUnique, .upgrade, .rdOnce, .write] → ∃ t : Txn, t.req.agent = 3 ∧ t.snoops = [] ∧ t.req.kind = k) := by
  refine ⟨by decide +kernel, by decide +kernel, by decide +kernel, by decide +kernel, fun k _ c _ => ?_, fun k _ => ?_⟩
  · exact ⟨{ aTxn with req := { aReq with kind := k }, snoops := [{ agent := 4, lg := 8, kind := .shared, st := c }] }, _, rfl, rfl, rfl, rfl, rfl, rfl⟩
  · exact ⟨{ aTxn with req := { aReq with kind := k } }, rfl, rfl, rfl⟩

def aFwd : Fwd := { home := 1, port := 8, req := 4, txid := 0, gaddr := 0, agent := 0, src := .hal 0, write := false, cmd := .freeze }
def aGb : GbEnt := { id := 2, buf := 0, rq := 0, lg := 0, gaddr := 0, mask := 1, data := 0, poison := false, device := false, relaxed := false, rsv := 0,
                     drained := false, txid := 0, agent := 0, acked := true, src := .hal 0, reqs := [] }
def ordering : State := { up with dir := { up.dir with fwds := [aFwd] }, ord := { up.ord with gbs := [aGb], fences := [[]] } }
theorem witness_OrderingHasItsTimes : ordering.dir.fwds.find? (noticeFor okMsg) = some aFwd ∧ (aGb ∈ ordering.ord.gbs ∧ aGb.rsv = 0) ∧
    HostReaches up 0x0600010 ∧ ordering.ord.fences ≠ [] := by unfold HostReaches; decide +kernel
theorem witness_TheHostInterfaceIsReset : up.hst.cfgReady = true ∧ up.hst.linkUp = true ∧ up.clk.pcieRef = true ∧
    (({ up with clk := { up.clk with pcieRef := false } } : State).clk.pcieRef = false) ∧ TablesWf up ∧ (63 : Nat) < 64 := by unfold TablesWf; decide +kernel

/-! ### Streams, links and groups -/

def ingress (n : Nat) (p : StmPort) : State := { up with stm := { up.stm with ports := [(n, p)] } }
def fullFifo : State := ingress 7 { inSt := 2, lnkSt := 5, linkUp := true, fifo := List.replicate 16384 (0, 0) }
def oneFree : State := ingress 7 { inSt := 2, lnkSt := 5, linkUp := true, fifo := List.replicate 16383 (0, 0) }
theorem witness_RecordsAreAcceptedOrDiscarded :
    ((7 : Nat) < 8 ∧ (port oneFree 7).linkUp = true ∧ recordTaken oneFree 7 false = true ∧ (port oneFree 7).fifo.length < 16384) ∧
    (recordTaken fullFifo 7 false = true ∧ 16384 ≤ (port fullFifo 7).fifo.length) ∧
    (recordTaken fullFifo 7 true = false ∧ (port fullFifo 7).linkUp = true) ∧ (port up 7).inSt = 0 ∧ (port fullFifo 7).errValid = false := by
  refine ⟨⟨by decide +kernel, rfl, rfl, ?_⟩, ⟨rfl, ?_⟩, ⟨rfl, rfl⟩, rfl, rfl⟩
  · show (List.replicate 16383 ((0 : BitVec 128), 0)).length < 16384; rw [List.length_replicate]; omega
  · show 16384 ≤ (List.replicate 16384 ((0 : BitVec 128), 0)).length; exact Nat.le_of_eq List.length_replicate.symm
def aligning : State := ingress 0 { lnkSt := 2, aligned := true, linkUp := true, enable := true }
theorem witness_LanesAreCheckedAndAligned : ((0 : Nat) < 8 ∧ (port aligning 0).linkUp = true ∧ (port aligning 0).lnkSt = 2 ∧ (port aligning 0).aligned = true) ∧
    (∃ crc : BitVec 32, Config.crc32 (wordBytes (port aligning 0).inCrc) = crc) ∧ (∃ crc : BitVec 32, Config.crc32 (wordBytes (port aligning 0).inCrc) ≠ crc) ∧
    ((port up 0).lnkSt ≠ 2 ∧ (0xA4 : Byte) ≠ 0xA5) :=
  ⟨by decide +kernel, ⟨_, rfl⟩, ⟨Config.crc32 (wordBytes (port aligning 0).inCrc) + 1, by bv_omega⟩, by decide +kernel⟩
def popping : State := ingress 0 { fifo := [(0, 0)], stopHold := true }
theorem witness_StopFollowsItsCondition : (port up 0).stopHold = false ∧ ((port popping 0).stopHold = true ∧ (port popping 0).fifo ≠ []) ∧
    (7 ≤ recOp (7 <<< 112) ∧ recAddr (1 <<< 64) % 8 ≠ 0 ∧ recOp 0 = 0 ∧ recAddr 0 % 8 = 0) := by decide +kernel
def playing : State := ingress 0 { egSt := 2, egFifo := [.data 5] }
theorem witness_PlaybackSendsItsWords : ((0 : Nat) < 8 ∧ (port playing 0).egSt = 2 ∧ (port playing 0).egSent ≠ some playing.tck.course ∧
    playing.tck.running = true ∧ clocked playing 12 = true) ∧ (port playing 0).egSt ≠ 0 ∧ (port playing 0).egFifo = .data 5 :: [] ∧
    (port up 0).egFifo = [] := by decide +kernel
theorem witness_StreamWritesAct : HostReaches up (offStream 7 + 0x100) ∧ HostReaches up (offStream 7) ∧ (port up 7).egSt = 0 ∧
    ((port playing 0).egSt ≠ 0 ∧ 0 / 16 = (port playing 0).cur) ∧ HostReaches up (offStream 7 + (0x200 + 0x100 * 1 + 0x10 * 15)) ∧
    HostReaches up (offStream 7 + (0x200 + 0x100 * 1 + 0x10 * 15 + 8)) := by unfold HostReaches; decide +kernel
theorem witness_FlitsAreTakenInSequence : portHere (.cop 3) = true ∧
    ((link linked 0).closing = false ∧ (link linked 0).st = 5 ∧ bits (BitVec.toNat (1 <<< 126 : BitVec 2048)) 126 2 ≠ 0) ∧
    bits (BitVec.toNat (3 <<< 114 : BitVec 2048)) 114 12 ≠ (link linked 0).rxSeq ∧
    (linkIn { linked with links := [(0, { st := 5, waiting := true })] } (.hal 0) 5 = true ∧
      (link { linked with links := [(0, { st := 5, waiting := true })] } 0).waiting = true) ∧
    (knownLtype (.hal 0) 2 = false ∧ knownLtype (.cop 0) 0x18 = false) := by decide +kernel
def training (k : Lnk) : State := { up with links := [(0, k), (8, k)] }
theorem witness_TrainingHasItsTimes : portHere (.hal 7) = true ∧
    ((link (training { st := 1 }) 0).st = 1 ∧ (link (training { st := 2 }) 0).st = 2 ∧ (link (training { st := 3 }) 0).st = 3 ∧
      (link (training { st := 5 }) 0).st = 5 ∧ (link up 0).st = 0) ∧
    (linkIn (training { st := 1, failed := true }) (.hal 0) 1 = true ∧ (link (training { st := 1, failed := true }) 0).failed = true) ∧
    (linkIn (training { st := 1 }) (.hal 0) 1 = true ∧ (link (training { st := 1 }) 0).failed = false) ∧
    (1 ≤ (link (training { st := 4 }) 8).st ∧ (link (training { st := 4 }) 8).st ≤ 4) ∧
    ((link (training { stretch := true }) 0).stretch = true ∧ up.glb.memReady = true ∧ up.plinth.st = 2 ∧ up.pwr.drain = 0) := by decide +kernel
def anOffer : KeyOffer := { grp := 1, epoch := 3, nonce := 0, idKey := 0, ecdhKey := 0 }
theorem witness_LinksCompleteTheirTraining : ((3 : Nat) < 4 ∧ readSet 0 = none) ∧
    ((link (training { st := 4, agree := 8 }) 0).st = 4 ∧ (link (training { st := 4, agree := 8 }) 0).agree = 8 ∧
      (link (training { st := 4, agree := 8 }) 0).credInit = false ∧ 16 ≤ 16) ∧
    ((link (training { st := 4, credInit := true }) 8).st = 4 ∧ (link (training { st := 4, credInit := true }) 8).credInit = true ∧
      (link (training { st := 4, credInit := true }) 8).keyStage = 0 ∧ keyHash anOffer.idKey ∉ (training { st := 4, credInit := true }).glb.groupKeys) ∧
    ((link (training { st := 4, keyStage := 2, peerOffer := some anOffer }) 8).keyStage = 2 ∧
      ((link (training { st := 4, keyStage := 2, peerOffer := some anOffer }) 8).peerOffer.map (·.epoch)) = some 3) ∧
    inOperation (link up 0) = false :=
  ⟨by decide +kernel, by decide +kernel, ⟨by decide +kernel, by decide +kernel, by decide +kernel, List.not_mem_nil⟩, by decide +kernel, by decide +kernel⟩
theorem witness_PortWritesAct : (portHere (.cop 3) = true ∧ HostReaches up (offLink (.cop 3)) ∧ HostReaches up (offLink (.hal 7))) ∧
    (link (training { enable := true }) 0).enable = true ∧ (link up 0).st ≠ 5 ∧
    ((link linked 0).st = 5 ∧ ((link linked 0).recovs.filter fun t => decide (linked.now < t + sec)).length < 2) ∧ TablesWf linked := by
  unfold HostReaches TablesWf; decide +kernel
theorem witness_GroupMessagesAct : (linkIn pair (.cop 0) 5 = true ∧ 1 < pair.grp.size ∧ 1 ≠ pair.grp.id) ∧ (4 ≠ pair.grp.size ∧ (3 : Nat) < 4) := by decide +kernel
theorem witness_TheGroupKeepsItsTimes : up.glb.memReady = true ∧ up.grp.size = 1 ∧ (pair.grp.formed = false ∧ pair.grp.size ≠ 1) ∧
    (pair.tck.running = true ∧ pair.tck.count % 4096 = 0 ∧ 1 < pair.grp.size ∧ pair.grp.leader = pair.grp.id) ∧
    (∃ g, (({ up with tck := { up.tck with groupHoists := [{ tag := 6, cmd := okCmd, id := 1, accepted := 0, replied := 0 }] } } : State).tck.groupHoists.find?
      fun g => g.tag == 6) = some g) ∧ ((1 : BitVec 8) ≠ 0 ∧ HostReaches up 0x0800018) := by
  unfold HostReaches; exact ⟨by decide +kernel, by decide +kernel, by decide +kernel, by decide +kernel, ⟨_, rfl⟩, by decide +kernel⟩

/-! ### Host interface, commands and the cipher engine -/

def hostDown : State := { up with hst := { up.hst with ready := false } }
theorem witness_Bar0AcceptsAlignedAccesses : hostUp up = true ∧ 0x58 % 8 = 0 ∧ 0x5C % 4 = 0 ∧ ((2 : Nat) ≠ 4 ∧ (2 : Nat) ≠ 8) ∧ 0x5C % 8 ≠ 0 ∧
    State.reset.hst.cfgReady = false ∧ up.hst.cfgReady = true ∧ up.hst.ready = true ∧ (hostUp hostDown = true ∧ hostDown.hst.ready = false) := by
  decide +kernel
theorem witness_ExpertWritesNeedExpertControl :
    (isExpert (0x0400018 / 8 * 8) = true ∧ ({ up with glb := { up.glb with expertEn := false } } : State).glb.expertEn = false) ∧
    (isExpert 0x0E00080 = true ∧ up.glb.expertEn = true ∧ served up 0x0E00080 = true ∧ gatedOff up 0x0E00080 = false) ∧
    HostReaches { up with glb := { up.glb with expertEn := false } } 0x0000040 ∧ HostReaches up 0x0000040 ∧ TablesWf up := by
  unfold HostReaches TablesWf; decide +kernel
def failedStart : State := { up with glb := { up.glb with failed := true } }
def gated : State := { up with clk := { up.clk with gateSt := 0 } }
theorem witness_LockedAndUnservedWritesDoNothing :
    (0x0601000 / 2 ^ 20 = 6 ∧ isExpert (0x0601000 / 8 * 8) = false ∧ gatedOff up 0x0601000 = false) ∧
    (0x0A7FFF8 / 2 ^ 20 = 0xA ∧ 0x0A7FFF8 % 2 ^ 20 < 0x80000 ∧ isExpert (0x0A7FFF8 / 8 * 8) = false ∧ gatedOff up 0x0A7FFF8 = false) ∧
    (served gated 0x0A80000 = true ∧ gatedOff gated 0x0A80000 = true) ∧
    (failedStart.glb.failed = true ∧ failedStart.flash.lc ≠ 4 ∧ 0x0100000 / 2 ^ 20 ∉ [0, 0xB, 0xD, 0x10, 0x11]) := by decide +kernel
def open64 : State :=
  { up with ord := { up.ord with regions := [(0, { limit := 0, enable := true, rights := BitVec.allOnes 26 })] } }
theorem witness_Bar2RequestsAreCheckedWhole : hostUp up = true ∧ hostCause hostDown 0 4 false true = some 3 ∧
    hostCause open64 0 4 false true = none ∧ [(1 : Byte)] ≠ [] ∧ up.hst.errValid = false ∧
    ({ up with hst := { up.hst with errValid := true } } : State).hst.errValid = true := by decide +kernel
theorem witness_Bar4ReadsWhatWasWritten : hostUp up = true ∧ 2 ^ 22 - 4 + [(1 : Byte), 2, 3, 4].length ≤ 2 ^ 22 ∧ up.hst.ready = true ∧
    (hostUp hostDown = true ∧ hostDown.hst.ready = false) ∧ Memory.wf 0 up.hst.scratch = true := by decide +kernel
def attached : State := { up with dap := true }
theorem witness_TheDebugPortIsLimited : debugOn attached = true ∧ 2 ≤ ({ up with flash := { up.flash with lc := 2 } } : State).flash.lc ∧
    0x0F00000 / 2 ^ 20 ∉ [0, 0x10, 0xA] ∧ up.plinth.st ≠ 0 ∧ clocked up 23 = true ∧
    ({ up with glb := { up.glb with step := 5 } } : State).glb.step < 6 := by decide +kernel
def withQueue (q : Nat) (h : HQueue) : State := { up with hst := { up.hst with queues := [(q, h)] } }
def ring : State := withQueue 63 { enable := true, sqSize := 8, cqSize := 8, cqTail := 5, cqHead := 7 }
theorem witness_DoorbellsMoveTheRings : HostReaches ring (0x0920000 + 0x10 * 63) ∧ HostReaches ring (0x0920000 + 0x10 * 63 + 8) ∧
    ((queue ring 63).enable = true ∧ 8 ≤ (queue ring 63).sqSize ∧ (queue ring 63).sqSize < 9 ∧ (queue ring 63).error = false) ∧
    (let h := queue ring 63;
      (5 ≤ h.cqSize ∧ (5 + 9 - h.cqHead) % 9 ≤ (h.cqTail + 9 - h.cqHead) % 9) ∧ (h.cqTail + 9 - h.cqHead) % 9 < (6 + 9 - h.cqHead) % 9 ∧ h.cqSize < 9) ∧
    (queue up 63).enable = false ∧ ((0 : Nat) = (queue ring 63).sqTail ∧ TablesWf ring) := by unfold HostReaches TablesWf; decide +kernel
def fetching : State := withQueue 63 { enable := true, sqSize := 8, cqSize := 8, sqTail := 1 }
theorem witness_QueuesTakeTheirEntries : HostReaches up (0x0910010 + 0x20 * 63) ∧ (queue up 63).enable = false ∧
    (TablesWf ring ∧ (queue ring 63).enable = true) ∧ nextQueue fetching = some 63 ∧
    (queue (withQueue 5 { gap := true }) 5).gap = true ∧ (queue (withQueue 5 { gap := true }) 5).gapPend = false ∧
    (queue (withQueue 5 { gap := true, gapPend := true }) 5).gapPend = true := by unfold HostReaches TablesWf; decide +kernel
def muted : State := withQueue 0 { enable := true, sqSize := 1, cqSize := 1, cqHead := 1, started := [okCmd], mute := [{ okCmd with q := 64 }] }
def roomy : State := withQueue 0 { enable := true, sqSize := 1, cqSize := 1 }
theorem witness_CommandsEndWithOneEntry : (TablesWf muted ∧ 64 ≤ ({ okCmd with q := 64 } : Cmd).q ∧ ({ okCmd with q := 64 } : Cmd) ∈ (queue muted 0).mute) ∧
    (okCmd.q < 64 ∧ (queue muted 0).enable = true ∧ pastCommit muted = false ∧ (queue muted 0).dones = [] ∧ cqRoom (queue muted 0) = false) ∧
    ((queue roomy 0).enable = true ∧ pastCommit roomy = false ∧ (queue roomy 0).dones = [] ∧ (queue roomy 0).fenced = none ∧
      cqRoom (queue roomy 0) = true ∧ roomy.hst.linkUp = true) := by
  unfold TablesWf; decide +kernel
def ready (i : Instr) : State := withQueue 0 { enable := true, sqSize := 8, cqSize := 8, fetched := [i] }
theorem witness_ShortCommandsStart : Starts (ready (.nop okCmd)) okCmd (.nop okCmd) ∧ Starts (ready (.snapshot okCmd)) okCmd (.snapshot okCmd) ∧
    Starts (ready (.hoistSubmit okCmd 0)) okCmd (.hoistSubmit okCmd 0) ∧ Starts (ready (.hoistCancel okCmd 1)) okCmd (.hoistCancel okCmd 1) ∧
    (∀ i ∈ [Instr.attestCert okCmd 0, .attestIdentity okCmd 0, .attestConfig okCmd 0, .attestGroup okCmd 0],
      i ∈ (queue (ready i) 0).fetched ∧ canStart (ready i) okCmd i = true) ∧
    ({ up with hst := { up.hst with attests := [(okCmd, 0, 0)] } } : State).hst.attests = (okCmd, 0, 0) :: [] := by
  unfold Starts; decide +kernel
theorem witness_DataCommandsStart :
    (∀ i ∈ [Instr.cachePreload okCmd 0 16384 true, .cacheUnlock okCmd 0 16384, .cacheMaintClean okCmd 0 512, .cacheMaintFlush okCmd 0 512,
        .cacheMaintInvalidate okCmd 0 512, .cacheMaintSetClean okCmd 0 0 1, .cacheMaintSetFlush okCmd 0 0 1, .cacheMaintSetInvalidate okCmd 0 0 1,
        .copy okCmd 0 64 64 15 false, .sealedImport okCmd 0 512 512 0 15],
      i ∈ (queue (ready i) 0).fetched ∧ canStart (ready i) okCmd i = true ∧ inStop (ready i) = false ∧ (ready i).pwr.runSt ≠ 1) ∧
    HostReaches up (0x0900100 + 0x10 * 15) := by unfold HostReaches; decide +kernel
def entering : State := { up with pwr := { up.pwr with runSt := 1, entry := 5 } }
theorem witness_ModuleCommandsStart :
    (∀ i ∈ [Instr.lifecycleOwned okCmd 0 304, .lifecycleSealed okCmd 0 304, .lifecycleReturn okCmd 0 304, .lifecycleEnd okCmd 0 304, .selfTest okCmd 1 0,
        .stop okCmd, .run okCmd],
      i ∈ (queue (ready i) 0).fetched ∧ canStart (ready i) okCmd i = true ∧ inStop (ready i) = false ∧ (ready i).pwr.runSt ≠ 1) ∧
    (entering.pwr.entry = 5 ∧ entering.hst.runs = []) ∧ (lcCheck up 2 0 304).1 ≠ 0 ∧ (up.pwr.runSt = 0 ∧ up.pwr.entry = 0) := by decide +kernel

def owned : State := { up with cph := { up.cph with holder := 1, ticket := 9, slots := [(1, (1, 7))] } }
theorem witness_TheCipherLockHasOneUser : up.cph.holder = 0 ∧ (owned.cph.holder ≠ 0 ∧ (1 : Nat) ≠ 0 ∧ owned.cph.holder = 1) ∧
    (owned.cph.holder ≠ 2 ∨ owned.cph.ticket ≠ 9) ∧ (owned.cph.holder ≠ 1 ∨ owned.cph.ticket ≠ 8) := by decide +kernel
theorem witness_CipherCommandsReachTheEngine : (hostUp up = true ∧ served up 0x0A80000 = true ∧ clocked up 20 = true) ∧ debugOn attached = true ∧
    HostReaches up 0x0A80008 ∧ HostReaches up 0x0A80010 ∧ (15 : Nat) < 16 ∧ up.cph.imp = none ∧
    (owned.cph.holder ≠ 0 ∧ owned.cph.run = none ∧ owned.cph.imp = none) := by unfold HostReaches; decide +kernel
def anOp (op : Nat) : CphOp := { op, keySlot := 1, subj := 0, cls := 1, nonce := 0, aad := [], text := [], iv := 0, tag := 0 }
def anImport : Import := { cmd := okCmd, src := 0, dst := 0, len := 512, iv := 0, slot := 1, phase := 2 }
theorem witness_CipherOperationsEnd :
    (let s : State := { owned with cph := { owned.cph with run := some (anOp 1) }, flash := { owned.flash with nonceReserved := 1 } };
      s.cph.run = some (anOp 1) ∧ (anOp 1).nonce < s.flash.nonceReserved ∧ (anOp 1).op = 1) ∧ (anOp 2).op ≠ 1 ∧
    (({ up with cph := { up.cph with imp := some anImport } } : State).cph.imp = some anImport ∧ anImport.phase = 2 ∧ up.cph.run = none) ∧
    (∃ r : CphOp, r.op = 2 ∧ (Config.gcmOpen (slotKey up r.keySlot) r.iv r.aad r.text).2 ≠ r.tag) ∧
    (owned.cph.holder = 1 ∧ owned.cph.ticket = 9 ∧ owned.cph.run = none ∧ cphCause owned 1 5 0 1 = 0) ∧ cphCause owned 1 1 2 0 ≠ 0 := by
  refine ⟨by decide +kernel, by decide +kernel, by decide +kernel, ⟨{ anOp 2 with tag := (Config.gcmOpen (slotKey up 1) 0 [] []).2 + 1 }, rfl, ?_⟩,
    by decide +kernel, by decide +kernel⟩
  exact Nat.ne_of_lt (Nat.lt_succ_self _)

/-! ### Start-up, supply and power -/

def off : State := { up with glb := {}, plinth := { st := 0, onReq := true, autoRe := true } }
def rising (r : Nat) : State := { up with glb := { step := 1 }, plinth := { st := 1, rails := [(r, (1, 0))] } }
theorem witness_TheStartSequenceRuns : (off.plinth.st = 0 ∧ off.plinth.latched = false ∧ off.plinth.onReq = true ∧ restartMv off ≤ 5900) ∧
    (railSt (rising 22) 22 = 1 ∧ railInWindow 22 5000 = true ∧ (rising 22).plinth.st = 1) ∧
    (railSt (rising 23) 23 = 1 ∧ railInWindow 23 4700 = true ∧ railInWindow 23 5300 = true ∧ (rising 23).plinth.latchClr = false) ∧
    (({} : State).glb.step = 2 ∧ ({} : State).plinth.st = 2 ∧ ({} : State).glb.failed = false) ∧
    (off.plinth.alive = true ∧ off.plinth.autoRe = true ∧ off.plinth.down = false) ∧
    ({ off with plinth := { off.plinth with latched := true } } : State).plinth.latched = true := by decide +kernel
def almost : State := { up with glb := { step := 12, charged := true } }
theorem witness_MemoryBecomesReady : (2 ≤ ({} : State).glb.step ∧ ({} : State).glb.charged = false ∧ ({} : State).plinth.st = 2) ∧
    (almost.glb.step = 12 ∧ almost.glb.charged = true ∧ almost.glb.failed = false ∧ almost.plinth.tapHold = false ∧ almost.glb.memReady = false ∧
      (almost.flash.appends.any fun a => a.part == 2 && a.r.key == 1) = false) := by decide +kernel
def shutting (n : Nat) (drain : Bool) : State := { up with plinth := { up.plinth with st := n }, ord := { up.ord with draining := drain } }
theorem witness_TheShutdownRunsItsSteps : (up.plinth.alive = true ∧ up.plinth.down = false ∧ 5599 < up.pwr.trip * 50 ∧ up.plinth.swOpen = false ∧ 46000 < 46001) ∧
    ({ up with pwr := { up.pwr with dropPct := 10 } } : State).pwr.dropPct ≠ 0 ∧ (up.plinth.st = 2 ∧ up.glb.memReady = true ∧ up.pwr.drain = 0) ∧
    ((shutting 3 false).plinth.st = 3 ∧ (shutting 3 false).ord.draining = false) ∧ ((shutting 3 true).plinth.st = 3 ∧ (shutting 3 true).ord.draining = true) ∧
    ((shutting 5 true).plinth.st = 5 ∧ (shutting 5 true).plinth.cause = 0) ∧ ((shutting 4 true).plinth.st = 4 ∧ (shutting 4 true).plinth.down = false) ∧
    (({ up with plinth := { up.plinth with swOpen := true } } : State).plinth.swOpen = true ∧ 43999 < 44000) := by decide +kernel
def limiting (n : Nat) : State := { up with pwr := { up.pwr with inputLimit := true, limitCourses := n } }
def lowering : State := { up with plinth := { up.plinth with st := 7, cause := 6, rails := [(0, (2, 12000)), (1, (2, 3300)), (2, (0, 0))] } }
theorem witness_TheSupplyIsWatched : (up.plinth.alive = true ∧ up.plinth.high = false ∧ 40000 < 40001 ∧ controllerUp up = true) ∧
    ({ up with plinth := { up.plinth with high := true } } : State).plinth.high = true ∧
    ((limiting 64).pwr.inputLimit = true ∧ 64 ≤ (limiting 64).pwr.limitCourses) ∧ (limiting 63).pwr.limitCourses < 64 ∧
    (railSt up 15 = 2 ∧ railInWindow 15 1167 = false ∧ up.glb.memReady = true ∧ up.plinth.st = 2) ∧ (24 ≤ 255) ∧
    (let s : State := { lowering with plinth := { lowering.plinth with rails := (upto 24).map fun r => (r, if r < 2 then (2, 1) else (0, 0)) } };
      s.plinth.st = 7 ∧ topRail s = some 1 ∧ railHeld s 1 = false ∧ (topRail (setRail 1 0 0 s)).isSome = true ∧ topRail s ≠ some 0) := by decide +kernel
theorem witness_TheLimitFollowsTheBank :
    (let s : State := { up with flash := { up.flash with opSeconds := 24 * 3600 } };
      s.glb.memReady = true ∧ s.plinth.st = 2 ∧ s.pwr.measuring = false ∧ 24 ≤ hoursSince s) ∧
    ({ up with pwr := { up.pwr with measuring := true } } : State).pwr.measuring = true ∧ up.glb.charged = true ∧
    (derivedLimit 600 4500 < 8388608 ∧ 150000000000 ≤ 36 * 600 * (4500 * 4500 - 2560000)) := by decide +kernel
theorem witness_RequestsAndResetsAct :
    (let s : State := { up with plinth := { up.plinth with st := 0, latched := true } };
      s.plinth.alive = true ∧ s.plinth.latched = true ∧ s.plinth.hotComps = [] ∧ s.plinth.st = 0) ∧
    (up.plinth.alive = true ∧ up.plinth.latched = false ∧ up.glb.failed = false ∧ up.plinth.st = 2 ∧ up.glb.memReady = true ∧ up.pwr.drain = 0) ∧
    ({ up with pwr := { up.pwr with drain := 1 } } : State).pwr.drain ≠ 0 ∧ HostReaches up 0x0000050 ∧ (HostReaches failedStart 0x0000050 ∧ failedStart.glb.failed = true) ∧
    (let s : State := { up with pwr := { up.pwr with drain := 1, drainSt := 5 } }; s.pwr.drainSt = 5 ∧ s.pwr.drain = 1) := by
  unfold HostReaches; decide +kernel
def tree : State := { up with clk := { up.clk with tree := true } }
theorem witness_ClockGatingFollowsItsTree : HostReaches up 0x0C00010 ∧ up.clk.tree = false ∧ (tree.clk.tree = true ∧ tree.clk.gate.getLsbD 23 = true ∧
      (0 : BitVec 27).getLsbD 23 = false) ∧
    (let s : State := { tree with clk := { tree.clk with gate := 0 } }; s.clk.gate.getLsbD 23 = false ∧ (BitVec.allOnes 27).getLsbD 23 = true) ∧
    ((24 : Nat) ≤ 26 ∧ 26 < 27) := by unfold HostReaches; decide +kernel

/-! ### Errors, the cornerstone flash and the observers -/

def aTest : STest := { mem := 1, loc := 5, cmd := none, after := true }
def testing (l : List STest) : State := { up with err := { up.err with tests := l } }
def busyWay : State := { testing [] with cch := { up.cch with ways := [(5, { valid := true, retiring := true })] } }
theorem witness_ErrorsAreTestedAndScrubbed :
    (testOf (testing [aTest]) 1 5 = some aTest ∧ aTest.running = false ∧ aTest.tries = 0) ∧
    (testOf (testing [{ aTest with tries := 1 }]) 1 5 = some { aTest with tries := 1 }) ∧ testBusy busyWay 1 5 = true ∧
    (testOf (testing [{ aTest with running := true }]) 1 5 = some { aTest with running := true } ∧ (1 : Nat) ≠ 7) ∧
    (let t : STest := { mem := 7, loc := 5, cmd := none, after := true, running := true, senses := 3 }; testOf (testing [t]) 7 5 = some t ∧ 3 ≤ t.senses) ∧
    (up.glb.memReady = true ∧ up.pwr.runSt ≠ 2 ∧ testLocOk up 6 (4 * 2 ^ 20 - 64) = true) ∧ (aTest.mem, aTest.loc) ∉ up.err.errLocs := by decide +kernel
def anAppend (n : Nat) : Append :=
  { part := 4, r := { seq := 1, key := 3, payload := [], sgen := 1, slot := 0, dev0 := false, dev1 := false }, phase := n }
theorem witness_TheFlashTakesRecordsAndImages :
    (let s : State := { up with flash := { up.flash with appends := [anAppend 0] } };
      (s.flash.appends.find? fun a => a.part == 4) = some (anAppend 0) ∧ (anAppend 0).phase = 0 ∧ s.flash.ok1 = true) ∧
    (let s : State := { up with flash := { up.flash with appends := [anAppend 1] } };
      (s.flash.appends.find? fun a => a.part == 4) = some (anAppend 1) ∧ (anAppend 1).phase = 1) ∧
    (up.plinth.st ≠ 0 ∧ (67 : Nat) ≠ 66 ∧ 3 ≤ up.glb.step) ∧ (HostReaches up 0x1100040 ∧ up.ldg.busy = false ∧ up.ldg.offset % 256 = 0) ∧
    (let s : State := { up with glb := { up.glb with imageApplied := true, slot := 1 } }; s.glb.imageApplied = true ∧ s.glb.slot = 1 ∧ s.glb.slot ≠ 0) ∧
    (up.glb.imageApplied = false ∧ (4 * 2 ^ 20 - 256) % 256 = 0 ∧ 4 * 2 ^ 20 - 256 < 4 * 2 ^ 20) ∧
    (let s : State := { up with ldg := { up.ldg with busy := true, op := 2, opSlot := 1 } }; s.ldg.busy = true ∧ s.ldg.opSlot ≠ 0 ∧ s.ldg.op = 2) ∧
    (let s : State := { up with ldg := { up.ldg with busy := true, op := 1 } }; s.ldg.busy = true ∧ s.ldg.opSlot = 0 ∧ s.ldg.op = 1) := by
  unfold HostReaches; decide +kernel
def full : State := { up with pmc := { up.pmc with units := [(0x57, { pc := [(7, 2 ^ 32 - 1)] })] } }
theorem witness_CountersFreezeClearAndCarry : HostReaches up 0x0F00000 ∧ ({ up with pmc := { up.pmc with freeze := true } } : State).pmc.freeze = true ∧
    Table.wf {} full.pmc.units = true ∧ (isCounterUnit 0x57 = true ∧ HostReaches full (0x0F01008 + 0x100 * 0x57)) ∧ (1 : Nat) ≠ 0x57 ∧
    (pmcStopped full = false ∧ chained (pmcUnit full 0x57) 7 = false ∧ tget 0 (pmcUnit full 0x57).pc 7 = 2 ^ 32 - 1) := by
  unfold HostReaches; decide +kernel
def anEvent : EvRec := { seq := 0, cycles := 0, opSec := 0, code := 0x0101, source := 1, severity := 2, suppressed := 0, operand := 0, tick := 0 }
theorem witness_EventsAreRecordedOrSuppressed :
    (let s : State := { up with evr := { up.evr with buckets := [(0x0101, { supp := 1, lastEv := some anEvent })] } };
      (bucket s 0x0101).lastEv = some anEvent ∧ s.evr.waiting.length < 4096) ∧ severity 0x0903 = 4 ∧ severity 0x0101 ≠ 4 ∧
    (token ≤ (refill up.now (bucket up 0x0101)).level ∧ token ≤ (refill up.now up.evr.all).level) := by decide +kernel
theorem witness_full_store : 4096 ≤ ({ up with evr := { up.evr with waiting := List.replicate 4096 anEvent } } : State).evr.waiting.length := by
  show 4096 ≤ (List.replicate 4096 anEvent).length
  exact Nat.le_of_eq List.length_replicate.symm
theorem witness_TheSideBandAnswers : up.plinth.alive = true ∧ off.plinth.st = 0 ∧ up.plinth.st ≠ 0 ∧
    alert { up with err := { up.err with status := 1 } } = true ∧ smbusBad 0x0A 0 = true ∧ smbusBad 0x10 0x5B = true ∧
    (let s : State := { up with plinth := { up.plinth with latched := true, hotComps := [84] } }; s.plinth.latched = true ∧ s.plinth.hotComps ≠ []) ∧
    up.plinth.latched = false := by decide +kernel
theorem witness_no_alert : alert { up with cch := { up.cch with limit := 524288 } } = false := by decide +kernel

/-! ## Witnesses of the clauses for the other forms: where a command waits, is refused or has no effect -/

def returning : State := { up with tck := { up.tck with returning := true } }
theorem witness2_CoursesStartAndAreCounted :
    (returning.tck.running = true ∧ returning.tck.source ≠ 1 ∧ returning.tck.returning = true ∧ 95 * periodPs returning ≤ 100 * 1900000 ∧
      100 * 3900000 ≤ 195 * periodPs returning) ∧ State.reset.tck.running = false ∧ ownCourses flying = true ∧
    (ownCourses up = false ∧ up.tck.returning = false ∧ 105 * periodPs up < 100 * 2100001) ∧ flying.tck.returning = false := by decide +kernel
theorem witness2_LevelsFallAndProgramsAreAbandoned :
    (tget {} ({ up with tck := { up.tck with esc := [(escKey 1 3, { level := 2, below := 63, high := 1 })] } } : State).tck.esc (escKey 1 3)).below < 64 ∧
    0 < (tget {} ({ up with tck := { up.tck with esc := [(escKey 1 3, { level := 2, below := 64, high := 1 })] } } : State).tck.esc (escKey 1 3)).high ∧
    ({ programming with tck := { programming.tck with course := 255 } } : State).tck.course < 0 + 256 := by decide +kernel
def filling : State := { up with
  med := { up.med with reads := [{ aRead with why := .fill 0 }, { aRead with id := 8, assigned := none }] }
  medium := { up.medium with pages := [(0, some aPage)] }
  cch := { up.cch with ways := [(0, { valid := true, lines := [(0, { st := .filling })] })] } }
theorem witness2_ReadsEndOrAreRetried :
    (readById filling 9 = some { aRead with why := .fill 0 } ∧ (∀ l, RdWhy.fill 0 ≠ .selfTest l) ∧ mediumPage filling 0 = some aPage ∧
      findWay filling 0 = some 0) ∧ (isMulti up 0 = false ∧ up.err.logValid = false) ∧
    (((readById filling 8).all fun r => r.assigned.isNone) = true ∧ ((readById up 8).all fun r => r.assigned.isNone) = true) := by
  refine ⟨⟨by decide +kernel, (fun l h => RdWhy.noConfusion h), by decide +kernel, by decide +kernel⟩, by decide +kernel, by decide +kernel⟩
def splitting : State := { programming with tck := { programming.tck with code := 3 } }
theorem witness2_PiecesMoveProgramsAndResetsOn : (splitPieces splitting = true ∧ aProg.half = false) ∧ splitPieces { splitting with tck := { splitting.tck with code := 4 } } = false ∧
    (blk { programming with med := { programming.med with blocks := [(0, { st := .opened })] } } (blockOfPpn 0)).st = .opened ∧
    (∀ r n, aProg.kind ≠ .copy r n) := ⟨by decide +kernel, by decide +kernel, by decide +kernel, fun _ _ h => nomatch h⟩
def poisoned : State := { evicting with cch := { evicting.cch with ways := [(0, { valid := true, lines := [(0, { st := .evicting, pz := true })] })] } }
def zeroLine : State := { evicting with cch := { evicting.cch with ways := [(0, { valid := true, lines := [(0, { st := .evicting, ct := pad0 })] })] } }
theorem witness2_TheMediaEngineKeepsItsTimes : ({ up with med := { up.med with ckpt := some { gen := 0, maps := [], why := 0 } } } : State).med.ckpt.isSome = true ∧
    ((lineIn (way evicting 0) (lineOf 0)).tagOk = true ∧ 0 ∉ evicting.sec.badMeta) ∧
    journalRoom zeroLine = true ∧ (findWay poisoned 0 = some 0 ∧ (lineIn (way poisoned 0) (lineOf 0)).pz = true) := by
  decide +kernel
theorem witness_plain_zero : plain zeroLine 0 (lineOf 0) = 0 := by
  have h : plain zeroLine 0 (lineOf 0) = pad0 ^^^ pad0 := rfl
  rw [h, BitVec.xor_self]; rfl
theorem witness2_SensorsAreSampled : sensorsRead up = true ∧ ({ up with tck := { up.tck with running := false } } : State).tck.running = false ∧
    (-160 : Int) ≤ 600 := by decide +kernel
theorem witness2_HeatStopsTheModule : (sensor up 0).hot = false ∧ (67 < 68 ∧ 68 ≠ 84) ∧ sensorHere up 86 = false ∧
    ({ up with plinth := { up.plinth with st := 0 } } : State).plinth.st = 0 := by decide +kernel


def crowded : State := { linked with dir := { linked.dir with held := List.replicate 512 { id := 1, src := .hal 0, cmd := .freeze, tick := 0 } } }
def atomicMsg : Instr := .atomic copMsg .swap 0 0 0
theorem witness2_RequestsJoinTheirPort :
    (∀ c ∈ [Instr.rdShared okMsg, .rdUnique okMsg, .upgrade okMsg, .rdOnce okMsg, .wrNc okMsg 1 0 false, .orderBarrier okMsg 0, .complBarrier okMsg 0],
      overCredit linked okMsg c = false) ∧ overCredit linked copMsg atomicMsg = false ∧ overCredit linked copMsg (.accum copMsg [{ kind := .none }]) = false ∧
    overCredit crowded okMsg (.rdShared okMsg) = true ∧ linkIn up okMsg.port 5 = false := by decide +kernel
def dirtyWb : Instr := .wbDirty okMsg 0 false
def ownedBy : State := { linked with dir := { linked.dir with ents := [(dirSet 0 * 16, some { tag := dirTag 0, st := .owned 0, busy := false })] } }
def snooping : State := { linked with dir := { linked.dir with txns :=
  [{ req := { aReq with agent := 1, lg := 0, gaddr := 0 }, stage := .snooping, slot := some 1023, after := .shared [0], snoops := [{ agent := 0, lg := 0, kind := .shared }] }] } }
def acking : State := { linked with dir := { linked.dir with txns := [{ req := { aReq with agent := 0, lg := 0, gaddr := 0 }, stage := .ack, slot := some 1023 }] } }
def met : State := { pair with grp := { pair.grp with present := 3 } }
def farHal : Msg := { farMsg with port := .hal 0 }
theorem witness2_AnswersActAtTheHome :
    (∀ c ∈ [dirtyWb, .evictClean okMsg .s, .ack okMsg 1023, .snpResp okMsg 1023 .i false, .snpData okMsg 1023 .i 0 false], overCredit linked okMsg c = false) ∧
    (recordedState ownedBy 0 = .owned (agentOf ownedBy okMsg)) ∧ (openSnoop linked (agentOf linked okMsg) 0 = none ∧
      recordedState linked 0 ≠ .owned (agentOf linked okMsg)) ∧ (openSnoop snooping (agentOf snooping okMsg) 0).isSome = true ∧
    (openSnoop acking (agentOf acking okMsg) 0 = none ∧ (acking.dir.txns.find? fun y => y.busy && y.req.lg == 0).isSome = true) ∧
    (acking.dir.txns.find? fun y => y.slot == some 1023 && y.stage == .ack && y.req.agent == agentOf acking okMsg).isSome = true ∧
    (snooping.dir.txns.find? fun y => y.slot == some 1023 && y.snoops.any fun z => z.agent == agentOf snooping okMsg && z.lg == 0 && !z.resp).isSome = true ∧
    (unreachable met 1 = false ∧ overCredit met farMsg (.wbDirty farMsg 0 false) = false ∧ overCredit met farHal (.evictClean farHal .s) = false ∧
      linkIn met farHal.port 5 = true ∧ awayHome met farHal.gaddr = some 1 ∧ routeFor met 1 farHal.gaddr = some 0 ∧
      overCredit met farMsg (.ack farMsg 0) = false ∧ overCredit met farMsg (.snpResp farMsg 0 .i false) = false ∧
      overCredit met farMsg (.snpData farMsg 0 .i 0 false) = false) := by decide +kernel
theorem witness2_OrderingHasItsTimes : up.dir.fwds.find? (noticeFor okMsg) = none ∧ (ordering.ord.gbs.find? fun x => x.id == aGb.id) = some aGb ∧
    (∀ g, g ∈ up.ord.gbs → g.id ≠ 0) ∧ hostUp State.reset = false ∧ up.ord.fences = [] := by
  refine ⟨by decide +kernel, by decide +kernel, (fun g h => absurd h List.not_mem_nil), by decide +kernel, by decide +kernel⟩
theorem witness2_TheHostInterfaceIsReset : (State.reset.hst.linkUp = false) ∧ (up.hst.linkUp = true) := by decide +kernel

def flushing : State := ingress 7 { inSt := 2, lnkSt := 5, linkUp := true, flushed := true }
theorem witness2_RecordsAreAcceptedOrDiscarded : ((true && (port flushing 7).flushed) = true ∧ (port flushing 7).linkUp = true) ∧
    (true && (port oneFree 7).flushed) = false ∧ (port up 7).linkUp = false := by decide +kernel
theorem witness2_LanesAreCheckedAndAligned : (port up 7).linkUp = false ∧ ((port up 7).lnkSt ≠ 2 ∨ (port up 7).aligned = false) := by decide +kernel
def aRecord (op data addr : Nat) : BitVec 128 := BitVec.ofNat 128 (addr * 2 ^ 64 + op * 2 ^ 112 + data)

theorem witness2_StopFollowsItsCondition : (port popping 0).fifo ≠ [] ∧ ((port up 0).stopHold = false ∧ (port up 0).fifo = []) ∧
    (let r := aRecord 1 5 64; 1 ≤ recOp r ∧ recOp r < 7 ∧ recAddr r % 8 = 0 ∧ recordCause (open64) (recAddr r) = 0 ∧
      (open64.stm.comb.find? fun c => c.gaddr == recAddr r / 64) = none ∧ combRoom open64 = true) ∧
    (let r := aRecord 6 1 8; recOp r = 6 ∧ recData r ≠ 0 ∧ recAddr r % 8 = 0) := by decide +kernel
def gotAll : State := ingress 0 { egSt := 2, inFlight := [{ id := 3, gaddr := 0, got := List.replicate 8 (0, none) }] }
theorem witness2_PlaybackSendsItsWords : ((port up 0).egSt ≠ 2 ∨ (port up 0).egSent = some up.tck.course) ∧
    (∃ r, ((port gotAll 0).inFlight.find? fun x => x.id == 3) = some r ∧ 8 ≤ r.got.length) ∧ (port gotAll 0).egSt ≠ 0 ∧ (port up 0).egSt = 0 :=
  ⟨by decide +kernel, ⟨_, rfl, by decide⟩, by decide +kernel, by decide +kernel⟩
theorem witness2_StreamWritesAct : hostUp State.reset = false ∧ ((port playing 0).egSt ≠ 0 ∧ TablesWf playing) ∧ 16 / 16 ≠ (port playing 0).cur ∧
    ({ last := true } : PlEnt) ≠ {} := by unfold TablesWf; decide +kernel
theorem witness2_FlitsAreTakenInSequence : ((link (training { st := 1 }) 8).closing = false ∧ (link (training { st := 1 }) 8).st ≠ 5 ∧
      (link (training { st := 1 }) 8).st ≠ 4) ∧ ((link linked 0).keyed = false ∧ (0 : Nat) < 8) ∧
    (linkIn linked (.hal 0) 5 = true ∧ (link linked 0).waiting = false) ∧ ((link (training { st := 4, agree := 8 }) 0).st = 4 ∧
      (link (training { st := 4, agree := 8 }) 0).agree = 8) ∧ knownLtype (.hal 0) 1 = true := by decide +kernel
theorem witness2_TrainingHasItsTimes : ((link (training { st := 4 }) 0).st = 4 ∧ (link (training { st := 6 }) 0).st = 6) ∧
    linkIn up (.hal 0) 1 = false ∧ ((link up 0).st = 0 ∧ 5 ≤ (link linked 0).st) ∧
    (let s := training { enable := true, stretch := true }; TablesWf s ∧ (link s 0).enable = true ∧ (link s 0).dead = false ∧ (link s 0).st = 0 ∧
      (link s 0).closing = false ∧ clocked s 0 = true) ∧ (link up 0).stretch = false := by unfold TablesWf; decide +kernel
def aSet (lane : Nat) : TrainSet := { state := 1, lane, role := 0, grp := 0, portNo := 0, rate := 0, width := 4, eq := 0 }
def wireOfSet (x : TrainSet) : BitVec 256 := BitVec.ofNat 256 (leVal (writeSet x))
theorem test_set_read : readSet (wireOfSet (aSet 3)) = some (aSet 3) := by decide +kernel
/-- R293: a set whose CRC does not match its bytes is none. -/
theorem test_set_bad : readSet (wireOfSet (aSet 3) ^^^ 0x10000000000) = none := by decide +kernel
theorem witness2_LinksCompleteTheirTraining :
    (let s := training { st := 2, lock := 7 };
      readSet (wireOfSet (aSet 3)) = some (aSet 3) ∧ (aSet 3).lane < lanesOf 0 ∧ (link s 0).st = 2 ∧ 1 ≤ (aSet 3).state ∧ (aSet 3).state ≤ 3 ∧
        lanesDone ((link s 0).lock ||| (1 <<< (aSet 3).lane)) (min (lanesTried 0 (link s 0)) (widthOf 0 (aSet 3).width)) = true ∧
        lanesDone ((link (training { st := 2 }) 0).lock ||| (1 <<< (aSet 3).lane)) (min (lanesTried 0 (link s 0)) (widthOf 0 (aSet 3).width)) = false) ∧
    ((link (training { st := 4, agree := 7 }) 0).st = 4 ∧ (link (training { st := 4, agree := 7 }) 0).agree < 8) ∧
    (let s := training { st := 4, agree := 8, epoch := 0xFFFD }; (link s 8).st = 4 ∧ (link s 8).agree = 8 ∧ (link s 8).credInit = false ∧
      (link s 8).epoch + 1 < 0xFFFF) ∧ (up.grp.id < 8 ∧ inOperation (link linked 0) = true) ∧
    (let s : State := { training { st := 4, credInit := true } with grp := pair.grp }; peerOf s.grp.id s.grp.size 0 = some anOffer.grp ∧
      peerOf s.grp.id s.grp.size 0 ≠ some 2) ∧
    (link (training { st := 4, keyStage := 1, peerOffer := some anOffer }) 8).peerOffer = some anOffer := by decide +kernel
theorem witness2_KeyAccepted : let s : State := { training { st := 4, credInit := true } with grp := pair.grp, glb := { up.glb with groupKeys := [keyHash anOffer.idKey] } };
    keyHash anOffer.idKey ∈ s.glb.groupKeys ∧ peerOf s.grp.id s.grp.size 0 = some anOffer.grp := ⟨List.mem_singleton_self _, by decide +kernel⟩
theorem witness2_PortWritesAct : ((link up 8).enable = false ∧ (link up 8).dead = false ∧ (link up 8).st = 0 ∧ (link up 8).closing = false ∧ clocked up 8 = true) ∧
    (TablesWf (training { enable := true, st := 5 }) ∧ (link (training { enable := true, st := 5 }) 0).enable = true ∧
      (link (training { enable := true, st := 5 }) 0).st = 5) ∧ hostUp State.reset = false := by unfold TablesWf; decide +kernel
def hoisting : State := { met with tck := { met.tck with
  groupHoists := [{ tag := 6, cmd := okCmd, id := 1, accepted := 0, replied := 0 }], hoists := [(0, some (hoistOf (5 <<< 64) none))] } }
def resuming : State := { met with links := [(0, { st := 5 }), (8, { st := 5, resume := true }), (9, { st := 5 })] }
theorem witness2_GroupMessagesAct : (met.grp.gone.getLsbD 1 = false) ∧ (∃ g, (hoisting.tck.groupHoists.find? fun x => x.tag == 6) = some g ∧ (1 : Nat) ≠ 0 ∧
      hoisting.tck.course ≤ g.accepted + 2) ∧ (checkHoist met 0 (hoistOf 0 none) ≠ 0) ∧
    ((upto 64).find? fun j => (tget none met.tck.hoists j).isNone) = some 0 ∧
    ((link resuming 8).resume = true ∧ TablesWf resuming ∧ (link resuming 9).resume = false ∧ inOperation (link resuming 9) = true) ∧
    ((2 : BitVec 8).getLsbD 1 = true ∧ met.grp.present.getLsbD 1 = true) ∧
    ({ met with grp := { met.grp with waiting := 2 } } : State).grp.waiting.getLsbD 1 = true := by
  refine ⟨by decide +kernel, ⟨_, rfl, by decide, by decide +kernel⟩, by decide +kernel, by decide +kernel, by unfold TablesWf; decide +kernel, by decide +kernel, by decide +kernel⟩
theorem witness2_TheGroupKeepsItsTimes : (pair.glb.memReady = true ∧ pair.grp.formed = false ∧ pair.grp.size ≠ 1 ∧ (1 : Nat) < pair.grp.size ∧
      State.reset.glb.memReady = false) ∧ up.grp.size ≤ 1 ∧
    (∃ g, (({ hoisting with tck := { hoisting.tck with course := 2 } } : State).tck.groupHoists.find? fun g => g.tag == 6) = some g ∧ g.accepted + 2 ≤ 2 ∧
      hoisting.tck.course < g.accepted + 2) ∧ hostUp State.reset = false ∧
    (({ met with grp := { met.grp with waiting := 2 } } : State).grp.waiting.getLsbD 1 = true ∧ met.grp.waiting.getLsbD 1 = false) := by
  refine ⟨by decide +kernel, by decide +kernel, ⟨_, rfl, by decide, by decide +kernel⟩, by decide +kernel, by decide +kernel⟩

/-! ### Witnesses of the host interface's, the commands' and the engine's other forms -/

def blocked : State := { up with ord := { up.ord with gbs := [{ aGb with src := .host, rq := 8, device := true }] } }
theorem witness2_Bar0AcceptsAlignedAccesses : (hostUp blocked = true ∧ barWaits blocked blocked.dir.nextId = true ∧ 0x58 % 4 = 0) ∧
    barWaits up up.dir.nextId = false ∧ (isCounterUnit 0x57 = true) := by decide +kernel
theorem witness2_ExpertWritesNeedExpertControl : hostUp State.reset = false := by decide +kernel
def aHeld (c : Instr) : Held := { id := 9, src := .host, cmd := c, tick := 0 }
theorem witness2_Bar2RequestsAreCheckedWhole : hostUp State.reset = false ∧
    ((∀ r, r ∈ hostDown.dir.hostRds → r.id ≠ (aHeld (.bar2Read 0 4 7)).id) ∧ hostCause hostDown 0 4 true false = some 3) ∧
    ((aHeld (.bar2Write 0 [1] false false)).checked = false ∧ hostCause hostDown 0 [(1 : Byte)].length false true = some 3) ∧
    hostCause hostDown 0 (4 * 2 ^ 2) true true = some 3 :=
  ⟨by decide +kernel, ⟨(fun r h => absurd h List.not_mem_nil), by decide +kernel⟩, by decide +kernel, by decide +kernel⟩
theorem witness2_Bar4ReadsWhatWasWritten : hostUp State.reset = false ∧ 2 ^ 22 < (2 ^ 22 - 3) + [(1 : Byte), 2, 3, 4].length ∧
    (hostUp blocked = true ∧ barWaits blocked blocked.dir.nextId = true) ∧ barWaits up up.dir.nextId = false := by decide +kernel
theorem witness2_TheDebugPortIsLimited : debugOn up = false ∧ (debugOn attached = true ∧ attached.flash.lc < 2 ∧ 6 ≤ attached.glb.step) ∧
    (let s : State := { attached with glb := { attached.glb with step := 5 } }; debugOn s = true ∧ s.glb.step < 6 ∧ s.glb.failed = false) ∧
    off.plinth.st = 0 ∧ (6 ≤ gated.glb.step ∧ clocked gated 23 = false) := by decide +kernel
theorem witness2_DoorbellsMoveTheRings : hostUp State.reset = false ∧ (64 : Nat) ≤ 64 := by decide +kernel
theorem witness2_QueuesTakeTheirEntries : nextQueue fetching ≠ some 0 ∧ (queue up 0).gap = false ∧ hostUp State.reset = false ∧
    (∀ e : BitVec 512, ∃ r, (readEntry up 0 e).2 = r) := ⟨by decide +kernel, by decide +kernel, by decide +kernel, fun _ => ⟨_, rfl⟩⟩
def halted : State := { up with hst := { up.hst with copies := [(15, { halted := true })] } }
theorem witness2_ShortCommandsStart : (checkHoist up 0 (hoistOf 0 (some up.grp.id)) ≠ 0) ∧ up.hst.attests = [] ∧ (findHoist up 1 = none) ∧
    (findHoist hoisting 0).isSome = true ∧ ((queue { up with hst := { up.hst with queues := [(0, { winSt := 1, winCid := 3 })] } } 0).winSt = 1) ∧
    (cmdOf (.nop okCmd) = some okCmd ∧ (Instr.nop okCmd) ∈ (queue (ready (.nop okCmd)) 0).fetched) ∧
    (let s : State := { ready (.nop okCmd) with pwr := { up.pwr with drain := 1 } }; .nop okCmd ∈ (queue s 0).fetched ∧ canStart s okCmd (.nop okCmd) = false) ∧
    (let s : State := { ready (.nop okCmd) with pwr := { up.pwr with runSt := 2 } };
      .nop okCmd ∈ (queue s 0).fetched ∧ canStart s okCmd (.nop okCmd) = true ∧ inStop s = true ∧ servedInStop (.nop okCmd) = false) ∧
    (let s := withQueue 0 { enable := true, sqSize := 8, cqSize := 8, sqTail := 1 };
      .nop okCmd ∉ (queue s 0).fetched ∧ mayFetch s 0 = true ∧ cmdStatus s (.nop okCmd) = 0) := by decide +kernel
theorem witness2_DataCommandsStart : slotOk up 1 1 = false ∧
    (let s : State := { up with cph := { up.cph with slots := [(1, (1, 7))] } }; slotOk s 1 1 = true ∧ s.cph.holder = 0 ∧ s.cph.disabled = false) ∧
    (slotOk owned 1 1 = true ∧ owned.cph.holder ≠ 0) ∧
    (let s : State := { up with cph := { up.cph with slots := [(1, (1, 7))], disabled := true } }; slotOk s 1 1 = true ∧ s.cph.holder = 0 ∧ s.cph.disabled = true) ∧
    ((copyCh halted 15).halted = true ∧ (copyCh up 15).halted = false ∧ TablesWf halted) ∧ (16 : Nat) ≤ 16 ∧ hostUp State.reset = false ∧ (7 ≠ up.grp.id) ∧
    ((way evicting 0).valid = true ∧ (way up 0).valid = false) := by unfold TablesWf; decide +kernel
theorem witness2_ModuleCommandsStart : ((testBusy busyWay 1 5 = true) ∧ testBusy up 1 5 = false ∧ testOf up 1 5 = none) ∧
    (let s : State := { ready (.stop okCmd) with pwr := { up.pwr with runSt := 2 } }; .stop okCmd ∈ (queue s 0).fetched ∧ canStart s okCmd (.stop okCmd) = true) ∧
    (let s : State := { ready (.run okCmd) with pwr := { up.pwr with runSt := 2 } }; .run okCmd ∈ (queue s 0).fetched ∧ canStart s okCmd (.run okCmd) = true) ∧
    up.pwr.entry ≠ 5 ∧ lcAllowed 0 1 = true := by decide +kernel
theorem witness2_CipherCommandsReachTheEngine : HostReaches owned 0x0A80000 ∧ (debugOn attached = true ∧ attached.flash.lc < 2 ∧ 6 ≤ attached.glb.step ∧
      served attached 0x0A80000 = true ∧ clocked attached 20 = true) ∧ ({ up with cph := { up.cph with imp := some anImport } } : State).cph.imp.isSome = true ∧
    (hostUp State.reset = false ∧ debugOn up = false ∧ clocked gated 20 = false) ∧ up.cph.holder = 0 := by unfold HostReaches; decide +kernel
theorem witness2_CipherOperationsEnd :
    (let s : State := { owned with cph := { owned.cph with run := some (anOp 1) } }; s.cph.run = some (anOp 1) ∧ (anOp 1).op = 1 ∧ s.flash.nonceReserved ≤ (anOp 1).nonce) ∧
    (up.cph.run = none ∧ ∀ m, up.cph.imp = some m → m.phase ≠ 2) := ⟨by decide +kernel, by decide +kernel, fun _ h => nomatch h⟩

/-! ### Witnesses of start-up's, supply's and power's other forms -/

def latchedOff : State := { off with plinth := { off.plinth with latched := true } }
theorem witness2_TheStartSequenceRuns : (up.plinth.st ≠ 0 ∧ 5899 < restartMv off) ∧
    (let s : State := { rising 23 with plinth := { (rising 23).plinth with latchClr := true } }; s.plinth.st = 1 ∧ railSt s 23 = 1 ∧ s.plinth.latchClr = true) ∧
    (railSt up 5 ≠ 1 ∧ (24 : Nat) ≤ 24 ∧ railInWindow 23 4699 = false ∧ railInWindow 23 5301 = false) ∧ up.glb.step ≠ 2 ∧
    (({} : State).glb.step = 2 ∧ ({} : State).plinth.st = 2 ∧ ({} : State).glb.failed = false) ∧ latchedOff.plinth.latched = true ∧
    ({ off with plinth := { off.plinth with down := true } } : State).plinth.down = true ∧
    ({} : State).plinth.tapHold = false ∧ ({ ({} : State) with plinth := { tapHold := true } } : State).plinth.tapHold = true := by decide +kernel
def booting : State := { up with glb := { step := 6 } }
theorem witness2_MemoryBecomesReady : (booting.glb.step = 6 ∧ booting.glb.failed = false ∧ booting.plinth.tapHold = false ∧ tooHot booting = false ∧ booting.medium.ckpts ≠ []) ∧
    ({ booting with medium := { booting.medium with ckpts := [] } } : State).medium.ckpts = [] ∧ up.glb.step ≠ 6 ∧ up.glb.charged = true ∧ up.glb.memReady = true := by decide +kernel
theorem witness2_TheShutdownRunsItsSteps : ({ up with plinth := { up.plinth with down := true } } : State).plinth.down = true ∧
    (5600 : Nat) ≥ up.pwr.trip * 50 - 50 ∧ up.pwr.trip * 50 ≤ up.pwr.trip * 50 ∧ (up.plinth.st ≠ 3) ∧ (shutting 4 true).plinth.st = 4 ∧ (shutting 6 false).plinth.st = 6 ∧
    (rising 0).plinth.st = 1 ∧ ((shutting 5 true).plinth.st = 5 ∧ ({ (shutting 5 true) with plinth := { (shutting 5 true).plinth with cause := 1 } } : State).plinth.cause = 1) ∧
    up.plinth.alive = true ∧ ({ up with plinth := { up.plinth with alive := false } } : State).plinth.alive = false ∧ (up.plinth.swOpen = false ∧ 46000 ≤ 46000 ∧ 44000 ≤ 44000) := by decide +kernel
theorem witness2_TheSupplyIsWatched : (controllerUp { off with plinth := { off.plinth with st := 0 } } = false) ∧ controllerUp up = true ∧
    (({ up with plinth := { up.plinth with high := true } } : State).plinth.high = true ∧ 40000 ≤ 40000 ∧ up.plinth.high = false) ∧ up.pwr.inputLimit = false ∧
    (railSt up 16 = 2 ∧ railInWindow 16 0 = false ∧ railSt up 23 = 2 ∧ railInWindow 23 4699 = false) ∧ (24 : Nat) ≤ 24 ∧ State.reset.glb.memReady = false ∧
    (let s : State := { lowering with plinth := { lowering.plinth with rails := (upto 24).map fun r => (r, if r = 0 then (2, 1) else (0, 0)) } };
      s.plinth.st = 7 ∧ topRail s = some 0 ∧ railHeld s 0 = false ∧ topRail (setRail 0 0 0 s) = none) ∧ up.plinth.st ≠ 7 := by decide +kernel
theorem witness2_TheLimitFollowsTheBank : hoursSince up < 24 ∧ up.pwr.measuring = false ∧ State.reset.glb.charged = false ∧
    (600 ≤ 1000 ∧ 1600 ≤ 4500) := by decide +kernel
theorem witness2_RequestsAndResetsAct : (let s : State := { up with plinth := { up.plinth with latched := true, hotComps := [84] } }; s.plinth.latched = true ∧ s.plinth.hotComps ≠ []) ∧
    (failedStart.plinth.latched = false ∧ failedStart.glb.failed = true) ∧ off.plinth.st = 0 ∧ (2 ≤ ({ up with pwr := { up.pwr with drain := 2 } } : State).pwr.drain) ∧
    ((rising 0).plinth.st = 1 ∧ (rising 0).glb.memReady = false) ∧ (shutting 3 false).plinth.st = 3 ∧ hostUp State.reset = false ∧
    (let s : State := { up with pwr := { up.pwr with drain := 3, drainSt := 5 }, hst := { up.hst with lc := some (2, none) } };
      s.pwr.drainSt = 5 ∧ s.pwr.drain = 3 ∧ s.hst.lc = some (2, none) ∧ s.sec.lcStep = 0) ∧ up.pwr.drainSt ≠ 5 := by decide +kernel
theorem witness2_ClockGatingFollowsItsTree : hostUp State.reset = false ∧ (let s : State := { up with clk := { up.clk with gateSt := 0 } };
      (26 : Nat) < 27 ∧ s.clk.gate.getLsbD 26 = true ∧ s.clk.gateSt.getLsbD 26 = false) ∧ (27 : Nat) ≤ 27 ∧ up.clk.gateSt.getLsbD 26 = true := by decide +kernel

/-! ### Witnesses of the errors', the flash's and the observers' other forms -/

theorem witness2_ErrorsAreTestedAndScrubbed :
    (let s : State := { busyWay with err := { busyWay.err with tests := [{ aTest with tries := 98 }] } };
      testOf s 1 5 = some { aTest with tries := 98 } ∧ testBusy s 1 5 = true ∧ ({ aTest with tries := 98 } : STest).tries < 99) ∧
    (let s : State := { busyWay with err := { busyWay.err with tests := [{ aTest with tries := 99 }] } };
      testOf s 1 5 = some { aTest with tries := 99 } ∧ testBusy s 1 5 = true ∧ 99 ≤ ({ aTest with tries := 99 } : STest).tries) ∧
    (testOf up 1 5).all (fun t => t.running) = true ∧ testBusy (testing [aTest]) 1 5 = false ∧
    (testOf up 7 5).all (fun t => !t.running || (7 == 7 && decide (t.senses < 3))) = true ∧ (4 * 2 ^ 20 - 128 ≠ lastLoc up 6 ∧ testLocOk up 6 (4 * 2 ^ 20 - 128) = true) ∧
    (testLocOk up 6 (4 * 2 ^ 20) = false ∧ State.reset.glb.memReady = false) := by decide +kernel
theorem witness2_TheFlashTakesRecordsAndImages : (up.plinth.st ≠ 0 ∧ off.plinth.st = 0 ∧ off.glb.step < 3) ∧ hostUp State.reset = false ∧
    (let s : State := { up with ldg := { up.ldg with busy := true } }; s.ldg.busy = true ∧ HostReaches s 0x1100040) ∧ up.ldg.busy = false := by unfold HostReaches; decide +kernel
theorem witness2_CountersFreezeClearAndCarry : hostUp State.reset = false ∧ isCounterUnit 0x58 = false ∧ (8 : Nat) ≤ 8 ∧
    tget 0 (pmcUnit up 0x57).pc 7 ≠ 2 ^ 32 - 1 ∧ pmcStopped { up with pmc := { up.pmc with freeze := true } } = true := by decide +kernel
theorem witness2_EventsAreRecordedOrSuppressed : (up.evr.waiting.length ≤ evInFlight up) ∧
    (let s : State := { up with evr := { up.evr with waiting := [anEvent] } }; evInFlight s < s.evr.waiting.length) ∧ (bucket up 0x0101).lastEv = none := by decide +kernel
theorem witness2_TheSideBandAnswers : ({ up with plinth := { up.plinth with alive := false } } : State).plinth.alive = false ∧ smbusBad 0x10 0x5A = false ∧
    (up.plinth.latched = false ∧ 3 ≤ (shutting 3 false).plinth.st) := by decide +kernel

/-! ### Witnesses of the clauses for what is read from the wire, for held entries, and for wakes -/

def lossy : State := ingress 7 { lnkSt := 5, linkUp := true, headers := List.replicate 16 (false, true) }
def trained : State := ingress 7 { lnkSt := 2, aligned := true, run := 1024 }
theorem witness3_RecordsAreAcceptedOrDiscarded : receives oneFree 7 = true ∧ receives fullFifo 7 = true ∧ receives flushing 7 = true ∧
    ingressKind 0 1 = none ∧ ingressKind 3 3 = none ∧ ingressKind 1 1 ≠ none ∧ (receives trained 7 = true ∧ (port trained 7).linkUp = false) ∧
    receives up 7 = false ∧ receives oneFree 8 = false := by
  refine ⟨rfl, rfl, rfl, by decide, by decide, by decide, ⟨rfl, rfl⟩, rfl, rfl⟩
theorem witness3_LanesAreCheckedAndAligned : receives aligning 0 = true ∧
    (receivePair 0 2 2 0x4B aligning).1.extractLsb' 0 8 = 0x4B ∧ (receivePair 0 2 2 0xA578 aligning).1.extractLsb' 0 16 = 0xA578 ∧
    (receivePair 0 2 2 0xA478 aligning).1.extractLsb' 0 16 ≠ 0xA578 ∧ (receivePair 0 2 2 0xA478 aligning).1.extractLsb' 0 8 ≠ 0x4B ∧
    ((port lossy 7).linkUp = true ∧ 16 ≤ ((port lossy 7).headers.filter (!·.1)).length) ∧
    ((port oneFree 7).linkUp = true ∧ (port oneFree 7).headers = [] ∧ (port oneFree 7).lnkSt = 5) ∧
    ((port trained 7).linkUp = false ∧ (port trained 7).lnkSt = 2 ∧ (port trained 7).aligned = true ∧ 1024 ≤ (port trained 7).run) := by
  refine ⟨by decide +kernel, by decide +kernel, by decide +kernel, by decide +kernel, by decide +kernel, ⟨rfl, ?_⟩, ⟨rfl, rfl, rfl⟩, by decide +kernel⟩
  show 16 ≤ ((List.replicate 16 (false, true)).filter (!·.1)).length
  decide
theorem witness3_FlitsAreTakenInSequence : ((link linked 0).st = 5 ∧ (link linked 0).closing = false ∧ (link linked 0).waiting = false ∧
      (link linked 0).rxSeq = 0 ∧ bits (2 ^ 126) 126 2 = 1 ∧ bits (2 ^ 126) 114 12 = 0 ∧ bitOf (2 ^ 126) 101 = false) ∧
    (bits 0 126 2 = 0 ∧ bitOf 0 101 = false ∧ seqAfter (bits 0 102 12) (link linked 0).peerAck < 2048) := by
  decide +kernel
theorem witness3_TrainingHasItsTimes : (link (training { st := 4, cannot := true }) 0).cannot = true ∧ (link (training { st := 4 }) 0).cannot = false := by
  decide +kernel
theorem witness3_PortWritesAct : (link (training { enable := true, st := 5 }) 0).replay.length < 512 ∧
    (training { enable := true, st := 5 }).plinth.agtRst.getLsbD 0 = false := by decide +kernel
theorem witness3_Bar0AcceptsAlignedAccesses : cfgListed (.cap 0x10 2) = true ∧ cfgListed (.ext 0x0003 1) = false ∧ up.hst.cfgReady = true ∧
    (0x1000 : BitVec 32).getLsbD 15 = false ∧ (3 : BitVec 32).toNat % 4 = 3 ∧ (0 : BitVec 32).toNat % 4 = 0 := by decide +kernel
def shut : State := { up with ord := { up.ord with locked := true } }
theorem witness3_LockedAndUnservedWritesDoNothing : (shut.ord.locked = true ∧ gatedOff shut 0x0A7FFF8 = false) ∧
    ((63 : Nat) < 64 ∧ up.ord.locked = false ∧ served up (0xA01000 + 8 * 63) = true ∧ gatedOff up (0xA01000 + 8 * 63) = false) := by decide +kernel
theorem witness3_Bar2RequestsAreCheckedWhole : hostCause open64 0 (4 * 2 ^ 2) true true = none ∧ hostCause hostDown 0 (4 * 2 ^ 2) true true = some 3 := by
  decide +kernel
/-- Entries of NOP, without and with FENCE (R332). -/
def nopEntry (fence : Bool) : BitVec 512 := BitVec.ofNat 512 (256 * b2n fence)
def fencing : State := withQueue 0 { enable := true, sqSize := 8, cqSize := 8, fenced := some (nopEntry true) }
theorem witness3_QueuesTakeTheirEntries : ((queue fencing 0).fenced = some (nopEntry true) ∧ (queue fencing 0).fetched = [] ∧ earlierDone fencing 0 = true) ∧
    earlierDone muted 0 = false ∧ ((readEntry fetching 63 (nopEntry false)).1.fence = false ∧ (readEntry fetching 63 (nopEntry true)).1.fence = true) ∧
    (readEntry fetching 63 (nopEntry false)).2 = .inr (.nop { q := 63, cid := 0, fence := false, noInt := false }) := by decide +kernel
theorem witness3_ShortCommandsStart :
    (let s := withQueue 0 { winSt := 1, winCid := 0, winRun := some okCmd }; okCmd.q < 64 ∧ (queue s 0).winSt = 1 ∧ (queue s 0).winCid = okCmd.cid ∧
      (queue s 0).winRun = some okCmd) ∧
    (let i : Instr := .copy okCmd 0 64 64 0 false; let s : State := { ready i with pwr := { up.pwr with runSt := 2 } };
      i ∈ (queue s 0).fetched ∧ canStart { s with pwr := { s.pwr with runSt := 2 } } okCmd i = true ∧ inStop s = true ∧ servedInStop i = false) ∧
    (okCmd.fence = false ∧ (queue (ready (.nop okCmd)) 0).fenced = none) := by decide +kernel
theorem witness3_DataCommandsStart : (lostIn up 0 16384 = none ∧ lostIn up 0 (512 + 16) = none) ∧ (lostIn pair 0x180000000000 16384).isSome = true := by
  decide +kernel
theorem witness3_ModuleCommandsStart : mediaRoom up = true ∧ testBusy up 7 5 = false ∧ testOf up 7 5 = none := by decide +kernel
def woken : State := { booting with clk := { booting.clk with dram := 0xFFFF, media := 0xFFFFFFFF } }
theorem witness3_MemoryBecomesReady : (booting.clk.dram ≠ 0xFFFF ∧ booting.clk.media ≠ 0xFFFFFFFF) ∧ (woken.clk.dram = 0xFFFF ∧ woken.clk.media = 0xFFFFFFFF) ∧
    ({ booting with glb := { booting.glb with wakeBad := some (5, 31) } } : State).glb.wakeBad = some (5, 31) ∧ booting.glb.wakeBad = none := by decide +kernel
def dumping : State := { shutting 5 true with medium := { up.medium with dump := some { gen := 4, items := [], complete := false } } }
theorem witness3_TheShutdownRunsItsSteps : dumping.plinth.st = 5 ∧ dumping.plinth.cause ≠ 1 ∧ dumping.medium.dump.isSome = true ∧
    (shutting 5 true).medium.dump = none := by decide +kernel
theorem witness3_ReadsEndOrAreRetried : TablesWf filling := by unfold TablesWf; decide +kernel

end Sys2Proof.Tests
end

section
/-!
PROOF. Every command answers a next state with the queue as it stands (O2). The meanings of the commands are built from `done` and `settled`
by cases, so one lemma for each way of building an outcome, and one for each operation that several commands share, settles them all.
-/

namespace Sys2Proof.Machine
open Sys2Proof

/-- From `s` the outcome is a next state, and the queue of commands stands as it did. -/
def AnswersNext (s : State) (o : Host.Outcome State Fault Refusal) : Prop := ∃ t, o = .next t ∧ t.pending = s.pending

namespace AnswersNext

/-! ## The ways of building an outcome -/

theorem done (s t : State) : AnswersNext s (done s t) := ⟨_, rfl, rfl⟩

theorem settled (s t : State) : AnswersNext s (settled s t) := done s (settle t)

theorem ite {s : State} {c : Prop} [Decidable c] {o p : Host.Outcome State Fault Refusal} (ho : AnswersNext s o) (hp : AnswersNext s p) :
    AnswersNext s (if c then o else p) := by
  split
  · exact ho
  · exact hp

/-- What answers from a state with the same queue answers from this one. -/
theorem of_pending_eq {s u : State} {o : Host.Outcome State Fault Refusal} (h : AnswersNext u o) (hu : u.pending = s.pending) :
    AnswersNext s o := by
  obtain ⟨t, ho, ht⟩ := h
  exact ⟨t, ho, ht.trans hu⟩

/-! ## The operations that several commands share -/

theorem message (m : Msg) (c : Instr) (s : State) : AnswersNext s (message m c s) :=
  .ite (.done _ _) (.ite (.settled _ _) (.settled _ _))

theorem copingMessage (m : Msg) (c : Instr) (s : State) : AnswersNext s (copingMessage m c s) := by
  refine .ite (.done _ _) ?_
  cases m.port with
  | hal p => exact .done _ _
  | cop l => exact .ite (.settled _ _) (.settled _ _)

theorem groupMessage (l src : Nat) (f : State → State) (s : State) : AnswersNext s (groupMessage l src f s) :=
  .ite (.settled _ _) (.done _ _)

theorem smbusRead (pec : Bool) (d : List Byte) (s : State) : AnswersNext s (smbusRead pec d s) := .done _ _

theorem smbusWrite (pec : Bool) (f : State → State) (s : State) : AnswersNext s (smbusWrite pec f s) := .ite (.settled _ _) (.done _ _)

theorem cphCmd (cls : CphClass) (ticket : BitVec 16) (op key subj : Nat) (s : State) : AnswersNext s (cphCmd cls ticket op key subj s) :=
  .done _ _

theorem waitingTest (first : Bool) (m loc : Nat) (s : State) : AnswersNext s (waitingTest first m loc s) := by
  unfold Machine.waitingTest
  split
  · exact .ite (.settled _ _) (.done _ _)
  · exact .done _ _

/-! ## The commands whose meaning looks something up -/

theorem programAbandon (prog : Nat) (s : State) : AnswersNext s (execProgramAbandon prog s) := by
  unfold execProgramAbandon
  split
  · split
    · exact .ite (.settled _ _) (.done _ _)
    · exact .done _ _
  · exact .done _ _

theorem mediaReadDone (read : Nat) (d : Decode) (s : State) : AnswersNext s (execMediaReadDone read d s) := by
  unfold execMediaReadDone
  split
  · exact .done _ _
  · refine .ite (.done _ _) ?_
    cases d with
    | corrected bits ahead => exact .settled _ _
    | failed => exact .settled _ _

theorem pulseGroupDone (prog : Nat) (ok : Bool) (s : State) : AnswersNext s (execPulseGroupDone prog ok s) := by
  unfold execPulseGroupDone
  split
  · exact .done _ _
  · refine .ite (.done _ _) (.ite (.done _ _) ?_)
    dsimp only
    split
    · exact .ite (.done _ _) (.settled _ _)
    · exact .done _ _

theorem resetStripDone (block : Nat) (ok : Bool) (s : State) : AnswersNext s (execResetStripDone block ok s) := by
  unfold execResetStripDone
  split
  · exact .done _ _
  · exact .ite (.done _ _) (.ite (.done _ _) (.ite (.done _ _) (.settled _ _)))

theorem readNotice (m : Msg) (s : State) : AnswersNext s (execReadNotice m s) := by
  unfold execReadNotice
  split
  · exact .settled _ _
  · exact .done _ _

theorem groupHoistTimeout (tag : Nat) (s : State) : AnswersNext s (execGroupHoistTimeout tag s) := by
  unfold execGroupHoistTimeout
  split
  · exact .ite (.settled _ _) (.done _ _)
  · exact .done _ _

theorem sqEntryFetched (q : Nat) (f : Fetch) (s : State) : AnswersNext s (execSqEntryFetched q f s) := by
  refine .ite ?_ (.done _ _)
  cases f with
  | failed => exact .done _ _
  | entry e => exact .done _ _

theorem cphLockRead (cls : CphClass) (s : State) : AnswersNext s (execCphLockRead cls s) := by
  cases cls with
  | host => exact .done _ _
  | debug => exact .ite (.done _ _) (.done _ _)
  | firmware => exact .ite (.done _ _) (.done _ _)

theorem cipherOpDone (agree : Bool) (s : State) : AnswersNext s (execCipherOpDone agree s) := by
  unfold execCipherOpDone
  split
  · exact .ite (.done _ _) (.ite (.done _ _) (.done _ _))
  · exact .ite (.done _ _) (.ite (.settled _ _) (.settled _ _))
  · exact .done _ _

theorem selfTestDone (memory location : Nat) (good : Bool) (s : State) : AnswersNext s (execSelfTestDone memory location good s) := by
  unfold execSelfTestDone
  split
  · exact .ite (.settled _ _) (.done _ _)
  · exact .done _ _

theorem eventLateRecord (code : Nat) (s : State) : AnswersNext s (execEventLateRecord code s) := by
  unfold execEventLateRecord
  dsimp only
  split
  · exact .ite (.done _ _) (.done _ _)
  · exact .done _ _

theorem tempMax (pec : Bool) (s : State) : AnswersNext s (execTempMax pec s) :=
  .ite (of_pending_eq (smbusRead pec _ (free s).2) rfl) (.smbusRead _ _ _)

theorem sensorSample (n : Nat) (r : Reading) (s : State) : AnswersNext s (execSensorSample n r s) := by
  refine .ite (.done _ _) ?_
  cases r with
  | temp q => exact .done _ _
  | checkFailed | absent => exact .done _ _

/-! ## The words that a stream port reads from the wire -/

theorem streamRecord (p : Nat) (wire : BitVec 128) (early : Bool) (s : State) : AnswersNext s (execStreamRecord p wire early s) := by
  refine .ite (.done _ _) ?_
  generalize receivePair p 1 1 wire s = read
  exact .ite (.done _ _) (.ite (.done _ _) (.ite (.done _ _) (.ite (.done _ _) (.done _ _))))

theorem streamCheckWord (p : Nat) (wire : BitVec 128) (s : State) : AnswersNext s (execStreamCheckWord p wire s) := by
  refine .ite (.done _ _) ?_
  generalize receivePair p 2 2 wire s = read
  exact .ite (.done _ _) (.ite (.done _ _) (.ite (.done _ _) (.done _ _)))

theorem streamAlignWord (p : Nat) (wire : BitVec 128) (s : State) : AnswersNext s (execStreamAlignWord p wire s) := by
  refine .ite (.done _ _) ?_
  generalize receivePair p 2 2 wire s = read
  exact .ite (.done _ _) (.done _ _)

end AnswersNext

/-! ## All commands -/

theorem exec_answersNext (c : Instr) (s : State) : AnswersNext s (exec c s) := by
  cases c with
  -- the command always takes effect alone
  | cphRelease | eraseSlot | program | imageOpDone | startupThermalTimeout | freeze | freezeRelease | pmcClear | eventSlotTimer
  | expertClr | powerUp | refStable | clockTimeout | holdupCharged | dumpComplete | railDisable | autoRestart | hardReset
  | drainComplete | nop | hoistSubmit | hoistCancel | attestCert | attestIdentity | attestConfig | attestGroup | attestDone
  | earlyEdge | reservedOpcodeMessage | railGood | railStart | flywheelClear | periodAverage | escalationFall | plinthDomainLoss
  | snapshot => exact .done _ _
  -- the engines always go on
  | journalPageTimeout | stagingCopyDone | dramTrained | memoryReady | warningIntervalEnd | inputGood | mrRelease | glbResetKey
  | clkGateWrite | cachePreload | cacheMaintClean | cacheMaintFlush | cacheMaintInvalidate | cacheMaintSetClean | cacheMaintSetFlush
  | cacheMaintSetInvalidate | sealedImport | lifecycleOwned | lifecycleSealed | lifecycleReturn | lifecycleEnd | selfTest | stop | run
  | stopEntryComplete | cacheUnlock | copy =>
    exact .settled _ _
  -- it takes effect under one condition
  | perstN | pcieLinkDown | functionLevelReset | bar2Read | bar2Atomic | debugAccess | missedTick | scrubCorrection | groupHello
  | formWait | thermalStop | checkpointPeriodic | inputTrip | commitPoint | railRun | clockFail | holdupMeasureDone | pbHoldOff
  | resume | discard | combineRecord | egressWordPositions | playbackReadData | arm | egressFlush | playlistEntryWrite | pclkLoss
  | pcieRefReturn | dirtyLimitRecompute | hostFenceRead | flywheelCourseEnd | gatherMaxAge | overVoltage | flitReceived | trainingSet
  | creditInit | linkDown | keyOffer | keyWrap | keyDone | portEnable | agentReset | retrain | linkStateTimeout
  | agentResetStretchEnd =>
    exact .ite (.settled _ _) (.done _ _)
  | d3hotTransition | detectRetry | overVoltageEnd | inputHighEnd | inputLimitClear | stmStopNHoldExpiry | bar4Read | bar4Write
  | sqTailDoorbell | cqHeadDoorbell | queueEnable | queueDisable | cipherLockTimeout | programWindowFix | cornerstoneAppendDone
  | tickAlignSend | nakRepeat | receiverDetected | thermalTrip | unitClear | inputRise | forcedOff | unitUngated | smbusUnknownCommand
  | ingressFlush | streamLanesDown | streamLanesUp | hostFenceTimeout | dapEnChange | guardInterval | holdupMeasure
  | operatingSecondsRecord | linkTrainFail | reservedLtype | packageSample | pmcOverflow | inputHigh | inputLimit | streamFramingError =>
    exact .ite (.done _ _) (.done _ _)
  | readmitWrite => exact .ite (.done _ _) (.settled _ _)
  -- it takes effect under several conditions
  | bar0BadAccess | atomicUnsupported | alertResponse | interruptGap | cornerstoneEraseDone =>
    exact .ite (.done _ _) (.ite (.done _ _) (.done _ _))
  | registerWrite | tapInstruction => exact .ite (.done _ _) (.ite (.settled _ _) (.done _ _))
  | bar2Write => exact .ite (.done _ _) (.ite (.done _ _) (.settled _ _))
  | configurationRequest => exact .ite (.done _ _) (.ite (.settled _ _) (.ite (.done _ _) (.done _ _)))
  | pbShortPress | flywheelInputEdge =>
    exact .ite (.done _ _) (.ite (.done _ _) (.ite (.done _ _) (.done _ _)))
  | courseStart => exact .ite (.done _ _) (.ite (.settled _ _) (.ite (.done _ _) (.ite (.settled _ _) (.done _ _))))
  -- it is one of an operation that several commands share
  | rdShared | rdUnique | upgrade | rdOnce | wrNc | orderBarrier | complBarrier | wbDirty | evictClean | ack | snpResp | snpData =>
    exact .message _ _ _
  | atomic | accum => exact .copingMessage _ _ _
  | tickAlign | hoistArm | hoistReply | groupHoistCancel | memberState | readmit => exact .groupMessage _ _ _ _
  | linkResume => exact .ite (.groupMessage _ _ _ _) (.done _ _)
  | status | vin | tripLast | fatalLast | ident | holdup | inlet | logLast => exact .smbusRead _ _ _
  | powerOn | powerOff | clearLatch => exact .smbusWrite _ _ _
  | encrypt | decrypt | unwrap | wrap | clear => exact .cphCmd _ _ _ _ _ _
  | selfTestAuto | selfTestRetry => exact .waitingTest _ _ _ _
  -- it looks something up
  | programAbandon prog => exact .programAbandon prog s
  | mediaReadDone read d => exact .mediaReadDone read d s
  | pulseGroupDone prog ok => exact .pulseGroupDone prog ok s
  | resetStripDone block ok => exact .resetStripDone block ok s
  | readNotice m => exact .readNotice m s
  | groupHoistTimeout tag => exact .groupHoistTimeout tag s
  | sqEntryFetched q f => exact .sqEntryFetched q f s
  | cphLockRead cls => exact .cphLockRead cls s
  | cipherOpDone agree => exact .cipherOpDone agree s
  | selfTestDone memory location good => exact .selfTestDone memory location good s
  | eventLateRecord code => exact .eventLateRecord code s
  | streamRecord n r early => exact .streamRecord n r early s
  | streamCheckWord n crc => exact .streamCheckWord n crc s
  | streamAlignWord n pairing => exact .streamAlignWord n pairing s
  | tempMax pec => exact .tempMax pec s
  | sensorSample n r => exact .sensorSample n r s

/-- Settles O2: `done` makes the next state, and it gives the state the queue that the command found. -/
theorem everyCommandAnswersANextState : Obligations.EveryCommandAnswersANextState := exec_answersNext

end Sys2Proof.Machine
end

section
/-!
SUPPORT. What an access of the host to a register or to BAR4 does before and instead of its effect (R210, R323, R324, R510): the
count of its TLP, and its wait at the port.
-/

namespace Sys2Proof.Machine
open Sys2Proof

/-! ## Counting (R507 to R510) -/

/-- The state without what counting an event touches: the counters, the pending bits of the overflow message and the outputs. -/
def besideCounting (s : State) : State := { s with pmc := {}, hst := {}, out := [] }

@[simp] theorem besideCounting_sendMsix (v : Nat) (s : State) : besideCounting (sendMsix v s) = besideCounting s := by
  unfold sendMsix
  repeat' split
  all_goals rfl

@[simp] theorem besideCounting_onPmc (f : Pmc → Pmc) (s : State) : besideCounting (onPmc f s) = besideCounting s := rfl

@[simp] theorem besideCounting_pmcFlag (u i : Nat) (s : State) : besideCounting (pmcFlag u i s) = besideCounting s := by
  unfold pmcFlag
  exact (apply_ite besideCounting _ _ _).trans (by simp only [besideCounting_sendMsix, onUnit, besideCounting_onPmc, ite_self])

@[simp] theorem besideCounting_pmcCarry (u i : Nat) (s : State) : besideCounting (pmcCarry u i s) = besideCounting s := by
  simp only [pmcCarry]
  repeat' split
  all_goals simp [onUnit]

@[simp] theorem besideCounting_pmcAdd (u c n i : Nat) (s : State) : besideCounting (pmcAdd u c n i s) = besideCounting s := by
  simp only [pmcAdd]
  repeat' split
  all_goals simp [onUnit]

/-- Counting an event changes nothing else. -/
theorem besideCounting_count (u c n : Nat) (s : State) : besideCounting (count u c n s) = besideCounting s := by
  simp only [count]
  split
  · rfl
  · exact each_keeps _ _ besideCounting (by simp) s

theorem besideCounting_tlpIn (s : State) : besideCounting (tlpIn s) = besideCounting s := besideCounting_count 8 0x10 1 s

@[simp] theorem tlpIn_glb (s : State) : (tlpIn s).glb = s.glb := congrArg (·.glb) (besideCounting_tlpIn s)
@[simp] theorem tlpIn_expert (s : State) : (tlpIn s).expert = s.expert := congrArg (·.expert) (besideCounting_tlpIn s)
@[simp] theorem tlpIn_tck (s : State) : (tlpIn s).tck = s.tck := congrArg (·.tck) (besideCounting_tlpIn s)
@[simp] theorem tlpIn_med (s : State) : (tlpIn s).med = s.med := congrArg (·.med) (besideCounting_tlpIn s)
@[simp] theorem tlpIn_cch (s : State) : (tlpIn s).cch = s.cch := congrArg (·.cch) (besideCounting_tlpIn s)
@[simp] theorem tlpIn_dir (s : State) : (tlpIn s).dir = s.dir := congrArg (·.dir) (besideCounting_tlpIn s)
@[simp] theorem tlpIn_ord (s : State) : (tlpIn s).ord = s.ord := congrArg (·.ord) (besideCounting_tlpIn s)

/-! ## The three ways of an access (R210, R323, R324) -/

theorem hostBar_of_down (c : Instr) {s : State} (h : hostUp s = false) : hostBar c s = s := by simp [hostBar, h]

theorem hostBar_of_waits (c : Instr) {s : State} (h : hostUp s = true) (hw : barWaits s s.dir.nextId = true) :
    hostBar c s = holdBar c (tlpIn s) := by simp [hostBar, h, hw]

theorem hostBar_of_free (c : Instr) {s : State} (h : hostUp s = true) (hw : barWaits s s.dir.nextId = false) :
    hostBar c s = barEffect c (tlpIn s) := by simp [hostBar, h, hw]

/-- An access that waits stands last among those that wait at the host's port. -/
theorem joins_holdBar (c : Instr) (s : State) : Joins .host c s (holdBar c (tlpIn s)) := by
  simp [Joins, holdBar]

end Sys2Proof.Machine
end

section
/-!
PROOF. Writes to the expert registers (R10, R26, R368, R533, R534; O34): no such register lies in a unit that can be gated, a wake changes
none of them, and EXPERT_CLR changes no bit of one but OVR.
-/

namespace Sys2Proof.Machine
open Sys2Proof

/-! ## Where the expert registers stand (R533) -/

theorem mod_eq_zero_of_isExpert {off : Nat} (h : isExpert off = true) : off % 8 = 0 := by
  simp only [isExpert, Bool.and_eq_true, beq_iff_eq] at h
  exact h.1.1

/-- No expert register belongs to a unit of CLK_GATE (R457). -/
theorem gateOf_of_isExpert {off : Nat} (h : isExpert (off / 8 * 8) = true) : gateOf off = none := by
  simp only [isExpert, Bool.and_eq_true, Bool.or_eq_true, beq_iff_eq, decide_eq_true_eq, bne_iff_ne] at h
  unfold gateOf
  repeat rw [if_neg (by omega)]

theorem gatedOff_of_isExpert (s : State) {off : Nat} (h : isExpert (off / 8 * 8) = true) : gatedOff s off = false := by
  simp [gatedOff, gateOf_of_isExpert h]

/-! ## A wake on demand leaves them alone (R368) -/

/-- What decides about the expert registers: their values, and whether the image enables expert control. -/
def expertPart (s : State) : Table (BitVec 32) × Bool := (s.expert, s.glb.expertEn)

/-- The wake of one domain with `n` channels: a free value tells whether it fails, and at which channel. -/
def tryWake (cause n : Nat) (up : State → State) (s : State) : State :=
  let (v, s) := free s
  if v % 2 = 1 then onGlb (fun g => { g with wakeBad := some (cause, v / 2 % n) }) s else up s

/-- The wake of the DRAM channels. -/
def wakeDram (s : State) : State :=
  if s.clk.dram = 0xFFFF then s else tryWake 4 16 (onClk fun c => { c with dram := 0xFFFF }) s

/-- The wake of the media channels, for a block below CCH. -/
def wakeMedia (off : Nat) (s : State) : State :=
  if 0x0400000 ≤ off ∨ s.glb.wakeBad.isSome ∨ s.clk.media = 0xFFFFFFFF then s
  else tryWake 5 32 (fun s => readTrims (onClk (fun c => { c with media := 0xFFFFFFFF }) s)) s

/-- An access wakes at most the DRAM channels, then the media channels. -/
theorem wakeFor_eq (off : Nat) (s : State) : wakeFor off s =
    if s.glb.step < 3 ∨ 8 ≤ s.glb.step ∨ s.glb.failed ∨ s.glb.wakeBad.isSome ∨ off < 0x0200000 ∨ 0x0500000 ≤ off then s
    else wakeMedia off (wakeDram s) := rfl

theorem expertPart_tryWake (cause n : Nat) {up : State → State} (hup : ∀ s, expertPart (up s) = expertPart s) (s : State) :
    expertPart (tryWake cause n up s) = expertPart s := by
  simp only [tryWake]
  split
  · rfl
  · exact hup _

theorem expertPart_wakeDram (s : State) : expertPart (wakeDram s) = expertPart s := by
  unfold wakeDram
  split
  · rfl
  · exact expertPart_tryWake 4 16 (up := onClk _) (fun _ => rfl) s

theorem expertPart_wakeMedia (off : Nat) (s : State) : expertPart (wakeMedia off s) = expertPart s := by
  unfold wakeMedia
  split
  · rfl
  · exact expertPart_tryWake 5 32 (up := fun s => readTrims (onClk _ s)) (fun _ => rfl) s

theorem expertPart_wakeFor (off : Nat) (s : State) : expertPart (wakeFor off s) = expertPart s := by
  rw [wakeFor_eq]
  split
  · rfl
  · rw [expertPart_wakeMedia, expertPart_wakeDram]

@[simp] theorem wakeFor_expert (off : Nat) (s : State) : (wakeFor off s).expert = s.expert := congrArg Prod.fst (expertPart_wakeFor off s)

@[simp] theorem wakeFor_expertEn (off : Nat) (s : State) : (wakeFor off s).glb.expertEn = s.glb.expertEn :=
  congrArg Prod.snd (expertPart_wakeFor off s)

/-! ## A write of an expert register (R10, R526) -/

/-- What a write of `size` bytes at `off` puts into its 8-byte slot. -/
def slotWrite (cls off size : Nat) (v : BitVec 64) (s : State) : SlotWr :=
  let lo := size == 8 || off % 8 == 0
  let hi := size == 8 || off % 8 == 4
  let a := (if size = 8 then v.toNat else v.toNat % 2 ^ 32) * 2 ^ (8 * (off % 8))
  let old := readSlot s cls (off / 8 * 8)
  { off := off / 8 * 8
    m := (if lo then a % 2 ^ 32 else old % 2 ^ 32) + (if hi then a / 2 ^ 32 % 2 ^ 32 else old / 2 ^ 32 % 2 ^ 32) * 2 ^ 32
    a := a % 2 ^ 64, lo, hi, cls }

theorem regWrite_eq (cls off size : Nat) (v : BitVec 64) (s : State) : regWrite cls off size v s =
    if !served s off then s
    else if gatedOff s off then onClk (fun c => { c with gatedAccess := true }) s
    else if (wakeFor off s).glb.wakeBad != s.glb.wakeBad then wakeFor off s
    else writeSlot (slotWrite cls off size v s) (wakeFor off s) := rfl

theorem writeSlot_expert {w : SlotWr} (h : isExpert w.off = true) (s : State) :
    writeSlot w s = if s.glb.expertEn ∧ w.lo then setExpert w.off (w.m % 2 ^ 32) s else s := by simp [writeSlot, h]

/-- A write of an expert register wakes its block's domain, and takes effect only where that succeeds and expert control is enabled. -/
theorem regWrite_expert (cls size : Nat) {off : Nat} (v : BitVec 64) {s : State} (h : isExpert (off / 8 * 8) = true)
    (hs : served s off = true) : regWrite cls off size v s =
      if (wakeFor off s).glb.wakeBad = s.glb.wakeBad ∧ s.glb.expertEn = true ∧ (slotWrite cls off size v s).lo = true then
        setExpert (off / 8 * 8) ((slotWrite cls off size v s).m % 2 ^ 32) (wakeFor off s)
      else wakeFor off s := by
  have hw := writeSlot_expert (w := slotWrite cls off size v s) h (wakeFor off s)
  rw [wakeFor_expertEn] at hw
  rw [regWrite_eq, hs, gatedOff_of_isExpert s h, hw]
  by_cases hb : (wakeFor off s).glb.wakeBad = s.glb.wakeBad
  · simp [hb, slotWrite]
  · simp [hb]

/-- A write of 4 or 8 bytes at the slot's own offset gives its lower half. -/
theorem slotWrite_low (cls off size : Nat) (v : BitVec 64) (s : State) (h0 : off % 8 = 0) (hz : size = 4 ∨ size = 8) :
    (slotWrite cls off size v s).lo = true ∧ (slotWrite cls off size v s).m % 2 ^ 32 = v.toNat % 2 ^ 32 := by
  rcases hz with rfl | rfl
  · simp [slotWrite, h0]
  · simp [slotWrite, h0]

theorem regWrite_expert_of_off (cls size : Nat) {off : Nat} (v : BitVec 64) {s : State} (hx : isExpert (off / 8 * 8) = true)
    (hen : s.glb.expertEn = false) :
    regWrite cls off size v s = (if served s off then wakeFor off s else s) ∧ (regWrite cls off size v s).expert = s.expert := by
  cases hs : served s off with
  | false =>
    have hr : regWrite cls off size v s = s := by simp [regWrite_eq, hs]
    simp [hr]
  | true =>
    have hr : regWrite cls off size v s = wakeFor off s := by simp [regWrite_expert cls size v hx hs, hen]
    simp [hr]

theorem regWrite_expert_of_on (cls : Nat) {off size : Nat} (v : BitVec 64) {s : State} (hx : isExpert off = true)
    (hz : size = 4 ∨ size = 8) (hen : s.glb.expertEn = true) (hs : served s off = true) : regWrite cls off size v s =
      if (wakeFor off s).glb.wakeBad = s.glb.wakeBad then setExpert off (v.toNat % 2 ^ 32) (wakeFor off s) else wakeFor off s := by
  have h0 := mod_eq_zero_of_isExpert hx
  have hbase : off / 8 * 8 = off := by omega
  obtain ⟨hlo, hm⟩ := slotWrite_low cls off size v s h0 hz
  rw [regWrite_expert cls size v (hbase.symm ▸ hx) hs, hm, hbase]
  simp only [hen, hlo, and_true]

/-! ## Tables whose default depends on the index -/

theorem tget_of_unlisted {α : Type} (d : α) {t : Table α} {i : Nat} (h : ∀ p ∈ t, p.1 ≠ i) : tget d t i = d := by
  induction t with
  | nil => rfl
  | cons p t ih =>
    rw [tget, if_neg (h p List.mem_cons_self).symm]
    exact ih fun q hq => h q (List.mem_cons_of_mem p hq)

section
variable {α : Type} [DecidableEq α]

/-- A write of what an unlisted index reads as lists nothing. -/
theorem tset_default_of_unlisted (d : α) {t : Table α} {i : Nat} (h : ∀ p ∈ t, p.1 ≠ i) : tset d t i d = t := by
  induction t with
  | nil => simp [tset]
  | cons p t ih =>
    simp only [tset, if_neg (h p List.mem_cons_self).symm, ih fun q hq => h q (List.mem_cons_of_mem p hq), if_true, ite_self]

/-- An index that was not listed holds what is written to it, whatever the value and whatever else is listed. -/
theorem tget_tset_of_unlisted (d : α) {t : Table α} {i : Nat} (v : α) (h : ∀ p ∈ t, p.1 ≠ i) : tget d (tset d t i v) i = v := by
  by_cases hv : v = d
  · rw [hv, tset_default_of_unlisted d h, tget_of_unlisted d h]
  · exact tget_tset_of_ne d t i hv

/-- Every other index reads as it did, also by another default than that of the write. -/
theorem tget_tset_unlike (d e : α) (t : Table α) {i j : Nat} (v : α) (h : j ≠ i) : tget e (tset d t i v) j = tget e t j := by
  induction t with
  | nil => grind [tset, tget]
  | cons p t ih => grind [tset, tget]

/-- `acc` with the values of `t`, each changed by `f`; what an unlisted index reads as depends on the index. -/
def tmapInto (d : Nat → α) (f : α → α) (t acc : Table α) : Table α := t.foldl (fun t p => tset (d p.1) t p.1 (f p.2)) acc

theorem tget_tmapInto_of_unlisted (d : Nat → α) (f : α → α) {t : Table α} (acc : Table α) (e : α) {i : Nat}
    (h : ∀ p ∈ t, p.1 ≠ i) : tget e (tmapInto d f t acc) i = tget e acc i := by
  induction t generalizing acc with
  | nil => rfl
  | cons p t ih =>
    exact (ih _ fun q hq => h q (List.mem_cons_of_mem p hq)).trans (tget_tset_unlike (d p.1) e acc (f p.2) (h p List.mem_cons_self).symm)

/-- Each index of a rising table is changed by `f`, where `f` keeps what an unlisted one reads as. -/
theorem tget_tmapInto (d : Nat → α) (f : α → α) {t acc : Table α} {i : Nat} (ht : keysRise t = true)
    (hacc : ∀ p ∈ acc, p.1 ≠ i) (hd : f (d i) = d i) : tget (d i) (tmapInto d f t acc) i = f (tget (d i) t i) := by
  induction t generalizing acc with
  | nil => exact (tget_of_unlisted _ hacc).trans hd.symm
  | cons p t ih =>
    obtain ⟨k, v⟩ := p
    obtain ⟨hk, ht⟩ := keysRise_cons.mp ht
    by_cases hi : i = k
    · subst hi
      have rest := tget_tmapInto_of_unlisted d f (tset (d i) acc i (f v)) (d i) fun p hp => Nat.ne_of_gt (hk p hp)
      rw [tget, if_pos rfl]
      exact rest.trans (tget_tset_of_unlisted (d i) (f v) hacc)
    · rw [tget, if_neg hi]
      refine ih ht fun p hp => ?_
      rcases mem_tset hp with hp | rfl
      · exact hacc p hp
      · exact Ne.symm hi

end

/-! ## The reset values (R533) -/

theorem nth_getD_lt {l : List Nat} {b : Nat} (i : Nat) (h : ∀ x ∈ l, x < b) (hb : 0 < b) : (nth l i).getD 0 < b := by
  induction l generalizing i with
  | nil => exact hb
  | cons x l ih =>
    cases i with
    | zero => exact h x List.mem_cons_self
    | succ i => exact ih i fun y hy => h y (List.mem_cons_of_mem x hy)

theorem ite_lt_of_lt {c : Prop} [Decidable c] {a b n : Nat} (ha : a < n) (hb : b < n) : (if c then a else b) < n := by
  split
  · exact ha
  · exact hb

/-- OVR is 0 in every expert register's reset value. -/
theorem expertReset_lt (off : Nat) : expertReset off < 2 ^ 31 := by
  unfold expertReset
  repeat' apply ite_lt_of_lt
  any_goals exact nth_getD_lt _ (by decide) (by decide)
  all_goals decide

theorem clearOvr_expertReset (off : Nat) : BitVec.ofNat 32 (expertReset off) &&& 0x7FFFFFFF = BitVec.ofNat 32 (expertReset off) := by
  have h := expertReset_lt off
  apply BitVec.eq_of_toNat_eq
  rw [BitVec.toNat_and, BitVec.toNat_ofNat, Nat.mod_eq_of_lt (by omega)]
  exact (Nat.and_two_pow_sub_one_eq_mod _ 31).trans (Nat.mod_eq_of_lt h)

/-! ## EXPERT_CLR (R534) -/

theorem expertClr_of_off {s : State} (h : s.glb.expertEn = false) : expertClr s = s := by simp [expertClr, h]

theorem expertClr_of_on {s : State} (h : s.glb.expertEn = true) : expertClr s =
    { s with expert := tmapInto (fun off => BitVec.ofNat 32 (expertReset off)) (· &&& 0x7FFFFFFF) s.expert [] } := by
  simp [expertClr, h, tmapInto]

/-- GLB is served in every state, and it has no clock gate. -/
theorem barEffect_expertClr (s : State) : barEffect .expertClr s = expertClr s := by
  have hs : served s 0x0000040 = true := by simp [served]
  have hg : gatedOff s 0x0000040 = false := rfl
  simp [barEffect, hostWrites, hs, hg]

theorem takes_expertClr {s t : State} (h : hostBar .expertClr s = t) : Takes .expertClr s t := by
  subst h
  rfl

theorem hostBar_expertClr {s : State} (h : HostReaches s 0x0000040) : hostBar .expertClr s = expertClr (tlpIn s) := by
  obtain ⟨hup, -, -, hw⟩ := h
  rw [hostBar_of_free _ hup hw, barEffect_expertClr]

/-- Settles O34: a write of an expert register is a wake and, under expert control, `setExpert`. -/
theorem expertWritesNeedExpertControl : Obligations.ExpertWritesNeedExpertControl := by
  unfold Obligations.ExpertWritesNeedExpertControl
  refine ⟨fun s cls off size v hx hen => ?_, fun s cls off size v hx hz hen hs => ?_, fun s hr hen => ?_, fun s hr hen hwf => ?_,
    fun s hup => takes_expertClr (hostBar_of_down _ hup),
    fun s hup hw => ⟨_, rfl, takes_expertClr (hostBar_of_waits _ hup hw), joins_holdBar _ s⟩⟩
  · exact regWrite_expert_of_off cls size v hx hen
  · exact regWrite_expert_of_on cls v hx hz hen hs
  · exact takes_expertClr ((hostBar_expertClr hr).trans (expertClr_of_off (by simpa using hen)))
  · obtain ⟨-, -, -, -, -, hrise, -⟩ := hwf
    refine ⟨_, takes_expertClr ((hostBar_expertClr hr).trans (expertClr_of_on (by simpa using hen))), fun off _ => ?_⟩
    rw [tlpIn_expert]
    exact tget_tmapInto (fun off => BitVec.ofNat 32 (expertReset off)) _ hrise (fun _ hp => absurd hp List.not_mem_nil)
      (clearOvr_expertReset off)

end Sys2Proof.Machine
end

section
/-!
SUPPORT. What the event recorder leaves alone (R516 to R519), and how a command's meaning tells what it takes the state to.
-/

namespace Sys2Proof.Machine
open Sys2Proof

theorem takes_of_done {c : Instr} {s t : State} (h : exec c s = done s t) : Takes c s t := h

theorem engages_of_settled {c : Instr} {s t : State} (h : exec c s = settled s t) : Engages c s t := h

/-- The state without what recording an event touches: the recorder, and the appends of the cornerstone flash. -/
def besideRecording (s : State) : State := { s with evr := {}, flash := {} }

@[simp] theorem besideRecording_onEvr (f : Evr → Evr) (s : State) : besideRecording (onEvr f s) = besideRecording s := rfl

@[simp] theorem besideRecording_recordEvent (e : EvRec) (s : State) : besideRecording (recordEvent e s) = besideRecording s := by
  simp only [recordEvent, appendSlot]
  repeat' split
  all_goals rfl

/-- Recording or suppressing an event changes nothing else. -/
theorem besideRecording_event (code src operand : Nat) (s : State) : besideRecording (event code src operand s) = besideRecording s := by
  simp only [event]
  repeat' split
  all_goals simp

section
variable (code src operand : Nat) (s : State)
@[simp] theorem event_fuses : (event code src operand s).fuses = s.fuses := congrArg (·.fuses) (besideRecording_event code src operand s)
@[simp] theorem event_medium : (event code src operand s).medium = s.medium := congrArg (·.medium) (besideRecording_event code src operand s)
@[simp] theorem event_tck : (event code src operand s).tck = s.tck := congrArg (·.tck) (besideRecording_event code src operand s)
@[simp] theorem event_now : (event code src operand s).now = s.now := congrArg (·.now) (besideRecording_event code src operand s)
@[simp] theorem event_med : (event code src operand s).med = s.med := congrArg (·.med) (besideRecording_event code src operand s)
@[simp] theorem event_cch : (event code src operand s).cch = s.cch := congrArg (·.cch) (besideRecording_event code src operand s)
@[simp] theorem event_dir : (event code src operand s).dir = s.dir := congrArg (·.dir) (besideRecording_event code src operand s)
end

end Sys2Proof.Machine
end

section
/-!
PROOF. The flywheel (R65, R66, R68; O7): what a missed tick, an edge in flywheel operation and the average of the intervals change.
-/

namespace Sys2Proof.Machine
open Sys2Proof

/-- A missed tick that is not the fourth in a row is counted, and nothing is recorded (R65). -/
theorem missTick_of_ne {s : State} (h : s.tck.missRun ≠ 3) : missTick s =
    { s with tck := { s.tck with missed := min (s.tck.missed + 1) 65535, missRun := s.tck.missRun + 1, inputOk := false, acceptRun := 0,
                                 avgArmed := false } } := by
  have h4 : s.tck.missRun + 1 ≠ 4 := by omega
  simp only [missTick, onTck_tck, ownStart, h4, if_false]
  rfl

/-- The fourth missed tick in a row starts flywheel operation, and TICK_LOST is recorded with MISSED_TICKS (R65). -/
theorem missTick_of_eq {s : State} (h : s.tck.missRun = 3) : missTick s = event 0x0101 1 (min (s.tck.missed + 1) 65535)
    { s with tck := { s.tck with missed := min (s.tck.missed + 1) 65535, missRun := 4, inputOk := false, acceptRun := 0,
                                 avgArmed := false, flywheel := true, edgeRun := 0, returning := false, avgSum := 0, avgCnt := 0 } } := by
  simp only [missTick, onTck_tck, ownStart, h, if_true]
  simp only [onTck, h]
  rfl

theorem execFlywheelClear_of_le {s : State} (h : 16 ≤ s.tck.acceptRun) :
    execFlywheelClear s = done s { s with tck := { s.tck with flywheel := false } } := by
  rw [execFlywheelClear, if_pos h]
  rfl

/-- An edge of flywheel operation that comes while no return is under way (R66). -/
theorem execFlywheelInputEdge_eq (gap since : Nat) {s : State} (hr : s.tck.running = true) (hs : s.tck.source ≠ 0b01)
    (ho : ownCourses s = true) (hn : s.tck.returning = false) : execFlywheelInputEdge gap since s =
      if 1 ≤ s.tck.edgeRun ∧ 95 * periodPs s ≤ 100 * gap ∧ 100 * gap ≤ 105 * periodPs s then
        done s { s with tck := { s.tck with returning := true, edgeRun := 2 } }
      else done s { s with tck := { s.tck with edgeRun := 1 } } := by
  unfold execFlywheelInputEdge
  exact (if_neg (by simp [hr, hs, ho, hn])).trans (if_neg (by simp [hn]))

/-- The average of 256 intervals is compared with T in both directions (R68). -/
theorem execPeriodAverage_of_le {s : State} (h : 256 ≤ s.tck.avgCnt) : execPeriodAverage s = done s { s with tck := { s.tck with
      mismatch := decide (101 * (periodPs s * s.tck.avgCnt) < 100 * s.tck.avgSum ∨ 100 * s.tck.avgSum < 99 * (periodPs s * s.tck.avgCnt))
      avgSum := 0
      avgCnt := 0 } } := by
  have hn : ¬ s.tck.avgCnt < 256 := by omega
  simp only [execPeriodAverage, hn, if_false, Nat.mul_assoc, Bool.decide_or]
  rfl

/-- Settles O7: the cases of a missed tick, and one equation for each of the three commands. -/
theorem theFlywheelTakesOverAndReturns : Obligations.TheFlywheelTakesOverAndReturns := by
  unfold Obligations.TheFlywheelTakesOverAndReturns
  refine ⟨fun s => ?_, fun s h => takes_of_done (execFlywheelClear_of_le h), fun s gap since hr hs ho hn he hlo hhi => ?_,
    fun s gap since hr hs ho hn hbad => ?_, fun s h => takes_of_done (execPeriodAverage_of_le h)⟩
  · by_cases h : s.tck.missRun = 3
    · simp [missTick_of_eq h, h]
    · simp [missTick_of_ne h, h]
  · exact takes_of_done ((execFlywheelInputEdge_eq gap since hr hs ho hn).trans (if_pos ⟨he, hlo, hhi⟩))
  · exact takes_of_done ((execFlywheelInputEdge_eq gap since hr hs ho hn).trans (if_neg (by omega)))

end Sys2Proof.Machine
end

section
/-!
PROOF. The program windows (R36, R46, R50, R557; O8): when they are fixed, the media engine closes its counts of the course before.
-/

namespace Sys2Proof.Machine
open Sys2Proof

/-- A course runs, and one read of bank 0 was counted in the course before it. -/
def bankCounted : State := { tck := { running := true }, med := { bankPrev := [(0, 1)] } }

/-- Refutes O8: the fixing of the windows clears the counts of reads by bank, so the media engine is not as it was. -/
theorem not_theWindowsAreFixedBeforeTheGuard : ¬ Obligations.TheWindowsAreFixedBeforeTheGuard := by
  unfold Obligations.TheWindowsAreFixedBeforeTheGuard
  intro h
  obtain ⟨⟨t, ht, -, -, -, hmed⟩, -⟩ := h bankCounted rfl rfl
  have hfix : exec .programWindowFix bankCounted = .next (fixWindows bankCounted) := rfl
  have hcleared : (fixWindows bankCounted).med.bankPrev = [] := by decide
  have hsame : fixWindows bankCounted = { t with pending := [] } := Host.Outcome.next.inj (hfix.symm.trans ht)
  have hkept : t.med.bankPrev = [(0, 1)] := congrArg (·.bankPrev) hmed
  rw [hsame] at hcleared
  exact absurd (hkept.symm.trans hcleared) (by decide)

end Sys2Proof.Machine
end

section
/-!
PROOF. What reset leaves (R33, R360, R492, R507, R531; O60; the reset state is that of log 4).
-/

namespace Sys2Proof.Machine
open Sys2Proof

/-- Settles O60: the reset state lists no port, queue or link, so each reads as its reset values. -/
theorem resetLeavesTheRulesValues : Obligations.ResetLeavesTheRulesValues := by
  unfold Obligations.ResetLeavesTheRulesValues
  have hport (p : Nat) : port State.reset p = {} := rfl
  have hqueue (q : Nat) : queue State.reset q = {} := rfl
  have hlink (i : Nat) : link State.reset i = {} := rfl
  refine ⟨rfl, rfl, rfl, rfl, rfl, rfl, rfl, rfl, fun p => ?_, fun q => ?_, fun i => ?_, rfl, rfl, rfl, rfl, rfl, rfl, rfl, rfl, rfl, rfl⟩
  · simp [hport]
  · simp [hqueue]
  · simp [hlink]

end Sys2Proof.Machine
end

section
/-!
PROOF. Levels and abandoned programs (R41, R52; O9): a fall changes one level, and a program that is abandoned returns to the queue
without its page.
-/

namespace Sys2Proof.Machine
open Sys2Proof

/-! ## Programs by their identifier -/

/-- The first program of an identifier stays the first one when every program of that identifier is changed. -/
theorem find?_progs_onProg {i : Nat} {f : Prog → Prog} {s : State} {p : Prog} (hid : ∀ q, (f q).id = q.id)
    (h : (s.med.progs.find? fun q => q.id == i) = some p) : ((onProg i f s).med.progs.find? fun q => q.id == i) = some (f p) := by
  have hsame : ((fun q : Prog => q.id == i) ∘ fun q => if q.id = i then f q else q) = fun q => q.id == i := by
    funext q
    by_cases hq : q.id = i
    · simp [hq, hid]
    · simp [hq]
  have hp : p.id = i := by simpa using List.find?_some h
  rw [onProg_med, List.find?_map, hsame, h]
  simp [hp]

/-- A program that returns to the queue has no page, and all of its groups are to come (R41, R88). -/
theorem find?_progs_requeue {p : Prog} {bank i : Nat} {s : State} {q : Prog} (hp : p.id = i)
    (h : (s.med.progs.find? fun x => x.id == i) = some q) : ((requeue p bank s).med.progs.find? fun x => x.id == i) =
      some { q with ppn := none, bank, done := 0, half := false, first := none, running := false } := by
  subst hp
  exact find?_progs_onProg (fun _ => rfl) h

theorem length_progs_requeue (p : Prog) (bank : Nat) (s : State) : (requeue p bank s).med.progs.length = s.med.progs.length := by
  simp [requeue]

/-! ## The close of a block (R76) -/

/-- The state without what the close of a block touches: the block records and the order of closing. -/
def besideBlocks (s : State) : State := { s with med := { s.med with blocks := [], chSegs := [], order := 0 } }

/-- The close of a block changes nothing else. -/
theorem besideBlocks_closeBlock (b : Nat) (s : State) : besideBlocks (closeBlock b s) = besideBlocks s := by
  simp only [closeBlock]
  exact (apply_ite besideBlocks _ _ _).trans (ite_self _)

section
variable (b : Nat) (s : State)
@[simp] theorem closeBlock_progs : (closeBlock b s).med.progs = s.med.progs := congrArg (·.med.progs) (besideBlocks_closeBlock b s)
@[simp] theorem closeBlock_cntAbandon : (closeBlock b s).med.cntAbandon = s.med.cntAbandon :=
  congrArg (·.med.cntAbandon) (besideBlocks_closeBlock b s)
@[simp] theorem closeBlock_cch : (closeBlock b s).cch = s.cch := congrArg (·.cch) (besideBlocks_closeBlock b s)
@[simp] theorem closeBlock_dir : (closeBlock b s).dir = s.dir := congrArg (·.dir) (besideBlocks_closeBlock b s)
end

/-! ## PROGRAM_ABANDON (R41) -/

/-- An abandoned program is counted; the write staging is `staging` from then on. -/
def countAbandon (staging : List Stage) : State → State := onMed fun m => { m with cntAbandon := sat 64 m.cntAbandon 1, staging }

/-- Whatever the program is for, an event is recorded, and the program is counted and returns to the queue; only the write staging may be
marked besides. -/
theorem progAbandon_eq (p : Prog) (ppn : Nat) (s : State) : ∃ staging e, besideRecording e = besideRecording s ∧
    progAbandon p ppn s = closeBlock (blockOfPpn ppn) (requeue p p.bank (countAbandon staging e)) := by
  -- what the recorder makes of the state stays closed: only `hbeside` is used of it
  obtain ⟨e, he⟩ : ∃ e, event 0x0202 (mediaUnit (channelOfPpn ppn)) ppn s = e := ⟨_, rfl⟩
  have hbeside : besideRecording e = besideRecording s := he ▸ besideRecording_event _ _ _ s
  simp only [progAbandon, he]
  cases p.kind with
  | write u =>
    by_cases hc : classOf (onMed (fun m => { m with cntAbandon := sat 64 m.cntAbandon 1 }) e) u ≤ 1
    · exact ⟨_, e, hbeside, congrArg (closeBlock _) (if_pos hc)⟩
    · exact ⟨_, e, hbeside, congrArg (closeBlock _) (if_neg hc)⟩
  | copy | mapPage | journal | segment | imported => exact ⟨e.med.staging, e, hbeside, rfl⟩

theorem execProgramAbandon_eq {i f ppn : Nat} {p : Prog} {s : State} (h : (s.med.progs.find? fun q => q.id == i) = some p)
    (hppn : p.ppn = some ppn) (hf : p.first = some f) :
    execProgramAbandon i s = if f + 256 ≤ s.tck.course then settled s (progAbandon p ppn s) else done s s := by
  simp only [execProgramAbandon, h, hppn, hf]

theorem programAbandon_frame {i ppn : Nat} {p : Prog} {s : State} (h : (s.med.progs.find? fun q => q.id == i) = some p) :
    (progAbandon p ppn s).med.cntAbandon = sat 64 s.med.cntAbandon 1 ∧ (progAbandon p ppn s).med.progs.length = s.med.progs.length ∧
      (progAbandon p ppn s).cch = s.cch ∧ (progAbandon p ppn s).dir = s.dir ∧
      ((progAbandon p ppn s).med.progs.find? fun q => q.id == i) =
        some { p with ppn := none, done := 0, half := false, first := none, running := false } := by
  obtain ⟨staging, e, hbeside, hs⟩ := progAbandon_eq p ppn s
  have hmed : e.med = s.med := congrArg (·.med) hbeside
  have hcch : e.cch = s.cch := congrArg (·.cch) hbeside
  have hdir : e.dir = s.dir := congrArg (·.dir) hbeside
  have hp : p.id = i := by simpa using List.find?_some h
  rw [hs]
  refine ⟨by simp [requeue, countAbandon, hmed], by simp [length_progs_requeue, countAbandon, hmed], by simp [requeue, countAbandon, hcch],
    by simp [requeue, countAbandon, hdir], ?_⟩
  rw [closeBlock_progs]
  exact find?_progs_requeue hp (by simpa [countAbandon, hmed] using h)

/-! ## ESCALATION_FALL (R52) -/

theorem escFall_of_le {e : Esc} (h : 64 ≤ e.below) : escFall e = { level := e.high, below := 0, high := 0 } := if_pos h

theorem execEscalationFall_of_le {act loc : Nat} {s : State} (h : 64 ≤ (tget {} s.tck.esc (escKey act loc)).below) :
    execEscalationFall act loc s = done s { s with tck := { s.tck with esc := tmod {} s.tck.esc (escKey act loc) escFall } } :=
  congrArg (done s) (if_pos h)

theorem execEscalationFall_of_lt {act loc : Nat} {s : State} (h : (tget {} s.tck.esc (escKey act loc)).below < 64) :
    execEscalationFall act loc s = done s s := congrArg (done s) (if_neg (by omega))

/-- A level falls to one above idle: it is listed in the table whatever the table's form. -/
theorem tget_tmod_escFall {t : Table Esc} {k : Nat} (h : 64 ≤ (tget {} t k).below) (hhigh : 0 < (tget {} t k).high) :
    tget {} (tmod {} t k escFall) k = { level := (tget {} t k).high, below := 0, high := 0 } := by
  rw [tmod, escFall_of_le h]
  refine tget_tset_of_ne _ _ _ fun hidle => ?_
  have : (tget {} t k).high = 0 := congrArg (·.level) hidle
  omega

/-- Settles O9: the table's laws for a level's fall, and the program's return to the queue. -/
theorem levelsFallAndProgramsAreAbandoned : Obligations.LevelsFallAndProgramsAreAbandoned := by
  unfold Obligations.LevelsFallAndProgramsAreAbandoned
  refine ⟨fun s act loc h => ⟨_, rfl, takes_of_done (execEscalationFall_of_le h), tget_tmod_escFall h, fun k hk => tget_tmod_other _ _ _ hk⟩,
    fun s act loc h => takes_of_done (execEscalationFall_of_lt h), fun e h => escFall_of_le h, fun s i f ppn p h hppn hf => ?_⟩
  have heq := execProgramAbandon_eq h hppn hf
  refine ⟨fun hdue => ?_, fun hearly => takes_of_done (heq.trans (if_neg (by omega)))⟩
  obtain ⟨hcnt, hlen, hcch, hdir, hfind⟩ := programAbandon_frame (ppn := ppn) h
  exact ⟨_, rfl, engages_of_settled (heq.trans (if_pos hdue)), hcnt, hlen, hcch, hdir, p.bank, hfind⟩

end Sys2Proof.Machine
end

section
/-!
SUPPORT. What a trap (R483) and a journal record (R90) leave alone, and the retirement of a block whose bank has no SPARE block left
(R110, R111).
-/

namespace Sys2Proof.Machine
open Sys2Proof

/-- What both branches keep, the choice between them keeps. -/
theorem ite_keeps {β : Type} (g : State → β) {c : Prop} [Decidable c] {s t : State} {v : β} (hs : g s = v) (ht : g t = v) :
    g (if c then s else t) = v := by
  split
  · exact hs
  · exact ht

/-! ## Traps and journal records -/

@[simp] theorem besideCounting_msix (v : Nat) (s : State) : besideCounting (msix v s) = besideCounting s := by
  unfold msix
  rw [besideCounting_sendMsix]
  split
  · rfl
  · exact besideCounting_count _ _ _ s

/-- The state without what a trap touches: the error registers, and what its message touches. -/
def besideTrap (s : State) : State := { besideCounting s with err := {} }

/-- A trap changes nothing else. -/
theorem besideTrap_trap (bit : Nat) (s : State) : besideTrap (trap bit s) = besideTrap s := by
  have hmsix (v : Nat) (t : State) : besideTrap (msix v t) = besideTrap t := by simp only [besideTrap, besideCounting_msix]
  exact ite_keeps besideTrap (hmsix _ _) rfl

@[simp] theorem trap_fuses (bit : Nat) (s : State) : (trap bit s).fuses = s.fuses := congrArg (·.fuses) (besideTrap_trap bit s)
@[simp] theorem trap_medium (bit : Nat) (s : State) : (trap bit s).medium = s.medium := congrArg (·.medium) (besideTrap_trap bit s)
@[simp] theorem trap_med (bit : Nat) (s : State) : (trap bit s).med = s.med := congrArg (·.med) (besideTrap_trap bit s)

/-- The state without what a journal record touches: the journal buffer, and what waits for it. -/
def besideJournal (s : State) : State := { s with med := { s.med with jbuf := [], jwait := [], jseq := 0 } }

/-- A record that enters the journal changes nothing else. -/
theorem besideJournal_enter (r : JRec) (urgent : Bool) (s : State) : besideJournal (enter r urgent s) = besideJournal s := by
  simp only [enter, onMed, enterPage]
  repeat' split
  all_goals rfl

@[simp] theorem enter_blocks (r : JRec) (urgent : Bool) (s : State) : (enter r urgent s).med.blocks = s.med.blocks :=
  congrArg (·.med.blocks) (besideJournal_enter r urgent s)
@[simp] theorem enter_worn (r : JRec) (urgent : Bool) (s : State) : (enter r urgent s).med.worn = s.med.worn :=
  congrArg (·.med.worn) (besideJournal_enter r urgent s)
@[simp] theorem enter_fuses (r : JRec) (urgent : Bool) (s : State) : (enter r urgent s).fuses = s.fuses :=
  congrArg (·.fuses) (besideJournal_enter r urgent s)

/-! ## The bank's over-provision (R111) -/

/-- What the wear of the banks depends on: the part, the block records, and the banks that are worn. -/
def wearPart (s : State) : Fuses × Table Blk × List Nat := (s.fuses, s.med.blocks, s.med.worn)

theorem wearPart_event (code src operand : Nat) (s : State) : wearPart (event code src operand s) = wearPart s := by
  simp only [wearPart, event_fuses, event_med]

theorem wearPart_trap (bit : Nat) (s : State) : wearPart (trap bit s) = wearPart s := by
  simp only [wearPart, trap_fuses, trap_med]

section
variable {s t : State}
theorem dumpBlocks_congr (hf : t.fuses = s.fuses) : dumpBlocks t = dumpBlocks s := by rw [dumpBlocks, isBig, hf, dumpBlocks, isBig]

theorem blkDefault_congr (hf : t.fuses = s.fuses) : blkDefault t = blkDefault s := by
  funext b
  rw [blkDefault, dumpBlocks_congr hf, blkDefault]

theorem bankBlocks_congr (k : Nat) (hb : t.med.blocks = s.med.blocks) : bankBlocks t k = bankBlocks s k := by
  rw [bankBlocks, hb, bankBlocks]

theorem overProvision_congr (k : Nat) (hf : t.fuses = s.fuses) (hb : t.med.blocks = s.med.blocks) :
    overProvision t k = overProvision s k := by
  unfold overProvision retiredCount spareCount
  rw [bankBlocks_congr k hb, blkDefault_congr hf, dumpBlocks_congr hf]
end

theorem mem_addNew (k : Nat) (l : List Nat) : k ∈ addNew k l := by
  unfold addNew
  split
  · assumption
  · exact List.mem_cons_self

/-- A bank whose over-provision is below 512 blocks is worn, and the medium keeps that. -/
theorem mem_worn_checkWorn {k : Nat} {s : State} (hop : overProvision s k < 512) (hk : k ∉ s.med.worn) :
    k ∈ (checkWorn k s).medium.worn := by
  obtain ⟨e, he⟩ : ∃ e, event 0x0206 (mediaUnit (channelOfBank k)) (bankIndex s k) (onMedium (fun m => { m with worn := addNew k m.worn })
      (onMed (fun m => { m with worn := k :: m.worn }) s)) = e := ⟨_, rfl⟩
  have hworn : k ∈ e.medium.worn := by
    rw [← he, event_medium]
    exact mem_addNew k s.medium.worn
  simp only [checkWorn, if_pos (And.intro hop hk), he]
  by_cases hro : overProvision s k < 2 * floorF e ∧ k ∉ e.med.readOnly
  · rw [if_pos hro, trap_medium]
    exact hworn
  · rw [if_neg hro]
    exact hworn

/-! ## A retirement that finds no spare (R110) -/

/-- The block is RETIRED, and BLOCK_RETIRED is recorded. -/
def entersRetired (b cause : Nat) (s : State) : State :=
  event 0x0204 (mediaUnit (channelOfBank (bankOfBlock b))) (b + cause * 2 ^ 32)
    (onMed (fun m => { m with cntRetired := sat 64 m.cntRetired 1 })
      (onBlk b (fun x => { x with st := .retired, repointQ := false, rewriteQ := none }) (enter (.state .retired cause b) false s)))

/-- SPARES_EXHAUSTED is recorded, and its trap is taken, once. -/
def sparesExhausted (k : Nat) (s : State) : State :=
  let s := if k ∈ s.med.noSpare then s else
    event 0x0205 (mediaUnit (channelOfBank k)) (bankIndex s k) (onMed (fun m => { m with noSpare := k :: m.noSpare }) s)
  if (memErr s 7).spTrap then s else trap 3 (onMemErr 7 (fun m => { m with spTrap := true }) s)

theorem wearPart_sparesExhausted (k : Nat) (s : State) : wearPart (sparesExhausted k s) = wearPart s := by
  have htrap (t : State) : wearPart (if (memErr t 7).spTrap then t else trap 3 (onMemErr 7 (fun m => { m with spTrap := true }) t)) =
      wearPart t := ite_keeps wearPart rfl (wearPart_trap 3 _)
  by_cases hk : k ∈ s.med.noSpare
  · simp only [sparesExhausted, if_pos hk, htrap]
  · simp only [sparesExhausted, if_neg hk, htrap, wearPart_event]
    rfl

theorem wearPart_entersRetired (b cause : Nat) (s : State) : wearPart (entersRetired b cause s) =
    (s.fuses, tmod (blkDefault s b) s.med.blocks b fun x => { x with st := .retired, repointQ := false, rewriteQ := none }, s.med.worn) := by
  have hdefault : blkDefault (enter (.state .retired cause b) false s) = blkDefault s := blkDefault_congr (enter_fuses _ _ s)
  rw [entersRetired, wearPart_event]
  simp only [wearPart, onMed_fuses, onBlk_fuses, enter_fuses, onMed_med, onBlk_med, hdefault, enter_blocks, enter_worn]

/-- Where no block of the bank is SPARE, neither among those listed nor among the 300 of manufacture, the bank loses a block (R110). -/
theorem retire_of_noSpares {b cause : Nat} {s : State} (hlisted : ∀ p ∈ (entersRetired b cause s).med.blocks, p.2.st ≠ .spare)
    (hall : ∀ i < 300, (blk (entersRetired b cause s) (bankOfBlock b * 8192 + 7892 + i)).st ≠ .spare) :
    retire b cause s = checkWorn (bankOfBlock b) (sparesExhausted (bankOfBlock b) (entersRetired b cause s)) := by
  obtain ⟨e, he⟩ : ∃ e, entersRetired b cause s = e := ⟨_, rfl⟩
  rw [he] at hlisted hall ⊢
  have hrest : ((upto 300).map fun i => bankOfBlock b * 8192 + 7892 + i).find? (fun x => (blk e x).st == .spare) = none := by
    rw [List.find?_eq_none]
    intro x hx
    obtain ⟨i, hi, rfl⟩ := List.mem_map.mp hx
    simpa using hall i (List.mem_range.mp hi)
  have hown : (bankBlocks e (bankOfBlock b)).filter (fun p => p.2.st == .spare) = [] := by
    rw [List.filter_eq_nil_iff]
    intro p hp
    simpa using hlisted p (List.mem_of_mem_filter hp)
  -- any recorder would do: with `event` itself in the goal the kernel would run it on the unknown state
  delta entersRetired at he
  delta sparesExhausted
  generalize hr : retire = r
  delta retire at hr
  subst hr
  beta_reduce
  obtain ⟨ev, hev⟩ : ∃ ev, event = ev := ⟨_, rfl⟩
  rw [hev] at he ⊢
  simp only [he, hrest, hown, List.map_nil, List.head?_nil]

/-- A retirement that finds no spare, in a bank at the limit of its over-provision, is kept by the medium (R111). -/
theorem mem_worn_retire {b cause : Nat} {s : State} (hlisted : ∀ p ∈ (entersRetired b cause s).med.blocks, p.2.st ≠ .spare)
    (hall : ∀ i < 300, (blk (entersRetired b cause s) (bankOfBlock b * 8192 + 7892 + i)).st ≠ .spare)
    (hop : overProvision (entersRetired b cause s) (bankOfBlock b) < 512) (hk : bankOfBlock b ∉ s.med.worn) :
    bankOfBlock b ∈ (retire b cause s).medium.worn := by
  have hretire := retire_of_noSpares hlisted hall
  have hsame := wearPart_entersRetired b cause s
  obtain ⟨e, he⟩ : ∃ e, entersRetired b cause s = e := ⟨_, rfl⟩
  rw [he] at hretire hsame hop
  have hpart := wearPart_sparesExhausted (bankOfBlock b) e
  obtain ⟨w, hw⟩ : ∃ w, sparesExhausted (bankOfBlock b) e = w := ⟨_, rfl⟩
  rw [hw] at hretire hpart
  have hworn : w.med.worn = s.med.worn := (congrArg (·.2.2) hpart).trans (congrArg (·.2.2) hsame)
  rw [hretire]
  refine mem_worn_checkWorn ?_ (hworn ▸ hk)
  rwa [overProvision_congr _ (congrArg (·.1) hpart) (congrArg (·.2.1) hpart)]

/-- A listed block is not SPARE where no entry is. -/
theorem st_tget_ne_spare {d : Blk} {t : Table Blk} {i : Nat} (ht : ∀ p ∈ t, p.2.st ≠ .spare) (hi : ∃ p ∈ t, p.1 = i) :
    (tget d t i).st ≠ .spare := by
  induction t with
  | nil => simp at hi
  | cons q t ih =>
    rw [tget]
    split
    · exact ht q List.mem_cons_self
    · rename_i hq
      obtain ⟨p, hp, rfl⟩ := hi
      refine ih (fun p hp => ht p (List.mem_cons_of_mem q hp)) ⟨p, ?_, rfl⟩
      exact (List.mem_cons.mp hp).resolve_left fun h => hq (h ▸ rfl)

end Sys2Proof.Machine
end

section
/-!
PROOF. Pieces (R39, R96, R108, R111; O11): the reset that fails in a bank without spares may be the one that wears the bank, and the
medium keeps that.
-/

namespace Sys2Proof.Machine
open Sys2Proof

/-- Blocks 6,726 to 8,191 of bank 0 are RETIRED, the 300 that were SPARE at manufacture among them. -/
def retiredBlocks : Table Blk := (upto 1466).map fun i => (6726 + i, { st := .retired })

/-- The last strip of the reset of block 100 runs. -/
def lastStrip : Rst := { block := 100, owner := 2, rewrite := false, strip := 255, running := true }

/-- One more retirement in bank 0 leaves an over-provision of 511 blocks. -/
def wearingOut : State :=
  { tck := { running := true, fixed := true }
    med := { resets := [lastStrip], blocks := (100, { st := .pendingReset }) :: retiredBlocks } }

/-- The state in which the reset of block 100 has left the queue, its last strip counted. -/
def afterLastStrip : State := onMed (fun m => { m with resets := m.resets.filter fun q => q.block != 100 })
  (count (mediaUnit (channelOfBank (bankOfBlock 100))) 0x13 1 (fixWindows wearingOut))

theorem afterLastStrip_med : afterLastStrip.med = { wearingOut.med with resets := [] } := by decide +kernel

theorem afterLastStrip_fuses : afterLastStrip.fuses = wearingOut.fuses := by decide +kernel

theorem blocks_entersRetired_afterLastStrip :
    (entersRetired 100 1 afterLastStrip).med.blocks = (100, { st := .retired }) :: retiredBlocks := by
  have h := congrArg (·.2.1) (wearPart_entersRetired 100 1 afterLastStrip)
  rw [afterLastStrip_med] at h
  exact h

theorem overProvision_afterLastStrip : overProvision (entersRetired 100 1 afterLastStrip) (bankOfBlock 100) = 511 := by
  have hfuses := (congrArg Prod.fst (wearPart_entersRetired 100 1 afterLastStrip)).trans afterLastStrip_fuses
  have h := overProvision_congr (s := { med := { blocks := (100, { st := .retired }) :: retiredBlocks } }) (bankOfBlock 100)
    hfuses blocks_entersRetired_afterLastStrip
  exact h.trans (by decide +kernel)

theorem noneSpare_afterLastStrip : ∀ p ∈ (entersRetired 100 1 afterLastStrip).med.blocks, p.2.st ≠ .spare := by
  rw [blocks_entersRetired_afterLastStrip]
  intro p hp
  rcases List.mem_cons.mp hp with rfl | hp
  · exact nofun
  · obtain ⟨i, -, rfl⟩ := List.mem_map.mp hp
    exact nofun

theorem sparesRetired_afterLastStrip :
    ∀ i < 300, (blk (entersRetired 100 1 afterLastStrip) (bankOfBlock 100 * 8192 + 7892 + i)).st ≠ .spare := by
  intro i hi
  refine st_tget_ne_spare noneSpare_afterLastStrip ?_
  rw [blocks_entersRetired_afterLastStrip]
  refine ⟨(6726 + (1166 + i), { st := .retired }), List.mem_cons_of_mem _ (List.mem_map.mpr ⟨1166 + i, ?_, rfl⟩), ?_⟩
  · exact List.mem_range.mpr (by omega)
  · simp only [bankOfBlock]
    omega

/-- Refutes O11: the reset of block 100 of `wearingOut` fails, so bank 0 is worn from then on, and the medium is not as it was. -/
theorem not_piecesMoveProgramsAndResetsOn : ¬ Obligations.PiecesMoveProgramsAndResetsOn := by
  unfold Obligations.PiecesMoveProgramsAndResetsOn
  rintro ⟨-, -, -, -, hreset⟩
  obtain ⟨-, hlast⟩ := hreset wearingOut 100 lastStrip rfl rfl rfl (.inl rfl)
  obtain ⟨-, t, ht, -, -, -, hmedium⟩ := hlast (Nat.le_refl 255)
  have hworn : 0 ∈ (retire 100 1 afterLastStrip).medium.worn := by
    refine mem_worn_retire noneSpare_afterLastStrip sparesRetired_afterLastStrip ?_ ?_
    · rw [overProvision_afterLastStrip]
      decide
    · rw [afterLastStrip_med]
      decide
  have hfailed : t = retire 100 1 afterLastStrip := ht
  rw [← hfailed, hmedium] at hworn
  exact absurd hworn (by decide)

end Sys2Proof.Machine
end

section
/-!
SUPPORT. What the start of a course leaves alone (R33 to R36, R65, R66): the times of the course, and the standing of the input. One lemma
for each operation that a course start uses: from a state in which they stand as in `a`, it leads to one in which they do.
-/

namespace Sys2Proof.Machine
open Sys2Proof

/-! ## The course's own part of the state -/

/-- The times of the course and the standing of the input: TCK without the hoists, the levels, the walks and the counts that a course start
moves, and without the period that comes into force at one. -/
def tckMark (t : Tck) : Tck :=
  { t with code := 0, mismatch := false, cond := 0, last := 0, hoists := [], refusedArms := [], launched := [], avgSum := 0, avgCnt := 0,
           esc := [], walk := 0, alt := [] }

/-- In `t` the course, the input's standing and the clock are those of `s`. -/
def SameCourse (s t : State) : Prop := tckMark t.tck = tckMark s.tck ∧ t.now = s.now

theorem SameCourse.refl (s : State) : SameCourse s s := ⟨rfl, rfl⟩

/-- What changes neither TCK nor the clock keeps the course. -/
theorem SameCourse.frame {a s t : State} (h : SameCourse a s) (ht : t.tck = s.tck) (hn : t.now = s.now) : SameCourse a t :=
  ⟨(congrArg tckMark ht).trans h.1, hn.trans h.2⟩

theorem SameCourse.onTck {a s : State} {f : Tck → Tck} (h : SameCourse a s) (hf : ∀ t, tckMark (f t) = tckMark t) :
    SameCourse a (onTck f s) := ⟨(hf s.tck).trans h.1, h.2⟩

section
variable {a s t : State}

theorem sameCourse_ite {c : Prop} [Decidable c] (hs : SameCourse a s) (ht : SameCourse a t) : SameCourse a (if c then s else t) := by
  split
  · exact hs
  · exact ht

theorem sameCourse_each {α : Type} (l : List α) (f : α → State → State) (h : SameCourse a s)
    (hf : ∀ x s, SameCourse a s → SameCourse a (f x s)) : SameCourse a (each l f s) := by
  unfold each
  induction l generalizing s with
  | nil => exact h
  | cons x l ih => exact ih (hf x s h)

theorem sameCourse_foldl {α β : Type} (l : List α) (f : β × State → α → β × State) {p : β × State} (h : SameCourse a p.2)
    (hf : ∀ p x, SameCourse a p.2 → SameCourse a (f p x).2) : SameCourse a (l.foldl f p).2 := by
  induction l generalizing p with
  | nil => exact h
  | cons x l ih => exact ih (hf p x h)

/-! ## Counters, events, traps and what is sent -/

theorem sameCourse_count (u c n : Nat) (h : SameCourse a s) : SameCourse a (count u c n s) :=
  h.frame (congrArg (·.tck) (besideCounting_count u c n s)) (congrArg (·.now) (besideCounting_count u c n s))

theorem sameCourse_msix (v : Nat) (h : SameCourse a s) : SameCourse a (msix v s) :=
  h.frame (congrArg (·.tck) (besideCounting_msix v s)) (congrArg (·.now) (besideCounting_msix v s))

theorem sameCourse_event (code src operand : Nat) (h : SameCourse a s) : SameCourse a (event code src operand s) :=
  h.frame (event_tck code src operand s) (event_now code src operand s)

theorem sameCourse_trap (bit : Nat) (h : SameCourse a s) : SameCourse a (trap bit s) :=
  h.frame (congrArg (·.tck) (besideTrap_trap bit s)) (congrArg (·.now) (besideTrap_trap bit s))

theorem sameCourse_sendRaw (i ty start cr : Nat) (slots : List (BitVec 128)) (msg : Option Out) (h : SameCourse a s) :
    SameCourse a (sendRaw i ty start cr slots msg s) := sameCourse_count _ _ _ (h.frame rfl rfl)

theorem sameCourse_sendFlit (i cls : Nat) (o : Out) (h : SameCourse a s) : SameCourse a (sendFlit i cls o s) := by
  unfold sendFlit
  extract_lets slots cap ty s₁ s₂ s₃
  have h₁ : SameCourse a s₁ := h.frame rfl rfl
  have h₂ : SameCourse a s₂ :=
    sameCourse_ite (sameCourse_sendRaw _ _ _ _ _ _ h₁) (sameCourse_sendRaw _ _ _ _ _ _ (sameCourse_sendRaw _ _ _ _ _ _ h₁))
  have h₃ : SameCourse a s₃ := h₂.frame rfl rfl
  exact sameCourse_ite (sameCourse_count _ _ _ h₃) h₃

theorem sameCourse_emit (o : Out) (h : SameCourse a s) : SameCourse a (emit o s) := by
  unfold emit
  split
  · exact sameCourse_ite (h.frame rfl rfl) (sameCourse_ite ((sameCourse_count _ _ _ h).frame rfl rfl) h)
  · split
    · exact h.frame rfl rfl
    · exact sameCourse_ite (sameCourse_sendFlit _ _ _ h) (sameCourse_ite (h.frame rfl rfl) h)
    · exact h

/-! ## Requests of the module's own -/

theorem sameCourse_tagRequest (path id kind rq gaddr : Nat) (h : SameCourse a s) : SameCourse a (tagRequest path id kind rq gaddr s) := by
  simp only [tagRequest, free]
  exact sameCourse_ite h (sameCourse_ite (h.frame rfl rfl) (h.frame rfl rfl))

theorem sameCourse_arrive (src : Src) (c : Instr) (h : SameCourse a s) : SameCourse a (arrive src c s) := by
  unfold arrive
  extract_lets id s₁
  have h₁ : SameCourse a s₁ := h.frame rfl rfl
  split
  iterate 3 exact h₁
  · exact sameCourse_tagRequest _ _ _ _ _ h₁
  · exact h₁

theorem sameCourse_internalRead (src : Src) (parent gaddr : Nat) (h : SameCourse a s) : SameCourse a (internalRead src parent gaddr s) :=
  sameCourse_arrive _ _ h

/-! ## Stream ports -/

theorem sameCourse_updStop (p : Nat) (h : SameCourse a s) : SameCourse a (updStop p s) :=
  sameCourse_ite (h.frame rfl rfl) (h.frame rfl rfl)

theorem sameCourse_beginEntry (i : Nat) (h : SameCourse a s) : SameCourse a (beginEntry i s) := by
  unfold beginEntry
  split
  · exact h
  · exact sameCourse_ite h (sameCourse_arrive _ _ (h.frame rfl rfl))

theorem sameCourse_applyStep (h : SameCourse a s) : SameCourse a (applyStep s) :=
  sameCourse_ite h (sameCourse_each _ _ (sameCourse_each _ _ h fun _ _ h => sameCourse_ite (h.frame rfl rfl) h)
    fun _ _ h => sameCourse_beginEntry _ h)

theorem sameCourse_scheduleComb (h : SameCourse a s) : SameCourse a (scheduleComb s) :=
  sameCourse_each _ _ h fun _ _ h => sameCourse_ite (h.frame rfl rfl) h

theorem sameCourse_commitPort (p : Nat) (h : SameCourse a s) : SameCourse a (commitPort p s) :=
  sameCourse_ite h (h.frame rfl rfl)

theorem sameCourse_prefetchLine (p : Nat) (standby : Bool) (h : SameCourse a s) : SameCourse a (prefetchLine p standby s) :=
  sameCourse_ite (h.frame rfl rfl) (sameCourse_ite h
    (sameCourse_each _ _ (h.frame rfl rfl) fun _ _ h => sameCourse_internalRead _ _ _ h))

theorem sameCourse_updStandby (p : Nat) (h : SameCourse a s) : SameCourse a (updStandby p s) :=
  sameCourse_ite (h.frame rfl rfl) h

theorem sameCourse_prefetchLoop (p : Nat) (standby : Bool) (n : Nat) (h : SameCourse a s) : SameCourse a (prefetchLoop p standby n s) := by
  induction n generalizing s with
  | zero => exact h
  | succ n ih =>
    have hline := sameCourse_prefetchLine p standby h
    exact sameCourse_ite hline (ih hline)

theorem sameCourse_prefetchPort (p : Nat) (h : SameCourse a s) : SameCourse a (prefetchPort p s) :=
  sameCourse_ite h (sameCourse_updStandby _ (sameCourse_prefetchLoop _ _ _ (sameCourse_prefetchLoop _ _ _ h)))

theorem sameCourse_setWpt (p v : Nat) (h : SameCourse a s) : SameCourse a (setWpt p v s) :=
  sameCourse_ite (h.frame rfl rfl) (sameCourse_event _ _ _ (h.frame rfl rfl))

theorem sameCourse_armPort (p : Nat) (h : SameCourse a s) : SameCourse a (armPort p s) :=
  sameCourse_ite h (sameCourse_prefetchPort _ (h.frame rfl rfl))

theorem sameCourse_stopIn (p : Nat) (h : SameCourse a s) : SameCourse a (stopIn p s) :=
  sameCourse_ite h (sameCourse_applyStep (sameCourse_updStop _ (h.frame rfl rfl)))

theorem sameCourse_stopEg (p : Nat) (h : SameCourse a s) : SameCourse a (stopEg p s) := h.frame rfl rfl

theorem sameCourse_startIn (p : Nat) (h : SameCourse a s) : SameCourse a (startIn p s) :=
  sameCourse_ite h (sameCourse_updStop _ (h.frame rfl rfl))

theorem sameCourse_startEg (p : Nat) (h : SameCourse a s) : SameCourse a (startEg p s) :=
  sameCourse_ite h ((sameCourse_ite (c := (port s p).egSt = 0) (sameCourse_armPort p h) h).frame rfl rfl)

theorem sameCourse_switchList (p l : Nat) (h : SameCourse a s) : SameCourse a (switchList p l s) :=
  sameCourse_ite h (sameCourse_prefetchPort _ (h.frame rfl rfl))

theorem sameCourse_stopStreams (h : SameCourse a s) : SameCourse a (stopStreams s) :=
  sameCourse_each _ _ h fun _ _ h => sameCourse_ite (sameCourse_stopEg _ (sameCourse_stopIn _ (h.frame rfl rfl))) h

/-! ## Completions -/

theorem sameCourse_queueInt (q : Nat) (h : SameCourse a s) : SameCourse a (queueInt q s) :=
  sameCourse_ite (h.frame rfl rfl) (sameCourse_msix _ (h.frame rfl rfl))

theorem sameCourse_writeCqe (q : Nat) (d : Done) (h : SameCourse a s) : SameCourse a (writeCqe q d s) := by
  unfold writeCqe
  extract_lets x s₁ s₂
  have h₁ : SameCourse a s₁ := sameCourse_count _ _ _ (sameCourse_emit _ h)
  have h₂ : SameCourse a s₂ := h₁.frame rfl rfl
  exact sameCourse_ite (sameCourse_queueInt _ h₂) h₂

theorem sameCourse_writeCqes (q : Nat) (h : SameCourse a s) : SameCourse a (writeCqes q s) :=
  sameCourse_each _ _ h fun _ _ h => sameCourse_ite (sameCourse_writeCqe _ _ (h.frame rfl rfl)) h

theorem sameCourse_postDone (q : Nat) (d : Done) (h : SameCourse a s) : SameCourse a (postDone q d s) :=
  sameCourse_ite h (sameCourse_writeCqes _ (h.frame rfl rfl))

theorem sameCourse_cmdDenied (status : Nat) (h : SameCourse a s) : SameCourse a (cmdDenied status s) :=
  sameCourse_ite (h.frame rfl rfl) h

theorem sameCourse_checkFenced (q : Nat) (h : SameCourse a s) : SameCourse a (checkFenced q s) := by
  unfold checkFenced
  split
  · exact h
  · refine sameCourse_ite h ?_
    extract_lets s₁
    have h₁ : SameCourse a s₁ := h.frame rfl rfl
    split
    · exact sameCourse_postDone _ _ (sameCourse_cmdDenied _ h₁)
    · exact h₁.frame rfl rfl

theorem sameCourse_finish (c : Cmd) (status result : Nat) (h : SameCourse a s) : SameCourse a (finish c status result s) :=
  sameCourse_ite (h.frame rfl rfl) (sameCourse_checkFenced _ (sameCourse_postDone _ _ (h.frame rfl rfl)))

theorem sameCourse_takeSnapshot (src : Nat) (h : SameCourse a s) : SameCourse a (takeSnapshot src s) := h.frame rfl rfl

theorem sameCourse_snapCommands (h : SameCourse a s) : SameCourse a (snapCommands s) :=
  sameCourse_each _ _ (h.frame rfl rfl) fun _ _ h => sameCourse_finish _ _ _ (sameCourse_takeSnapshot 2 h)

end

end Sys2Proof.Machine
end

section
/-!
SUPPORT. What the start of a course leaves alone, continued: cohorts, blocks and pages (R76, R87, R96, R117), reads and pieces (R46, R53), the
levels of background work (R52) and its sources (R95, R104, R130, R135).
-/

namespace Sys2Proof.Machine
open Sys2Proof

section
variable {a s t : State}

/-! ## Updates of other parts of the state -/

theorem sameCourse_onMed (f : Med → Med) (h : SameCourse a s) : SameCourse a (onMed f s) := h.frame rfl rfl

theorem sameCourse_onBlk (b : Nat) (f : Blk → Blk) (h : SameCourse a s) : SameCourse a (onBlk b f s) := h.frame rfl rfl

theorem sameCourse_onDrf (f : Drf → Drf) (h : SameCourse a s) : SameCourse a (onDrf f s) := h.frame rfl rfl

theorem sameCourse_onMedium (f : Medium → Medium) (h : SameCourse a s) : SameCourse a (onMedium f s) := h.frame rfl rfl

theorem sameCourse_onStream (bank k : Nat) (f : StreamBlk → StreamBlk) (h : SameCourse a s) : SameCourse a (onStream bank k f s) :=
  h.frame rfl rfl

theorem sameCourse_onProg (i : Nat) (f : Prog → Prog) (h : SameCourse a s) : SameCourse a (onProg i f s) := h.frame rfl rfl

theorem sameCourse_onRst (b : Nat) (f : Rst → Rst) (h : SameCourse a s) : SameCourse a (onRst b f s) := h.frame rfl rfl

theorem sameCourse_onReloc (i : Nat) (f : Reloc → Reloc) (h : SameCourse a s) : SameCourse a (onReloc i f s) := h.frame rfl rfl

theorem sameCourse_onPwr (f : Pwr → Pwr) (h : SameCourse a s) : SameCourse a (onPwr f s) := h.frame rfl rfl

theorem sameCourse_onThm (f : Thm → Thm) (h : SameCourse a s) : SameCourse a (onThm f s) := h.frame rfl rfl

theorem sameCourse_onHst (f : Hst → Hst) (h : SameCourse a s) : SameCourse a (onHst f s) := h.frame rfl rfl

theorem sameCourse_onDir (f : Dir → Dir) (h : SameCourse a s) : SameCourse a (onDir f s) := h.frame rfl rfl

theorem sameCourse_onStm (f : Stm → Stm) (h : SameCourse a s) : SameCourse a (onStm f s) := h.frame rfl rfl

theorem sameCourse_onErr (f : Err → Err) (h : SameCourse a s) : SameCourse a (onErr f s) := h.frame rfl rfl

theorem sameCourse_onClk (f : Clk → Clk) (h : SameCourse a s) : SameCourse a (onClk f s) := h.frame rfl rfl

theorem sameCourse_onOrd (f : Ord → Ord) (h : SameCourse a s) : SameCourse a (onOrd f s) := h.frame rfl rfl

theorem sameCourse_onPlinth (f : Plinth → Plinth) (h : SameCourse a s) : SameCourse a (onPlinth f s) := h.frame rfl rfl

theorem sameCourse_onUnit (u : Nat) (f : Pmc1 → Pmc1) (h : SameCourse a s) : SameCourse a (onUnit u f s) := h.frame rfl rfl

theorem sameCourse_free (h : SameCourse a s) : SameCourse a (free s).2 := h.frame rfl rfl

/-! ## Cohorts -/

theorem sameCourse_leaveCohort (b : Nat) (h : SameCourse a s) : SameCourse a (leaveCohort b s) := by
  unfold leaveCohort
  split
  · exact h
  · exact h.frame rfl rfl

theorem sameCourse_takeCohort (b : Nat) (h : SameCourse a s) : SameCourse a (takeCohort b s) := by
  unfold takeCohort
  extract_lets i p old join
  cases join with
  | none => exact h.frame rfl rfl
  | some c => exact h.frame rfl rfl

theorem sameCourse_advancePkg (i n : Nat) (h : SameCourse a s) : SameCourse a (advancePkg i n s) := by
  unfold advancePkg
  extract_lets p
  split
  rename_i cs m _
  refine sameCourse_ite (h.frame rfl rfl) (sameCourse_each _ _ (h.frame rfl rfl) fun x s h => ?_)
  refine sameCourse_ite ?_ h
  split
  · exact h.frame rfl rfl
  · exact h

theorem sameCourse_applySample (h : SameCourse a s) : SameCourse a (applySample s) :=
  (sameCourse_each s.drf.advance _ h fun p _ h => sameCourse_advancePkg p.1 p.2 h).frame rfl rfl

theorem sameCourse_queueRepoint (h : SameCourse a s) : SameCourse a (queueRepoint s) := by
  refine sameCourse_each _ _ h fun x s h => ?_
  obtain ⟨b, x⟩ := x
  refine sameCourse_ite ?_ h
  split
  · exact h
  · extract_lets n s₁
    have h₁ : SameCourse a s₁ := sameCourse_ite (sameCourse_onBlk _ _ h) h
    exact sameCourse_ite (sameCourse_event _ _ _ (sameCourse_onDrf _ (sameCourse_onBlk _ _ h₁))) h₁

/-! ## Blocks and pages -/

theorem sameCourse_enter (r : JRec) (urgent : Bool) (h : SameCourse a s) : SameCourse a (enter r urgent s) := h.frame rfl rfl

theorem sameCourse_openBlock (bank k : Nat) (h : SameCourse a s) : SameCourse a (openBlock bank k s).2 := by
  unfold openBlock
  extract_lets bank'
  split
  · exact h
  · exact sameCourse_onBlk _ _ (sameCourse_onMed _ (sameCourse_enter _ _ h))

theorem sameCourse_ensureNext (bank k : Nat) (h : SameCourse a s) : SameCourse a (ensureNext bank k s) := by
  have hopen := sameCourse_openBlock bank k h
  unfold ensureNext
  refine sameCourse_ite h ?_
  generalize openBlock bank k s = p at hopen ⊢
  obtain ⟨_ | b, s₁⟩ := p
  · exact hopen
  · exact hopen.frame rfl rfl

theorem sameCourse_ensureCur (bank k : Nat) (h : SameCourse a s) : SameCourse a (ensureCur bank k s) := by
  have hopen := sameCourse_openBlock bank k h
  unfold ensureCur
  extract_lets t
  split
  · exact h
  · exact h.frame rfl rfl
  · generalize openBlock bank k s = p at hopen ⊢
    obtain ⟨_ | b, s₁⟩ := p
    · exact hopen
    · exact hopen.frame rfl rfl

theorem sameCourse_takePage (bank k : Nat) (h : SameCourse a s) : SameCourse a (takePage bank k s).2 := by
  unfold takePage
  extract_lets s₁
  have h₁ : SameCourse a s₁ := sameCourse_ite (sameCourse_ensureCur bank k h) h
  split
  · exact h₁
  · rename_i b _
    split
    · exact h₁
    · extract_lets p s₂ s₃ s₄
      have h₂ : SameCourse a s₂ := h₁.frame rfl rfl
      have h₃ : SameCourse a s₃ := sameCourse_ite (sameCourse_ensureNext bank k h₂) h₂
      exact sameCourse_ite (h₃.frame rfl rfl) h₃

theorem sameCourse_checkWorn (k : Nat) (h : SameCourse a s) : SameCourse a (checkWorn k s) := by
  unfold checkWorn
  extract_lets op s₁
  have h₁ : SameCourse a s₁ := sameCourse_ite (sameCourse_event _ _ _ (sameCourse_onMedium _ (sameCourse_onMed _ h))) h
  exact sameCourse_ite (sameCourse_trap _ (sameCourse_onMedium _ (sameCourse_onMed _ h₁))) h₁

/-! ## Reads -/

theorem sameCourse_putRead (i : Nat) (inRead : Bool) (h : SameCourse a s) : SameCourse a (putRead i inRead s) := h.frame rfl rfl

theorem sameCourse_displacePiece (bank : Nat) (h : SameCourse a s) : SameCourse a (displacePiece bank s) := by
  unfold displacePiece
  refine sameCourse_ite h (sameCourse_count _ _ _ ?_)
  refine (sameCourse_each (s.med.progs.filter _) _ h fun p s h => ?_).frame rfl rfl
  split
  · exact sameCourse_ite (sameCourse_leaveCohort _ h) h
  · exact h

theorem sameCourse_placeLate (i : Nat) (h : SameCourse a s) : SameCourse a (placeLate i s) := by
  unfold placeLate
  split
  · exact h
  · rename_i r _
    extract_lets b taken
    have hfree : SameCourse a (if taken then (1, s) else free s).2 := by
      split
      · exact h
      · exact sameCourse_free h
    generalize (if taken then (1, s) else free s) = p at hfree ⊢
    obtain ⟨v, s₁⟩ := p
    refine sameCourse_ite (sameCourse_putRead _ _ hfree) (sameCourse_ite hfree ?_)
    extract_lets s₂ l
    have h₂ : SameCourse a s₂ := sameCourse_displacePiece b hfree
    refine sameCourse_ite (sameCourse_putRead _ _ h₂) ?_
    split
    · exact sameCourse_putRead _ _ (sameCourse_onMed _ h₂)
    · exact h₂

theorem sameCourse_queueRead (why : RdWhy) (ppn cls level arrived : Nat) (h : SameCourse a s) :
    SameCourse a (queueRead why ppn cls level arrived s) := by
  unfold queueRead
  extract_lets ch late n r s₁ s₂
  have h₁ : SameCourse a s₁ := h.frame rfl rfl
  have h₂ : SameCourse a s₂ := sameCourse_ite (sameCourse_count _ _ _ h₁) h₁
  exact sameCourse_ite (sameCourse_placeLate _ h₂) h₂

theorem sameCourse_relevelReads (h : SameCourse a s) : SameCourse a (relevelReads s) := h.frame rfl rfl

theorem sameCourse_assignRead (r : MRead) {ps : Plan × State} (h : SameCourse a ps.2) : SameCourse a (assignRead r ps).2 := by
  obtain ⟨p, s⟩ := ps
  unfold assignRead
  dsimp only
  split
  · exact sameCourse_putRead _ _ h
  · split
    · exact sameCourse_putRead _ _ h
    · exact h

theorem sameCourse_placeRetries (q : Nat) (l : List MRead) {ps : Plan × State} (h : SameCourse a ps.2) :
    SameCourse a (placeRetries q l ps).2.2 := by
  unfold placeRetries
  generalize hn : (0, ps) = x
  replace h : SameCourse a x.2.2 := hn ▸ h
  clear hn
  induction l generalizing x with
  | nil => exact h
  | cons r l ih =>
    refine ih _ ?_
    obtain ⟨n, p, s⟩ := x
    dsimp only
    split
    · exact h
    · exact sameCourse_assignRead r (ps := (p, s)) h

/-! ## Pieces -/

theorem sameCourse_givePage (p : Prog) (h : SameCourse a s) : SameCourse a (givePage p s).2 := by
  have held {c : Prop} [Decidable c] (bank k : Nat) : SameCourse a (if c then ((none : Option Nat), s) else takePage bank k s).2 := by
    split
    · exact h
    · exact sameCourse_takePage bank k h
  unfold givePage
  split
  · exact h
  · split
    · exact sameCourse_takePage _ _ h
    · exact held _ _
    · exact sameCourse_takePage _ _ h
    · exact held _ _
    · exact sameCourse_takePage _ _ h
    · exact held _ _

theorem sameCourse_firstPiece (p : Prog) (h : SameCourse a s) : SameCourse a (firstPiece p s).2 := by
  have hpage := sameCourse_givePage p h
  unfold firstPiece
  generalize givePage p s = x at hpage ⊢
  obtain ⟨_ | q, s₀⟩ := x
  · exact hpage
  · dsimp -zeta only
    extract_lets wave s₁ s₂
    have h₁ : SameCourse a s₁ := hpage.frame rfl rfl
    have h₂ : SameCourse a s₂ := sameCourse_ite (sameCourse_takeCohort _ (sameCourse_leaveCohort _ h₁)) h₁
    split
    · exact h₂.frame rfl rfl
    · extract_lets page s₃
      have h₃ : SameCourse a s₃ := sameCourse_ite h₂ (sameCourse_enter _ _ h₂)
      exact h₃.frame rfl rfl
    · exact h₂

theorem sameCourse_beginFirst (l : List Prog) (h : SameCourse a s) : SameCourse a (beginFirst l s).2 := by
  induction l generalizing s with
  | nil => exact h
  | cons p l ih =>
    have hpiece := sameCourse_firstPiece p h
    unfold beginFirst
    generalize firstPiece p s = x at hpiece ⊢
    obtain ⟨_ | _, s₁⟩ := x
    · exact ih hpiece
    · exact hpiece

theorem sameCourse_giveSlot (b owner : Nat) (h : SameCourse a s) : SameCourse a (giveSlot b owner s).2 := by
  unfold giveSlot
  have hbegin := sameCourse_beginFirst (s.med.progs.filter fun p => p.bank == b && p.owner == owner && p.first.isNone && !p.running
    && mayStart s p && !(s.med.staging.any fun g => g.prog == some p.id && g.afresh)) h
  generalize beginFirst _ s = x at hbegin ⊢
  obtain ⟨_ | _, s₁⟩ := x
  · dsimp only
    split
    · split
      · exact hbegin
      · exact hbegin.frame rfl rfl
    · exact hbegin
  · exact hbegin

theorem sameCourse_patrolRest (b : Nat) (rest : List MRead) {ps : Plan × State} (h : SameCourse a ps.2) :
    SameCourse a (if rest.isEmpty then (false, ps.1, ps.2)
      else (true, { ps.1 with pw := (b, rest.length) :: ps.1.pw }, each rest (fun r s => putRead r.id false s) ps.2)).2.2 := by
  split
  · exact h
  · exact sameCourse_each _ _ h fun _ _ h => sameCourse_putRead _ _ h

theorem sameCourse_patrolSlot (b : Nat) {ps : Plan × State} (h : SameCourse a ps.2) : SameCourse a (patrolSlot b ps).2.2 := by
  obtain ⟨p, s⟩ := ps
  unfold patrolSlot
  dsimp -zeta only
  extract_lets all isPatrol rest
  refine sameCourse_patrolRest b rest ?_
  cases all with
  | nil => exact h
  | cons r l =>
    dsimp only
    split
    · split
      · exact h
      · exact sameCourse_assignRead r h
    · exact h

theorem sameCourse_takeSlot (b owner : Nat) {ps : Plan × State} (h : SameCourse a ps.2) : SameCourse a (takeSlot b owner ps).2.2 := by
  obtain ⟨p, s⟩ := ps
  have hslot := sameCourse_giveSlot b owner h
  unfold takeSlot
  dsimp only
  split
  · exact h
  · split
    · exact sameCourse_patrolSlot b h
    · split
      · exact h
      · generalize giveSlot b owner s = x at hslot ⊢
        obtain ⟨_ | _, s₁⟩ := x
        · exact hslot
        · exact hslot

theorem sameCourse_tryOwners (b : Nat) (os : List Nat) {ps : Plan × State} (h : SameCourse a ps.2) :
    SameCourse a (tryOwners b os ps).2.2 := by
  induction os generalizing ps with
  | nil => exact h
  | cons o os ih =>
    have hslot := sameCourse_takeSlot b o h
    unfold tryOwners
    generalize takeSlot b o ps = x at hslot ⊢
    obtain ⟨_ | _, ps₁⟩ := x
    · exact ih hslot
    · exact hslot

end

end Sys2Proof.Machine
end

section
/-!
SUPPORT. What the start of a course leaves alone, continued: relocations (R95, R96, R104), the plan of a channel (R46, R53, R127), the levels of
background work (R52), patrol (R135) and the conditions of R48.
-/

namespace Sys2Proof.Machine
open Sys2Proof

section
variable {a s t : State}

/-! ## Relocations -/

theorem sameCourse_beginReloc (r : Reloc) (h : SameCourse a s) : SameCourse a (beginReloc r s) := by
  unfold beginReloc
  extract_lets x k go
  have hgo (s : State) (h : SameCourse a s) : SameCourse a (go s) := by
    have hbegun := sameCourse_enter (.relocBegin r.act r.src) false h
    exact sameCourse_onReloc _ _ (sameCourse_ite hbegun (sameCourse_onBlk _ _ hbegun))
  refine sameCourse_ite h (sameCourse_ite ?_ (hgo s h))
  split
  · exact hgo s h
  · rename_i j _
    extract_lets s₁
    have h₁ : SameCourse a s₁ := sameCourse_ensureNext _ _ h
    split
    · exact sameCourse_ite h₁ (hgo _ (sameCourse_onStream _ _ _ h₁))
    · exact h₁

theorem sameCourse_startReloc (b act : Nat) (h : SameCourse a s) : SameCourse a (startReloc b act s) :=
  sameCourse_beginReloc _ (sameCourse_onMed _ h)

theorem sameCourse_chooseSources (h : SameCourse a s) : SameCourse a (chooseSources s) := by
  unfold chooseSources
  extract_lets has s₁
  have h₁ : SameCourse a s₁ := by
    refine sameCourse_each _ _ h fun b s h => ?_
    extract_lets s₁
    have h₁ : SameCourse a s₁ := by
      refine sameCourse_ite ?_ h
      split
      · exact sameCourse_ite (sameCourse_startReloc _ _ h) h
      · exact h
    refine sameCourse_ite ?_ h₁
    split
    · exact sameCourse_startReloc _ _ h₁
    · exact h₁
  refine sameCourse_ite h₁ (sameCourse_each _ _ h₁ fun b s h => sameCourse_ite ?_ h)
  split
  · exact sameCourse_startReloc _ _ h
  · exact h

/-! ## The plan of a channel -/

theorem sameCourse_placeContinuing (l : List (Nat × Nat × (Nat ⊕ Nat))) {ps : Plan × State} (h : SameCourse a ps.2) :
    SameCourse a (placeContinuing l ps).2 := by
  refine sameCourse_foldl _ _ h fun ps x h => ?_
  obtain ⟨p, s⟩ := ps
  obtain ⟨b, o, w⟩ := x
  dsimp only
  split
  · exact sameCourse_count _ _ _ h
  · split
    · exact sameCourse_count _ _ _ h
    · split
      · exact sameCourse_onProg _ _ h
      · exact sameCourse_onRst _ _ h

theorem sameCourse_placeUrgent (cap ch : Nat) {ps : Plan × State} (h : SameCourse a ps.2) :
    SameCourse a (placeUrgent cap ch ps).2 := by
  refine sameCourse_foldl _ _ h fun ps o h => sameCourse_foldl _ _ h fun ps b h => ?_
  have hslot := sameCourse_takeSlot b o h
  split
  · generalize takeSlot b o ps = x at hslot ⊢
    obtain ⟨_ | _, p, s⟩ := x
    · exact hslot
    · exact sameCourse_count _ _ _ hslot
  · exact h

theorem sameCourse_placeShared (ch : Nat) {ps : Plan × State} (h : SameCourse a ps.2) : SameCourse a (placeShared ch ps).2 := by
  refine sameCourse_foldl _ _ h fun ps b h => ?_
  extract_lets press
  have hslot := sameCourse_tryOwners b (if tget false ps.2.tck.alt b then press ++ [0] else 0 :: press) h
  generalize tryOwners b _ ps = x at hslot ⊢
  obtain ⟨_ | o, p, s⟩ := x
  · exact hslot
  · exact sameCourse_ite hslot (hslot.onTck fun _ => rfl)

theorem sameCourse_placeBackground (ch : Nat) {ps : Plan × State} (h : SameCourse a ps.2) :
    SameCourse a (placeBackground ch ps).2 :=
  sameCourse_foldl _ _ h fun _ _ h => sameCourse_tryOwners _ _ h

theorem sameCourse_assignReads (l : List MRead) {ps : Plan × State} (h : SameCourse a ps.2) :
    SameCourse a (l.foldl (fun ps r => assignRead r ps) ps).2 :=
  sameCourse_foldl _ _ h fun _ r h => sameCourse_assignRead r h

theorem sameCourse_planChannel (ch : Nat) (h : SameCourse a s) : SameCourse a (planChannel ch s) := by
  unfold planChannel
  extract_lets q retries s₁
  have h₁ : SameCourse a s₁ := sameCourse_ite (sameCourse_onMed _ h) h
  have hretries := sameCourse_placeRetries q retries (ps := ({}, s₁)) h₁
  generalize placeRetries q retries ({}, s₁) = x at hretries ⊢
  obtain ⟨n, ps⟩ := x
  dsimp -zeta only
  extract_lets ps₁ ps₂ slots cap ps₃ ps₄ ps₅ ps₆ ps₇
  have hps₁ : SameCourse a ps₁.2 := sameCourse_count _ _ _ (sameCourse_ite hretries (sameCourse_onMed _ hretries))
  have hps₂ : SameCourse a ps₂.2 := sameCourse_assignReads _ hps₁
  have hps₃ : SameCourse a ps₃.2 := sameCourse_placeContinuing _ hps₂
  have hps₄ : SameCourse a ps₄.2 := sameCourse_foldl _ _ hps₃ fun _ _ h => sameCourse_tryOwners _ _ h
  have hps₅ : SameCourse a ps₅.2 := sameCourse_placeUrgent _ _ hps₄
  have hps₆ : SameCourse a ps₆.2 := sameCourse_placeShared _ hps₅
  have hps₇ : SameCourse a ps₇.2 := sameCourse_placeBackground _ hps₆
  exact sameCourse_assignReads _ hps₇

theorem sameCourse_segmentPages (h : SameCourse a s) : SameCourse a (segmentPages s) := by
  refine sameCourse_each _ _ h fun p s h => ?_
  have hpage := sameCourse_takePage p.bank 5 h
  generalize takePage p.bank 5 s = x at hpage ⊢
  obtain ⟨_ | q, s⟩ := x
  · exact hpage
  · exact sameCourse_onProg _ _ hpage

theorem sameCourse_clearRunning (h : SameCourse a s) : SameCourse a (clearRunning s) := sameCourse_onMed _ h

/-! ## Levels and patrol -/

theorem sameCourse_stepLevel (key m : Nat) (h : SameCourse a s) : SameCourse a (stepLevel key m s) := h.onTck fun _ => rfl

theorem sameCourse_stepLevels (h : SameCourse a s) : SameCourse a (stepLevels s) := by
  unfold stepLevels
  extract_lets banks s₁ sp s₂ s₃ lap s₄ scrub
  have h₁ : SameCourse a s₁ := sameCourse_each _ _ h fun _ _ h => sameCourse_stepLevel _ _ (sameCourse_stepLevel _ _ h)
  have h₃ : SameCourse a s₃ := sameCourse_stepLevel _ _ (sameCourse_onMed _ h₁)
  have h₄ : SameCourse a s₄ := sameCourse_each _ _ h₃ fun _ _ h => sameCourse_stepLevel _ _ h
  exact sameCourse_ite h₃ (sameCourse_each _ _ h₄ fun _ _ h => sameCourse_stepLevel _ _ h)

theorem sameCourse_patrolChannel (ch : Nat) (h : SameCourse a s) : SameCourse a (patrolChannel ch s) := by
  unfold patrolChannel
  refine sameCourse_ite h ?_
  split
  · exact sameCourse_ite h (sameCourse_each _ _ (sameCourse_onMed _ h) fun _ _ h => sameCourse_queueRead _ _ _ _ _ h)
  · exact sameCourse_onMed _ h

theorem sameCourse_patrolStep (h : SameCourse a s) : SameCourse a (patrolStep s) :=
  sameCourse_each _ _ h fun _ _ h => sameCourse_patrolChannel _ h

/-! ## The counts of a course -/

theorem sameCourse_countConditions (h : SameCourse a s) : SameCourse a (countConditions s) :=
  sameCourse_onMed _ (sameCourse_each _ _ h fun _ _ h => sameCourse_event _ _ _ (h.onTck fun _ => rfl))

theorem sameCourse_shiftCounts (h : SameCourse a s) : SameCourse a (shiftCounts s) := sameCourse_onMed _ h

end

end Sys2Proof.Machine
end

section
/-!
SUPPORT. What the start of a course leaves alone, continued: hoists (R56 to R67), settings (R27), the admission limit (R420), Stop entry and
wake (R463, R464), and the passing of time.
-/

namespace Sys2Proof.Machine
open Sys2Proof

section
variable {a s t : State}

/-! ## Hoists -/

theorem sameCourse_setHoist (i : Nat) (x : Option Hoist) (h : SameCourse a s) : SameCourse a (setHoist i x s) := h.onTck fun _ => rfl

theorem sameCourse_newPeriod (code : Nat) (h : SameCourse a s) : SameCourse a (newPeriod code s) :=
  sameCourse_each _ _ (sameCourse_onMed _ (h.onTck fun _ => rfl)) fun _ _ h => sameCourse_ite (sameCourse_setWpt _ _ h) h

theorem sameCourse_hoistEffect (x : Hoist) (h : SameCourse a s) : SameCourse a (hoistEffect x s) := by
  unfold hoistEffect
  extract_lets A ports
  split
  · exact sameCourse_takeSnapshot _ h
  · exact sameCourse_each _ _ (sameCourse_each _ _ h fun _ _ h => sameCourse_stopIn _ h) fun _ _ h => sameCourse_stopEg _ h
  · exact sameCourse_each _ _ h fun _ _ h => sameCourse_switchList _ _ h
  · exact sameCourse_each _ _ (sameCourse_each _ _ h fun _ _ h => sameCourse_startIn _ h) fun _ _ h => sameCourse_startEg _ h
  · exact sameCourse_onMed _ h
  · exact sameCourse_event _ _ _ h
  · exact sameCourse_each _ _ (sameCourse_msix _ h) fun _ _ h => sameCourse_emit _ h
  · exact sameCourse_newPeriod _ h
  · exact h

theorem sameCourse_launchHoist (i : Nat) (x : Hoist) (h : SameCourse a s) : SameCourse a (launchHoist i x s) := by
  unfold launchHoist
  extract_lets s₁ s₂ s₃
  have h₁ : SameCourse a s₁ := sameCourse_setHoist _ _ h
  have h₂ : SameCourse a s₂ := sameCourse_ite (h₁.onTck fun _ => rfl) h₁
  have h₃ : SameCourse a s₃ := sameCourse_count _ _ _ (sameCourse_hoistEffect x (h₂.onTck fun _ => rfl))
  split
  · exact sameCourse_ite (sameCourse_postDone _ _ h₃) h₃
  · exact h₃

theorem sameCourse_launchHoists (h : SameCourse a s) : SameCourse a (launchHoists s) :=
  sameCourse_ite h (sameCourse_ite
    (sameCourse_each _ _ h fun _ _ h => sameCourse_onPwr _ (sameCourse_setHoist _ _ h))
    (sameCourse_each _ _ h fun _ _ h => sameCourse_ite (sameCourse_launchHoist _ _ h) (sameCourse_setHoist _ _ h)))

theorem sameCourse_freezeHoists (h : SameCourse a s) : SameCourse a (freezeHoists s) := by
  unfold freezeHoists
  split
  exact sameCourse_each _ _ (h.onTck fun _ => rfl) fun _ _ h => sameCourse_ite h (sameCourse_event _ _ _ h)

/-! ## Settings, power and the host's clock -/

theorem sameCourse_applySettings (h : SameCourse a s) : SameCourse a (applySettings s) := by
  unfold applySettings
  extract_lets f s₁ s₂
  have h₁ : SameCourse a s₁ := h.frame rfl rfl
  have h₂ : SameCourse a s₂ := sameCourse_ite (sameCourse_each _ _ h₁ fun _ _ h => sameCourse_checkWorn _ h) h₁
  exact sameCourse_onThm _ (sameCourse_onPwr _ (sameCourse_onErr _ (sameCourse_onStm _ (sameCourse_onDir _ (sameCourse_onMed _ h₂)))))

theorem sameCourse_stepAdmit (m : CourseMeas) (h : SameCourse a s) : SameCourse a (stepAdmit m s) := by
  unfold stepAdmit
  extract_lets s₁ s₂ b s₃ n sum step low
  have h₂ : SameCourse a s₂ := sameCourse_onPwr _ (sameCourse_onPlinth _ h)
  have h₃ : SameCourse a s₃ := sameCourse_onPwr _ h₂
  exact sameCourse_ite (sameCourse_onPwr _ h₃) (sameCourse_ite (sameCourse_onPwr _ h₃) (sameCourse_ite (sameCourse_onPwr _ h₃)
    (sameCourse_ite (sameCourse_onPwr _ h₃) (sameCourse_onPwr _ h₃))))

theorem sameCourse_latchPtm (m : CourseMeas) (h : SameCourse a s) : SameCourse a (latchPtm m s) := by
  unfold latchPtm
  split
  · exact sameCourse_ite (sameCourse_onHst _ h) h
  · exact sameCourse_onHst _ h

/-! ## Stop entry and wake -/

theorem sameCourse_stopEntry (h : SameCourse a s) : SameCourse a (stopEntry s) :=
  sameCourse_ite (sameCourse_each _ _ (sameCourse_onOrd _ (sameCourse_onHst _ (sameCourse_onPwr _ h))) fun _ _ h =>
    sameCourse_stopEg _ (sameCourse_stopIn _ h)) h

theorem sameCourse_recordLapsed (h : SameCourse a s) : SameCourse a (recordLapsed s) :=
  sameCourse_onPwr _ (sameCourse_each _ _ h fun _ _ h => sameCourse_event _ _ _ h)

theorem sameCourse_wakeEnds (h : SameCourse a s) : SameCourse a (wakeEnds s) := by
  unfold wakeEnds
  refine sameCourse_ite ?_ h
  extract_lets s₁ s₂ s₃
  have h₂ : SameCourse a s₂ := sameCourse_onClk _ (sameCourse_onHst _ (sameCourse_recordLapsed (sameCourse_onPwr _ h)))
  have h₃ : SameCourse a s₃ := sameCourse_each _ _ (sameCourse_onHst _ h₂) fun _ _ h => sameCourse_finish _ _ _ h
  exact sameCourse_ite h₃ (sameCourse_onPwr _ h₃)

/-! ## Time, and the plan of a course -/

/-- Time passes on the clock, and else only the counters move. -/
theorem sameCourse_timePasses (ps : Nat) (h : SameCourse a s) : SameCourse { a with now := a.now + ps } (timePasses ps s) := by
  obtain ⟨htck, hnow⟩ := h
  unfold timePasses
  extract_lets cyc s₁
  have h₁ : SameCourse { a with now := a.now + ps } s₁ := ⟨htck, congrArg (· + ps) hnow⟩
  refine sameCourse_ite h₁ (sameCourse_each _ _ h₁ fun u s h => sameCourse_ite h ?_)
  extract_lets s₂ s₃
  have h₃ : SameCourse { a with now := a.now + ps } s₃ := sameCourse_count _ _ _ (sameCourse_onUnit _ _ h)
  refine sameCourse_ite h₃ (sameCourse_each _ _ h₃ fun c s h => sameCourse_ite ?_ h)
  exact sameCourse_count _ _ _ (sameCourse_free h)

theorem sameCourse_planCourse (h : SameCourse a s) : SameCourse a (planCourse s) := by
  unfold planCourse
  refine sameCourse_ite h ?_
  extract_lets s₁ s₂ s₃
  have h₁ : SameCourse a s₁ := sameCourse_stepLevels (sameCourse_queueRepoint h)
  have h₂ : SameCourse a s₂ := sameCourse_ite (sameCourse_patrolStep (sameCourse_chooseSources h₁)) h₁
  have h₃ : SameCourse a s₃ := sameCourse_relevelReads (sameCourse_segmentPages h₂)
  exact (sameCourse_each _ _ h₃ fun _ _ h => sameCourse_planChannel _ h).onTck fun _ => rfl

end

/-- Once TCK_COUNT has moved on, the start of a course changes neither the course nor the clock (R33, R36). -/
theorem sameCourse_beginCourse (len : Nat) (m : CourseMeas) (s : State) : SameCourse (turnCourse len s) (beginCourse len m s) := by
  unfold beginCourse
  extract_lets s₁ r s₂ s₃ s₄ s₅ s₆ s₇ s₈
  have h₁ : SameCourse (turnCourse len s) s₁ := sameCourse_count _ _ _ (.refl _)
  have h₂ : SameCourse (turnCourse len s) s₂ := sameCourse_onThm _ (sameCourse_applySettings (sameCourse_applySample h₁))
  have h₃ : SameCourse (turnCourse len s) s₃ := sameCourse_ite (sameCourse_onThm _ h₂) h₂
  have h₅ : SameCourse (turnCourse len s) s₅ := sameCourse_stopEntry (sameCourse_wakeEnds (sameCourse_onPwr _ h₃))
  have h₆ : SameCourse (turnCourse len s) s₆ :=
    sameCourse_freezeHoists (sameCourse_launchHoists (sameCourse_stopStreams (sameCourse_snapCommands h₅)))
  have h₇ : SameCourse (turnCourse len s) s₇ := sameCourse_latchPtm _ (sameCourse_stepAdmit _ h₆)
  have h₈ : SameCourse (turnCourse len s) s₈ := sameCourse_each _ _ (sameCourse_scheduleComb h₇) fun _ _ h => sameCourse_commitPort _ h
  exact sameCourse_planCourse h₈

/-- The course before the turn, as the turn finds it. -/
theorem sameCourse_beforeTurn (len : Nat) (s : State) : SameCourse { s with now := s.now + len }
    (timePasses len (shiftCounts (clearRunning (if s.tck.fixed then s else countConditions s)))) :=
  sameCourse_timePasses _ (sameCourse_shiftCounts (sameCourse_clearRunning
    (sameCourse_ite (.refl s) (sameCourse_countConditions (.refl s)))))

end Sys2Proof.Machine
end

section
/-!
PROOF. The start of a course (R33, R34, R65, R66; O6): what a course start leaves, and when each of its commands starts one.
-/

namespace Sys2Proof.Machine
open Sys2Proof

/-! ## What the start of a course leaves -/

/-- TCK at the turn of the course: TCK_COUNT and the course move on, and the points within the course are yet to come (R33, R36). -/
def turnTck (t : Tck) : Tck :=
  { t with count := t.count + 1, course := t.course + 1, fixed := false, guard := false,
           outEdges := if t.outEn then t.outEdges + 1 else t.outEdges }

/-- `t` is TCK of `u` after the turn of the course, but for what a course start moves. -/
def Turned (u t : Tck) : Prop := tckMark t = turnTck (tckMark u)

section
variable {u t : Tck}
theorem Turned.count (h : Turned u t) : t.count = u.count + 1 := congrArg (·.count) h
theorem Turned.course (h : Turned u t) : t.course = u.course + 1 := congrArg (·.course) h
theorem Turned.fixed (h : Turned u t) : t.fixed = false := congrArg (·.fixed) h
theorem Turned.guard (h : Turned u t) : t.guard = false := congrArg (·.guard) h
theorem Turned.inputOk (h : Turned u t) : t.inputOk = u.inputOk := congrArg (·.inputOk) h
theorem Turned.missRun (h : Turned u t) : t.missRun = u.missRun := congrArg (·.missRun) h
theorem Turned.missed (h : Turned u t) : t.missed = u.missed := congrArg (·.missed) h
theorem Turned.early (h : Turned u t) : t.early = u.early := congrArg (·.early) h
theorem Turned.returning (h : Turned u t) : t.returning = u.returning := congrArg (·.returning) h
theorem Turned.flywheel (h : Turned u t) : t.flywheel = u.flywheel := congrArg (·.flywheel) h

theorem turned_turnTck (h : tckMark t = tckMark u) : Turned u (turnTck t) := congrArg turnTck h
end

theorem turnCourse_eq (len : Nat) (s : State) : turnCourse len s =
    onTck turnTck (timePasses len (shiftCounts (clearRunning (if s.tck.fixed then s else countConditions s)))) := rfl

theorem turned_turnCourse (len : Nat) (s : State) : Turned s.tck (turnCourse len s).tck := by
  rw [turnCourse_eq, onTck_tck]
  exact turned_turnTck (sameCourse_beforeTurn len s).1

theorem turnCourse_now (len : Nat) (s : State) : (turnCourse len s).now = s.now + len := by
  rw [turnCourse_eq, onTck_now]
  exact (sameCourse_beforeTurn len s).2

theorem turned_beginCourse (len : Nat) (m : CourseMeas) (s : State) : Turned s.tck (beginCourse len m s).tck :=
  (sameCourse_beginCourse len m s).1.trans (turned_turnCourse len s)

theorem courseBegun_beginCourse (len : Nat) (m : CourseMeas) (s : State) : CourseBegun len s (beginCourse len m s) :=
  have hturned := turned_beginCourse len m s
  ⟨hturned.count, hturned.course, (sameCourse_beginCourse len m s).2.trans (turnCourse_now len s), hturned.fixed, hturned.guard⟩

/-- A missed tick leaves the course and the clock for the course start to move on. -/
theorem missTick_course (s : State) :
    (missTick s).tck.count = s.tck.count ∧ (missTick s).tck.course = s.tck.course ∧ (missTick s).now = s.now := by
  by_cases h : s.tck.missRun = 3
  · simp [missTick_of_eq h]
  · simp [missTick_of_ne h]

theorem missTick_input (s : State) : (missTick s).tck.missed = min (s.tck.missed + 1) 65535 ∧ (missTick s).tck.inputOk = false ∧
    (missTick s).tck.flywheel = (s.tck.flywheel || s.tck.missRun == 3) := by
  by_cases h : s.tck.missRun = 3
  · simp [missTick_of_eq h, h]
  · simp [missTick_of_ne h, h]

/-! ## The commands, case by case -/

section
variable {s : State} (interval : Nat) (m : CourseMeas)

theorem execCourseStart_of_source (hr : s.tck.running = true) (hs : s.tck.source = 0b01) :
    execCourseStart interval m s = settled s (beginCourse (periodPs s) m (ownStart s)) := by
  unfold execCourseStart
  exact (if_neg (by simp [hr])).trans (if_pos (by simp [ownCourses, hs]))

/-- The edge of a course that the module does not start itself: accepted, early or late (R34, R66). -/
theorem execCourseStart_of_edge (hr : s.tck.running = true) (he : (ownCourses s && !(s.tck.source != 0b01 && s.tck.returning)) = false) :
    execCourseStart interval m s =
      if 100 * interval < 95 * periodPs s then done s (if s.tck.returning then s else ignoreEdge s)
      else if 100 * interval ≤ (if s.tck.returning then 195 else 105) * periodPs s then
        settled s (beginCourse interval m (acceptEdge interval s.tck.returning s))
      else done s s := by
  unfold execCourseStart
  exact (if_neg (by simp [hr])).trans (if_neg (by rw [he]; exact Bool.false_ne_true))

theorem execCourseStart_accepts (hr : s.tck.running = true) (ho : ownCourses s = false) (hn : s.tck.returning = false)
    (hlo : 95 * periodPs s ≤ 100 * interval) (hhi : 100 * interval ≤ 105 * periodPs s) :
    execCourseStart interval m s = settled s (beginCourse interval m (acceptEdge interval false s)) := by
  rw [execCourseStart_of_edge interval m hr (by simp [ho]), hn]
  exact (if_neg (by omega)).trans (if_pos hhi)

theorem execCourseStart_returns (hr : s.tck.running = true) (hs : s.tck.source ≠ 0b01) (hn : s.tck.returning = true)
    (hlo : 95 * periodPs s ≤ 100 * interval) (hhi : 100 * interval ≤ 195 * periodPs s) :
    execCourseStart interval m s = settled s (beginCourse interval m (acceptEdge interval true s)) := by
  rw [execCourseStart_of_edge interval m hr (by simp [hs, hn]), hn]
  exact (if_neg (by omega)).trans (if_pos hhi)

theorem execCourseStart_ignores (hr : s.tck.running = true) (ho : ownCourses s = false) (hn : s.tck.returning = false)
    (hlo : 100 * interval < 95 * periodPs s) : execCourseStart interval m s = done s (ignoreEdge s) := by
  rw [execCourseStart_of_edge interval m hr (by simp [ho]), hn]
  exact if_pos hlo

theorem execCourseStart_late (hr : s.tck.running = true) (ho : ownCourses s = false) (hn : s.tck.returning = false)
    (hhi : 105 * periodPs s < 100 * interval) : execCourseStart interval m s = done s s := by
  rw [execCourseStart_of_edge interval m hr (by simp [ho]), hn]
  exact (if_neg (by omega)).trans (if_neg (Nat.not_le.mpr hhi))

theorem execEarlyEdge_of_input (hr : s.tck.running = true) (ho : ownCourses s = false) : execEarlyEdge s = done s (ignoreEdge s) :=
  congrArg (done s) (if_pos (by simp [hr, ho]))

theorem execEarlyEdge_idle (h : (s.tck.running && !ownCourses s) = false) : execEarlyEdge s = done s s :=
  congrArg (done s) (if_neg (by simp [h]))

theorem execMissedTick_of_input (hr : s.tck.running = true) (ho : ownCourses s = false) :
    execMissedTick m s = settled s (beginCourse (periodPs s * 21 / 20) m (missTick s)) := if_pos (by simp [hr, ho])

theorem execMissedTick_idle (h : (s.tck.running && !ownCourses s) = false) : execMissedTick m s = done s s := if_neg (by simp [h])

/-- TCK once the edge that was to end flywheel operation has not come (R66). -/
def unreturned (s : State) : State :=
  { s with tck := { s.tck with missed := min (s.tck.missed + 1) 65535, returning := false, edgeRun := 0,
                               inputOk := false, acceptRun := 0, avgArmed := false } }

theorem execFlywheelCourseEnd_of_returning (hr : s.tck.running = true) (hf : s.tck.flywheel = true) (hn : s.tck.returning = true) :
    execFlywheelCourseEnd m s = settled s (beginCourse (periodPs s * 39 / 20) m (unreturned s)) := if_pos (by simp [hr, hf, hn])

theorem execFlywheelCourseEnd_idle (h : (s.tck.running && s.tck.flywheel && s.tck.returning) = false) :
    execFlywheelCourseEnd m s = done s s := if_neg (by simp [h])

/-- The four commands while no course runs (log 3). -/
theorem takes_not_running (hr : s.tck.running = false) : Takes (.courseStart interval m) s s ∧ Takes .earlyEdge s s ∧
    Takes (.missedTick m) s s ∧ Takes (.flywheelCourseEnd m) s s :=
  ⟨takes_of_done (if_pos (by simp [hr])), takes_of_done (execEarlyEdge_idle (by simp [hr])),
    takes_of_done (execMissedTick_idle m (by simp [hr])), takes_of_done (execFlywheelCourseEnd_idle m (by simp [hr]))⟩

end

/-- Settles O6: a course start keeps the standing of the input and moves the course on; the rest is the cases of the four commands. -/
theorem coursesStartAndAreCounted : Obligations.CoursesStartAndAreCounted := by
  unfold Obligations.CoursesStartAndAreCounted
  refine ⟨fun s i m hr hs => ?_, fun s i m hr ho hn hlo hhi => ?_, fun s i m hr hs hn hlo hhi => ?_, fun s i m hr ho hn hlo => ?_,
    fun s m hr ho => ?_, fun s m hr hf hn => ?_, fun s i m => ⟨takes_not_running i m, fun ho => ?_, fun ho hn hhi => ?_, fun h => ?_⟩,
    fun len s => ?_⟩
  · have hturned := turned_beginCourse (periodPs s) m (ownStart s)
    exact ⟨_, rfl, engages_of_settled (execCourseStart_of_source i m hr hs), courseBegun_beginCourse _ m (ownStart s),
      hturned.inputOk, hturned.missed, hturned.early⟩
  · have hturned := turned_beginCourse i m (acceptEdge i false s)
    exact ⟨_, rfl, engages_of_settled (execCourseStart_accepts i m hr ho hn hlo hhi), courseBegun_beginCourse i m (acceptEdge i false s),
      hturned.inputOk, hturned.missRun, hturned.missed⟩
  · have hturned := turned_beginCourse i m (acceptEdge i true s)
    exact ⟨_, rfl, engages_of_settled (execCourseStart_returns i m hr hs hn hlo hhi), courseBegun_beginCourse i m (acceptEdge i true s),
      hturned.inputOk, hturned.missRun, hturned.returning, hturned.missed⟩
  · exact ⟨takes_of_done (execEarlyEdge_of_input hr ho), takes_of_done (execCourseStart_ignores i m hr ho hn hlo)⟩
  · obtain ⟨hcount, hcourse, hnow⟩ := missTick_course s
    obtain ⟨hmissed, hok, hfly⟩ := missTick_input s
    have hturned := turned_beginCourse (periodPs s * 21 / 20) m (missTick s)
    have hbegun := courseBegun_beginCourse (periodPs s * 21 / 20) m (missTick s)
    rw [CourseBegun, hcount, hcourse, hnow] at hbegun
    exact ⟨_, rfl, engages_of_settled (execMissedTick_of_input m hr ho), hbegun, hturned.missed.trans hmissed,
      hturned.inputOk.trans hok, hturned.flywheel.trans hfly⟩
  · have hturned := turned_beginCourse (periodPs s * 39 / 20) m (unreturned s)
    exact ⟨unreturned s, engages_of_settled (execFlywheelCourseEnd_of_returning m hr hf hn), rfl,
      courseBegun_beginCourse _ m (unreturned s), hturned.missed, hturned.returning⟩
  · exact ⟨takes_of_done (execEarlyEdge_idle (by simp [ho])), takes_of_done (execMissedTick_idle m (by simp [ho]))⟩
  · cases hr : s.tck.running with
    | true => exact takes_of_done (execCourseStart_late i m hr ho hn hhi)
    | false => exact (takes_not_running i m hr).1
  · exact takes_of_done (execFlywheelCourseEnd_idle m (by rcases h with h | h <;> simp [h]))
  · have hturned := turned_turnCourse len s
    exact ⟨hturned.count, hturned.course, turnCourse_now len s, hturned.fixed, hturned.guard⟩

end Sys2Proof.Machine
end

section
/-!
SUPPORT. A line that has been copied leaves the DRAM (R84, R157, R236): what the use of its unit's record can change, and what the media
engine holds once the line has left.
-/

namespace Sys2Proof.Machine
open Sys2Proof

/-! ## A line of the cache after a change of one line (R147) -/

section
variable {f : Line → Line} {s : State} {k i : Nat}

/-- A way that lists a line is listed itself, so it reads as it was changed. -/
theorem way_onWay_of_line {g : Way → Way} (h : lineIn (g (way s k)) i ≠ {}) : way (onWay k g s) k = g (way s k) :=
  tget_tset_of_ne _ _ _ fun hnone => h (congrArg (lineIn · i) hnone)

theorem line_onLine_same (h : f (lineIn (way s k) i) ≠ {}) : lineIn (way (onLine k i f s) k) i = f (lineIn (way s k) i) := by
  have hline : lineIn { way s k with lines := tmod {} (way s k).lines i f } i = f (lineIn (way s k) i) := tget_tset_of_ne _ _ _ h
  have hway := way_onWay_of_line (g := fun w => { w with lines := tmod {} w.lines i f }) (hline ▸ h)
  exact (congrArg (lineIn · i) hway).trans hline

theorem line_onLine_other {k' i' : Nat} (h : lineIn (way s k) i ≠ {}) (hother : k' ≠ k ∨ i' ≠ i) :
    lineIn (way (onLine k' i' f s) k) i = lineIn (way s k) i := by
  by_cases hk : k' = k
  · subst hk
    have hline : lineIn { way s k' with lines := tmod {} (way s k').lines i' f } i = lineIn (way s k') i :=
      tget_tmod_other _ _ _ (hother.resolve_left (· rfl)).symm
    have hway := way_onWay_of_line (g := fun w => { w with lines := tmod {} w.lines i' f }) (hline ▸ h)
    exact (congrArg (lineIn · i) hway).trans hline
  · have hway : way (onLine k' i' f s) k = way s k :=
      tget_tmod_other ({} : Way) s.cch.ways (fun w => { w with lines := tmod {} w.lines i' f }) (Ne.symm hk)
    exact congrArg (lineIn · i) hway

end

/-! ## The use of a unit's record (R398, R400) -/

/-- The state without what the use of a record touches: the keys and counters, the cache, and what counting touches. -/
def besideRecord (s : State) : State := { besideCounting s with sec := {}, cch := {} }

theorem besideRecord_metaFails (b : Nat) (s : State) : besideRecord (metaFails b s) = besideRecord s := by
  unfold metaFails
  generalize upto 256 = units
  refine each_keeps units _ besideRecord (fun n t => ?_) _
  exact ite_keeps besideRecord rfl rfl

theorem besideRecord_count (u c n : Nat) (s : State) : besideRecord (count u c n s) = besideRecord s := by
  simp only [besideRecord, besideCounting_count]

/-- The cache of records changes by `g`. -/
def onRecs (g : List Nat → List Nat) : State → State := onSec fun c => { c with recs := g c.recs }

theorem besideRecord_onRecs (g : List Nat → List Nat) (s : State) : besideRecord (onRecs g s) = besideRecord s := rfl

theorem way_onRecs (g : List Nat → List Nat) (s : State) (k : Nat) : way (onRecs g s) k = way s k := rfl

/-- A record that is used is in the cache of records already, or it comes with a metadata block that agrees with its MAC, or with one that
does not. -/
theorem useRecord_cases (k i : Nat) (s : State) : ∃ g, useRecord k i s = onRecs g s ∨ useRecord k i s = onRecs g (count 6 0x12 1 s) ∨
    (k * 32 + i) / 256 ∈ s.sec.badMeta ∧ useRecord k i s = onRecs g (metaFails ((k * 32 + i) / 256) (count 6 0x12 1 s)) := by
  by_cases hcached : k * 32 + i ∈ s.sec.recs
  · exact ⟨fun l => (k * 32 + i) :: l.erase (k * 32 + i), .inl (if_pos hcached)⟩
  · by_cases hbad : (k * 32 + i) / 256 ∈ s.sec.badMeta
    · refine ⟨fun l => ((k * 32 + i) :: l).take 135168, .inr (.inr ⟨hbad, ?_⟩)⟩
      simp only [useRecord, hcached, hbad, count_sec, if_true, if_false, onRecs]
    · refine ⟨fun l => ((k * 32 + i) :: l).take 135168, .inr (.inl ?_)⟩
      simp only [useRecord, hcached, hbad, count_sec, if_false, onRecs]

theorem besideRecord_useRecord (k i : Nat) (s : State) : besideRecord (useRecord k i s) = besideRecord s := by
  have hcount := besideRecord_count 6 0x12 1 s
  obtain ⟨g, h | h | ⟨-, h⟩⟩ := useRecord_cases k i s <;> rw [h, besideRecord_onRecs]
  · exact hcount
  · rw [besideRecord_metaFails, hcount]

@[simp] theorem useRecord_med (k i : Nat) (s : State) : (useRecord k i s).med = s.med := congrArg (·.med) (besideRecord_useRecord k i s)

@[simp] theorem journalRoom_useRecord (k i : Nat) (s : State) : journalRoom (useRecord k i s) = journalRoom s := by
  simp only [journalRoom, useRecord_med]

@[simp] theorem stagingRoom_useRecord (k i ch : Nat) (s : State) : stagingRoom (useRecord k i s) ch = stagingRoom s ch := by
  unfold stagingRoom copySlots
  rw [useRecord_med]

/-- The choice of a bank asks neither the cache nor the keys. -/
theorem bankForWrite_besideRecord (s : State) (u : Nat) : bankForWrite (besideRecord s) u = bankForWrite s u := rfl

@[simp] theorem bankForWrite_useRecord (k i u : Nat) (s : State) : bankForWrite (useRecord k i s) u = bankForWrite s u := by
  rw [← bankForWrite_besideRecord, besideRecord_useRecord, bankForWrite_besideRecord]

section
variable {s : State} {k i : Nat}

/-- A record whose metadata block agrees with its MAC is used without harm to any line. -/
theorem useRecord_of_goodMeta (h : (k * 32 + i) / 256 ∉ s.sec.badMeta) : (useRecord k i s).cch = s.cch ∧
    (useRecord k i s).sec.ctrs = s.sec.ctrs ∧ (useRecord k i s).sec.bootKey = s.sec.bootKey := by
  obtain ⟨g, h' | h' | ⟨hbad, -⟩⟩ := useRecord_cases k i s
  · rw [h']
    exact ⟨rfl, rfl, rfl⟩
  · rw [h']
    simp [onRecs]
  · exact absurd hbad h

theorem plain_useRecord (h : (k * 32 + i) / 256 ∉ s.sec.badMeta) : plain (useRecord k i s) k i = plain s k i := by
  obtain ⟨hcch, hctrs, hkey⟩ := useRecord_of_goodMeta h
  simp only [plain, unitRec, unitPad, dramKey, way, hcch, hctrs, hkey]

/-- The line is written back as poison: it was Poisoned, or it cannot be read (R157, R236). -/
def LeavesPoisoned (l : Line) : Prop := l.st = .evicting ∧ (l.pz = true ∨ l.tagOk = false)

theorem LeavesPoisoned.ne_default {l : Line} (h : LeavesPoisoned l) : l ≠ {} := fun hnone => by
  subst hnone
  exact absurd h.1 (by decide)

/-- A metadata block that fails its MAC breaks tags and mends none (R403). -/
theorem leavesPoisoned_metaFails (b : Nat) (h : LeavesPoisoned (lineIn (way s k) i)) :
    LeavesPoisoned (lineIn (way (metaFails b s) k) i) := by
  unfold metaFails each
  generalize hs₁ : onSec _ s = s₁
  have h₁ : LeavesPoisoned (lineIn (way s₁ k) i) := hs₁ ▸ h
  clear hs₁
  generalize upto 256 = units
  induction units generalizing s₁ with
  | nil => exact h₁
  | cons j units ih =>
    refine ih _ ?_
    dsimp only
    split
    · by_cases hsame : (256 * b + j) / 32 = k ∧ (256 * b + j) % 32 = i
      · obtain ⟨rfl, rfl⟩ := hsame
        have hbroken : LeavesPoisoned { lineIn (way s₁ ((256 * b + j) / 32)) ((256 * b + j) % 32) with tagOk := false } := ⟨h₁.1, .inr rfl⟩
        rwa [line_onLine_same hbroken.ne_default]
      · rwa [line_onLine_other h₁.ne_default (by omega)]
    · exact h₁

theorem leavesPoisoned_useRecord (h : LeavesPoisoned (lineIn (way s k) i)) : LeavesPoisoned (lineIn (way (useRecord k i s) k) i) := by
  have hcount : LeavesPoisoned (lineIn (way (count 6 0x12 1 s) k) i) := by rwa [way, count_cch]
  obtain ⟨g, h' | h' | ⟨-, h'⟩⟩ := useRecord_cases k i s <;> rw [h', way_onRecs]
  · exact h
  · exact hcount
  · exact leavesPoisoned_metaFails _ hcount

end

/-! ## A record of the journal (R90) -/

/-- Where the buffer has room, a record stands in it once it has entered. -/
theorem mem_jbuf_enter {r : JRec} {urgent : Bool} {s : State} (h : journalRoom s = true) :
    ∃ j, j ∈ (enter r urgent s).med.jbuf ∧ r ∈ j.recs := by
  obtain ⟨hlen, hwait⟩ : s.med.jbuf.length < 56 ∧ s.med.jwait.isEmpty = true := by simpa [journalRoom] using h
  have hfits : entryFits s.med = true := by simp [entryFits, show s.med.jbuf.length < 64 by omega]
  simp only [enter, onMed_med, hwait, hfits, Bool.and_self, if_true, enterPage]
  split
  · split
    · exact ⟨_, List.mem_append_right _ List.mem_cons_self, List.mem_cons_self⟩
    · exact ⟨_, List.mem_append_right _ List.mem_cons_self, List.mem_append_right _ List.mem_cons_self⟩
  · exact ⟨_, List.mem_cons_self, List.mem_cons_self⟩

/-! ## What the media engine holds of a write-back (R84, R86) -/

/-- DATA_SEQ, the write staging and the journal buffer. -/
def writePart (s : State) : Nat × List Stage × List JPage := (s.med.wseq, s.med.staging, s.med.jbuf)

theorem writePart_touchMap (m : Nat) (d : Bool) (s : State) : writePart (touchMap m d s) = writePart s := by
  simp only [writePart, touchMap, onMed_med]
  split
  · split <;> rfl
  · rfl

theorem writePart_setMap (u : Nat) (e : MapEnt) (s : State) : writePart (setMap u e s) = writePart s :=
  (writePart_touchMap _ _ _).trans (ite_keeps writePart (ite_keeps writePart rfl rfl) (ite_keeps writePart rfl rfl))

theorem writePart_tellSeq (u seq : Nat) (s : State) : writePart (tellSeq u seq s) = writePart s := rfl

theorem writePart_onLine (k i : Nat) (f : Line → Line) (s : State) : writePart (onLine k i f s) = writePart s := rfl

theorem writePart_finishEvict (k : Nat) (s : State) : writePart (finishEvict k s) = writePart s := ite_keeps writePart rfl rfl

theorem writePart_event (code src operand : Nat) (s : State) : writePart (event code src operand s) = writePart s := by
  simp only [writePart, event_med]

/-- The next DATA_SEQ is taken. -/
def takeSeq : State → State := onMed fun m => { m with wseq := m.wseq + 1 }

/-- Of a zero or poisoned write-back the media engine holds its MAP_SET, under the next DATA_SEQ; nothing is staged. -/
theorem writePart_writeFlag (u : Nat) (e : MapEnt) (wb : Bool) (s : State) :
    writePart (writeFlag u e wb s) = writePart (enter (.mapSet u e (s.med.wseq + 1) wb) false (takeSeq s)) :=
  ite_keeps writePart rfl (writePart_setMap _ _ _)

end Sys2Proof.Machine
end

section
/-!
PROOF. The times of the media engine (R84, R90, R93, R157, R236; O12): a line that leaves the cache goes to the write staging with its data,
or into the journal as a zero or a poisoned page.
-/

namespace Sys2Proof.Machine
open Sys2Proof

/-- What leaves with an Evicting line that has been copied, where there is room for it: its data, or MAP_SET of a zero or poisoned page
(R84). -/
def writeBack (u k : Nat) (poison : Bool) (s : State) : Option State :=
  let flag (e : MapEnt) : Option State := if journalRoom s then some (writeFlag u e true s) else none
  if poison then flag { poison := true }
  else if plain s k (lineOf u) = 0 then flag { zero := true }
  else if stagingRoom s (channelOfBank (bankForWrite s u)) then some (stageWrite u (bankForWrite s u) (plain s k (lineOf u)) s)
  else none

section
variable {s t : State} {u k : Nat}

theorem writeBack_of_poison (h : journalRoom s = true) : writeBack u k true s = some (writeFlag u { poison := true } true s) := if_pos h

theorem writeBack_of_zero (hd : plain s k (lineOf u) = 0) (h : journalRoom s = true) :
    writeBack u k false s = some (writeFlag u { zero := true } true s) := (if_pos hd).trans (if_pos h)

theorem writeBack_of_data (hd : plain s k (lineOf u) ≠ 0) (h : stagingRoom s (channelOfBank (bankForWrite s u)) = true) :
    writeBack u k false s = some (stageWrite u (bankForWrite s u) (plain s k (lineOf u)) s) := (if_neg hd).trans (if_pos h)

/-- Of an Evicting line, read with its record, the media engine holds what leaves with it. -/
theorem writePart_lineLeaves (hway : findWay s u = some k) (hst : (lineIn (way (useRecord k (lineOf u) s) k) (lineOf u)).st = .evicting)
    (hout : let l := lineIn (way (useRecord k (lineOf u) s) k) (lineOf u)
      writeBack u k (l.pz || !l.pz && !l.tagOk) (useRecord k (lineOf u) s) = some t) :
    writePart (lineLeaves u s) = writePart t := by
  simp only [lineLeaves, hway]
  generalize useRecord k (lineOf u) s = r at hst hout ⊢
  rw [if_pos hst]
  split
  · next hnone => exact absurd (hout.symm.trans hnone) (Option.some_ne_none t)
  · next t' hsome =>
    obtain rfl := Option.some.inj (hout.symm.trans hsome)
    rw [writePart_finishEvict, writePart_onLine]
    refine ite_keeps writePart ?_ (writePart_tellSeq _ _ _)
    rw [writePart_event]
    rfl

/-- A write-back without data takes the next DATA_SEQ and stands in the journal as MAP_SET; nothing is staged. -/
theorem flagged_of_writePart {e : MapEnt} {i : Nat} (hroom : journalRoom s = true)
    (h : writePart t = writePart (writeFlag u e true (useRecord k i s))) :
    t.med.wseq = s.med.wseq + 1 ∧ t.med.staging = s.med.staging ∧ ∃ j, j ∈ t.med.jbuf ∧ JRec.mapSet u e (s.med.wseq + 1) true ∈ j.recs := by
  rw [← journalRoom_useRecord k i] at hroom
  rw [← useRecord_med k i s]
  generalize useRecord k i s = r at h hroom ⊢
  rw [writePart_writeFlag] at h
  have hbeside := besideJournal_enter (.mapSet u e (r.med.wseq + 1) true) false (takeSeq r)
  obtain ⟨j, hj, hrec⟩ := mem_jbuf_enter (r := .mapSet u e (r.med.wseq + 1) true) (urgent := false) (s := takeSeq r) hroom
  have hjbuf : t.med.jbuf = (enter (.mapSet u e (r.med.wseq + 1) true) false (takeSeq r)).med.jbuf := congrArg (·.2.2) h
  exact ⟨(congrArg (·.1) h).trans (congrArg (·.med.wseq) hbeside), (congrArg (·.2.1) h).trans (congrArg (·.med.staging) hbeside),
    j, hjbuf ▸ hj, hrec⟩

/-- A readable line whose record is sound leaves with its data, or as a zero page. -/
theorem writePart_lineLeaves_of_readable (hway : findWay s u = some k) (hst : (lineIn (way s k) (lineOf u)).st = .evicting)
    (hpz : (lineIn (way s k) (lineOf u)).pz = false) (htag : (lineIn (way s k) (lineOf u)).tagOk = true)
    (hmeta : (k * 32 + lineOf u) / 256 ∉ s.sec.badMeta) (hout : writeBack u k false (useRecord k (lineOf u) s) = some t) :
    writePart (lineLeaves u s) = writePart t := by
  obtain ⟨hcch, -, -⟩ := useRecord_of_goodMeta hmeta
  have hsame : way (useRecord k (lineOf u) s) k = way s k := by rw [way, hcch, way]
  refine writePart_lineLeaves hway (hsame ▸ hst) ?_
  simp only [hsame, hpz, htag]
  exact hout

/-- A line that leaves poisoned does so whatever the use of its record finds (R236). -/
theorem writePart_lineLeaves_of_poisoned (hway : findWay s u = some k) (h : LeavesPoisoned (lineIn (way s k) (lineOf u)))
    (hroom : journalRoom s = true) :
    writePart (lineLeaves u s) = writePart (writeFlag u { poison := true } true (useRecord k (lineOf u) s)) := by
  obtain ⟨hst, hbad⟩ := leavesPoisoned_useRecord h
  refine writePart_lineLeaves hway hst ?_
  have hpoison (l : Line) (hl : l.pz = true ∨ l.tagOk = false) : (l.pz || !l.pz && !l.tagOk) = true := by
    rcases hl with hl | hl <;> simp [hl]
  dsimp only
  rw [hpoison _ hbad]
  exact writeBack_of_poison (by rwa [journalRoom_useRecord])

end

theorem startCkpt_of_none {why : Nat} {s : State} (h : s.med.ckpt = none) : (startCkpt why s).med.ckptGen = s.med.ckptGen + 1 ∧
    (startCkpt why s).med.ckpt.isSome = true ∧ (startCkpt why s).cch = s.cch ∧ (startCkpt why s).dir = s.dir := by
  simp [startCkpt, h]

/-- Settles O12: the cases of what leaves with a line, and of CHECKPOINT_PERIODIC. -/
theorem theMediaEngineKeepsItsTimes : Obligations.TheMediaEngineKeepsItsTimes := by
  unfold Obligations.TheMediaEngineKeepsItsTimes
  refine ⟨fun s => engages_of_settled rfl, fun s hrun hnone => ?_, fun s h => takes_of_done (if_neg ?_),
    fun s u k hway hst hpz htag hmeta => ⟨fun hdata hroom => ?_, fun hzero hroom => ?_⟩, fun s u k hway hst hbad hroom => ?_⟩
  · exact ⟨startCkpt 0 s, engages_of_settled (if_pos (by simp [hrun, hnone])), startCkpt_of_none hnone⟩
  · rcases h with h | h
    · simp [h]
    · simp [← Option.not_isSome, h]
  · have hout := writeBack_of_data ((plain_useRecord hmeta).symm ▸ hdata) (by rwa [bankForWrite_useRecord, stagingRoom_useRecord])
    have hpart := writePart_lineLeaves_of_readable hway hst hpz htag hmeta hout
    rw [plain_useRecord hmeta, bankForWrite_useRecord] at hpart
    refine ⟨lineLeaves u s, engages_of_settled rfl, (congrArg (·.1) hpart).trans ?_, (congrArg (·.2.1) hpart).trans ?_⟩
    · simp [writePart, stageWrite]
    · simp [writePart, stageWrite]
  · have hout := writeBack_of_zero (u := u) ((plain_useRecord hmeta).trans hzero) (by rwa [journalRoom_useRecord])
    have hpart := writePart_lineLeaves_of_readable hway hst hpz htag hmeta hout
    exact ⟨lineLeaves u s, engages_of_settled rfl, flagged_of_writePart hroom hpart⟩
  · have hpart := writePart_lineLeaves_of_poisoned hway ⟨hst, hbad⟩ hroom
    exact ⟨lineLeaves u s, engages_of_settled rfl, flagged_of_writePart hroom hpart⟩

end Sys2Proof.Machine
end

section
/-!
PROOF. The sensors are sampled (R115, R466, R467, R472; O13): a sample writes the entry of its own sensor and no other, so what the sensor
reads as follows from the laws of the tables, and a package keeps what its turn in PACKAGE_SAMPLE gave it.
-/

namespace Sys2Proof.Machine
open Sys2Proof

/-! ## What recording an event leaves of the sensors -/

@[simp] theorem event_thm (code src operand : Nat) (s : State) : (event code src operand s).thm = s.thm :=
  congrArg (·.thm) (besideRecording_event code src operand s)

/-! ## One entry of the table of sensors -/

/-- A sensor after one more lost sample (R472). -/
def loseSample (x : Sensor) : Sensor := { x with lost := min 3 (x.lost + 1) }

/-- A sensor after a reading (R467). -/
def readSensor (q : Int) (x : Sensor) : Sensor := { x with temp := q, lost := 0 }

/-- A sensor after its band has followed a reading (R467, R474). -/
def bandSensor (q : Int) (x : Sensor) : Sensor := { x with band := nextBand x.band q, hot := decide (400 ≤ q) && !x.broken }

section
variable {s : State} {n k : Nat} {f : Sensor → Sensor} {q : Int} {r : Reading}

theorem sensor_onSensor_of_ne (h : f (sensor s n) ≠ {}) : sensor (onSensor n f s) n = f (sensor s n) := tget_tset_of_ne _ _ _ h

theorem sensor_onSensor_same (hwf : Table.wf {} s.thm.sensors = true) : sensor (onSensor n f s) n = f (sensor s n) :=
  tget_tmod_same _ _ _ _ hwf

/-! ## What the steps of a sample leave of the table -/

theorem sampleSensor_absent (n : Nat) (s : State) : sampleSensor n .absent s =
    timeHot (if 3 ≤ (sensor (onSensor n loseSample s) n).lost then breakSensor n (onSensor n loseSample s) else onSensor n loseSample s) :=
  rfl

theorem sampleSensor_temp (n : Nat) (q : Int) (s : State) : sampleSensor n (.temp q) s =
    let u := onSensor n (readSensor q) (coolTrip n q s)
    if q < -160 ∨ 600 < q then timeHot (breakSensor n u)
    else if n = 85 then inletSample q u
    else timeHot (onSensor n (bandSensor q) u) := rfl

theorem sensors_timeHot (s : State) : (timeHot s).thm.sensors = s.thm.sensors := rfl

theorem sensors_coolTrip (n : Nat) (q : Int) (s : State) : (coolTrip n q s).thm.sensors = s.thm.sensors :=
  ite_keeps (·.thm.sensors) rfl rfl

theorem sensors_inletSample (q : Int) (s : State) : (inletSample q s).thm.sensors = s.thm.sensors := by
  refine ite_keeps (·.thm.sensors) rfl (ite_keeps (·.thm.sensors) ?_ rfl)
  rw [event_thm]
  rfl

/-- A broken sensor stays as it is, and another one is marked in its entry (R472). -/
theorem sensors_breakSensor (n : Nat) (s : State) : (breakSensor n s).thm.sensors =
    if (sensor s n).broken then s.thm.sensors else tmod {} s.thm.sensors n fun x => { x with broken := true, hot := false } := by
  unfold breakSensor
  split
  · rfl
  · rw [event_thm]
    rfl

theorem broken_breakSensor (n : Nat) (s : State) : (sensor (breakSensor n s) n).broken = true := by
  rw [sensor, sensors_breakSensor]
  split
  · assumption
  · rw [tmod, tget_tset_of_ne _ _ _ fun hnone => Bool.noConfusion (congrArg (·.broken) hnone)]

/-- The table after a sample comes from the one before by writes of the sampled sensor's entry alone. -/
theorem sensors_sampleSensor {P : Table Sensor → Prop} (hwrite : ∀ t f, P t → P (tmod {} t n f)) (h : P s.thm.sensors) :
    P (sampleSensor n r s).thm.sensors := by
  have hbreak {u : State} (hu : P u.thm.sensors) : P (breakSensor n u).thm.sensors := by
    rw [sensors_breakSensor]
    split
    · exact hu
    · exact hwrite _ _ hu
  cases r with
  | checkFailed => exact hbreak h
  | absent =>
    have hlost : P (onSensor n loseSample s).thm.sensors := hwrite _ _ h
    rw [sampleSensor_absent, sensors_timeHot]
    split
    · exact hbreak hlost
    · exact hlost
  | temp q =>
    have hread : P (onSensor n (readSensor q) (coolTrip n q s)).thm.sensors := hwrite _ _ ((sensors_coolTrip n q s).symm ▸ h)
    rw [sampleSensor_temp]
    dsimp only
    split
    · rw [sensors_timeHot]
      exact hbreak hread
    · split
      · rw [sensors_inletSample]
        exact hread
      · rw [sensors_timeHot]
        exact hwrite _ _ hread

theorem wf_sampleSensor (hwf : Table.wf {} s.thm.sensors = true) : Table.wf {} (sampleSensor n r s).thm.sensors = true :=
  sensors_sampleSensor (P := fun t => Table.wf {} t = true) (fun _ _ h => wf_tmod _ _ h) hwf

theorem sensor_sampleSensor_other (hk : k ≠ n) : sensor (sampleSensor n r s) k = sensor s k :=
  sensors_sampleSensor (P := fun t => tget {} t k = sensor s k) (fun _ _ h => (tget_tmod_other _ _ _ hk).trans h) rfl

/-! ## What each reading makes of the sensor (R467, R472) -/

/-- A reading in range is the sensor's temperature; every sensor but the inlet's takes its band from it. -/
theorem sensor_sampleSensor_temp (hwf : Table.wf {} s.thm.sensors = true) (hlo : -160 ≤ q) (hhi : q ≤ 600) :
    sensor (sampleSensor n (.temp q) s) n =
      if n = 85 then readSensor q (sensor s n) else bandSensor q (readSensor q (sensor s n)) := by
  have hcool : Table.wf {} (coolTrip n q s).thm.sensors = true := (sensors_coolTrip n q s).symm ▸ hwf
  have hread : sensor (onSensor n (readSensor q) (coolTrip n q s)) n = readSensor q (sensor s n) := by
    rw [sensor_onSensor_same hcool, sensor, sensors_coolTrip, sensor]
  have hrange : ¬ (q < -160 ∨ 600 < q) := by omega
  simp only [sampleSensor_temp, if_neg hrange]
  split
  · rw [sensor, sensors_inletSample]
    exact hread
  · rw [sensor, sensors_timeHot]
    exact (sensor_onSensor_same (wf_tmod _ _ hcool)).trans (congrArg _ hread)

/-- The count of lost samples is above 0 after a loss, so the sensor is listed. -/
theorem sensor_onSensor_loseSample (n : Nat) (s : State) : sensor (onSensor n loseSample s) n = loseSample (sensor s n) := by
  refine sensor_onSensor_of_ne fun hnone => ?_
  have hzero : min 3 ((sensor s n).lost + 1) = 0 := congrArg (·.lost) hnone
  omega

theorem lost_onSensor_loseSample (n : Nat) (s : State) : (sensor (onSensor n loseSample s) n).lost = min 3 ((sensor s n).lost + 1) :=
  congrArg (·.lost) (sensor_onSensor_loseSample n s)

theorem broken_sampleSensor_absent_of_lt (h : (sensor s n).lost < 2) :
    (sensor (sampleSensor n .absent s) n).broken = (sensor s n).broken := by
  have hfew : ¬ 3 ≤ (sensor (onSensor n loseSample s) n).lost := by
    rw [lost_onSensor_loseSample]
    omega
  rw [sampleSensor_absent, if_neg hfew, sensor, sensors_timeHot]
  exact congrArg (·.broken) (sensor_onSensor_loseSample n s)

theorem broken_sampleSensor_absent_of_eq (h : (sensor s n).lost = 2) : (sensor (sampleSensor n .absent s) n).broken = true := by
  have hmany : 3 ≤ (sensor (onSensor n loseSample s) n).lost := by
    rw [lost_onSensor_loseSample]
    omega
  rw [sampleSensor_absent, if_pos hmany, sensor, sensors_timeHot]
  exact broken_breakSensor _ _

theorem broken_sampleSensor_checkFailed (n : Nat) (s : State) : (sensor (sampleSensor n .checkFailed s) n).broken = true :=
  broken_breakSensor n s

end

/-! ## The packages in turn (R115) -/

theorem packages_le (s : State) : packages s ≤ 64 := by
  unfold packages
  split <;> omega

section
variable {s : State} {i j : Nat} {q : Int} {g : Nat → Reading} {l : List Nat}

theorem pkgSensor_samplePackage_other {r : Reading} (h : i ≠ j) : pkgSensor (samplePackage j r s) i = pkgSensor s i :=
  sensor_sampleSensor_other (by omega)

theorem pkgSensor_samplePackages_other (h : i ∉ l) : pkgSensor (each l (fun j s => samplePackage j (g j) s) s) i = pkgSensor s i := by
  induction l generalizing s with
  | nil => rfl
  | cons j l ih =>
    obtain ⟨hj, hl⟩ := List.ne_and_not_mem_of_not_mem_cons h
    exact (ih hl).trans (pkgSensor_samplePackage_other hj)

/-- A package's reading in range tells in its own turn; the packages before it and after it leave its sensor alone. -/
theorem pkgSensor_samplePackages (hnodup : l.Nodup) (hi : i ∈ l) (hinlet : i < 64) (hwf : Table.wf {} s.thm.sensors = true)
    (hr : g i = .temp q) (hlo : -160 ≤ q) (hhi : q ≤ 600) :
    pkgSensor (each l (fun j s => samplePackage j (g j) s) s) i = bandSensor q (readSensor q (pkgSensor s i)) := by
  induction l generalizing s with
  | nil => exact absurd hi List.not_mem_nil
  | cons j l ih =>
    obtain ⟨hj, hl⟩ := List.nodup_cons.mp hnodup
    by_cases hij : i = j
    · subst hij
      have hband : pkgSensor (samplePackage i (g i) s) i = bandSensor q (readSensor q (pkgSensor s i)) := by
        rw [hr]
        exact (sensor_sampleSensor_temp hwf hlo hhi).trans (if_neg (by omega))
      exact (pkgSensor_samplePackages_other hj).trans hband
    · have hrest := ih (s := samplePackage j (g j) s) hl ((List.mem_cons.mp hi).resolve_left hij) (wf_sampleSensor hwf)
      exact hrest.trans (congrArg (fun x => bandSensor q (readSensor q x)) (pkgSensor_samplePackage_other hij))

end

theorem execSensorSample_of_read {n : Nat} (r : Reading) {s : State} (hn : n < 86) (hpkg : ¬ (4 ≤ n ∧ n ≤ 67))
    (hs : sensorsRead s = true) : execSensorSample n r s = done s (sampleSensor n r s) := if_pos ⟨hn, hpkg, hs⟩

/-- Settles O13: the sensor's entry after each reading, and a package's after its turn. -/
theorem sensorsAreSampled : Obligations.SensorsAreSampled := by
  unfold Obligations.SensorsAreSampled
  have htakes {s : State} {n : Nat} (r : Reading) (hn : n < 86) (hpkg : ¬ (4 ≤ n ∧ n ≤ 67)) (hs : sensorsRead s = true) :
      Takes (.sensorSample n r) s (sampleSensor n r s) := takes_of_done (execSensorSample_of_read r hn hpkg hs)
  refine ⟨fun s n r => htakes r, fun s n q hwf hn hpkg hs hlo hhi => ?_, fun s n hn hpkg hs => ⟨?_, ?_⟩,
    fun s rs hrun => takes_of_done (if_pos hrun), fun s rs hwf hrun => ⟨_, takes_of_done (if_pos hrun), fun i q hi hr hlo hhi => ?_⟩,
    fun s rs hstop => takes_of_done (if_neg (by simp [hstop])), fun s n q hwf hn hlo hhi => ?_,
    fun s n => broken_sampleSensor_absent_of_lt, fun s n => broken_sampleSensor_absent_of_eq,
    fun s n => broken_sampleSensor_checkFailed n s⟩
  · obtain ⟨-, -, -, -, hsensors, -, -⟩ := hwf
    refine ⟨_, htakes _ hn hpkg hs, ?_, ?_, fun hband => ?_, fun k hk => sensor_sampleSensor_other hk⟩
    all_goals rw [sensor_sampleSensor_temp hsensors hlo hhi]
    · split <;> rfl
    · split <;> rfl
    · rw [if_neg hband]
      rfl
  · exact ⟨_, htakes _ hn hpkg hs, broken_sampleSensor_checkFailed n s⟩
  · exact ⟨_, htakes _ hn hpkg hs, broken_sampleSensor_absent_of_lt, broken_sampleSensor_absent_of_eq⟩
  · obtain ⟨-, -, -, -, hsensors, -, -⟩ := hwf
    have hmax := packages_le s
    have hpkg := pkgSensor_samplePackages (g := fun j => (nth rs j).getD .absent) List.nodup_range (List.mem_range.mpr hi) (by omega)
      hsensors (by simp [hr]) hlo hhi
    exact ⟨congrArg (·.temp) hpkg, congrArg (·.lost) hpkg, congrArg (·.band) hpkg⟩
  · obtain ⟨-, -, -, -, hsensors, -, -⟩ := hwf
    exact (sensor_sampleSensor_temp hsensors hlo hhi).trans (if_neg (by omega))

end Sys2Proof.Machine
end

section
/-!
SUPPORT. What the end of a media read can touch: the counts of a block's heavy reads (R106, R136), the keys and counters when a unit is
written (R399, R401), the map when a page is lost (R80, R99), and the error registers (R482, R486, R504).
-/

namespace Sys2Proof.Machine
open Sys2Proof

section
variable (u c n code src operand : Nat) (s : State)
@[simp] theorem count_fuses : (count u c n s).fuses = s.fuses := congrArg (·.fuses) (besideCounting_count u c n s)
@[simp] theorem count_med : (count u c n s).med = s.med := congrArg (·.med) (besideCounting_count u c n s)
@[simp] theorem event_sec : (event code src operand s).sec = s.sec := congrArg (·.sec) (besideRecording_event code src operand s)
end

/-! ## What a heavy read leaves alone (R106, R136) -/

/-- The state without what the ageing of a block touches: the block records, the drift clocks, the counters and the recorder. -/
def besideAgeing (s : State) : State := besideBlocks { besideRecording (besideCounting s) with drf := {} }

theorem besideAgeing_of_besideCounting {s t : State} (h : besideCounting t = besideCounting s) : besideAgeing t = besideAgeing s :=
  congrArg (fun x => besideBlocks { besideRecording x with drf := {} }) h

theorem besideAgeing_of_besideRecording {s t : State} (h : besideRecording t = besideRecording s) : besideAgeing t = besideAgeing s :=
  congrArg (fun x => besideBlocks { besideCounting x with drf := {} }) h

theorem besideAgeing_count (u c n : Nat) (s : State) : besideAgeing (count u c n s) = besideAgeing s :=
  besideAgeing_of_besideCounting (besideCounting_count u c n s)

theorem besideAgeing_event (code src operand : Nat) (s : State) : besideAgeing (event code src operand s) = besideAgeing s :=
  besideAgeing_of_besideRecording (besideRecording_event code src operand s)

theorem besideAgeing_onBlk (b : Nat) (f : Blk → Blk) (s : State) : besideAgeing (onBlk b f s) = besideAgeing s := rfl

theorem besideAgeing_onDrf (f : Drf → Drf) (s : State) : besideAgeing (onDrf f s) = besideAgeing s := rfl

/-- The block's place in the order of the rewrite queue. -/
theorem besideAgeing_nextOrder (s : State) : besideAgeing (onMed (fun m => { m with order := m.order + 1 }) s) = besideAgeing s := rfl

theorem besideAgeing_heavyRead (b : Nat) (s : State) : besideAgeing (heavyRead b s) = besideAgeing s := by
  have hcount (f : Blk → Blk) (u c : Nat) : besideAgeing (count u c 1 (onBlk b f s)) = besideAgeing s :=
    (besideAgeing_count u c 1 _).trans (besideAgeing_onBlk b f s)
  refine ite_keeps besideAgeing (ite_keeps besideAgeing ?_ (hcount _ _ _)) rfl
  rw [besideAgeing_nextOrder, besideAgeing_onBlk, hcount]

theorem besideAgeing_driftAhead (b : Nat) (s : State) : besideAgeing (driftAhead b s) = besideAgeing s := by
  have hevent (f : Drf → Drf) (code src : Nat) : besideAgeing (event code src b (onDrf f s)) = besideAgeing s :=
    (besideAgeing_event code src b _).trans (besideAgeing_onDrf f s)
  refine ite_keeps besideAgeing ?_ (hevent _ _ _)
  rw [besideAgeing_nextOrder, besideAgeing_onBlk, hevent]

/-! ## What the write of a unit leaves alone (R399, R401) -/

/-- The media engine, the counters of the inline cipher, and its key. -/
def unitPart (s : State) : Med × Table URec × Nat := (s.med, s.sec.ctrs, s.sec.bootKey)

theorem unitPart_count (u c n : Nat) (s : State) : unitPart (count u c n s) = unitPart s := by
  simp only [unitPart, count_med, count_sec]

theorem unitPart_fatal (cause m : Nat) (s : State) : unitPart (fatal cause m s) = unitPart s := by
  refine ite_keeps unitPart rfl ?_
  simp only [unitPart, onPwr_med, onPwr_sec, event_med, event_sec, onPlinth_med, onPlinth_sec]

theorem unitPart_metaFails (b : Nat) (s : State) : unitPart (metaFails b s) = unitPart s := by
  unfold metaFails
  generalize upto 256 = units
  refine each_keeps units _ unitPart (fun n t => ?_) _
  exact ite_keeps unitPart rfl rfl

theorem unitPart_useRecord (k i : Nat) (s : State) : unitPart (useRecord k i s) = unitPart s := by
  have hrecs (g : List Nat → List Nat) (t : State) : unitPart (onRecs g t) = unitPart t := rfl
  obtain ⟨g, h | h | ⟨-, h⟩⟩ := useRecord_cases k i s <;> rw [h, hrecs]
  · exact unitPart_count _ _ _ s
  · rw [unitPart_metaFails, unitPart_count]

theorem unitPart_bumpUnit (k i : Nat) (s : State) : unitPart (bumpUnit k i s).2 = unitPart s := by
  have hrecord := unitPart_useRecord k i s
  unfold bumpUnit
  generalize useRecord k i s = r at hrecord ⊢
  dsimp only
  split
  · exact hrecord
  · split
    · exact hrecord
    · refine ite_keeps unitPart ?_ ?_
      · rw [unitPart_fatal, unitPart_count]
        exact hrecord
      · rw [unitPart_count]
        exact hrecord

/-- A unit is written under some counters, after changes that leave the table of counters alone. -/
theorem writeUnit_eq (k i : Nat) (d : LineData) (f : Line → Line) (s : State) :
    ∃ major minor e, unitPart e = unitPart s ∧ writeUnit k i d f s = putUnit k i major minor d f e :=
  ⟨(bumpUnit k i s).1.1, (bumpUnit k i s).1.2, (bumpUnit k i s).2, unitPart_bumpUnit k i s, rfl⟩

section
variable {f : Line → Line} {k i major minor : Nat} {d : LineData} {s : State}

theorem putUnit_med : (putUnit k i major minor d f s).med = s.med := count_med _ _ _ s

/-- The line takes the data's ciphertext where it does not read as an unlisted one. -/
theorem line_putUnit (h : ∀ ct, { f (lineIn (way s k) i) with ct } ≠ ({} : Line)) : lineIn (way (putUnit k i major minor d f s) k) i =
    { f (lineIn (way s k) i) with ct := d ^^^ unitPad s (k * 32 + i) major minor } := by
  have hsame (g : Sec → Sec) : way (onSec g (count 6 0x10 1 s)) k = way s k := by simp only [way, onSec_cch, count_cch]
  refine (line_onLine_same ?_).trans ?_
  all_goals rw [hsame]
  exact h _

/-- A unit that was written reads as its data (R397, R399), whatever the form of the table of ways. -/
theorem plain_putUnit_of_ne (hc : Table.wf {} s.sec.ctrs = true) (h : ∀ ct, { f (lineIn (way s k) i) with ct } ≠ ({} : Line)) :
    plain (putUnit k i major minor d f s) k i = d := by
  have hkey : (putUnit k i major minor d f s).sec.bootKey = s.sec.bootKey := by
    simp only [putUnit, onLine, onWay_sec, onSec_sec, count_sec]
  have hrec : unitRec (putUnit k i major minor d f s) (k * 32 + i) =
      { minor, major, tag := unitTag s (k * 32 + i) major minor (d ^^^ unitPad s (k * 32 + i) major minor) } := by
    simp only [unitRec, putUnit, onLine, onWay_sec, onSec_sec, count_sec]
    exact tget_tset_same _ _ _ _ hc
  simp only [plain, line_putUnit h, hrec, unitPad, dramKey, hkey]
  rw [BitVec.xor_assoc, BitVec.xor_self, BitVec.xor_zero]

end

/-! ## What the loss of a page leaves alone (R80, R99, R169) -/

/-- The media reads and the error registers. -/
def readPart (s : State) : List MRead × Err := (s.med.reads, s.err)

theorem readPart_touchMap (m : Nat) (d : Bool) (s : State) : readPart (touchMap m d s) = readPart s := by
  simp only [readPart, touchMap, onMed_med, onMed_err]
  split
  · split <;> rfl
  · rfl

theorem readPart_moveValid (old new : MapEnt) (s : State) :
    let dropped := if old.valid then dropValid (blockOfPpn old.ppn) s else s
    readPart (if new.valid then addValid (blockOfPpn new.ppn) dropped else dropped) = readPart s :=
  ite_keeps readPart (ite_keeps readPart rfl rfl) (ite_keeps readPart rfl rfl)

theorem readPart_setMap (u : Nat) (e : MapEnt) (s : State) : readPart (setMap u e s) = readPart s :=
  (readPart_touchMap _ _ _).trans (readPart_moveValid (mapEnt s u) e s)

theorem readPart_setDir (m : Nat) (e : MapEnt) (s : State) : readPart (setDir m e s) = readPart s :=
  readPart_moveValid (dirOf s m) e s

theorem readPart_loseMap (m : Nat) (s : State) : readPart (loseMap m s) = readPart s := by
  unfold loseMap
  generalize upto 96 = entries
  rw [each_keeps entries _ readPart fun i s => readPart_setMap _ _ s, readPart_setDir]

theorem readPart_enter (r : JRec) (urgent : Bool) (s : State) : readPart (enter r urgent s) = readPart s :=
  congrArg (fun t => (t.med.reads, t.err)) (besideJournal_enter r urgent s)

theorem readPart_writeFlag (u : Nat) (e : MapEnt) (wb : Bool) (s : State) : readPart (writeFlag u e wb s) = readPart s := by
  have henter (r : JRec) : readPart (enter r false (takeSeq s)) = readPart s := readPart_enter r false (takeSeq s)
  exact ite_keeps readPart (henter _) ((readPart_setMap _ _ _).trans (henter _))

theorem readPart_copyLost (i page : Nat) (s : State) : readPart (copyLost i page s) = readPart s := by
  have hreloc (f : Reloc → Reloc) (t : State) : readPart (onReloc i f t) = readPart t := rfl
  unfold copyLost
  split
  · rfl
  · rw [hreloc]
    split
    · exact readPart_writeFlag _ _ _ _
    · exact readPart_loseMap _ _
    · rfl

theorem readPart_fillPoison (u : Nat) (s : State) : readPart (fillPoison u s) = readPart s := by
  unfold fillPoison
  split <;> rfl

/-! ## An uncorrectable error (R126, R482, R486, R504) -/

section
variable (src mem loc : Nat) (s : State)

/-- An uncorrectable error is recorded, and else only the error registers move: what the recorder makes of the state stays closed. -/
theorem poisonRoute_eq : ∃ e, besideRecording e = besideRecording s ∧
    poisonRoute src mem loc s = startTest mem loc (onMemErr mem (fun m => { m with ue := sat 64 m.ue 1 }) (logError mem loc 1 e)) :=
  ⟨event 0x0203 src loc s, besideRecording_event 0x0203 src loc s, rfl⟩

theorem poisonRoute_med : (poisonRoute src mem loc s).med = s.med := by
  obtain ⟨e, he, h⟩ := poisonRoute_eq src mem loc s
  rw [h]
  exact congrArg (·.med) he

theorem poisonRoute_cch : (poisonRoute src mem loc s).cch = s.cch := by
  obtain ⟨e, he, h⟩ := poisonRoute_eq src mem loc s
  rw [h]
  exact congrArg (·.cch) he

/-- The location is under test from then on (R486). -/
theorem tests_startTest : ((startTest mem loc s).err.tests.any fun x => x.mem == mem && x.loc == loc) = true := by
  simp only [startTest, onErr_err]
  split
  · assumption
  · simp

theorem tests_poisonRoute : ((poisonRoute src mem loc s).err.tests.any fun x => x.mem == mem && x.loc == loc) = true := by
  obtain ⟨e, -, h⟩ := poisonRoute_eq src mem loc s
  rw [h, tests_startTest]

/-- An empty log takes the error (R504). -/
theorem log_poisonRoute (hlog : s.err.logValid = false) : (poisonRoute src mem loc s).err.logValid = true ∧
    (poisonRoute src mem loc s).err.logMem = mem ∧ (poisonRoute src mem loc s).err.logLoc = loc := by
  obtain ⟨e, he, h⟩ := poisonRoute_eq src mem loc s
  have hempty : e.err.logValid = false := (congrArg (·.err.logValid) he).trans hlog
  rw [h]
  simp [startTest, onMemErr, logError, hempty]

end

end Sys2Proof.Machine
end

section
/-!
PROOF. The ends of media reads (R106, R125, R126, R136, R151, R169; O10): what a corrected and a failed attempt make of the queue of reads,
and of the line that a fill was for.
-/

namespace Sys2Proof.Machine
open Sys2Proof

/-! ## The queue of reads -/

/-- A read whose attempt has failed waits for its next retry (R125). -/
def nextRetry (q : MRead) : MRead :=
  { q with retry := q.retry + 1, assigned := none, made := q.made ++ q.senses, senses := [], passed := false }

/-- Read `i` waits for its next retry. -/
def retryRead (i : Nat) : State → State := onMed fun m => { m with reads := m.reads.map fun q => if q.id = i then nextRetry q else q }

section
variable {s t : State} {i : Nat} {r : MRead}

theorem id_of_readById (h : readById s i = some r) : r.id = i := by simpa using List.find?_some h

theorem readById_of_filtered (h : t.med.reads = s.med.reads.filter fun q => q.id != i) : readById t i = none := by
  rw [readById, h, List.find?_eq_none]
  intro q hq
  simpa using (List.mem_filter.mp hq).2

theorem readById_retryRead (h : readById s i = some r) : readById (retryRead i s) i = some (nextRetry r) := by
  have hsame : ((fun q : MRead => q.id == i) ∘ fun q => if q.id = i then nextRetry q else q) = fun q => q.id == i := by
    funext q
    by_cases hq : q.id = i
    · simp [hq, nextRetry]
    · simp [hq]
  unfold readById at h ⊢
  rw [retryRead, onMed_med, List.find?_map, hsame, h]
  simp [id_of_readById h]

end

/-- What waits for the read shows it; the read is queued no more (R514). -/
def endRead (r : MRead) (s : State) : State := dropRead r.id (noteRead r s)

/-- The state without the requests of the home and the media engine's reads. -/
def besideReads (s : State) : State := { s with dir := {}, med := { s.med with reads := [] } }

theorem besideReads_endRead (r : MRead) (s : State) : besideReads (endRead r s) = besideReads s := by
  unfold endRead noteRead
  split <;> rfl

theorem noteRead_med (r : MRead) (s : State) : (noteRead r s).med = s.med := by
  unfold noteRead
  split <;> rfl

theorem reads_endRead (r : MRead) (s : State) : (endRead r s).med.reads = s.med.reads.filter fun q => q.id != r.id := by
  rw [endRead, dropRead, onMed_med, noteRead_med]

theorem endRead_cch (r : MRead) (s : State) : (endRead r s).cch = s.cch := congrArg (·.cch) (besideReads_endRead r s)

theorem endRead_err (r : MRead) (s : State) : (endRead r s).err = s.err := congrArg (·.err) (besideReads_endRead r s)

/-! ## The line of a fill -/

section
variable {s : State} {u k : Nat} {d : LineData}

theorem findWay_congr {t : State} (u : Nat) (h : t.cch = s.cch) : findWay t u = findWay s u := by
  unfold findWay way
  rw [h]

theorem fillData_eq (h : findWay s u = some k) : ∃ major minor e, unitPart e = unitPart s ∧
    fillData u d s = putUnit k (lineOf u) major minor d (fun _ => { st := .clean }) e := by
  simp only [fillData, h]
  exact writeUnit_eq _ _ _ _ s

theorem fillData_med (u : Nat) (d : LineData) (s : State) : (fillData u d s).med = s.med := by
  cases h : findWay s u with
  | none => simp only [fillData, h]
  | some k =>
    obtain ⟨major, minor, e, he, hfill⟩ := fillData_eq (d := d) h
    rw [hfill, putUnit_med]
    exact congrArg (·.1) he

/-- The line of a fill is Clean and reads as the fill's data (R151). -/
theorem line_fillData (h : findWay s u = some k) (hc : Table.wf {} s.sec.ctrs = true) :
    (lineIn (way (fillData u d s) k) (lineOf u)).st = .clean ∧ plain (fillData u d s) k (lineOf u) = d := by
  obtain ⟨major, minor, e, he, hfill⟩ := fillData_eq (d := d) h
  have hctrs : e.sec.ctrs = s.sec.ctrs := congrArg (·.2.1) he
  have hlisted (ct : LineData) : ({ st := .clean, ct } : Line) ≠ {} := fun hnone => LineSt.noConfusion (congrArg (·.st) hnone)
  rw [hfill]
  exact ⟨congrArg (·.st) (line_putUnit hlisted), plain_putUnit_of_ne (hctrs ▸ hc) hlisted⟩

/-- The line of a fill that finds poison is Poisoned (R169). -/
theorem line_fillPoison (h : findWay s u = some k) : (lineIn (way (fillPoison u s) k) (lineOf u)).st = .poisoned := by
  simp only [fillPoison, h]
  exact congrArg (·.st) (line_onLine_same (s := s) (f := fun _ => { st := .poisoned, through := _, written := _ })
    fun hnone => LineSt.noConfusion (congrArg (·.st) hnone))

theorem pagePlain_congr {t : State} (p : MPage) (h : t.sec = s.sec) : pagePlain t p = pagePlain s p := by
  simp only [pagePlain, mediaOpen, mediaCipher, h]

end

/-! ## A corrected attempt (R106, R136) -/

section
variable {s : State} {r : MRead}

theorem pageCorrected_eq (r : MRead) (bits : Nat) (ahead : Bool) (s : State) :
    ∃ e, besideAgeing e = besideAgeing s ∧ pageCorrected r bits ahead s = readGood r (endRead r e) := by
  unfold pageCorrected
  extract_lets b test patrol s₁ s₂ s₃
  have h₁ : besideAgeing s₁ = besideAgeing s := ite_keeps besideAgeing (besideAgeing_onDrf _ _) rfl
  have h₂ : besideAgeing s₂ = besideAgeing s := ite_keeps besideAgeing ((besideAgeing_heavyRead _ _).trans h₁) h₁
  exact ⟨s₃, ite_keeps besideAgeing ((besideAgeing_driftAhead _ _).trans h₂) h₂, rfl⟩

theorem reads_copyRead (i page : Nat) (s : State) : (copyRead i page s).med.reads = s.med.reads := by
  unfold copyRead
  split
  · rfl
  · split <;> rfl

/-- Whatever it was for, but for a self-test, a page that has been read queues no other read. -/
theorem reads_readGood (hwhy : ∀ l, r.why ≠ .selfTest l) (s : State) : (readGood r s).med.reads = s.med.reads := by
  unfold readGood
  cases h : r.why with
  | fill u =>
    dsimp only
    split
    · rw [fillData_med]
    · exact congrArg (·.1) (readPart_fillPoison u s)
  | mapPage m => rfl
  | reloc i page => exact reads_copyRead i page s
  | patrol b page => rfl
  | selfTest l => exact absurd h (hwhy l)

theorem readGood_fill {u : Nat} {p : MPage} (hwhy : r.why = .fill u) (hpage : mediumPage s r.ppn = some p) :
    readGood r s = fillData u (pagePlain s p) s := by
  simp only [readGood, hwhy, hpage]

theorem reads_pageCorrected (hwhy : ∀ l, r.why ≠ .selfTest l) (bits : Nat) (ahead : Bool) (s : State) :
    (pageCorrected r bits ahead s).med.reads = s.med.reads.filter fun q => q.id != r.id := by
  obtain ⟨e, he, hend⟩ := pageCorrected_eq r bits ahead s
  have hreads : e.med.reads = s.med.reads := congrArg (·.med.reads) he
  rw [hend, reads_readGood hwhy, reads_endRead, hreads]

theorem line_pageCorrected {u k : Nat} {p : MPage} (bits : Nat) (ahead : Bool) (hc : Table.wf {} s.sec.ctrs = true)
    (hwhy : r.why = .fill u) (hpage : mediumPage s r.ppn = some p) (hway : findWay s u = some k) :
    (lineIn (way (pageCorrected r bits ahead s) k) (lineOf u)).st = .clean ∧
      plain (pageCorrected r bits ahead s) k (lineOf u) = pagePlain s p := by
  obtain ⟨e, he, hend⟩ := pageCorrected_eq r bits ahead s
  have hbeside := besideReads_endRead r e
  have hcch : (endRead r e).cch = s.cch := (congrArg (·.cch) hbeside).trans (congrArg (·.cch) he)
  have hsec : (endRead r e).sec = s.sec := (congrArg (·.sec) hbeside).trans (congrArg (·.sec) he)
  have hmedium : (endRead r e).medium = s.medium := (congrArg (·.medium) hbeside).trans (congrArg (·.medium) he)
  rw [hend, readGood_fill hwhy (by rwa [mediumPage, hmedium]), pagePlain_congr p hsec]
  exact line_fillData ((findWay_congr u hcch).trans hway) (hsec ▸ hc)

/-! ## A failed attempt (R125, R126) -/

theorem isMulti_congr {t : State} (ppn : Nat) (hf : t.fuses = s.fuses) (hm : t.med = s.med) : isMulti t ppn = isMulti s ppn := by
  rw [isMulti, blk, blkDefault_congr hf, hm, isMulti, blk]

theorem isMulti_count (u c n : Nat) (s : State) (ppn : Nat) : isMulti (count u c n s) ppn = isMulti s ppn :=
  isMulti_congr ppn (count_fuses u c n s) (count_med u c n s)

/-- A first attempt that fails is counted (R510). -/
def countFirst (r : MRead) (s : State) : State := if r.retry = 0 then count (mediaUnit (channelOfPpn r.ppn)) 0x14 1 s else s

theorem besideCounting_countFirst (r : MRead) (s : State) : besideCounting (countFirst r s) = besideCounting s :=
  ite_keeps besideCounting (besideCounting_count _ _ _ s) rfl

theorem isMulti_countFirst (r : MRead) (s : State) (ppn : Nat) : isMulti (countFirst r s) ppn = isMulti s ppn :=
  ite_keeps (isMulti · ppn) (isMulti_count _ _ _ s ppn) rfl

theorem pageFailed_of_retry (hmulti : isMulti s r.ppn = true) (hretry : r.retry < 6) :
    ∃ e, besideAgeing e = besideAgeing s ∧ pageFailed r s = retryRead r.id e := by
  have hagain : (isMulti (countFirst r s) r.ppn && decide (r.retry < 6)) = true := by simp [isMulti_countFirst, hmulti, hretry]
  have h₀ : besideAgeing (countFirst r s) = besideAgeing s := besideAgeing_of_besideCounting (besideCounting_countFirst r s)
  refine ⟨_, ?_, if_pos hagain⟩
  have hheavy {c : Prop} [Decidable c] (b : Nat) :
      besideAgeing (if c then heavyRead b (countFirst r s) else countFirst r s) = besideAgeing s :=
    ite_keeps besideAgeing ((besideAgeing_heavyRead _ _).trans h₀) h₀
  exact ite_keeps besideAgeing ((besideAgeing_onDrf _ _).trans (hheavy _)) (hheavy _)

theorem pageFailed_of_last (hlast : isMulti s r.ppn = false ∨ 6 ≤ r.retry) :
    pageFailed r s = readBad r (endRead r (countFirst r s)) := by
  refine if_neg ?_
  have hend : (isMulti (countFirst r s) r.ppn && decide (r.retry < 6)) = false := by
    rcases hlast with h | h
    · simp [isMulti_countFirst, h]
    · simp [h]
  exact Bool.eq_false_iff.mp hend

/-- Whatever it was for, but for a self-test, a lost page leaves the reads alone, and the error registers as the error left them. -/
theorem readPart_readBad (hwhy : ∀ l, r.why ≠ .selfTest l) (s : State) :
    readPart (readBad r s) = readPart (poisonRoute (mediaUnit (channelOfPpn r.ppn)) 7 r.ppn s) := by
  unfold readBad
  cases h : r.why with
  | fill u => exact readPart_fillPoison u _
  | mapPage m => exact readPart_loseMap m _
  | reloc i page => exact readPart_copyLost i page _
  | patrol b page => rfl
  | selfTest l => exact absurd h (hwhy l)

theorem readBad_fill {u : Nat} (hwhy : r.why = .fill u) (s : State) :
    readBad r s = fillPoison u (poisonRoute (mediaUnit (channelOfPpn r.ppn)) 7 r.ppn s) := by
  simp only [readBad, hwhy]

/-- The error of a page that cannot be corrected is logged and its location tested, and the read is gone. -/
theorem pageFailed_error (hlast : isMulti s r.ppn = false ∨ 6 ≤ r.retry) (hwhy : ∀ l, r.why ≠ .selfTest l) :
    (pageFailed r s).med.reads = (s.med.reads.filter fun q => q.id != r.id) ∧
      ((pageFailed r s).err.tests.any fun x => x.mem == 7 && x.loc == r.ppn) = true ∧
      (s.err.logValid = false → (pageFailed r s).err.logValid = true ∧ (pageFailed r s).err.logMem = 7 ∧
        (pageFailed r s).err.logLoc = r.ppn) := by
  have hcount := besideCounting_countFirst r s
  have hpart := readPart_readBad hwhy (endRead r (countFirst r s))
  rw [← pageFailed_of_last hlast] at hpart
  have hreads := congrArg (·.1) hpart
  have herr : (pageFailed r s).err = _ := congrArg (·.2) hpart
  have hmed : (countFirst r s).med = s.med := congrArg (·.med) hcount
  refine ⟨?_, ?_, fun hlog => ?_⟩
  · refine hreads.trans ?_
    simp only [readPart, poisonRoute_med, reads_endRead, hmed]
  · rw [herr]
    exact tests_poisonRoute _ 7 r.ppn _
  · rw [herr]
    refine log_poisonRoute _ 7 r.ppn _ ?_
    rw [endRead_err]
    exact (congrArg (·.err.logValid) hcount).trans hlog

theorem line_pageFailed {u k : Nat} (hlast : isMulti s r.ppn = false ∨ 6 ≤ r.retry) (hwhy : r.why = .fill u)
    (hway : findWay s u = some k) : (lineIn (way (pageFailed r s) k) (lineOf u)).st = .poisoned := by
  rw [pageFailed_of_last hlast, readBad_fill hwhy]
  refine line_fillPoison ((findWay_congr u ?_).trans hway)
  rw [poisonRoute_cch, endRead_cch]
  exact congrArg (·.cch) (besideCounting_countFirst r s)

end

/-! ## MEDIA_READ_DONE -/

/-- The senses of the attempt that has ended are counted (R510). -/
def countSenses (r : MRead) (s : State) : State :=
  count (mediaUnit (channelOfPpn r.ppn)) (if isMulti s r.ppn then 0x10 else 0x11) r.senses.length s

section
variable {s : State} {i : Nat} {r : MRead}

theorem isMulti_countSenses (r : MRead) (s : State) (ppn : Nat) : isMulti (countSenses r s) ppn = isMulti s ppn :=
  isMulti_count _ _ _ s ppn

theorem execMediaReadDone_corrected (bits : Nat) (ahead : Bool) (h : readById s i = some r) (ha : r.assigned.isSome = true) :
    execMediaReadDone i (.corrected bits ahead) s = settled s (pageCorrected r bits ahead (countSenses r s)) := by
  have hgiven : r.assigned.isNone ≠ true := Bool.eq_false_iff.mp (Option.isNone_eq_false_iff.mpr ha)
  simp only [execMediaReadDone, h]
  exact if_neg hgiven

theorem execMediaReadDone_failed (h : readById s i = some r) (ha : r.assigned.isSome = true) :
    execMediaReadDone i .failed s = settled s (pageFailed r (countSenses r s)) := by
  have hgiven : r.assigned.isNone ≠ true := Bool.eq_false_iff.mp (Option.isNone_eq_false_iff.mpr ha)
  simp only [execMediaReadDone, h]
  exact if_neg hgiven

/-- A read that is not there, or that no course has been given yet, does not end. -/
theorem execMediaReadDone_idle (d : Decode) (h : ((readById s i).all fun r => r.assigned.isNone) = true) :
    execMediaReadDone i d s = done s s := by
  unfold execMediaReadDone
  cases hr : readById s i with
  | none => rfl
  | some r =>
    rw [hr] at h
    exact if_pos h

end

/-- Settles O10: the cases of a corrected and of a failed attempt, after the count of its senses. -/
theorem readsEndOrAreRetried : Obligations.ReadsEndOrAreRetried := by
  unfold Obligations.ReadsEndOrAreRetried
  refine ⟨fun s i bits ahead r h ha => ?_, fun s i r h ha hmulti hretry => ?_, fun s i r h ha hretry => ?_,
    fun s i r h ha hlast => ?_, fun s i d h => takes_of_done (execMediaReadDone_idle d h)⟩
  all_goals
    obtain rfl := id_of_readById h
    have hcount : besideCounting (countSenses r s) = besideCounting s := besideCounting_count _ _ _ s
    have hmed : (countSenses r s).med = s.med := congrArg (·.med) hcount
    have hcch : (countSenses r s).cch = s.cch := congrArg (·.cch) hcount
  · refine ⟨_, rfl, engages_of_settled (execMediaReadDone_corrected bits ahead h ha), fun hwhy => ?_, fun u k p hwf hwhy hpage hway => ?_⟩
    · have hreads := reads_pageCorrected hwhy bits ahead (countSenses r s)
      rw [hmed] at hreads
      exact ⟨readById_of_filtered hreads, hreads⟩
    · obtain ⟨-, -, -, -, -, -, hctrs⟩ := hwf
      have hsec : (countSenses r s).sec = s.sec := congrArg (·.sec) hcount
      have hmedium : (countSenses r s).medium = s.medium := congrArg (·.medium) hcount
      have hpage' : mediumPage (countSenses r s) r.ppn = some p := by rwa [mediumPage, hmedium]
      rw [← pagePlain_congr p hsec]
      exact line_pageCorrected bits ahead (hsec ▸ hctrs) hwhy hpage' ((findWay_congr u hcch).trans hway)
  · obtain ⟨e, he, hfailed⟩ := pageFailed_of_retry (s := countSenses r s) ((isMulti_countSenses r s r.ppn).trans hmulti) hretry
    have hreads : e.med.reads = s.med.reads := (congrArg (·.med.reads) he).trans (congrArg (·.reads) hmed)
    refine ⟨_, engages_of_settled (execMediaReadDone_failed h ha), ?_⟩
    rw [hfailed]
    refine ⟨readById_retryRead (by rwa [readById, hreads]), ?_, (congrArg (·.cch) he).trans hcch,
      (congrArg (·.dir) he).trans (congrArg (·.dir) hcount)⟩
    simp [retryRead, hreads]
  · have hlast := pageFailed_of_last (s := countSenses r s) (r := r) (.inr hretry.ge)
    have hfirst : countFirst r (countSenses r s) = countSenses r s := if_neg (by omega)
    rw [hfirst] at hlast
    exact engages_of_settled ((execMediaReadDone_failed h ha).trans (congrArg (settled s) hlast))
  · have hlast' : isMulti (countSenses r s) r.ppn = false ∨ 6 ≤ r.retry := hlast.imp_left (isMulti_countSenses r s r.ppn).trans
    refine ⟨_, engages_of_settled (execMediaReadDone_failed h ha), fun hwhy => ?_, fun u k hwhy hway =>
      line_pageFailed hlast' hwhy ((findWay_congr u hcch).trans hway)⟩
    obtain ⟨hreads, htests, hlog⟩ := pageFailed_error hlast' hwhy
    rw [hmed] at hreads
    exact ⟨readById_of_filtered hreads, htests, fun h => hlog ((congrArg (·.err.logValid) hcount).trans h)⟩

end Sys2Proof.Machine
end

section
/-!
SUPPORT. What the end of a command leaves alone (R333, R334, R338, R339, R344): its completion entry goes out with its counts and its
interrupt, and its queue goes on, and nothing else of the state changes.
-/

namespace Sys2Proof.Machine
open Sys2Proof

/-! ## What counting an event leaves alone, for any part of the state (R507 to R510) -/

section
variable {β : Type} {g : State → β} (hsend : ∀ v s, g (sendMsix v s) = g s) (hpmc : ∀ f s, g (onPmc f s) = g s)
include hsend hpmc

theorem pmcFlag_keeps (u i : Nat) (s : State) : g (pmcFlag u i s) = g s :=
  ite_keeps g ((hsend _ _).trans ((hpmc _ _).trans (hpmc _ _))) (hpmc _ _)

theorem pmcCarry_keeps (u i : Nat) (s : State) : g (pmcCarry u i s) = g s :=
  ite_keeps g (ite_keeps g ((pmcFlag_keeps hsend hpmc _ _ _).trans (hpmc _ _)) (hpmc _ _)) (pmcFlag_keeps hsend hpmc _ _ _)

theorem pmcAdd_keeps (u code n i : Nat) (s : State) : g (pmcAdd u code n i s) = g s :=
  ite_keeps g (ite_keeps g ((pmcCarry_keeps hsend hpmc _ _ _).trans (hpmc _ _)) (hpmc _ _)) rfl

/-- A count leaves alone what the counters and the overflow message are no part of. -/
theorem count_keeps (u code n : Nat) (s : State) : g (count u code n s) = g s :=
  ite_keeps g rfl (each_keeps _ _ g (fun i s => pmcAdd_keeps hsend hpmc u code n i s) s)

end

/-! ## What a completion leaves alone -/

/-- The state without what the end of a command touches: the counters, the outputs, the links, the queues of the host and the pending bits
of its vectors, and the count of refusals. -/
def besideCompletions (s : State) : State := { s with
  pmc := {}, links := [], out := [], hst := { s.hst with queues := [], msixPend := [] }, sec := { s.sec with cntDenied := 0 } }

section
variable (q i cls u code n v : Nat) (o : Out) (d : Done) (c : Cmd) (s : State)

theorem besideCompletions_onQueue (f : HQueue → HQueue) : besideCompletions (onQueue q f s) = besideCompletions s := rfl

theorem besideCompletions_sendMsix : besideCompletions (sendMsix v s) = besideCompletions s :=
  ite_keeps besideCompletions rfl (ite_keeps besideCompletions rfl rfl)

theorem besideCompletions_count : besideCompletions (count u code n s) = besideCompletions s :=
  count_keeps besideCompletions_sendMsix (fun _ _ => rfl) u code n s

theorem besideCompletions_msix : besideCompletions (msix v s) = besideCompletions s :=
  (besideCompletions_sendMsix v _).trans (ite_keeps besideCompletions rfl (besideCompletions_count _ _ _ s))

theorem besideCompletions_sendRaw (ty start cr : Nat) (slots : List (BitVec 128)) (msg : Option Out) :
    besideCompletions (sendRaw i ty start cr slots msg s) = besideCompletions s := besideCompletions_count _ _ _ _

theorem besideCompletions_sendFlit : besideCompletions (sendFlit i cls o s) = besideCompletions s := by
  unfold sendFlit
  extract_lets slots cap ty s₁ s₂ s₃
  have h₂ : besideCompletions s₂ = besideCompletions s := ite_keeps besideCompletions (besideCompletions_sendRaw _ _ _ _ _ _ _)
    ((besideCompletions_sendRaw _ _ _ _ _ _ _).trans (besideCompletions_sendRaw _ _ _ _ _ _ _))
  exact ite_keeps besideCompletions ((besideCompletions_count _ _ _ _).trans h₂) h₂

theorem besideCompletions_emit : besideCompletions (emit o s) = besideCompletions s := by
  unfold emit
  split
  · exact ite_keeps besideCompletions rfl (ite_keeps besideCompletions (besideCompletions_count _ _ _ s) rfl)
  · split
    · rfl
    · exact ite_keeps besideCompletions (besideCompletions_sendFlit _ _ _ s) (ite_keeps besideCompletions rfl rfl)
    · rfl

theorem besideCompletions_queueInt : besideCompletions (queueInt q s) = besideCompletions s :=
  ite_keeps besideCompletions rfl (besideCompletions_msix _ _)

theorem besideCompletions_writeCqe : besideCompletions (writeCqe q d s) = besideCompletions s := by
  unfold writeCqe
  extract_lets h s₁ s₂
  have h₂ : besideCompletions s₂ = besideCompletions s := (besideCompletions_count _ _ _ _).trans (besideCompletions_emit _ s)
  exact ite_keeps besideCompletions ((besideCompletions_queueInt q s₂).trans h₂) h₂

theorem besideCompletions_writeCqes : besideCompletions (writeCqes q s) = besideCompletions s :=
  each_keeps _ _ besideCompletions (fun d _ => ite_keeps besideCompletions (besideCompletions_writeCqe q d (onQueue q _ _)) rfl) s

theorem besideCompletions_postDone : besideCompletions (postDone q d s) = besideCompletions s :=
  ite_keeps besideCompletions rfl (besideCompletions_writeCqes q _)

theorem besideCompletions_cmdDenied (status : Nat) : besideCompletions (cmdDenied status s) = besideCompletions s :=
  ite_keeps besideCompletions rfl rfl

theorem besideCompletions_checkFenced : besideCompletions (checkFenced q s) = besideCompletions s := by
  unfold checkFenced
  split
  · rfl
  · refine ite_keeps besideCompletions rfl ?_
    extract_lets s₁
    split
    · exact (besideCompletions_postDone _ _ _).trans (besideCompletions_cmdDenied s₁ _)
    · rfl

theorem besideCompletions_finish (status result : Nat) : besideCompletions (finish c status result s) = besideCompletions s :=
  ite_keeps besideCompletions rfl ((besideCompletions_checkFenced _ _).trans (besideCompletions_postDone _ _ _))

@[simp] theorem finish_cch (status result : Nat) : (finish c status result s).cch = s.cch :=
  congrArg (·.cch) (besideCompletions_finish c s status result)

@[simp] theorem finish_copies (status result : Nat) : (finish c status result s).hst.copies = s.hst.copies :=
  congrArg (·.hst.copies) (besideCompletions_finish c s status result)

@[simp] theorem tlpIn_flash : (tlpIn s).flash = s.flash := congrArg (·.flash) (besideCounting_tlpIn s)

@[simp] theorem tlpIn_clk : (tlpIn s).clk = s.clk := congrArg (·.clk) (besideCounting_tlpIn s)

@[simp] theorem tlpIn_copies : (tlpIn s).hst.copies = s.hst.copies :=
  congrArg (·.hst.copies) (besideCompletions_count 8 0x10 1 s)

end

end Sys2Proof.Machine
end

section
/-!
PROOF. The data commands start (R163, R165, R166, R344 to R350, R354; O43): what the start of a fetched command does, and then the
operation of each of them on the state in which it has started.
-/

namespace Sys2Proof.Machine
open Sys2Proof

/-! ## The start of a fetched command (R336, R343, R358) -/

section
variable {s : State} {c : Cmd} {i : Instr}

/-- A command that an entry brought is not fetched again. -/
theorem takeCmd_of_fetched (h : i ∈ (queue s c.q).fetched) : takeCmd c i s = s := if_pos (by simp [h])

theorem Starts.not_stopped (h : Starts s c i) : (inStop s || s.pwr.runSt == 1) = false := by
  obtain ⟨-, -, hstop, hrun⟩ := h
  simp [hstop, hrun]

theorem startCmd_of_starts (f : State → State) (h : Starts s c i) : startCmd c i f s = f (begun c s) := by
  have hstop : (inStop (begun c s) || (begun c s).pwr.runSt == 1) = false := h.not_stopped
  have hbar : ((inStop (begun c s) || (begun c s).pwr.runSt == 1) && !servedInStop i) = false := by rw [hstop, Bool.false_and]
  obtain ⟨hfetched, hcan, -, -⟩ := h
  unfold startCmd
  rw [takeCmd_of_fetched hfetched]
  exact (if_neg (by simp [hcan])).trans (if_neg (Bool.eq_false_iff.mp hbar))

theorem startCopy_of_starts (j : Nat) (h : Starts s c i) : startCopy c j i s =
    onCopy j (fun x => { x with queue := x.queue ++ [i] }) (onQueue c.q (fun h => { h with fetched := h.fetched.drop 1 }) s) := by
  have hstop := h.not_stopped
  obtain ⟨hfetched, hcan, -, -⟩ := h
  unfold startCopy
  rw [takeCmd_of_fetched hfetched]
  exact (if_neg (by simp [hcan])).trans (if_neg (Bool.eq_false_iff.mp hstop))

theorem engages_of_starts {f : State → State} (hexec : exec i s = settled s (startCmd c i f s)) (h : Starts s c i) :
    Engages i s (f (begun c s)) :=
  engages_of_settled (hexec.trans (congrArg (settled s) (startCmd_of_starts f h)))

/-! ## The commands of the cache (R163, R165, R166, R345, R346) -/

theorem starts_rangeJob {op addr len : Nat} {lock : Bool} (hexec : exec i s = settled s (startCmd c i (rangeJob c op lock addr len) s))
    (h : Starts s c i) : ∃ t, t = rangeJob c op lock addr len (begun c s) ∧ Engages i s t ∧ t.cch = { s.cch with jobs := s.cch.jobs ++
      [{ cmd := c, op, lock, next := addr / 512, last := (addr + len) / 512, base := addr, id := s.dir.nextId }] } :=
  ⟨_, rfl, engages_of_starts hexec h, rfl⟩

theorem setJob_here {op grp first n : Nat} (h : grp = s.grp.id) : (setJob c op grp first n s).cch = { s.cch with jobs := s.cch.jobs ++
    [{ cmd := c, op, bySet := true, next := first * 12 * 32, last := (first + n) * 12 * 32, id := s.dir.nextId }] } :=
  congrArg State.cch (if_pos h)

theorem setJob_elsewhere {op grp first n : Nat} (h : grp ≠ s.grp.id) : setJob c op grp first n s = finish c 0 0 s := if_neg h

theorem starts_setJob {op grp first n : Nat} (hexec : exec i s = settled s (startCmd c i (setJob c op grp first n) s)) (h : Starts s c i) :
    ∃ t, t = setJob c op grp first n (begun c s) ∧ Engages i s t ∧
      (grp = s.grp.id → t.cch = { s.cch with jobs := s.cch.jobs ++
        [{ cmd := c, op, bySet := true, next := first * 12 * 32, last := (first + n) * 12 * 32, id := s.dir.nextId }] }) ∧
      (grp ≠ s.grp.id → t = finish c 0 0 (begun c s)) :=
  ⟨_, rfl, engages_of_starts hexec h, fun hgrp => setJob_here (s := begun c s) hgrp, fun hgrp => setJob_elsewhere (s := begun c s) hgrp⟩

end

/-- Every index of a table after a change of the listed values, where the change leaves what an unlisted index reads as. -/
theorem tget_map {α : Type} {d : α} {f : Nat → α → α} (t : Table α) (k : Nat) (hd : f k d = d) :
    tget d (t.map fun p => (p.1, f p.1 p.2)) k = f k (tget d t k) := by
  induction t with
  | nil => exact hd.symm
  | cons p t ih =>
    by_cases hk : k = p.1
    · subst hk; simp [tget]
    · simpa [tget, hk] using ih

/-- CACHE_UNLOCK of a range, for the sector of one way (R165). -/
def unlockWay (s : State) (a len k : Nat) (w : Way) : Way :=
  if w.valid ∧ a ≤ groupAddr s (pageOfWay k w 0 * 512) ∧ groupAddr s (pageOfWay k w 0 * 512) < a + len then { w with lock := false } else w

section
variable {s : State} {a len k : Nat}

theorem way_unlockRange (s : State) (a len k : Nat) : way (unlockRange a len s) k = unlockWay s a len k (way s k) :=
  tget_map (f := unlockWay s a len) s.cch.ways k (if_neg (by simp))

theorem unlockWay_inside {w : Way} (hv : w.valid = true) (ha : a ≤ groupAddr s (pageOfWay k w 0 * 512))
    (hl : groupAddr s (pageOfWay k w 0 * 512) < a + len) : unlockWay s a len k w = { w with lock := false } := if_pos ⟨hv, ha, hl⟩

theorem unlockWay_outside {w : Way} (h : w.valid = false ∨ groupAddr s (pageOfWay k w 0 * 512) < a ∨
    a + len ≤ groupAddr s (pageOfWay k w 0 * 512)) : unlockWay s a len k w = w := by
  refine if_neg fun ⟨hv, ha, hl⟩ => ?_
  rcases h with h | h | h
  · simp [h] at hv
  · omega
  · omega

end

/-- What CACHE_UNLOCK makes of the state in which it has started: it ends at once, with the range unlocked up to the first address that lies
at a member that cannot be reached (R165, R344). -/
def unlockOrLost (c : Cmd) (addr len : Nat) (s : State) : State :=
  match lostIn s addr len with
  | some a => finish c 5 a (unlockRange addr (a - addr) s)
  | none => finish c 0 0 (unlockRange addr len s)

section
variable {s : State} {c : Cmd} {addr len : Nat}

theorem engages_cacheUnlock (h : Starts s c (.cacheUnlock c addr len)) : Engages (.cacheUnlock c addr len) s (unlockOrLost c addr len (begun c s)) :=
  engages_of_starts (f := unlockOrLost c addr len) rfl h

theorem unlockOrLost_lost {a : Nat} (h : lostIn s addr len = some a) :
    unlockOrLost c addr len s = finish c 5 a (unlockRange addr (a - addr) s) := by simp [unlockOrLost, h]

theorem unlockOrLost_whole (h : lostIn s addr len = none) : unlockOrLost c addr len s = finish c 0 0 (unlockRange addr len s) := by
  simp [unlockOrLost, h]

/-- After CACHE_UNLOCK a way holds what the unlocking of its range made of it. -/
theorem way_finish_unlockRange (status result k : Nat) :
    way (finish c status result (unlockRange addr len (begun c s))) k = unlockWay s addr len k (way s k) := by
  rw [way, finish_cch]
  exact way_unlockRange (begun c s) addr len k

end

/-! ## The copy channels (R348, R350) -/

section
variable {s : State} {j : Nat}

theorem copyCh_onCopy_same {f : CopyCh → CopyCh} (hwf : Table.wf {} s.hst.copies = true) : copyCh (onCopy j f s) j = f (copyCh s j) :=
  tget_tmod_same _ _ _ _ hwf

theorem copyCh_onCopy_other {f : CopyCh → CopyCh} {k : Nat} (h : k ≠ j) : copyCh (onCopy j f s) k = copyCh s k := tget_tmod_other _ _ _ h

/-- A channel that has a command is none of those that the table leaves out. -/
theorem copyCh_onCopy_joins (i : Instr) : copyCh (onCopy j (fun x => { x with queue := x.queue ++ [i] }) s) j =
    { copyCh s j with queue := (copyCh s j).queue ++ [i] } :=
  tget_tset_of_ne _ _ _ fun h => by simpa using congrArg CopyCh.queue h

theorem queue_onCopy (q : Nat) (f : CopyCh → CopyCh) : queue (onCopy j f s) q = queue s q := rfl

theorem queue_onQueue_same {q : Nat} {f : HQueue → HQueue} (hwf : Table.wf {} s.hst.queues = true) : queue (onQueue q f s) q = f (queue s q) :=
  tget_tmod_same _ _ _ _ hwf

@[simp] theorem copyCh_tlpIn (s : State) (j : Nat) : copyCh (tlpIn s) j = copyCh s j := by rw [copyCh, tlpIn_copies, copyCh]

/-- The end of every held command of a halted channel (R350). -/
def abortHeld (l : List Instr) : State → State :=
  each l fun i s => match i with
    | .copy c _ _ _ _ _ => finish c 8 0 s
    | _ => s

theorem discardCopy_of_halted (h : (copyCh s j).halted = true) :
    discardCopy j s = abortHeld (copyCh s j).queue (onCopy j (fun c => { c with halted := false, queue := [] }) s) :=
  if_neg (by simp [h])

theorem discardCopy_of_running (h : (copyCh s j).halted = false) : discardCopy j s = s := if_pos (by simp [h])

theorem copies_abortHeld (l : List Instr) (s : State) : (abortHeld l s).hst.copies = s.hst.copies := by
  refine each_keeps l _ (·.hst.copies) (fun i s => ?_) s
  split
  · exact finish_copies _ s _ _
  · rfl

theorem copyCh_discardCopy (hwf : Table.wf {} s.hst.copies = true) (h : (copyCh s j).halted = true) :
    copyCh (discardCopy j s) j = { copyCh s j with halted := false, queue := [] } := by
  rw [discardCopy_of_halted h, copyCh, copies_abortHeld]
  exact copyCh_onCopy_same hwf

/-! ## The host's registers of a copy channel -/

theorem served_tlpIn (s : State) (off : Nat) : served (tlpIn s) off = served s off := by simp [served]

theorem gatedOff_tlpIn (s : State) (off : Nat) : gatedOff (tlpIn s) off = gatedOff s off := by simp [gatedOff, clocked]

theorem hostWrites_of_reaches {off : Nat} (f : State → State) (h : HostReaches s off) : hostWrites off f (tlpIn s) = f (tlpIn s) := by
  obtain ⟨-, hserved, hgated, -⟩ := h
  simp [hostWrites, served_tlpIn, gatedOff_tlpIn, hserved, hgated]

/-- An access to a register that the host reaches has its effect. -/
theorem hostBar_of_reaches {i : Instr} {off : Nat} {f : State → State} (hi : ∀ s, barEffect i s = hostWrites off f s) (h : HostReaches s off) :
    hostBar i s = f (tlpIn s) := by
  obtain ⟨hup, -, -, hw⟩ := id h
  rw [hostBar_of_free i hup hw, hi, hostWrites_of_reaches f h]

theorem engages_resume {t : State} (hj : j < 16) (ht : hostBar (.resume j) s = t) : Engages (.resume j) s t :=
  engages_of_settled ((if_pos hj).trans (congrArg (settled s) ht))

theorem engages_discard {t : State} (hj : j < 16) (ht : hostBar (.discard j) s = t) : Engages (.discard j) s t :=
  engages_of_settled ((if_pos hj).trans (congrArg (settled s) ht))

end

/-! ## The sealed import (R354, R344) -/

section
variable {s : State} {c : Cmd} {src dst len iv slot : Nat}

theorem startImport_noSlot (h : slotOk s 1 slot = false) : startImport c src dst len iv slot s = finish c 2 0 s := if_pos (by simp [h])

theorem startImport_locked (h : slotOk s 1 slot = true) (hl : s.cph.holder ≠ 0) :
    startImport c src dst len iv slot s = finish c 0x000A 0 s := (if_neg (by simp [h])).trans (if_pos hl)

theorem startImport_disabled (h : slotOk s 1 slot = true) (hl : s.cph.holder = 0) (hd : s.cph.disabled = true) :
    startImport c src dst len iv slot s = finish c 0x000C 0 s := by simp [startImport, h, hl, hd]

theorem startImport_lost {a : Nat} (h : slotOk s 1 slot = true) (hl : s.cph.holder = 0) (hd : s.cph.disabled = false)
    (ha : (lostIn s src (len + 16)).or (lostIn s dst len) = some a) : startImport c src dst len iv slot s = finish c 5 a s := by
  simp [startImport, h, hl, hd, ha]

/-- The firmware takes the free lock, whatever ticket it is given. -/
theorem lockRead_holder (cls : Nat) (hl : s.cph.holder = 0) : (lockRead cls s).2.cph.holder = cls := by simp [lockRead, hl]

/-- Of the engine an import that starts takes the lock; the flush of its destination is the cache's. -/
theorem startImport_starts (h : slotOk s 1 slot = true) (hl : s.cph.holder = 0) (hd : s.cph.disabled = false)
    (hsrc : lostIn s src (len + 16) = none) (hdst : lostIn s dst len = none) :
    (startImport c src dst len iv slot s).cph = { (lockRead 3 s).2.cph with imp := some { cmd := c, src, dst, len, iv, slot } } := by
  have hnone : (lostIn s src (len + 16)).or (lostIn s dst len) = none := by rw [hsrc, hdst]; rfl
  simp only [startImport, h, hl, hd, hnone, Bool.not_true, Bool.false_eq_true, if_false, ne_eq, not_true_eq_false]
  split
  · rfl
  · rfl

end

/-- Settles O43: each command that starts makes its own operation of the state `begun`. -/
theorem dataCommandsStart : Obligations.DataCommandsStart := by
  unfold Obligations.DataCommandsStart
  refine ⟨fun s c addr len => ⟨fun lock => starts_rangeJob rfl, starts_rangeJob rfl, starts_rangeJob rfl, starts_rangeJob rfl,
      fun a h hlost => ?_, fun h hlost => ?_⟩,
    fun s c grp first n => ⟨starts_setJob rfl, starts_setJob rfl, starts_setJob rfl⟩,
    fun s c src dst len ch pk h => ?_, fun s c src dst len iv slot h => ?_, fun s j hj h => ⟨?_, ?_⟩,
    fun s j hj => ⟨takes_of_done (if_neg (by omega)), takes_of_done (if_neg (by omega))⟩,
    fun s j hj hdown => ⟨engages_resume hj (hostBar_of_down _ hdown), engages_discard hj (hostBar_of_down _ hdown)⟩,
    fun _ _ _ _ _ _ => rfl⟩
  · have hlost' : lostIn (begun c s) addr len = some a := hlost
    exact unlockOrLost_lost hlost' ▸ engages_cacheUnlock h
  · have hlost' : lostIn (begun c s) addr len = none := hlost
    exact ⟨_, rfl, unlockOrLost_whole hlost' ▸ engages_cacheUnlock h, fun k =>
      ⟨fun hv ha hl => (way_finish_unlockRange 0 0 k).trans (unlockWay_inside hv ha hl),
        fun hout => (way_finish_unlockRange 0 0 k).trans (unlockWay_outside hout)⟩⟩
  · refine ⟨_, rfl, fun hwf => ?_, engages_of_settled (congrArg (settled s) (startCopy_of_starts ch h)),
      congrArg CopyCh.queue (copyCh_onCopy_joins _), fun j hj => copyCh_onCopy_other hj⟩
    obtain ⟨-, -, hqueues, -⟩ := hwf
    rw [queue_onCopy, queue_onQueue_same hqueues]
  · refine ⟨_, rfl, engages_of_starts rfl h, fun a hslot hl hd ha => startImport_lost hslot hl hd ha, fun hslot hl hd hsrc hdst => ?_,
      fun hslot => startImport_noSlot hslot, fun hslot hl => startImport_locked hslot hl,
      fun hslot hl hd => startImport_disabled hslot hl hd⟩
    rw [startImport_starts (s := begun c s) hslot hl hd hsrc hdst]
    exact ⟨lockRead_holder 3 hl, rfl⟩
  · refine ⟨_, rfl, engages_resume hj (hostBar_of_reaches (fun _ => rfl) h), fun hwf => ?_⟩
    obtain ⟨-, -, -, hcopies, -⟩ := hwf
    rw [copyCh_onCopy_same (by rwa [tlpIn_copies]), copyCh_tlpIn]
  · refine ⟨_, rfl, engages_discard hj (hostBar_of_reaches (fun _ => rfl) h),
      fun hrun => discardCopy_of_running (by rwa [copyCh_tlpIn]), fun hwf hhalt => ?_⟩
    obtain ⟨-, -, -, hcopies, -⟩ := hwf
    rw [copyCh_discardCopy (by rwa [tlpIn_copies]) (by rwa [copyCh_tlpIn]), copyCh_tlpIn]

end Sys2Proof.Machine
end

section
/-!
SUPPORT. What the traffic of messages leaves alone (R189, R286, R310, R507, R513, R516): the credits of a port, a sample, a count, a recorded
event and a message that goes out are no part of the home.
-/

namespace Sys2Proof.Machine
open Sys2Proof

section
variable (u c n code src operand : Nat) (o : Out) (s : State)
@[simp] theorem count_dir : (count u c n s).dir = s.dir := congrArg (·.dir) (besideCounting_count u c n s)
@[simp] theorem count_ord : (count u c n s).ord = s.ord := congrArg (·.ord) (besideCounting_count u c n s)
@[simp] theorem count_tck : (count u c n s).tck = s.tck := congrArg (·.tck) (besideCounting_count u c n s)
@[simp] theorem event_ord : (event code src operand s).ord = s.ord := congrArg (·.ord) (besideRecording_event code src operand s)
@[simp] theorem emit_dir : (emit o s).dir = s.dir := congrArg (·.dir) (besideCompletions_emit o s)
@[simp] theorem emit_ord : (emit o s).ord = s.ord := congrArg (·.ord) (besideCompletions_emit o s)
@[simp] theorem emit_cch : (emit o s).cch = s.cch := congrArg (·.cch) (besideCompletions_emit o s)
end

/-- Of an event only the recorder and the appends of the flash show anything (R516 to R519). -/
theorem event_eq (code src operand : Nat) (s : State) : ∃ v f, event code src operand s = { s with evr := v, flash := f } :=
  ⟨(event code src operand s).evr, (event code src operand s).flash,
    congrArg (fun x : State => { x with evr := (event code src operand s).evr, flash := (event code src operand s).flash })
      (besideRecording_event code src operand s)⟩

/-- The state without what the tagging of a request touches: the counters, where its sample waits, and the free values (R513). -/
def besideTags (s : State) : State := { s with pmc := {}, fv := 0 }

theorem besideTags_tagRequest (path id kind rq gaddr : Nat) (s : State) : besideTags (tagRequest path id kind rq gaddr s) = besideTags s :=
  ite_keeps besideTags rfl (ite_keeps besideTags rfl rfl)

theorem tagRequest_eq (path id kind rq gaddr : Nat) (s : State) : ∃ p v, tagRequest path id kind rq gaddr s = { s with pmc := p, fv := v } :=
  ⟨(tagRequest path id kind rq gaddr s).pmc, (tagRequest path id kind rq gaddr s).fv,
    congrArg (fun x : State => { x with pmc := (tagRequest path id kind rq gaddr s).pmc, fv := (tagRequest path id kind rq gaddr s).fv })
      (besideTags_tagRequest path id kind rq gaddr s)⟩

/-! ## The credit of a message (R286) -/

section
variable {s t : State} {i : Nat}

/-- A change of a link that is in some state, and stays in it, changes the state of none. -/
theorem link_onLink_st {f : Lnk → Lnk} (hf : ∀ k, (f k).st = k.st) (h : (link s i).st ≠ 0) (j : Nat) :
    (link (onLink i f s) j).st = (link s j).st := by
  by_cases hj : j = i
  · subst hj
    have hne : f (link s j) ≠ {} := fun he => h (by rw [← hf, he])
    exact (congrArg Lnk.st (tget_tset_of_ne _ _ _ hne)).trans (hf _)
  · exact congrArg Lnk.st (tget_tmod_other _ _ _ hj)

/-- The way to a member depends on the group and on the states of the links (R310). -/
theorem routeFor_congr (hgrp : t.grp = s.grp) (hst : ∀ j, (link t j).st = (link s j).st) (h g : Nat) : routeFor t h g = routeFor s h g := by
  simp only [routeFor, activeCop, hgrp, hst]

/-- A link that is ACTIVE is listed, so that its entry can be told from that of a port never used. -/
theorem st_ne_of_active {p : Port} (h : linkIn s p 5 = true) : (link s (portIdx p)).st ≠ 0 := by
  simp only [linkIn, Bool.and_eq_true, beq_iff_eq] at h
  omega

theorem link_received_st (h : (link s i).st ≠ 0) (cls j : Nat) : (link (received i cls s) j).st = (link s j).st := by
  unfold received
  exact link_onLink_st (by simp) h j

theorem link_snoopAnswered_st {m : Msg} (h : (link s (portIdx m.port)).st ≠ 0) (htid j : Nat) :
    (link (snoopAnswered m htid s) j).st = (link s j).st := by
  unfold snoopAnswered
  cases hp : m.port with
  | hal p =>
    rw [hp] at h
    dsimp only
    exact link_onLink_st (by simp) h j
  | cop l => rfl

end

theorem grp_snoopAnswered (m : Msg) (htid : Nat) (s : State) : (snoopAnswered m htid s).grp = s.grp := by
  unfold snoopAnswered
  split <;> rfl

end Sys2Proof.Machine
end

section
/-!
SUPPORT. How a message of an agent or a member is taken (R189, R285 to R288): on a link that is ACTIVE and within its credits, at once; and
a message for another home goes on to it (R17, R310).
-/

namespace Sys2Proof.Machine
open Sys2Proof

/-! ## The ways of an arriving message -/

section
variable {m : Msg} {c : Instr} {s : State}

theorem message_taken (hlink : linkIn s m.port 5 = true) (hcredit : overCredit s m c = false) : message m c s = settled s (takeMessage c s) := by
  simp [message, hlink, hcredit]

theorem message_over (hlink : linkIn s m.port 5 = true) (hcredit : overCredit s m c = true) :
    message m c s = settled s (creditBroken (portIdx m.port) (agentOf s m) s) := by simp [message, hlink, hcredit]

theorem message_down (hlink : linkIn s m.port 5 = false) : message m c s = done s s := by simp [message, hlink]

/-- What goes between members only is a message like any other there (R285). -/
theorem copingMessage_cop {l : Nat} (hport : m.port = .cop l) : copingMessage m c s = message m c s := by
  simp only [copingMessage, message, hport]

theorem copingMessage_hal {p : Nat} (hport : m.port = .hal p) (hlink : linkIn s m.port 5 = true) :
    copingMessage m c s = done s (reservedMessage (agentOf s m) s) := by
  unfold copingMessage
  rw [hlink, hport]
  rfl

theorem copingMessage_down (hlink : linkIn s m.port 5 = false) : copingMessage m c s = done s s := by simp [copingMessage, hlink]

/-- A message of an ACTIVE link within its credits is taken, whatever its class. -/
theorem engages_message {t : State} (hexec : exec c s = message m c s) (hlink : linkIn s m.port 5 = true) (hcredit : overCredit s m c = false)
    (htaken : takeMessage c s = t) : Engages c s t := engages_of_settled (hexec.trans (htaken ▸ message_taken hlink hcredit))

end

/-! ## What goes on to another home (R17, R310) -/

/-- A message that goes on is a relayed one when it came over Coping. -/
def relayed (m : Msg) (s : State) : State :=
  match m.port with
  | .hal _ => s
  | .cop _ => onGrp (fun g => { g with cntRelay := sat 64 g.cntRelay 1 }) s

theorem relayed_eq (m : Msg) (s : State) : ∃ n, relayed m s = { s with grp := { s.grp with cntRelay := n } } := by
  unfold relayed
  split
  · exact ⟨s.grp.cntRelay, rfl⟩
  · exact ⟨_, rfl⟩

theorem onCoping_congr {s t : State} (hid : t.grp.id = s.grp.id) (l : Nat) (m : Msg) : onCoping t l m = onCoping s l m := by
  simp only [onCoping, agentOf, rqOfSrc, srcOf, hid]

theorem onCoping_relayed (l : Nat) (m : Msg) (s : State) : onCoping (relayed m s) l m = onCoping s l m := by
  obtain ⟨n, h⟩ := relayed_eq m s
  exact onCoping_congr (by rw [h]) l m

theorem passOn_eq {s : State} {h l : Nat} {m : Msg} (hroute : routeFor s h m.gaddr = some l) (c : Instr) :
    passOn h m c s = emit (.forward l h 0 m.gaddr (withMsg (onCoping s l m) c)) (relayed m s) := by
  rw [← onCoping_relayed]
  unfold passOn
  rw [hroute]
  rfl

end Sys2Proof.Machine
end

section
/-!
PROOF. Requests join their port, and what is no message is discarded (R189, R191, R198, R285, R286, R288, R310; O16, O18).
-/

namespace Sys2Proof.Machine
open Sys2Proof

/-- What the port makes of a request before it stands there: its credit is owed, and it is counted (R286, R510). -/
def requestReceived (m : Msg) (s : State) : State :=
  match m.port with
  | .hal p => count (0x40 + p) 0x12 1 (received (portIdx m.port) 0 s)
  | .cop l => count (0x48 + l) 0x12 1 (received (portIdx m.port) 0 s)

theorem requestReceived_eq (m : Msg) (s : State) : ∃ u n, requestReceived m s = count u 0x12 n (received (portIdx m.port) 0 s) := by
  unfold requestReceived
  split
  · exact ⟨_, _, rfl⟩
  · exact ⟨_, _, rfl⟩

/-! ## The arrival at the port (R189, R198) -/

theorem arrive_eq (src : Src) (c : Instr) (s : State) : ∃ p v, arrive src c s = { s with
    pmc := p, fv := v,
    dir := { s.dir with nextId := s.dir.nextId + 1, held := s.dir.held ++ [{ id := s.dir.nextId, src, cmd := c, tick := s.tck.course }] } } := by
  unfold arrive
  extract_lets id s₁
  split
  · exact ⟨_, _, rfl⟩
  · exact ⟨_, _, rfl⟩
  · exact ⟨_, _, rfl⟩
  · exact tagRequest_eq _ _ _ _ _ s₁
  · exact ⟨_, _, rfl⟩

theorem joins_arrive (src : Src) (c : Instr) (m : Msg) (s : State) : Joins src c s (arrive src c (requestReceived m s)) := by
  obtain ⟨u, n, hreceived⟩ := requestReceived_eq m s
  obtain ⟨p, v, harrive⟩ := arrive_eq src c (requestReceived m s)
  rw [harrive, hreceived]
  simp [Joins, received]

/-! ## The effect of a request -/

/-- The effect of a request of either kind of port: it stays, unless it came over Coping for another member (R201, R310). -/
def requestEffect (m : Msg) (c : Instr) (s : State) : State :=
  match m.port, (if isBarrierCmd c then none else awayHome s m.gaddr) with
  | .cop l, some h => passOn h m c (count (0x48 + l) 0x12 1 s)
  | .cop l, none => arrive (.cop l) c (count (0x48 + l) 0x12 1 s)
  | .hal p, _ => arrive (.hal p) c (count (0x40 + p) 0x12 1 s)

section
variable {m : Msg} {c : Instr} {s : State}

theorem takeMessage_request (hreq : msgOf c = some m) : takeMessage c s = requestEffect m c (received (portIdx m.port) 0 s) := by
  unfold msgOf at hreq
  split at hreq
  all_goals cases hreq <;> rfl

theorem requestEffect_stays (hhome : ∀ l, m.port = .cop l → isBarrierCmd c = false → awayHome s m.gaddr = none) :
    requestEffect m c (received (portIdx m.port) 0 s) = arrive (srcOf m.port) c (requestReceived m s) := by
  unfold requestEffect requestReceived srcOf
  cases hport : m.port with
  | hal p => rfl
  | cop l =>
    have hnone : (if isBarrierCmd c then none else awayHome (received (portIdx (.cop l)) 0 s) m.gaddr) = none := by
      split
      · rfl
      · next hb => exact hhome l hport (by simpa using hb)
    rw [hnone]

theorem requestEffect_away {l h : Nat} (hport : m.port = .cop l) (hbarrier : isBarrierCmd c = false) (haway : awayHome s m.gaddr = some h) :
    requestEffect m c (received (portIdx m.port) 0 s) = passOn h m c (requestReceived m s) := by
  have hsome : awayHome (received (portIdx (.cop l)) 0 s) m.gaddr = some h := haway
  simp only [requestEffect, requestReceived, hport, hbarrier, hsome, Bool.false_eq_true, if_false]

/-- A request that is taken stands last at its port, unless it is one that goes on. -/
theorem request_joins (hexec : exec c s = message m c s) (hreq : msgOf c = some m) (hlink : linkIn s m.port 5 = true)
    (hcredit : overCredit s m c = false) (hhome : ∀ l, m.port = .cop l → isBarrierCmd c = false → awayHome s m.gaddr = none) :
    ∃ t, t = arrive (srcOf m.port) c (requestReceived m s) ∧ Engages c s t ∧ Joins (srcOf m.port) c s t :=
  ⟨_, rfl, engages_message hexec hlink hcredit ((takeMessage_request hreq).trans (requestEffect_stays hhome)), joins_arrive _ c m s⟩

theorem request_relayed (hexec : exec c s = message m c s) (hreq : msgOf c = some m) (hbarrier : isBarrierCmd c = false)
    (hlink : linkIn s m.port 5 = true) (l h : Nat) (hport : m.port = .cop l) (haway : awayHome s m.gaddr = some h)
    (hcredit : overCredit s m c = false) : Engages c s (passOn h m c (requestReceived m s)) :=
  engages_message hexec hlink hcredit ((takeMessage_request hreq).trans (requestEffect_away hport hbarrier haway))

end

/-- Settles O16: a request that is taken joins its port or is relayed, each by one lemma for all requests; one that is not is a credit error,
or has not arrived. -/
theorem requestsJoinTheirPort : Obligations.RequestsJoinTheirPort := by
  unfold Obligations.RequestsJoinTheirPort
  intro counted taken joined relayed
  have htaken (m : Msg) (s : State) : taken m s = requestReceived m s := by
    cases hport : m.port <;> simp only [taken, counted, requestReceived, hport]
  have hjoined {m : Msg} {c : Instr} {s : State} (hexec : exec c s = message m c s) (hreq : msgOf c = some m)
      (hlink : linkIn s m.port 5 = true) : joined m c s := by
    intro hcredit hhome
    rw [htaken]
    exact request_joins hexec hreq hlink hcredit hhome
  have hboth {m : Msg} {c : Instr} {s : State} (hexec : exec c s = message m c s) (hreq : msgOf c = some m)
      (hbarrier : isBarrierCmd c = false) (hlink : linkIn s m.port 5 = true) : joined m c s ∧ relayed m c s := by
    refine ⟨hjoined hexec hreq hlink, fun l h hport haway hcredit => ?_⟩
    rw [htaken]
    exact request_relayed hexec hreq hbarrier hlink l h hport haway hcredit
  refine ⟨fun s m h => ⟨hboth rfl rfl rfl h, hboth rfl rfl rfl h, hboth rfl rfl rfl h, hboth rfl rfl rfl h,
      fun _ _ _ => hboth rfl rfl rfl h, fun _ => hjoined rfl rfl h, fun _ => hjoined rfl rfl h⟩,
    fun s m l hport h => ⟨fun _ _ _ _ => hboth (copingMessage_cop hport) rfl rfl h, fun _ => hboth (copingMessage_cop hport) rfl rfl h⟩,
    fun s m c hlink hover hc => ?_, fun s m h => ?_, fun src c s => ?_, fun s m c h l hroute => ?_⟩
  · rcases hc with rfl | rfl | rfl | rfl | ⟨mask, data, poison, rfl⟩ | ⟨arg, rfl | rfl⟩
    all_goals exact engages_of_settled (message_over hlink hover)
  · have hmessage (c : Instr) (hexec : exec c s = message m c s) : Takes c s s := takes_of_done (hexec.trans (message_down h))
    exact ⟨hmessage _ rfl, hmessage _ rfl, hmessage _ rfl, hmessage _ rfl, fun _ _ _ => hmessage _ rfl,
      fun _ => ⟨hmessage _ rfl, hmessage _ rfl⟩,
      fun _ _ _ _ => takes_of_done (copingMessage_down h), fun _ => takes_of_done (copingMessage_down h)⟩
  · obtain ⟨p, v, harrive⟩ := arrive_eq src c s
    rw [harrive]
    exact ⟨rfl, rfl, rfl, rfl, rfl, rfl, rfl⟩
  · obtain ⟨n, hrelayed⟩ := relayed_eq m s
    exact ⟨n, by rw [passOn_eq hroute, hrelayed]⟩

/-- Settles O18: a reserved opcode is counted and recorded, and on a Halyard port ATOMIC and ACCUM are no other (R191, R285). -/
theorem reservedOpcodesAreDiscarded : Obligations.ReservedOpcodesAreDiscarded := by
  have hreserved {s : State} {m : Msg} (hlink : linkIn s m.port 5 = true) :
      exec (.reservedOpcodeMessage m) s = done s (reservedMessage (agentOf s m) s) := congrArg (done s) (if_pos hlink)
  exact ⟨fun s m hlink => takes_of_done (hreserved hlink), fun s m p hport hlink =>
    ⟨fun _ _ _ _ => (copingMessage_hal hport hlink).trans (hreserved hlink).symm,
      fun _ => (copingMessage_hal hport hlink).trans (hreserved hlink).symm⟩, event_eq⟩

end Sys2Proof.Machine
end

section
/-!
SUPPORT. What the answers of agents make of the home's transactions, entries and gather buffers (R194, R195, R197, R200).
-/

namespace Sys2Proof.Machine
open Sys2Proof

/-! ## A reserved entry of the gather buffers (R195) -/

section
variable (src : Src) (a gaddr lg rsv : Nat) (d : Granule) (p : Bool) (s : State)

/-- The entry that holds the data of a W message or of a SNP_DATA. -/
def reservedEntry : GbEnt :=
  { id := nextReq s, buf := bufOf src, rq := a / 8 * 16 + a % 8, lg, gaddr, mask := BitVec.allOnes 64, data := d, poison := p, device := false
    relaxed := true, rsv, drained := true, txid := 0, agent := a, acked := false, src, reqs := [nextReq s] }

/-- The entry of a W message that an agent's SNP_DATA stands before (R189). -/
def overtaken (rsv a lg : Nat) (x : GbEnt) : Bool := rsv == 2 && x.rsv == 1 && x.agent == a && x.lg == lg

theorem notePeak_gbs (b : Nat) : (notePeak b s).ord.gbs = s.ord.gbs := ite_keeps (·.ord.gbs) rfl rfl
theorem notePeak_dir (b : Nat) : (notePeak b s).dir = s.dir := ite_keeps (·.dir) rfl rfl
theorem notePeak_cch (b : Nat) : (notePeak b s).cch = s.cch := ite_keeps (·.cch) rfl rfl

theorem reserve_gbs : (reserve src a gaddr lg rsv d p s).ord.gbs =
    s.ord.gbs.takeWhile (fun x => !overtaken rsv a lg x) ++ reservedEntry src a gaddr lg rsv d p s ::
      s.ord.gbs.dropWhile fun x => !overtaken rsv a lg x := by
  rw [← List.singleton_append, ← List.append_assoc]
  exact notePeak_gbs _ _

theorem reserve_txns : (reserve src a gaddr lg rsv d p s).dir.txns = s.dir.txns := congrArg (·.txns) (notePeak_dir _ _)

theorem reserve_cch : (reserve src a gaddr lg rsv d p s).cch = s.cch := notePeak_cch _ _

/-- The data of a W message stands last. -/
theorem reserve_gbs_of_w : (reserve src a gaddr lg 1 d p s).ord.gbs = s.ord.gbs ++ [reservedEntry src a gaddr lg 1 d p s] := by
  have hnone (x : GbEnt) : (!overtaken 1 a lg x) = true := rfl
  rw [reserve_gbs, List.takeWhile_eq_self_iff.mpr fun x _ => hnone x, List.dropWhile_eq_nil_iff.mpr fun x _ => hnone x]

/-- No W message of the agent for the granule stands before the data of its SNP_DATA. -/
theorem rsv_of_mem_before {x : GbEnt} (hx : x ∈ s.ord.gbs.takeWhile fun x => !overtaken 2 a lg x) (hw : x.rsv = 1)
    (ha : x.agent = a) : x.lg ≠ lg := by
  have hnot := List.mem_takeWhile_imp hx
  simpa [overtaken, hw, ha] using hnot

end

/-! ## The directory, and what it leaves alone -/

/-- The state without what a record of the directory touches: the home, and what counting touches. -/
def besideDirectory (s : State) : State := { besideCounting s with dir := {} }

theorem besideDirectory_count (u c n : Nat) (s : State) : besideDirectory (count u c n s) = besideDirectory s := by
  simp only [besideDirectory, besideCounting_count]

section
variable (a lg : Nat) (st : DirSt) (s : State)

theorem besideDirectory_record : besideDirectory (record lg st s) = besideDirectory s := by
  unfold record
  split
  · exact ite_keeps besideDirectory (besideDirectory_count _ _ _ _) rfl
  · rfl

theorem txns_record : (record lg st s).dir.txns = s.dir.txns := by
  unfold record
  split
  · exact ite_keeps (·.dir.txns) (congrArg (·.txns) (count_dir _ _ _ _)) rfl
  · rfl

theorem besideDirectory_leaveEnt : besideDirectory (leaveEnt a lg s) = besideDirectory s := by
  unfold leaveEnt
  repeat' split
  all_goals rfl

theorem txns_leaveEnt : (leaveEnt a lg s).dir.txns = s.dir.txns := by
  unfold leaveEnt
  repeat' split
  all_goals rfl

theorem besideDirectory_leaveRecorded : besideDirectory (leaveRecorded a lg s) = besideDirectory s := by
  unfold leaveRecorded
  split
  · exact besideDirectory_leaveEnt _ _ _
  · exact ite_keeps besideDirectory rfl (besideDirectory_record _ _ _)

theorem leaveRecorded_ord : (leaveRecorded a lg s).ord = s.ord := congrArg (·.ord) (besideDirectory_leaveRecorded a lg s)
theorem leaveRecorded_cch : (leaveRecorded a lg s).cch = s.cch := congrArg (·.cch) (besideDirectory_leaveRecorded a lg s)

end

theorem txns_close (t : Txn) (s : State) : (close t s).dir.txns = s.dir.txns.filter fun y => y.req.id != t.req.id :=
  congrArg (List.filter _) (txns_record _ _ s)

theorem recordedState_of_busy {s : State} {lg : Nat} {x : Txn} (h : (s.dir.txns.find? fun y => y.busy && y.req.lg == lg) = some x) :
    recordedState s lg = x.after := by simp [recordedState, h]

theorem recordedState_congr {s t : State} (lg : Nat) (h : t.dir = s.dir) : recordedState t lg = recordedState s lg := by
  simp only [recordedState, dirState, dirFind, dirEnt, h]

theorem openSnoop_congr {s t : State} (a lg : Nat) (h : t.dir = s.dir) : openSnoop t a lg = openSnoop s a lg := by
  simp only [openSnoop, h]

/-- While a granule is Busy, the state that an agent leaves is the one in the slot of its transaction (R200). -/
theorem recordedState_leaveRecorded {s : State} {a lg : Nat} {x : Txn} (h : (s.dir.txns.find? fun y => y.busy && y.req.lg == lg) = some x) :
    recordedState (leaveRecorded a lg s) lg = removeHolder a x.after := by
  have hsame : ((fun y : Txn => y.busy && y.req.lg == lg) ∘
      fun y => if y.req.id = x.req.id then { y with after := removeHolder a y.after } else y) = fun y => y.busy && y.req.lg == lg := by
    funext y
    by_cases hy : y.req.id = x.req.id
    · simp [hy, Txn.busy]
    · simp [hy]
  have hfind : ((leaveRecorded a lg s).dir.txns.find? fun y => y.busy && y.req.lg == lg) = some { x with after := removeHolder a x.after } := by
    simp only [leaveRecorded, h, txns_leaveEnt, onTxn_dir, List.find?_map, hsame]
    simp
  exact recordedState_of_busy hfind

/-! ## The answer of a snoop (R194) -/

/-- The transaction of `x` stands among `l` with every snoop to the agent for the granule answered. -/
def Answered (a lg : Nat) (x : Txn) (l : List Txn) : Prop :=
  ∃ y, y ∈ l ∧ y.req = x.req ∧ ∀ z, z ∈ y.snoops → z.agent = a → z.lg = lg → z.resp = true

section
variable {a lg : Nat} {x : Txn} {s : State}

theorem answered_onSnoop {f : Snoop → Snoop} (hx : x ∈ s.dir.txns) (hf : ∀ z, (f z).resp = true) :
    Answered a lg x (onSnoop x.req.id a lg f s).dir.txns := by
  refine ⟨_, List.mem_map_of_mem hx, ?_, ?_⟩
  · simp
  · simp only [if_true, List.mem_map]
    rintro z ⟨y, -, rfl⟩ ha hlg
    by_cases h : y.agent = a ∧ y.lg = lg
    · rw [if_pos h, hf]
    · rw [if_neg h] at ha hlg
      exact absurd ⟨ha, hlg⟩ h

theorem Answered.onTxn {i : Nat} {f : Txn → Txn} (hreq : ∀ t, (f t).req = t.req) (hsnoops : ∀ t, (f t).snoops = t.snoops)
    (h : Answered a lg x s.dir.txns) : Answered a lg x (onTxn i f s).dir.txns := by
  obtain ⟨y, hy, hyx, hresp⟩ := h
  refine ⟨_, List.mem_map_of_mem hy, ?_, ?_⟩
  · split
    · exact (hreq y).trans hyx
    · exact hyx
  · split
    · rwa [hsnoops]
    · exact hresp

end

/-- What a snoop response makes of the transaction `t` whose snoop `x` it answers (R192, R194). -/
def snoopTaken (a lg : Nat) (st : CacheSt) (evicted : Bool) (data : Option (Granule × Bool)) (t : Txn) (x : Snoop) (s : State) : State :=
  let s := if evicted then count 4 0x12 1 (onDir (fun d => { d with cntCross := sat 64 d.cntCross 1 }) s) else s
  let s := if st = .i ∧ evicted = false ∧ data = none ∧ x.kind ≠ .inv then onDir (fun d => { d with cntSpur := sat 64 d.cntSpur 1 }) s else s
  let s := onSnoop t.req.id a lg (fun y => { y with resp := true, evicted, st := if y.w then .i else st }) s
  if t.victim.isNone ∧ st = .i then onTxn t.req.id (fun t => { t with after := removeHolder a t.after }) s else s

section
variable {a lg htid : Nat} {st : CacheSt} {ev : Bool} {data : Option (Granule × Bool)} {t : Txn} {x : Snoop} {s : State}

theorem snoopTaken_ord : (snoopTaken a lg st ev data t x s).ord = s.ord := by
  unfold snoopTaken
  extract_lets s₁ s₂ s₃
  have h₁ : s₁.ord = s.ord := ite_keeps (·.ord) (count_ord _ _ _ _) rfl
  have h₂ : s₂.ord = s.ord := ite_keeps (·.ord) h₁ h₁
  exact ite_keeps (·.ord) h₂ h₂

theorem answered_snoopTaken (ht : t ∈ s.dir.txns) : Answered a lg t (snoopTaken a lg st ev data t x s).dir.txns := by
  unfold snoopTaken
  extract_lets s₁ s₂ s₃
  have h₁ : s₁.dir.txns = s.dir.txns := ite_keeps (·.dir.txns) (congrArg (·.txns) (count_dir _ _ _ _)) rfl
  have h₂ : s₂.dir.txns = s.dir.txns := ite_keeps (·.dir.txns) h₁ h₁
  have h₃ : Answered a lg t s₃.dir.txns := answered_onSnoop (h₂ ▸ ht) fun _ => rfl
  split
  · exact h₃.onTxn (fun _ => rfl) fun _ => rfl
  · exact h₃

end

/-- The transaction whose snoop to the agent for the granule a response in the slot answers (R194). -/
def answers (s : State) (a htid lg : Nat) : Option Txn :=
  s.dir.txns.find? fun y => y.slot == some htid && y.snoops.any fun z => z.agent == a && z.lg == lg && !z.resp

section
variable {a lg htid : Nat} {t : Txn} {s : State}

theorem mem_of_answers (h : answers s a htid lg = some t) : t ∈ s.dir.txns := List.mem_of_find?_eq_some h

/-- The snoop that is answered stands open in its transaction. -/
theorem open_of_answers (h : answers s a htid lg = some t) : ∃ x, (t.snoops.find? fun x => x.agent == a && x.lg == lg && !x.resp) = some x := by
  have hany := List.find?_some h
  rw [Bool.and_eq_true] at hany
  exact Option.isSome_iff_exists.mp (List.find?_isSome.mpr (List.any_eq_true.mp hany.2))

theorem takeResp_data (src : Src) (gaddr : Nat) (st : CacheSt) (d : Granule) (p : Bool) (h : answers s a htid lg = some t) :
    ∃ x, takeResp src a htid gaddr lg st false (some (d, p)) s =
      reserve src a gaddr lg 2 d p (snoopTaken a lg st false (some (d, p)) t x s) := by
  obtain ⟨x, hx⟩ := open_of_answers h
  unfold answers at h
  exact ⟨x, by simp only [takeResp, snoopTaken, h, hx]⟩

/-- Without data it sends at most the WB_ACK that an EVICT_CLEAN still waits for (R200). -/
theorem takeResp_bare (src : Src) (gaddr : Nat) (st : CacheSt) (ev : Bool) (h : answers s a htid lg = some t) :
    ∃ x, takeResp src a htid gaddr lg st ev none s = snoopTaken a lg st ev none t x s ∨
      takeResp src a htid gaddr lg st ev none s = emit (.wbAck a gaddr .ok) (snoopTaken a lg st ev none t x s) := by
  obtain ⟨x, hx⟩ := open_of_answers h
  unfold answers at h
  have heq : takeResp src a htid gaddr lg st ev none s =
      if x.w && ((snoopTaken a lg st ev none t x s).ord.gbs.all fun g => !(g.rsv == 1 && g.agent == a && g.lg == lg)) then
        emit (.wbAck a gaddr .ok) (snoopTaken a lg st ev none t x s)
      else snoopTaken a lg st ev none t x s := by simp only [takeResp, snoopTaken, h, hx]
  refine ⟨x, ?_⟩
  rw [heq]
  split
  · exact .inr rfl
  · exact .inl rfl

theorem takeResp_none (src : Src) (gaddr : Nat) (st : CacheSt) (ev : Bool) (data : Option (Granule × Bool)) (h : answers s a htid lg = none) :
    takeResp src a htid gaddr lg st ev data s = s := by
  unfold answers at h
  simp only [takeResp, h]

/-- The data of a SNP_DATA stands before the W message of its agent that has overtaken it (R189, R195). -/
theorem takeResp_data_gbs (src : Src) (gaddr : Nat) (st : CacheSt) (d : Granule) (p : Bool) (h : answers s a htid lg = some t) :
    ∃ l₁ g l₂, s.ord.gbs = l₁ ++ l₂ ∧ (takeResp src a htid gaddr lg st false (some (d, p)) s).ord.gbs = l₁ ++ g :: l₂ ∧
      g.lg = lg ∧ g.data = d ∧ g.poison = p ∧ g.rsv = 2 ∧ ∀ x, x ∈ l₁ → x.rsv = 1 → x.agent = a → x.lg ≠ lg := by
  obtain ⟨x, htaken⟩ := takeResp_data src gaddr st d p h
  refine ⟨_, reservedEntry src a gaddr lg 2 d p (snoopTaken a lg st false (some (d, p)) t x s), _,
    List.takeWhile_append_dropWhile.symm, ?_, rfl, rfl, rfl, rfl, fun y hy => rsv_of_mem_before a lg s hy⟩
  rw [htaken, reserve_gbs, snoopTaken_ord]

theorem answered_takeResp_data (src : Src) (gaddr : Nat) (st : CacheSt) (d : Granule) (p : Bool) (h : answers s a htid lg = some t) :
    Answered a lg t (takeResp src a htid gaddr lg st false (some (d, p)) s).dir.txns := by
  obtain ⟨x, htaken⟩ := takeResp_data src gaddr st d p h
  rw [htaken, reserve_txns]
  exact answered_snoopTaken (mem_of_answers h)

theorem answered_takeResp_bare (src : Src) (gaddr : Nat) (st : CacheSt) (ev : Bool) (h : answers s a htid lg = some t) :
    Answered a lg t (takeResp src a htid gaddr lg st ev none s).dir.txns := by
  obtain ⟨x, hbare | hacked⟩ := takeResp_bare src gaddr st ev h
  · exact hbare ▸ answered_snoopTaken (mem_of_answers h)
  · rw [hacked, emit_dir]
    exact answered_snoopTaken (mem_of_answers h)

theorem takeResp_bare_ord (src : Src) (gaddr : Nat) (st : CacheSt) (ev : Bool) (s : State) :
    (takeResp src a htid gaddr lg st ev none s).ord = s.ord := by
  cases h : answers s a htid lg with
  | none => rw [takeResp_none src gaddr st ev none h]
  | some t =>
    obtain ⟨x, hbare | hacked⟩ := takeResp_bare src gaddr st ev h
    · rw [hbare, snoopTaken_ord]
    · rw [hacked, emit_ord, snoopTaken_ord]

end

/-! ## W messages and ACK (R197, R200) -/

section
variable {a gaddr lg htid : Nat} {d : Granule} {p : Bool} {s : State}

/-- The data of the owner, or of an agent that a snoop crosses, is put into a reserved entry. -/
theorem takeWb_taken (src : Src) (h : (openSnoop s a lg).isSome = true ∨ recordedState s lg = .owned a) :
    ∃ u, u.ord = s.ord ∧ u.cch = s.cch ∧ takeWb src a gaddr lg d p s = reserve src a gaddr lg 1 d p u := by
  have hord := count_ord 2 0x11 1 s
  have hcch := count_cch 2 0x11 1 s
  have hopen := openSnoop_congr a lg (count_dir 2 0x11 1 s)
  have hrec := recordedState_congr lg (count_dir 2 0x11 1 s)
  unfold takeWb
  extract_lets s₁
  split
  · exact ⟨onSnoop _ a lg _ s₁, hord, hcch, rfl⟩
  · next hnone =>
    have howned : recordedState s₁ lg = .owned a := hrec.trans (h.resolve_left (by simp [← hopen, s₁, hnone]))
    rw [if_pos howned]
    exact ⟨_, (leaveRecorded_ord a lg s₁).trans hord, (leaveRecorded_cch a lg s₁).trans hcch, rfl⟩

theorem takeWb_refused (src : Src) (hopen : openSnoop s a lg = none) (howner : recordedState s lg ≠ .owned a) :
    takeWb src a gaddr lg d p s = emit (.wbAck a gaddr .protocol)
      (event 0x0501 2 a (onDir (fun x => { x with cntProto := sat 64 x.cntProto 1 }) (count 2 0x11 1 s))) := by
  have hopen' := (openSnoop_congr a lg (count_dir 2 0x11 1 s)).trans hopen
  have hrec := recordedState_congr lg (count_dir 2 0x11 1 s)
  simp only [takeWb, hopen', hrec, howner, if_false]

theorem takeWb_gbs (src : Src) (h : (openSnoop s a lg).isSome = true ∨ recordedState s lg = .owned a) :
    ∃ g, (takeWb src a gaddr lg d p s).ord.gbs = s.ord.gbs ++ [g] ∧ g.lg = lg ∧ g.data = d ∧ g.poison = p ∧ g.rsv = 1 ∧ g.agent = a := by
  obtain ⟨u, hord, -, htaken⟩ := takeWb_taken (gaddr := gaddr) (d := d) (p := p) src h
  exact ⟨_, by rw [htaken, reserve_gbs_of_w, hord], rfl, rfl, rfl, rfl, rfl⟩

theorem takeWb_refused_eq (src : Src) (hopen : openSnoop s a lg = none) (howner : recordedState s lg ≠ .owned a) :
    (takeWb src a gaddr lg d p s).ord.gbs = s.ord.gbs ∧ (takeWb src a gaddr lg d p s).dir.cntProto = sat 64 s.dir.cntProto 1 := by
  rw [takeWb_refused src hopen howner]
  simp

theorem takeWb_cch (src : Src) (a gaddr lg : Nat) (d : Granule) (p : Bool) (s : State) : (takeWb src a gaddr lg d p s).cch = s.cch := by
  by_cases h : (openSnoop s a lg).isSome = true ∨ recordedState s lg = .owned a
  · obtain ⟨u, -, hcch, htaken⟩ := takeWb_taken (gaddr := gaddr) (d := d) (p := p) src h
    rw [htaken, reserve_cch, hcch]
  · obtain ⟨hopen, howner⟩ := not_or.mp h
    rw [takeWb_refused src (by simpa using hopen) howner]
    simp

/-- An eviction leaves alone what counts, the home's own records and what is sent are no part of. -/
theorem takeEvict_keeps {β : Type} {g : State → β} (hcount : ∀ u c n s, g (count u c n s) = g s) (hdir : ∀ f s, g (onDir f s) = g s)
    (hemit : ∀ o s, g (emit o s) = g s) (hleave : ∀ a lg s, g (leaveRecorded a lg s) = g s) (a gaddr lg : Nat) (s : State) :
    g (takeEvict a gaddr lg s) = g s := by
  unfold takeEvict
  extract_lets s₁
  have h₁ : g s₁ = g s := hcount _ _ _ s
  split
  · have hsnoop (i : Nat) (f : Snoop → Snoop) : g (onSnoop i a lg f s₁) = g s := by
      unfold onSnoop onTxn
      exact (hdir _ s₁).trans h₁
    exact ite_keeps g ((hemit _ _).trans (hsnoop _ _)) (hsnoop _ _)
  · exact (hemit _ _).trans (ite_keeps g ((hleave _ _ _).trans h₁) h₁)

theorem takeEvict_ord (a gaddr lg : Nat) (s : State) : (takeEvict a gaddr lg s).ord = s.ord :=
  takeEvict_keeps count_ord (fun _ _ => rfl) emit_ord leaveRecorded_ord a gaddr lg s

theorem takeEvict_cch (a gaddr lg : Nat) (s : State) : (takeEvict a gaddr lg s).cch = s.cch :=
  takeEvict_keeps count_cch (fun _ _ => rfl) emit_cch leaveRecorded_cch a gaddr lg s

theorem takeEvict_of_closed (h : openSnoop s a lg = none) : takeEvict a gaddr lg s = emit (.wbAck a gaddr .ok)
    (if a ∈ holders (recordedState s lg) then leaveRecorded a lg (count 2 0x11 1 s) else count 2 0x11 1 s) := by
  have hopen := (openSnoop_congr a lg (count_dir 2 0x11 1 s)).trans h
  have hrec := recordedState_congr lg (count_dir 2 0x11 1 s)
  simp only [takeEvict, hopen, hrec]

theorem recordedState_takeEvict {x : Txn} (h : openSnoop s a lg = none) (hx : (s.dir.txns.find? fun y => y.busy && y.req.lg == lg) = some x) :
    recordedState (takeEvict a gaddr lg s) lg = if a ∈ holders x.after then removeHolder a x.after else x.after := by
  have hcounted : ((count 2 0x11 1 s).dir.txns.find? fun y => y.busy && y.req.lg == lg) = some x := by rwa [count_dir]
  rw [takeEvict_of_closed h, recordedState_congr lg (emit_dir _ _), recordedState_of_busy hx]
  split
  · exact recordedState_leaveRecorded hcounted
  · exact recordedState_of_busy hcounted

theorem takeAck_of_found {x : Txn} (h : (s.dir.txns.find? fun y => y.slot == some htid && y.stage == .ack && y.req.agent == a) = some x) :
    takeAck a htid s = close x s := by simp only [takeAck, h]

end

end Sys2Proof.Machine
end

section
/-!
PROOF. Answers act at the home, or go on to the home that they are for (R17, R194, R197, R200, R226, R310; O17).
-/

namespace Sys2Proof.Machine
open Sys2Proof

/-! ## Which home a message is for (R312) -/

/-- A granule has one home at most. -/
theorem localGranule_or_awayHome (s : State) (g : Nat) : localGranule s g = none ∨ awayHome s g = none := by
  unfold localGranule awayHome
  cases decodeAddr s (g * 64) with
  | here a => exact .inr rfl
  | remote h a => exact .inl rfl
  | unbacked => exact .inl rfl

section
variable {m : Msg} {s : State} {lg h l htid : Nat} {d : Granule} {p : Bool} {st : CacheSt}

theorem localGranule_of_away (haway : awayHome s m.gaddr = some h) : localGranule s m.gaddr = none :=
  (localGranule_or_awayHome s m.gaddr).resolve_right (by simp [haway])

/-! ## The effect at this home -/

theorem messageEffect_wbDirty (hlg : localGranule s m.gaddr = some lg) :
    messageEffect (.wbDirty m d p) s = takeWb (srcOf m.port) (agentOf s m) m.gaddr lg d p s := by simp only [messageEffect, hlg]

theorem messageEffect_evictClean (given : CacheSt) (hlg : localGranule s m.gaddr = some lg) :
    messageEffect (.evictClean m given) s = takeEvict (agentOf s m) m.gaddr lg s := by simp only [messageEffect, hlg]

theorem messageEffect_ack (haway : awayHome s m.gaddr = none) :
    messageEffect (.ack m htid) s = takeAck (agentOf s m) htid s := by simp only [messageEffect, haway]

theorem messageEffect_snpResp (ev : Bool) (hlg : localGranule s m.gaddr = some lg) : messageEffect (.snpResp m htid st ev) s =
    takeResp (srcOf m.port) (agentOf s m) htid m.gaddr lg st ev none s := by simp only [messageEffect, hlg]

theorem messageEffect_snpData (hlg : localGranule s m.gaddr = some lg) : messageEffect (.snpData m htid st d p) s =
    takeResp (srcOf m.port) (agentOf s m) htid m.gaddr lg st false (some (d, p)) s := by simp only [messageEffect, hlg]

/-! ## The effect for another home -/

/-- The credit of a message changes no route. -/
theorem routeFor_received (hlink : linkIn s m.port 5 = true) (hroute : routeFor s h m.gaddr = some l) (cls : Nat) :
    routeFor (received (portIdx m.port) cls s) h m.gaddr = some l :=
  (routeFor_congr (s := s) (t := received (portIdx m.port) cls s) rfl (link_received_st (st_ne_of_active hlink) cls) h m.gaddr).trans hroute

/-- Nor does the answer of a snoop. -/
theorem routeFor_answered (hlink : linkIn s m.port 5 = true) (hroute : routeFor s h m.gaddr = some l) (cls htid : Nat) :
    routeFor (snoopAnswered m htid (received (portIdx m.port) cls s)) h m.gaddr = some l := by
  have hst : (link (received (portIdx m.port) cls s) (portIdx m.port)).st ≠ 0 := by
    rw [link_received_st (st_ne_of_active hlink)]
    exact st_ne_of_active hlink
  exact (routeFor_congr (grp_snoopAnswered m htid _) (link_snoopAnswered_st hst htid) h m.gaddr).trans (routeFor_received hlink hroute cls)

theorem passOn_received (hlink : linkIn s m.port 5 = true) (hroute : routeFor s h m.gaddr = some l) (cls : Nat) (c : Instr) :
    passOn h m c (received (portIdx m.port) cls s) =
      emit (.forward l h 0 m.gaddr (withMsg (onCoping s l m) c)) (relayed m (received (portIdx m.port) cls s)) :=
  passOn_eq (routeFor_received hlink hroute cls) c

theorem passOn_answered (hlink : linkIn s m.port 5 = true) (hroute : routeFor s h m.gaddr = some l) (cls htid : Nat) (c : Instr) :
    passOn h m c (snoopAnswered m htid (received (portIdx m.port) cls s)) =
      emit (.forward l h 0 m.gaddr (withMsg (onCoping s l m) c)) (relayed m (snoopAnswered m htid (received (portIdx m.port) cls s))) := by
  have hgrp : (snoopAnswered m htid (received (portIdx m.port) cls s)).grp = s.grp := grp_snoopAnswered m htid _
  rw [passOn_eq (routeFor_answered hlink hroute cls htid) c, onCoping_congr (congrArg (·.id) hgrp)]

theorem messageEffect_ack_away (haway : awayHome s m.gaddr = some h) :
    messageEffect (.ack m htid) s = passOn h m (.ack m htid) s := by simp only [messageEffect, haway]

theorem messageEffect_snpResp_away (ev : Bool) (haway : awayHome s m.gaddr = some h) :
    messageEffect (.snpResp m htid st ev) s = passOn h m (.snpResp m htid st ev) (snoopAnswered m htid s) := by
  simp only [messageEffect, localGranule_of_away haway, haway]

theorem messageEffect_snpData_away (haway : awayHome s m.gaddr = some h) :
    messageEffect (.snpData m htid st d p) s = passOn h m (.snpData m htid st d p) (snoopAnswered m htid s) := by
  simp only [messageEffect, localGranule_of_away haway, haway]

/-- The commands of W messages: what an agent writes back or evicts (R189, R200). -/
def IsWMessage (m : Msg) (c : Instr) : Prop := (∃ d p, c = .wbDirty m d p) ∨ ∃ given, c = .evictClean m given

/-- A W message that an agent of this module has sent to another home is its earlier write until its WB_ACK comes (R226). -/
def writeForwarded (h l port : Nat) (m : Msg) (c : Instr) (s : State) : State :=
  { s with dir := { s.dir with
      nextId := s.dir.nextId + 1
      fwds := s.dir.fwds ++ [{ home := h, port := l, req := s.dir.nextId, txid := 0, gaddr := m.gaddr, agent := agentOf s m
                               src := .hal port, write := true, cmd := c }] } }

variable {c : Instr}

theorem IsWMessage.withMsg_self (hw : IsWMessage m c) : withMsg m c = c := by
  obtain ⟨d, p, rfl⟩ | ⟨given, rfl⟩ := hw
  · rfl
  · rfl

theorem exec_w (hw : IsWMessage m c) : exec c s = message m c s := by
  obtain ⟨d, p, rfl⟩ | ⟨given, rfl⟩ := hw
  · rfl
  · rfl

theorem takeMessage_w_away (hw : IsWMessage m c) (haway : awayHome s m.gaddr = some h) :
    takeMessage c s = passOnW h m c (received (portIdx m.port) (classOfMsg c) s) := by
  have haway' (cls : Nat) : awayHome (received (portIdx m.port) cls s) m.gaddr = some h := haway
  obtain ⟨d, p, rfl⟩ | ⟨given, rfl⟩ := hw
  · simp only [takeMessage, anyMsg, messageEffect, localGranule_of_away (haway' _), haway']
  · simp only [takeMessage, anyMsg, messageEffect, localGranule_of_away (haway' _), haway']

theorem passOnW_of_cop {k : Nat} (hport : m.port = .cop k) (hreach : unreachable s h = false) : passOnW h m c s = passOn h m c s := by
  simp only [passOnW, hport, hreach, Bool.false_eq_true, if_false]

theorem passOnW_of_hal {port : Nat} (hport : m.port = .hal port) (hreach : unreachable s h = false) (hroute : routeFor s h m.gaddr = some l) :
    passOnW h m c s = passOn h m c (writeForwarded h l port m c s) := by
  simp only [passOnW, hport, hreach, hroute, Bool.false_eq_true, if_false]
  rfl

theorem onCoping_of_cop {k : Nat} (hport : m.port = .cop k) : onCoping s l m = m := by simp only [onCoping, hport]

theorem relayed_of_hal {port : Nat} (hport : m.port = .hal port) : relayed m s = s := by simp only [relayed, hport]

/-- A W message that came over Coping goes on as it is. -/
theorem takeMessage_w_of_cop {k : Nat} (hw : IsWMessage m c) (hport : m.port = .cop k) (hlink : linkIn s m.port 5 = true)
    (haway : awayHome s m.gaddr = some h) (hroute : routeFor s h m.gaddr = some l) (hreach : unreachable s h = false) :
    takeMessage c s = emit (.forward l h 0 m.gaddr c) (relayed m (received (portIdx m.port) (classOfMsg c) s)) := by
  have hreach' : unreachable (received (portIdx m.port) (classOfMsg c) s) h = false := hreach
  rw [takeMessage_w_away hw haway, passOnW_of_cop hport hreach', passOn_received hlink hroute, onCoping_of_cop hport, hw.withMsg_self]

/-- That of an agent goes on in its name, and waits for its WB_ACK. -/
theorem takeMessage_w_of_hal {port : Nat} (hw : IsWMessage m c) (hport : m.port = .hal port) (hlink : linkIn s m.port 5 = true)
    (haway : awayHome s m.gaddr = some h) (hroute : routeFor s h m.gaddr = some l) (hreach : unreachable s h = false) :
    takeMessage c s = emit (.forward l h 0 m.gaddr (withMsg (onCoping s l m) c))
      (received (portIdx m.port) (classOfMsg c) (writeForwarded h l port m c s)) := by
  have hreach' : unreachable (received (portIdx m.port) (classOfMsg c) s) h = false := hreach
  have hforward : routeFor (writeForwarded h l port m c s) h m.gaddr = some l := hroute
  have hlink' : linkIn (writeForwarded h l port m c s) m.port 5 = true := hlink
  have hcomm : writeForwarded h l port m c (received (portIdx m.port) (classOfMsg c) s) =
      received (portIdx m.port) (classOfMsg c) (writeForwarded h l port m c s) := rfl
  have hcoping : onCoping (writeForwarded h l port m c s) l m = onCoping s l m := onCoping_congr (by rfl) l m
  rw [takeMessage_w_away hw haway, passOnW_of_hal hport hreach' (routeFor_received hlink hroute _), hcomm, passOn_received hlink' hforward,
    hcoping, relayed_of_hal hport]

end

/-- Settles O17: what each message does at its home, and that it goes on to another one. -/
theorem answersActAtTheHome : Obligations.AnswersActAtTheHome := by
  unfold Obligations.AnswersActAtTheHome
  intro credited relayed
  have hrelayed (m : Msg) (s : State) : relayed m s = Machine.relayed m s := by
    cases hport : m.port <;> simp only [relayed, Machine.relayed, hport, onGrp]
  refine ⟨fun s m lg hlink hlg haway => ⟨fun d p hcredit => ?_, fun given hcredit => ?_, fun htid hcredit => ?_,
      fun htid st ev hcredit => ?_, fun htid st d p hcredit => ?_⟩,
    fun s m h l hlink haway hroute => ⟨fun htid hcredit => ?_, fun htid st ev hcredit => ?_, fun htid st d p hcredit => ?_⟩,
    fun s m h l c hlink haway hroute hreach hw hcredit => ⟨fun k hport => ?_, fun port hport => ?_⟩, localGranule_or_awayHome⟩
  · exact ⟨_, rfl, engages_message rfl hlink hcredit (messageEffect_wbDirty hlg), takeWb_cch _ _ _ _ _ _ _,
      fun howner => takeWb_gbs _ howner, fun hopen howner => takeWb_refused_eq (s := received _ 2 s) _ hopen howner⟩
  · exact ⟨_, rfl, engages_message rfl hlink hcredit (messageEffect_evictClean given hlg), takeEvict_cch _ _ _ _, takeEvict_ord _ _ _ _,
      fun x hopen hx => recordedState_takeEvict (s := received _ 2 s) hopen hx⟩
  · refine ⟨_, rfl, engages_message rfl hlink hcredit (messageEffect_ack haway), fun x hx => ?_⟩
    rw [takeAck_of_found (s := credited _ m s) hx]
    exact txns_close x _
  · exact ⟨_, rfl, engages_message rfl hlink hcredit (messageEffect_snpResp ev hlg), congrArg (·.gbs) (takeResp_bare_ord _ _ _ _ _),
      fun x hx => answered_takeResp_bare (s := received _ 3 s) _ _ _ _ hx⟩
  · exact ⟨_, rfl, engages_message rfl hlink hcredit (messageEffect_snpData hlg), fun x hx =>
      ⟨takeResp_data_gbs (s := received _ 4 s) _ _ _ _ _ hx, answered_takeResp_data (s := received _ 4 s) _ _ _ _ _ hx⟩⟩
  · rw [hrelayed]
    exact engages_message rfl hlink hcredit
      ((messageEffect_ack_away (s := received (portIdx m.port) 3 s) haway).trans (passOn_received hlink hroute 3 _))
  · rw [hrelayed]
    exact engages_message rfl hlink hcredit
      ((messageEffect_snpResp_away (s := received (portIdx m.port) 3 s) ev haway).trans (passOn_answered hlink hroute 3 htid _))
  · rw [hrelayed]
    exact engages_message rfl hlink hcredit
      ((messageEffect_snpData_away (s := received (portIdx m.port) 4 s) haway).trans (passOn_answered hlink hroute 4 htid _))
  · rw [hrelayed]
    exact engages_message (exec_w hw) hlink hcredit (takeMessage_w_of_cop hw hport hlink haway hroute hreach)
  · exact ⟨writeForwarded h l port m c s,
      engages_message (exec_w hw) hlink hcredit (takeMessage_w_of_hal hw hport hlink haway hroute hreach), rfl⟩

end Sys2Proof.Machine
end

section
/-!
SUPPORT. What the drain of gather buffers changes (R218, R220 to R224): the entries that pass the ordering point are marked, their writes
join the order, and each is counted.
-/

namespace Sys2Proof.Machine
open Sys2Proof

section
variable (u c n i : Nat) (g : GbEnt) (p : GbEnt → Bool) (s : State)

/-! ## What a drain leaves alone -/

/-- The state without what a drain touches: the gather buffers and the order, the counters, the outputs, and the pending bits of the overflow
message. -/
def besideDraining (s : State) : State := { s with
  pmc := {}, out := [], hst := { s.hst with msixPend := [] }, dir := { s.dir with txns := [], nextId := 0 }, ord := { s.ord with gbs := [] } }

theorem besideDraining_sendMsix (v : Nat) : besideDraining (sendMsix v s) = besideDraining s :=
  ite_keeps besideDraining rfl (ite_keeps besideDraining rfl rfl)

theorem besideDraining_count : besideDraining (count u c n s) = besideDraining s :=
  count_keeps (fun v s => besideDraining_sendMsix s v) (fun _ _ => rfl) u c n s

theorem besideDraining_order (r : Req) : besideDraining (order r s) = besideDraining s := (besideDraining_count _ _ _ _).trans rfl

theorem besideDraining_passEntry : besideDraining (passEntry g s) = besideDraining s := by
  unfold passEntry
  extract_lets id r
  exact ite_keeps besideDraining rfl ((besideDraining_order _ r).trans rfl)

theorem besideDraining_drainEntry : besideDraining (drainEntry i s) = besideDraining s := by
  unfold drainEntry
  split
  · rfl
  · exact ite_keeps besideDraining (each_keeps _ _ besideDraining besideDraining_passEntry s) (besideDraining_passEntry _ s)

theorem besideDraining_drainWhere : besideDraining (drainWhere p s) = besideDraining s :=
  each_keeps _ _ besideDraining besideDraining_drainEntry s

@[simp] theorem drainEntry_cch : (drainEntry i s).cch = s.cch := congrArg (·.cch) (besideDraining_drainEntry i s)
@[simp] theorem drainEntry_med : (drainEntry i s).med = s.med := congrArg (·.med) (besideDraining_drainEntry i s)
@[simp] theorem drainWhere_cch : (drainWhere p s).cch = s.cch := congrArg (·.cch) (besideDraining_drainWhere p s)
@[simp] theorem drainWhere_med : (drainWhere p s).med = s.med := congrArg (·.med) (besideDraining_drainWhere p s)
@[simp] theorem drainWhere_fences : (drainWhere p s).ord.fences = s.ord.fences := congrArg (·.ord.fences) (besideDraining_drainWhere p s)

end

/-! ## The entries that a drain marks -/

/-- An entry after those with the numbers in `l` have passed the ordering point. -/
def passed (l : List Nat) (g : GbEnt) : GbEnt := if g.id ∈ l then { g with drained := true } else g

/-- From `s` to `t` the entries with the numbers in `l` have passed the ordering point, and the gather buffers are as they were otherwise. -/
def Drains (l : List Nat) (s t : State) : Prop := t.ord.gbs = s.ord.gbs.map (passed l)

section
variable {l k : List Nat} {g : GbEnt} {s t u : State} {i : Nat}

@[simp] theorem passed_id : (passed l g).id = g.id := (apply_ite GbEnt.id _ _ _).trans (ite_self _)
@[simp] theorem passed_buf : (passed l g).buf = g.buf := (apply_ite GbEnt.buf _ _ _).trans (ite_self _)
@[simp] theorem passed_rsv : (passed l g).rsv = g.rsv := (apply_ite GbEnt.rsv _ _ _).trans (ite_self _)

@[simp] theorem passed_nil : passed [] = id := funext fun _ => if_neg List.not_mem_nil

theorem passed_of_mem (h : g.id ∈ l) : passed l g = { g with drained := true } := if_pos h

theorem passed_of_not_mem (h : g.id ∉ l) : passed l g = g := if_neg h

theorem passed_of_drained (h : g.drained = true) : passed l g = g := by
  have hself : { g with drained := true } = g := by rw [← h]
  rw [passed, hself, ite_self]

/-- Only the mark of an entry changes. -/
theorem drained_passed (l : List Nat) (g : GbEnt) : { passed l g with drained := true } = { g with drained := true } := by
  unfold passed
  split <;> rfl

theorem passed_append (l k : List Nat) (g : GbEnt) : passed k (passed l g) = passed (l ++ k) g := by
  by_cases hl : g.id ∈ l
  · rw [passed_of_mem hl, passed_of_drained rfl, passed_of_mem (List.mem_append_left k hl)]
  · rw [passed_of_not_mem hl]
    simp [passed, hl]

theorem Drains.refl (s : State) : Drains [] s s := by simp [Drains]

theorem Drains.trans (h : Drains l s t) (h' : Drains k t u) : Drains (l ++ k) s u := by
  simp only [Drains] at h h' ⊢
  simp only [h', h, List.map_map, Function.comp_def, passed_append]

theorem Drains.length_eq (h : Drains l s t) : t.ord.gbs.length = s.ord.gbs.length := by rw [h, List.length_map]

theorem Drains.find?_eq (h : Drains l s t) (i : Nat) :
    (t.ord.gbs.find? fun x => x.id == i) = (s.ord.gbs.find? fun x => x.id == i).map (passed l) := by
  rw [h, List.find?_map]
  simp only [Function.comp_def, passed_id]

theorem drains_passEntry (h : g.drained = false) (s : State) : Drains [g.id] s (passEntry g s) := by
  simp [Drains, passEntry, h, order, takeId, onGb, passed]

/-- Entries that pass the ordering point one after another are marked together. -/
theorem drains_each_passEntry (l : List GbEnt) (h : ∀ g ∈ l, g.drained = false) (s : State) :
    Drains (l.map (·.id)) s (each l passEntry s) := by
  induction l generalizing s with
  | nil => exact .refl s
  | cons g l ih =>
    exact (drains_passEntry (h g List.mem_cons_self) s).trans (ih (fun x hx => h x (List.mem_cons_of_mem g hx)) _)

theorem each_cons {α : Type} (x : α) (l : List α) (f : α → State → State) (s : State) : each (x :: l) f s = each l f (f x s) := rfl

/-- The drain of an entry marks it, if it was not. -/
theorem drains_drainEntry_of_find (h : (s.ord.gbs.find? fun x => x.id == i) = some g) :
    ∃ l, Drains l s (drainEntry i s) ∧ (g.drained = false → i ∈ l) := by
  have hid : g.id = i := by simpa using List.find?_some h
  simp only [drainEntry, h]
  split
  · next hpcie =>
    refine ⟨_, drains_each_passEntry _ (fun x hx => ?_) s, fun hopen => ?_⟩
    · simp only [List.mem_filter, Bool.and_eq_true, Bool.not_eq_true'] at hx
      exact hx.2.1.2
    · exact List.mem_map.mpr ⟨g, List.mem_filter.mpr ⟨List.mem_of_find?_eq_some h, by simp [hpcie.1, hopen, hid]⟩, hid⟩
  · cases hopen : g.drained with
    | true => exact ⟨[], by simpa [passEntry, hopen] using Drains.refl s, by simp⟩
    | false => exact ⟨[g.id], drains_passEntry hopen s, by simp [hid]⟩

theorem drains_drainEntry (i : Nat) (s : State) : ∃ l, Drains l s (drainEntry i s) := by
  cases h : s.ord.gbs.find? fun x => x.id == i with
  | none => exact ⟨[], by simpa [drainEntry, h] using Drains.refl s⟩
  | some g => exact (drains_drainEntry_of_find h).imp fun _ hl => hl.1

theorem find?_drainEntry (h : (s.ord.gbs.find? fun x => x.id == i) = some g) :
    ((drainEntry i s).ord.gbs.find? fun x => x.id == i) = some { g with drained := true } := by
  have hid : g.id = i := by simpa using List.find?_some h
  obtain ⟨l, hl, hmem⟩ := drains_drainEntry_of_find h
  rw [hl.find?_eq, h, Option.map_some]
  cases hopen : g.drained with
  | true => rw [passed_of_drained hopen, ← hopen]
  | false => rw [passed_of_mem (hid ▸ hmem hopen)]

theorem drains_each_drainEntry (is : List Nat) (s : State) : ∃ l, Drains l s (each is drainEntry s) := by
  induction is generalizing s with
  | nil => exact ⟨[], .refl s⟩
  | cons i is ih =>
    obtain ⟨l, hl⟩ := drains_drainEntry i s
    obtain ⟨k, hk⟩ := ih (drainEntry i s)
    exact ⟨l ++ k, hl.trans hk⟩

/-- The drains of several entries mark each of them. -/
theorem find?_each_drainEntry {is : List Nat} (hi : i ∈ is) (h : (s.ord.gbs.find? fun x => x.id == i) = some g) :
    ((each is drainEntry s).ord.gbs.find? fun x => x.id == i) = some { g with drained := true } := by
  induction is generalizing s g with
  | nil => cases hi
  | cons j is ih =>
    rw [each_cons]
    rcases List.mem_cons.mp hi with rfl | hi
    · obtain ⟨l, hl⟩ := drains_each_drainEntry is (drainEntry i s)
      rw [hl.find?_eq, find?_drainEntry h, Option.map_some, passed_of_drained rfl]
    · obtain ⟨l, hl⟩ := drains_drainEntry j s
      rw [ih hi (g := passed l g) (by rw [hl.find?_eq, h, Option.map_some]), drained_passed]

/-- After a drain every unreserved entry that it picks has passed the ordering point. -/
theorem drained_of_find?_drainWhere {p : GbEnt → Bool} (hp : ∀ l x, p (passed l x) = p x)
    (h : ((drainWhere p s).ord.gbs.find? fun x => x.id == i) = some g) (hrsv : g.rsv = 0) (hpick : p g = true) : g.drained = true := by
  obtain ⟨l, hl⟩ : ∃ l, Drains l s (drainWhere p s) := drains_each_drainEntry _ s
  obtain ⟨x, hx, rfl⟩ := Option.map_eq_some_iff.mp ((hl.find?_eq i).symm.trans h)
  have hid : x.id = i := by simpa using List.find?_some hx
  rw [passed_rsv] at hrsv
  rw [hp] at hpick
  cases hopen : x.drained with
  | true => rw [passed_of_drained hopen, hopen]
  | false =>
    have hpicked : x ∈ s.ord.gbs.filter fun g => g.rsv == 0 && !g.drained && p g :=
      List.mem_filter.mpr ⟨List.mem_of_find?_eq_some hx, by simp [hrsv, hopen, hpick]⟩
    have hdrained := find?_each_drainEntry (hid ▸ List.mem_map_of_mem (f := GbEnt.id) hpicked) hx
    rw [Option.some.inj (h.symm.trans hdrained)]

end

end Sys2Proof.Machine
end

section
/-!
PROOF. The notices and the times of ordering (R210, R224, R227, R229; O20).
-/

namespace Sys2Proof.Machine
open Sys2Proof

section
variable {s : State}

theorem execReadNotice_some {m : Msg} {f : Fwd} (h : s.dir.fwds.find? (noticeFor m) = some f) : execReadNotice m s =
    settled s { s with dir := { s.dir with fwds := s.dir.fwds.map fun x => if x.req = f.req then { x with noticed := true } else x } } := by
  simp only [execReadNotice, h]
  rfl

theorem execReadNotice_none {m : Msg} (h : s.dir.fwds.find? (noticeFor m) = none) : execReadNotice m s = done s s := by
  simp only [execReadNotice, h]

theorem engages_gatherMaxAge {g : GbEnt} (hg : g ∈ s.ord.gbs) (hrsv : g.rsv = 0) : Engages (.gatherMaxAge g.id) s (drainEntry g.id s) :=
  engages_of_settled (if_pos (List.any_eq_true.mpr ⟨g, hg, by simp [hrsv]⟩))

theorem takes_gatherMaxAge_gone {i : Nat} (h : ∀ g, g ∈ s.ord.gbs → g.id ≠ i) : Takes (.gatherMaxAge i) s s :=
  takes_of_done (if_neg (by
    simp only [List.any_eq_true, Bool.and_eq_true, beq_iff_eq, not_exists, not_and]
    exact fun g hg hid _ => h g hg hid))

end

/-- Settles O20: each command answers by one branch of its meaning, and a drain marks the entries that it picks. -/
theorem orderingHasItsTimes : Obligations.OrderingHasItsTimes := by
  unfold Obligations.OrderingHasItsTimes
  refine ⟨fun s m f h => engages_of_settled (execReadNotice_some h), fun s m h => takes_of_done (execReadNotice_none h),
    fun s g hg hrsv => engages_gatherMaxAge hg hrsv, fun s g h hrsv => ?_, fun s i h => takes_gatherMaxAge_gone h,
    fun s hup hserved => ?_, fun s h => ?_, fun s h => ?_, fun s h => ?_⟩
  · obtain ⟨l, hl⟩ := drains_drainEntry g.id s
    exact ⟨_, engages_gatherMaxAge (List.mem_of_find?_eq_some h) hrsv, find?_drainEntry h, hl.length_eq, drainEntry_cch _ s, drainEntry_med _ s⟩
  · refine ⟨_, rfl, engages_of_settled (if_pos (by simp [hup, hserved])), ?_, ?_, ?_, fun g hg hbuf hrsv => ?_⟩
    · rw [drainWhere_fences, tlpIn_ord]
    · rw [drainWhere_cch, tlpIn_cch]
    · rw [drainWhere_med, tlpIn_med]
    · exact drained_of_find?_drainWhere (fun l x => by rw [passed_buf]) hg hrsv (by simp [hbuf])
  · refine takes_of_done (if_neg ?_)
    rcases h with h | h <;> simp [h]
  · exact ⟨_, rfl, takes_of_done (if_neg (by simpa using h)), rfl, congrArg (·.fences) (emit_ord _ _)⟩
  · exact takes_of_done (if_pos (by simp [h]))

end Sys2Proof.Machine
end

section
/-!
PROOF. The resets of the host interface (R235, R238, R323, R325, R456; O21): what its leaving operation and the return of its queues to their
reset values leave alone, and what a queue is after them.
-/

namespace Sys2Proof.Machine
open Sys2Proof

/-! ## The port leaves operation (R235, R238) -/

/-- The state without what the host port's leaving operation touches: the home and the ordering, the counters, the outputs, and the pending
bits of the overflow message. -/
def besideHostPort (s : State) : State := { s with pmc := {}, out := [], hst := { s.hst with msixPend := [] }, dir := {}, ord := {} }

section
variable (s : State)

/-- The sample of a request that has passed no stage ends in the counters' part alone. -/
theorem besideHostPort_endSample (id flags info : Nat) : besideHostPort (endSample id flags info [] s) = besideHostPort s := by
  unfold endSample
  split <;> rfl

@[simp] theorem besideHostPort_onDir (f : Dir → Dir) : besideHostPort (onDir f s) = besideHostPort s := rfl
@[simp] theorem besideHostPort_onOrd (f : Ord → Ord) : besideHostPort (onOrd f s) = besideHostPort s := rfl

@[simp] theorem besideHostPort_dropPort (src : Src) : besideHostPort (dropPort src s) = besideHostPort s := by
  rw [dropPort, besideHostPort_onDir]
  exact each_keeps _ _ besideHostPort (fun _ _ => besideHostPort_endSample _ _ _ _) s

@[simp] theorem besideHostPort_drainWhere (p : GbEnt → Bool) : besideHostPort (drainWhere p s) = besideHostPort s :=
  congrArg (fun t : State => { t with dir := {}, ord := {} }) (besideDraining_drainWhere p s)

theorem besideHostPort_cutHost : besideHostPort (cutHost s) = besideHostPort s := by simp [cutHost]

theorem cutHost_cch : (cutHost s).cch = s.cch := congrArg (·.cch) (besideHostPort_cutHost s)
theorem cutHost_scratch : (cutHost s).hst.scratch = s.hst.scratch := congrArg (·.hst.scratch) (besideHostPort_cutHost s)
theorem cutHost_linkUp : (cutHost s).hst.linkUp = s.hst.linkUp := congrArg (·.hst.linkUp) (besideHostPort_cutHost s)
theorem cutHost_queues : (cutHost s).hst.queues = s.hst.queues := congrArg (·.hst.queues) (besideHostPort_cutHost s)
theorem cutHost_hostRds : (cutHost s).dir.hostRds = [] := by rw [cutHost, onOrd_dir, onDir_dir]
theorem cutHost_fences : (cutHost s).ord.fences = [] := by rw [cutHost, onOrd_ord]

end

/-! ## What the return to the reset values leaves alone (R325, R340) -/

/-- The state without what a reset of the host interface makes of it once the port has left operation: the queues, the vectors and the host's
clock, and the commands that the module holds, which go by another number once their queue is reset (R340). -/
def besideQueues (s : State) : State := { s with
  cch := { s.cch with jobs := [] }, cph := {}, tck := {}, err := {}
  hst := { s.hst with
    queues := [], copies := [], snaps := [], stops := [], runs := [], attests := [], msix := [], msixPend := [], ptmTime := 0, ptmTick := 0
    turn := 0, d3 := false } }

section
variable (q : Nat) (s : State)

@[simp] theorem besideQueues_onQueue (f : HQueue → HQueue) : besideQueues (onQueue q f s) = besideQueues s := rfl

@[simp] theorem besideQueues_muteQueue : besideQueues (muteQueue q s) = besideQueues s := by simp [muteQueue, besideQueues]

@[simp] theorem besideQueues_onCopy (f : CopyCh → CopyCh) : besideQueues (onCopy q f s) = besideQueues s := rfl

@[simp] theorem besideQueues_dropCopies : besideQueues (dropCopies q s) = besideQueues s := by
  rw [dropCopies]
  generalize upto 16 = l
  exact each_keeps l _ besideQueues (fun j t => besideQueues_onCopy j t _) s

theorem besideQueues_resetQueue : besideQueues (resetQueue q s) = besideQueues s := by simp [resetQueue]

/-- What `besideQueues` shows is as it was where `besideQueues` is. -/
theorem of_besideQueues {β : Type} {g : State → β} (hg : ∀ s, g (besideQueues s) = g s) {s t : State} (h : besideQueues t = besideQueues s) :
    g t = g s := by rw [← hg, h, hg]

/-- The registers of the interface after a reset, beside those of its queues: the vectors are masked, and the function is in D0. -/
def interfaceReset (h : Hst) : Hst := { h with msix := [], msixPend := [], ptmTime := 0, ptmTick := 0, turn := 0, d3 := false }

theorem resetHost_eq : resetHost s = onHst interfaceReset (each (upto 64) resetQueue (cutHost s)) := rfl

theorem besideQueues_interfaceReset : besideQueues (onHst interfaceReset s) = besideQueues s := rfl

theorem besideQueues_resetHost : besideQueues (resetHost s) = besideQueues (cutHost s) := by
  rw [resetHost_eq, besideQueues_interfaceReset]
  exact each_keeps _ _ besideQueues besideQueues_resetQueue _

end

/-! ## What a queue is after its reset (R325) -/

section
variable (q : Nat) (s : State)

/-- A queue at its reset values: the commands that had started go on without entries. -/
def queueReset (q : Nat) (h : HQueue) : HQueue := { mute := h.mute ++ h.started.map (muteCmd q), winRun := h.winRun.map (muteCmd q) }

theorem dropCopies_queues : (dropCopies q s).hst.queues = s.hst.queues := by
  rw [dropCopies]
  generalize upto 16 = l
  exact each_keeps l _ (·.hst.queues) (fun _ _ => by simp) s

theorem queue_dropCopies (k : Nat) : queue (dropCopies q s) k = queue s k := by rw [queue, dropCopies_queues, queue]

theorem muteQueue_queues : (muteQueue q s).hst.queues = tmod {} s.hst.queues q fun h =>
    { h with mute := h.mute ++ h.started.map (muteCmd q), started := [], winRun := h.winRun.map (muteCmd q) } := rfl

end

section
variable {q k : Nat} {s : State}

theorem mem_upto {n : Nat} : q ∈ upto n ↔ q < n := List.mem_range
theorem nodup_upto (n : Nat) : (upto n).Nodup := List.nodup_range

theorem wf_queues_muteQueue (hwf : Table.wf {} s.hst.queues = true) : Table.wf {} (muteQueue q s).hst.queues = true := by
  rw [muteQueue_queues]
  exact wf_tmod _ _ hwf

theorem wf_queues_resetQueue (hwf : Table.wf {} s.hst.queues = true) : Table.wf {} (resetQueue q s).hst.queues = true := by
  have hdrop : Table.wf {} (dropCopies q s).hst.queues = true := by rwa [dropCopies_queues]
  simp only [resetQueue, onQueue_hst]
  exact wf_tmod _ _ (wf_queues_muteQueue (q := q) hdrop)

theorem queue_resetQueue_same (hwf : Table.wf {} s.hst.queues = true) : queue (resetQueue q s) q = queueReset q (queue s q) := by
  have hdrop : Table.wf {} (dropCopies q s).hst.queues = true := by rwa [dropCopies_queues]
  have hmute : queue (muteQueue q (dropCopies q s)) q = { queue s q with
      mute := (queue s q).mute ++ (queue s q).started.map (muteCmd q), started := [], winRun := (queue s q).winRun.map (muteCmd q) } := by
    rw [queue, muteQueue_queues, tget_tmod_same _ _ _ _ hdrop, ← queue, queue_dropCopies]
  rw [resetQueue, queue_onQueue_same (wf_queues_muteQueue hdrop), hmute, queueReset]

theorem queue_resetQueue_other (h : q ≠ k) : queue (resetQueue k s) q = queue s q := by
  rw [queue, resetQueue, onQueue_hst, tget_tmod_other _ _ _ h, muteQueue_queues, tget_tmod_other _ _ _ h, dropCopies_queues, queue]

theorem queue_resetQueues_other {l : List Nat} (h : q ∉ l) : queue (each l resetQueue s) q = queue s q := by
  induction l generalizing s with
  | nil => rfl
  | cons k l ih =>
    obtain ⟨hk, hl⟩ := not_or.mp (mt List.mem_cons.mpr h)
    rw [each_cons, ih hl, queue_resetQueue_other hk]

/-- Of several queues each is reset once. -/
theorem queue_resetQueues {l : List Nat} (hl : l.Nodup) (hq : q ∈ l) (hwf : Table.wf {} s.hst.queues = true) :
    queue (each l resetQueue s) q = queueReset q (queue s q) := by
  induction l generalizing s with
  | nil => cases hq
  | cons k l ih =>
    obtain ⟨hk, hl⟩ := List.nodup_cons.mp hl
    rw [each_cons]
    by_cases hqk : q = k
    · subst hqk
      rw [queue_resetQueues_other hk, queue_resetQueue_same hwf]
    · rw [ih hl ((List.mem_cons.mp hq).resolve_left hqk) (wf_queues_resetQueue hwf), queue_resetQueue_other hqk]

theorem queue_interfaceReset : queue (onHst interfaceReset s) q = queue s q := rfl

/-- After a reset of the host interface each of its 64 queues has its reset values. -/
theorem queue_resetHost (hwf : Table.wf {} s.hst.queues = true) (hq : q < 64) : queue (resetHost s) q = queueReset q (queue s q) := by
  have hqueues : Table.wf {} (cutHost s).hst.queues = true := by rwa [cutHost_queues]
  have hcut : queue (cutHost s) q = queue s q := by rw [queue, cutHost_queues, queue]
  rw [resetHost_eq, queue_interfaceReset, queue_resetQueues (nodup_upto 64) (mem_upto.mpr hq) hqueues, hcut]

end

/-! ## A reset of the host interface (R238, R325) -/

section
variable (s : State)

theorem resetHost_hostRds : (resetHost s).dir.hostRds = [] :=
  (of_besideQueues (g := (·.dir.hostRds)) (fun _ => rfl) (besideQueues_resetHost s)).trans (cutHost_hostRds s)

theorem resetHost_fences : (resetHost s).ord.fences = [] :=
  (of_besideQueues (g := (·.ord.fences)) (fun _ => rfl) (besideQueues_resetHost s)).trans (cutHost_fences s)

theorem resetHost_scratch : (resetHost s).hst.scratch = s.hst.scratch :=
  (of_besideQueues (g := (·.hst.scratch)) (fun _ => rfl) (besideQueues_resetHost s)).trans (cutHost_scratch s)

theorem resetHost_linkUp : (resetHost s).hst.linkUp = s.hst.linkUp :=
  (of_besideQueues (g := (·.hst.linkUp)) (fun _ => rfl) (besideQueues_resetHost s)).trans (cutHost_linkUp s)

/-- The cache is as it was, but for the numbers of the commands at work in it. -/
theorem resetHost_cch : { (resetHost s).cch with jobs := s.cch.jobs } = s.cch := by
  have hcch := of_besideQueues (g := fun t => { t.cch with jobs := s.cch.jobs }) (fun _ => rfl) (besideQueues_resetHost s)
  rwa [cutHost_cch] at hcch

theorem resetHost_msix : (resetHost s).hst.msix = [] := by rw [resetHost_eq, onHst_hst, interfaceReset]
theorem resetHost_msixPend : (resetHost s).hst.msixPend = [] := by rw [resetHost_eq, onHst_hst, interfaceReset]
theorem resetHost_d3 : (resetHost s).hst.d3 = false := by rw [resetHost_eq, onHst_hst, interfaceReset]

end

/-! ## The ways in which the interface is cut off -/

section
variable {s : State}

theorem execPerstN_of_ready (h : s.hst.cfgReady = true) :
    execPerstN s = settled s (onHst (fun h => { h with linkUp := s.clk.pcieRef, mps := 0, mrrs := 2 }) (resetHost s)) := if_pos h

theorem execFunctionLevelReset_of_up (hcfg : s.hst.cfgReady = true) (hlink : s.hst.linkUp = true) :
    execFunctionLevelReset s = settled s (resetHost s) := by simp [execFunctionLevelReset, hcfg, hlink]

theorem execFunctionLevelReset_of_down (h : s.hst.linkUp = false) : execFunctionLevelReset s = done s s := by
  simp [execFunctionLevelReset, h]

theorem execPcieLinkDown_of_up (h : s.hst.linkUp = true) :
    execPcieLinkDown s = settled s (onHst (fun h => { h with linkUp := false }) (cutHost s)) := if_pos h

theorem execPcieLinkDown_of_down (h : s.hst.linkUp = false) : execPcieLinkDown s = done s s := by simp [execPcieLinkDown, h]

theorem onClk_onHst (f : Clk → Clk) (g : Hst → Hst) (s : State) : onClk f (onHst g s) = { s with hst := g s.hst, clk := f s.clk } := rfl

theorem execPclkLoss_of_ref (h : s.clk.pcieRef = true) : execPclkLoss s =
    settled s { resetHost s with
      hst := { (resetHost s).hst with linkUp := false }, clk := { (resetHost s).clk with pcieRef := false } } := by
  rw [execPclkLoss, if_pos h, onClk_onHst]

theorem execPcieRefReturn_of_lost (hcfg : s.hst.cfgReady = true) (href : s.clk.pcieRef = false) : execPcieRefReturn s =
    settled s (onClk (fun c => { c with pcieRef := true }) (onHst (fun h => { h with linkUp := true }) s)) := by
  simp [execPcieRefReturn, hcfg, href]

theorem execD3hotTransition_of_up (d3 : Bool) (hcfg : s.hst.cfgReady = true) (hlink : s.hst.linkUp = true) :
    execD3hotTransition d3 s = done s (onHst (fun h => { h with d3 }) s) := by simp [execD3hotTransition, hcfg, hlink]

theorem execD3hotTransition_of_down (d3 : Bool) (h : s.hst.linkUp = false) : execD3hotTransition d3 s = done s s := by
  simp [execD3hotTransition, h]

end

/-- Settles O21: the ways in which the interface is cut off make of it what `cutHost` or `resetHost` does, and the two leave the rest alone. -/
theorem theHostInterfaceIsReset : Obligations.TheHostInterfaceIsReset := by
  unfold Obligations.TheHostInterfaceIsReset
  intro cut fresh
  have hfresh (s : State) : fresh s (resetHost s) :=
    ⟨⟨resetHost_hostRds s, resetHost_fences s⟩, resetHost_msix s, resetHost_msixPend s, resetHost_d3 s, resetHost_scratch s, resetHost_cch s⟩
  refine ⟨fun s hcfg => ⟨_, rfl, engages_of_settled (execPerstN_of_ready hcfg), hfresh s⟩,
    fun s hcfg hlink => ⟨_, rfl, engages_of_settled (execFunctionLevelReset_of_up hcfg hlink), hfresh s, (resetHost_linkUp s).trans hlink⟩,
    fun s hlink => ⟨_, rfl, engages_of_settled (execPcieLinkDown_of_up hlink), ⟨cutHost_hostRds s, cutHost_fences s⟩, cutHost_cch s,
      cutHost_scratch s⟩,
    fun s href => ⟨_, rfl, engages_of_settled (execPclkLoss_of_ref href), hfresh s⟩,
    fun s hcfg href => engages_of_settled (execPcieRefReturn_of_lost hcfg href),
    fun s d3 hcfg hlink => takes_of_done (execD3hotTransition_of_up d3 hcfg hlink),
    fun s d3 hdown => ⟨takes_of_done (execFunctionLevelReset_of_down hdown), takes_of_done (execPcieLinkDown_of_down hdown),
      takes_of_done (execD3hotTransition_of_down d3 hdown)⟩,
    fun s q hwf hq => ?_, fun s => ⟨resetHost_msix s, resetHost_msixPend s, resetHost_hostRds s, resetHost_fences s, resetHost_scratch s,
      resetHost_cch s⟩⟩
  obtain ⟨-, -, hqueues, -⟩ := hwf
  rw [queue_resetHost hqueues hq]
  exact ⟨rfl, rfl, rfl, rfl, rfl⟩

end Sys2Proof.Machine
end

section
/-!
PROOF. The checks of BAR2 requests (R218, R328; O36): how a request joins the host's port, how the port refuses it whole, and what HST_ERR
holds of a refusal.
-/

namespace Sys2Proof.Machine
open Sys2Proof

/-! ## HST_ERR (R328, R359) -/

/-- The state without what the report of a refusal touches beside HST_ERR: the counters, the outputs, the links, the pending bits of the
overflow message, the recorder and the appends of the flash. -/
def besideReport (s : State) : State := { besideCompletions s with evr := {}, flash := {} }

/-- HST_ERR after a refusal: it keeps the first, and counts the others. -/
def refusalNoted (kind cause addr : Nat) (bar4 : Bool) (h : Hst) : Hst :=
  if h.errValid then { h with errCount := sat 16 h.errCount 1 }
  else { h with errValid := true, errCount := 0, errBar4 := bar4, errKind := kind, errCause := cause, errAddr := addr % 2 ^ 48 }

section
variable (kind cause addr : Nat) (bar4 : Bool) (s : State)

/-- The registers of the host interface can be read from what a report leaves, but for the queues and the pending bits. -/
theorem hst_of_besideReport {β : Type} {g : Hst → β} (hg : ∀ h q p, g { h with queues := q, msixPend := p } = g h) {s t : State}
    (h : besideReport t = besideReport s) : g t.hst = g s.hst := by
  have hst := congrArg (fun u : State => g u.hst) h
  simpa only [besideReport, besideCompletions, hg] using hst

theorem besideReport_emit (o : Out) : besideReport (emit o s) = besideReport s := by rw [besideReport, besideCompletions_emit, besideReport]

theorem besideReport_count (u c n : Nat) : besideReport (count u c n s) = besideReport s := by
  rw [besideReport, besideCompletions_count, besideReport]

theorem besideReport_event (code src operand : Nat) : besideReport (event code src operand s) = besideReport s := by
  have hevent := congrArg besideReport (besideRecording_event code src operand s)
  exact hevent

/-- A refusal shows in HST_ERR, and in what reports it. -/
theorem besideReport_hostErr : besideReport (hostErr kind cause addr bar4 s) = besideReport (onHst (refusalNoted kind cause addr bar4) s) := by
  unfold hostErr
  extract_lets s₁ s₂
  have haer : besideReport s₂ = besideReport s₁ := by
    simp only [s₂]
    split
    all_goals simp only [besideReport_emit]
  rw [besideReport_count, besideReport_event, haer]
  rfl

end

section
variable {kind cause addr : Nat} {bar4 : Bool} {s : State}

theorem refusalNoted_first {h : Hst} (hv : h.errValid = false) : refusalNoted kind cause addr bar4 h =
    { h with errValid := true, errCount := 0, errBar4 := bar4, errKind := kind, errCause := cause, errAddr := addr % 2 ^ 48 } :=
  if_neg (by simp [hv])

theorem refusalNoted_later {h : Hst} (hv : h.errValid = true) :
    refusalNoted kind cause addr bar4 h = { h with errCount := sat 16 h.errCount 1 } := if_pos hv

/-- The first refusal stands in HST_ERR. -/
theorem hostErr_first (h : s.hst.errValid = false) : besideReport (hostErr kind cause addr bar4 s) = besideReport { s with hst := { s.hst with
    errValid := true, errCount := 0, errBar4 := bar4, errKind := kind, errCause := cause, errAddr := addr % 2 ^ 48 } } := by
  rw [besideReport_hostErr, onHst, refusalNoted_first h]

/-- A later refusal is counted. -/
theorem hostErr_later (h : s.hst.errValid = true) : besideReport (hostErr kind cause addr bar4 s) =
    besideReport { s with hst := { s.hst with errCount := sat 16 s.hst.errCount 1 } } := by
  rw [besideReport_hostErr, onHst, refusalNoted_later h]

end

/-! ## The arrival at the host's port (R218) -/

theorem joins_hostRequest (c : Instr) (s : State) : Joins .host c s (hostRequest c s) := by
  obtain ⟨p, v, harrive⟩ := arrive_eq .host c (tlpIn s)
  rw [hostRequest, harrive]
  simp [Joins]

/-- A request that the host's port takes in stands last there. -/
theorem hostRequest_joins {c : Instr} {s : State} (hexec : exec c s = settled s (hostRequest c s)) :
    ∃ t, t = arrive .host c (tlpIn s) ∧ Engages c s t ∧ Joins .host c s t :=
  ⟨_, rfl, engages_of_settled hexec, joins_hostRequest c s⟩

/-! ## The refusal of a whole request (R328) -/

section
variable {s : State} {h : Held} {addr len tag c size : Nat} {data : List Byte} {relaxed poisoned : Bool} {op : AtomicOp} {x y : BitVec 128}

theorem admitHost_read_refused (hcmd : h.cmd = .bar2Read addr len tag) (hnew : ∀ r, r ∈ s.dir.hostRds → r.id ≠ h.id)
    (hcause : hostCause s addr len true false = some c) : admitHost h s =
      (true, emit (.cpl tag (cplOfCause c) false []) (hostErr 0 c (refusedAt s addr len true false c) false (hostDenied c (dropHeld h.id s)))) := by
  have hbegun : (s.dir.hostRds.any fun r => r.id == h.id) = false := by simpa using hnew
  simp [admitHost, hcmd, hbegun, hcause]

theorem admitHost_write_refused (hcmd : h.cmd = .bar2Write addr data relaxed poisoned) (hchecked : h.checked = false)
    (hcause : hostCause s addr data.length false true = some c) : admitHost h s =
      (true, hostErr 1 c (refusedAt s addr data.length false true c) false (hostDenied c (dropHeld h.id s))) := by
  simp [admitHost, hcmd, hchecked, hcause]

/-- Poison (cause 8) is no want of right and no exhaustion. -/
theorem hostDenied_poison (s : State) : hostDenied 8 s = s := by simp [hostDenied]

/-- A refused AtomicOp: one with poison that meets no other condition is refused for its poison. -/
theorem admitHost_atomic_refused (hcmd : h.cmd = .bar2Atomic addr op size x y poisoned tag)
    (hcause : (hostCause s addr (4 * 2 ^ size) true true).or (if poisoned then some 8 else none) = some c) : admitHost h s =
      (true, emit (.cpl tag (cplOfCause c) false [])
        (hostErr 2 c (refusedAt s addr (4 * 2 ^ size) true true c) false (hostDenied c (dropHeld h.id s)))) := by
  simp only [admitHost, hcmd, hcause]

end

/-- Settles O36: a request joins the port by one lemma for the three, and each is refused by the lemma on its form. -/
theorem bar2RequestsAreCheckedWhole : Obligations.Bar2RequestsAreCheckedWhole := by
  unfold Obligations.Bar2RequestsAreCheckedWhole
  refine ⟨fun s addr len tag hup => hostRequest_joins (if_pos hup), fun s addr op size x y poisoned tag hup => hostRequest_joins (if_pos hup),
    fun s addr data relaxed poisoned hup => ⟨fun hdata => hostRequest_joins ?_, fun hdata => takes_of_done ?_⟩, fun s hdown => ⟨?_, ?_, ?_⟩,
    fun s h addr len tag c => admitHost_read_refused, fun s h addr data relaxed poisoned c => admitHost_write_refused,
    fun s h addr op size x y tag => ⟨fun hcmd hnone => ?_, fun poisoned c hcmd hcause => ?_⟩,
    fun s kind cause addr bar4 hvalid => ?_, fun s kind cause addr bar4 hvalid => ?_⟩
  · exact (if_neg (by simp [hup])).trans (if_neg (by simpa using hdata))
  · exact (if_neg (by simp [hup])).trans (if_pos (by simp [hdata]))
  · exact fun addr len tag => takes_of_done (if_neg (by simp [hdown]))
  · exact fun addr data relaxed poisoned => takes_of_done (if_pos (by simp [hdown]))
  · exact fun addr op size x y poisoned tag => takes_of_done (if_neg (by simp [hdown]))
  · rw [admitHost_atomic_refused (c := 8) hcmd (by rw [hnone]; rfl), hostDenied_poison]
    rfl
  · exact admitHost_atomic_refused hcmd (by rw [hcause]; rfl)
  · have hst {β : Type} (g : Hst → β) (hg : ∀ h q p, g { h with queues := q, msixPend := p } = g h) :=
      hst_of_besideReport hg (hostErr_first (kind := kind) (cause := cause) (addr := addr) (bar4 := bar4) hvalid)
    exact ⟨hst (·.errValid) fun _ _ _ => rfl, hst (·.errKind) fun _ _ _ => rfl, hst (·.errCause) fun _ _ _ => rfl,
      hst (·.errAddr) fun _ _ _ => rfl, hst (·.errBar4) fun _ _ _ => rfl, hst (·.errCount) fun _ _ _ => rfl⟩
  · have hst {β : Type} (g : Hst → β) (hg : ∀ h q p, g { h with queues := q, msixPend := p } = g h) :=
      hst_of_besideReport hg (hostErr_later (kind := kind) (cause := cause) (addr := addr) (bar4 := bar4) hvalid)
    exact ⟨hst (·.errKind) fun _ _ _ => rfl, hst (·.errCause) fun _ _ _ => rfl, hst (·.errAddr) fun _ _ _ => rfl,
      hst (·.errCount) fun _ _ _ => rfl⟩

end Sys2Proof.Machine
end

section
/-!
SUPPORT. The stream ports (R242 to R276): what a port is after an update of it, and what counting, recording, an arriving request, the pin
of R253 and the capture commit leave of it.
-/

namespace Sys2Proof.Machine
open Sys2Proof

section
variable {s t : State} {p : Nat} {f : StmPort → StmPort}

/-! ## One port after an update (R242) -/

/-- A port that is not as at reset is what the update made of it. -/
theorem port_onPort_of_ne (h : f (port s p) ≠ {}) : port (onPort p f s) p = f (port s p) := tget_tset_of_ne _ _ _ h

/-- In the canonical form of the table any port is. -/
theorem port_onPort_same (hwf : Table.wf {} s.stm.ports = true) : port (onPort p f s) p = f (port s p) := tget_tmod_same _ _ _ _ hwf

/-- What the update leaves of a port, where it is not as at reset. -/
theorem port_onPort_keeps {β : Type} {g : StmPort → β} (hf : ∀ x, g (f x) = g x) (h : g (port s p) ≠ g {}) :
    g (port (onPort p f s) p) = g (port s p) :=
  (congrArg g (port_onPort_of_ne (ne_of_apply_ne g ((hf _).trans_ne h)))).trans (hf _)

theorem wf_onPort (hwf : Table.wf {} s.stm.ports = true) : Table.wf {} (onPort p f s).stm.ports = true := wf_tmod _ _ hwf

theorem port_congr (h : t.stm = s.stm) (p : Nat) : port t p = port s p := by rw [port, h, port]

/-- A counter that has counted is not as at reset. -/
theorem sat_succ_ne_zero (a : Nat) : sat 64 a 1 ≠ 0 := by simp [sat]

end

/-! ## What leaves the ports and the combining buffer alone -/

section
variable (u code n src operand : Nat) (s : State)

@[simp] theorem count_stm : (count u code n s).stm = s.stm := congrArg (·.stm) (besideCounting_count u code n s)
@[simp] theorem tlpIn_stm : (tlpIn s).stm = s.stm := congrArg (·.stm) (besideCounting_tlpIn s)
@[simp] theorem event_stm : (event code src operand s).stm = s.stm := congrArg (·.stm) (besideRecording_event code src operand s)

@[simp] theorem arrive_stm (from_ : Src) (c : Instr) : (arrive from_ c s).stm = s.stm := by
  obtain ⟨_, _, h⟩ := arrive_eq from_ c s
  rw [h]

end

/-! ## The pin of R253 and the capture commit (R258) -/

section
variable {s : State} {p : Nat}

/-- A port without the pin of R253, its least time and its occupancy. -/
def besideStop (x : StmPort) : StmPort := { x with stop := true, stopHold := false, full := false }

/-- The pin's update leaves the rest of a port alone. -/
theorem besideStop_updStop (h : besideStop (port s p) ≠ {}) : besideStop (port (updStop p s) p) = besideStop (port s p) := by
  unfold updStop
  extract_lets s₁
  have h₁ : besideStop (port s₁ p) = besideStop (port s p) := port_onPort_keeps (fun _ => rfl) h
  refine ite_keeps (fun t => besideStop (port t p)) h₁ ((port_onPort_keeps ?_ (h₁.trans_ne h)).trans h₁)
  exact fun _ => rfl

@[simp] theorem updStop_comb (p : Nat) (s : State) : (updStop p s).stm.comb = s.stm.comb := ite_keeps (·.stm.comb) rfl rfl

/-- A port without its commit number and whether that advances. -/
def besideCommit (x : StmPort) : StmPort := { x with commit := 0, capOpen := false }

/-- The commit number's update leaves the rest of a port alone. -/
theorem besideCommit_commitPort (h : besideCommit (port s p) ≠ {}) : besideCommit (port (commitPort p s) p) = besideCommit (port s p) := by
  unfold commitPort
  extract_lets x l v
  exact ite_keeps (fun t => besideCommit (port t p)) rfl (port_onPort_keeps (fun _ => rfl) h)

@[simp] theorem commitPort_comb (p : Nat) (s : State) : (commitPort p s).stm.comb = s.stm.comb := ite_keeps (·.stm.comb) rfl rfl

end

end Sys2Proof.Machine
end

section
/-!
PROOF. Records on the stream ports (R252, R256, R268, R270, R303, R304; O22): what a port makes of a received pair, how a record is accepted
or discarded, and in which of its states it does either.
-/

namespace Sys2Proof.Machine
open Sys2Proof

/-! ## The pair comes off the lanes (R303, R306) -/

section
variable {s : State} {p : Nat} {h0 h1 : BitVec 2} {wire : BitVec 128} {early : Bool}

/-- A port without what a received pair moves on: the descramblers, the headers, the run of aligned pairs and the sum for the next CHECK. -/
def besideWire (x : StmPort) : StmPort := { x with scrIn := (0, 0), headers := [], run := 0, inCrc := [] }

theorem besideWire_ne_of_up {x : StmPort} (hup : x.linkUp = true) : besideWire x ≠ besideWire {} :=
  ne_of_apply_ne (·.linkUp) (by simp [besideWire, hup])

theorem besideWire_receivePair (h0 h1 : BitVec 2) (wire : BitVec 128) (hup : (port s p).linkUp = true) :
    besideWire (port (receivePair p h0 h1 wire s).2 p) = besideWire (port s p) :=
  port_onPort_keeps (fun _ => rfl) (besideWire_ne_of_up hup)

theorem linkUp_receivePair (h0 h1 : BitVec 2) (wire : BitVec 128) (hup : (port s p).linkUp = true) :
    (port (receivePair p h0 h1 wire s).2 p).linkUp = true := (congrArg (·.linkUp) (besideWire_receivePair h0 h1 wire hup)).trans hup

theorem scrIn_receivePair (h0 h1 : BitVec 2) (wire : BitVec 128) (hup : (port s p).linkUp = true) :
    (port (receivePair p h0 h1 wire s).2 p).scrIn = (descrPair (port s p).scrIn wire).2 :=
  congrArg (·.scrIn) (port_onPort_of_ne (ne_of_apply_ne (·.linkUp) (by simp [hup])))

/-- The port has descrambled a record, which counts for the next CHECK (R303, R305). -/
def recordSeen (p : Nat) (wire : BitVec 128) (s : State) : State :=
  onPort p (fun x => { x with inCrc := x.inCrc ++ [(receivePair p 1 1 wire s).1] }) (receivePair p 1 1 wire s).2

theorem besideWire_recordSeen (wire : BitVec 128) (hup : (port s p).linkUp = true) :
    besideWire (port (recordSeen p wire s) p) = besideWire (port s p) := by
  refine (port_onPort_keeps ?_ (besideWire_ne_of_up (linkUp_receivePair 1 1 wire hup))).trans (besideWire_receivePair 1 1 wire hup)
  exact fun _ => rfl

/-! ## A record is accepted (R252) -/

theorem besideStop_acceptRecord (p : Nat) (r : BitVec 128) (s : State) : besideStop (port (acceptRecord p r s) p) = besideStop { port s p with
    fifo := (port s p).fifo ++ [(r, s.tck.count)], capOpen := true, cntAccept := sat 64 (port s p).cntAccept 1 } := by
  rw [acceptRecord, port_congr (count_stm _ _ _ _)]
  refine (besideStop_updStop ?_).trans (congrArg besideStop (port_onPort_of_ne ?_))
  · rw [port_onPort_of_ne (ne_of_apply_ne (·.fifo) (by simp))]
    exact ne_of_apply_ne (·.fifo) (by simp [besideStop])
  · exact ne_of_apply_ne (·.fifo) (by simp)

theorem fifo_acceptRecord (p : Nat) (r : BitVec 128) (s : State) :
    (port (acceptRecord p r s) p).fifo = (port s p).fifo ++ [(r, s.tck.count)] := congrArg (·.fifo) (besideStop_acceptRecord p r s)

theorem cntAccept_acceptRecord (p : Nat) (r : BitVec 128) (s : State) :
    (port (acceptRecord p r s) p).cntAccept = sat 64 (port s p).cntAccept 1 := congrArg (·.cntAccept) (besideStop_acceptRecord p r s)

theorem comb_acceptRecord (p : Nat) (r : BitVec 128) (s : State) : (acceptRecord p r s).stm.comb = s.stm.comb := by
  rw [acceptRecord, count_stm, updStop_comb, onPort_stm]

/-! ## A record is discarded (R272, R274) -/

/-- The error log of a port keeps the first error, and counts the others (R274). -/
def noteError (cause dir tag addr tick : Nat) (x : StmPort) : StmPort :=
  if x.errValid then { x with errCount := sat 16 x.errCount 1 }
  else { x with
    errValid := true, errCount := 0, errTag := tag, errCause := cause, errDir := dir, errTick := tick % 65536, errAddr := addr % 2 ^ 48 }

/-- A port without its error log. -/
def besideLog (x : StmPort) : StmPort := { x with
  errValid := false, errCount := 0, errTag := 0, errCause := 0, errDir := 0, errTick := 0, errAddr := 0 }

section
variable (cause dir tag addr tick : Nat) (x : StmPort)

theorem errValid_noteError : (noteError cause dir tag addr tick x).errValid = true := by
  unfold noteError
  split
  · assumption
  · rfl

theorem besideLog_noteError : besideLog (noteError cause dir tag addr tick x) = besideLog x := by
  unfold noteError
  split <;> rfl

theorem errCause_noteError (h : x.errValid = false) : (noteError cause dir tag addr tick x).errCause = cause := by simp [noteError, h]

theorem port_streamError (p : Nat) (s : State) :
    port (streamError p cause dir tag addr s) p = noteError cause dir tag addr s.tck.count (port s p) := by
  refine (port_congr (event_stm _ _ _ _) p).trans (port_onPort_of_ne (f := noteError cause dir tag addr s.tck.count) ?_)
  exact ne_of_apply_ne (·.errValid) (by simp [errValid_noteError])

end

theorem port_dropRecord (p cause : Nat) (r : BitVec 128) (s : State) : port (dropRecord p cause r s) p =
    noteError cause 0 (recTag r) (recAddr r) s.tck.count { port s p with cntDrop := sat 64 (port s p).cntDrop 1 } := by
  rw [dropRecord, port_congr (count_stm _ _ _ _), port_streamError,
    port_onPort_of_ne (ne_of_apply_ne (·.cntDrop) (sat_succ_ne_zero _)), onPort_tck]

/-- The records and the state of a port stand when one is discarded, and its log holds the first that is. -/
theorem dropRecord_counts_and_logs (p cause : Nat) (r : BitVec 128) (s : State) :
    (port (dropRecord p cause r s) p).fifo = (port s p).fifo ∧ (port (dropRecord p cause r s) p).inSt = (port s p).inSt ∧
    (port (dropRecord p cause r s) p).cntDrop = sat 64 (port s p).cntDrop 1 ∧
    ((port s p).errValid = false → (port (dropRecord p cause r s) p).errValid = true ∧ (port (dropRecord p cause r s) p).errCause = cause) := by
  rw [port_dropRecord]
  have hbeside := besideLog_noteError cause 0 (recTag r) (recAddr r) s.tck.count { port s p with cntDrop := sat 64 (port s p).cntDrop 1 }
  exact ⟨congrArg (·.fifo) hbeside, congrArg (·.inSt) hbeside, congrArg (·.cntDrop) hbeside,
    fun h => ⟨errValid_noteError _ _ _ _ _ _, errCause_noteError _ _ _ _ _ _ h⟩⟩

/-! ## The commands, case by case -/

/-- A record on lanes in operation. -/
theorem execStreamRecord_of_up (hrec : receives s p = true) (hup : (port s p).linkUp = true) : execStreamRecord p wire early s =
    if early && (port s p).flushed then done s (onPort p (fun x => { x with cntDrop := sat 64 x.cntDrop 1 }) (recordSeen p wire s))
    else if !recordTaken s p early then done s (dropRecord p 9 (receivePair p 1 1 wire s).1 (recordSeen p wire s))
    else if 16384 ≤ (port s p).fifo.length then done s (dropRecord p 8 (receivePair p 1 1 wire s).1 (recordSeen p wire s))
    else done s (acceptRecord p (receivePair p 1 1 wire s).1 (recordSeen p wire s)) :=
  (if_neg (by simp [hrec])).trans (if_neg (by simp [hup]))

theorem execStreamRecord_of_down (hrec : receives s p = true) (hup : (port s p).linkUp = false) :
    execStreamRecord p wire early s = done s (judgeLanes p (receivePair p 1 1 wire s).2) :=
  (if_neg (by simp [hrec])).trans (if_pos (by simp [hup]))

theorem execStreamRecord_of_off (hrec : receives s p = false) : execStreamRecord p wire early s = done s s := if_pos (by simp [hrec])

theorem takes_record_accepted (hrec : receives s p = true) (hup : (port s p).linkUp = true) (hflush : (early && (port s p).flushed) = false)
    (htaken : recordTaken s p early = true) (hroom : (port s p).fifo.length < 16384) :
    Takes (.streamRecord p wire early) s (acceptRecord p (receivePair p 1 1 wire s).1 (recordSeen p wire s)) :=
  takes_of_done ((execStreamRecord_of_up hrec hup).trans (by simp [hflush, htaken, Nat.not_le.mpr hroom]))

theorem execStreamFramingError_of_pair (hrec : receives s p = true) (hkind : ingressKind h0 h1 = none) :
    execStreamFramingError p h0 h1 wire s = done s (judgeLanes p
      (let t := (receivePair p h0 h1 wire s).2
       if (port s p).linkUp then onPort p (fun x => { x with cntBad := sat 64 x.cntBad 1 }) t else t)) := if_neg (by simp [hrec, hkind])

end

/-- Settles O22: each record meets one branch of its command, and the port is read off what acceptance and discard make of it. -/
theorem recordsAreAcceptedOrDiscarded : Obligations.RecordsAreAcceptedOrDiscarded := by
  unfold Obligations.RecordsAreAcceptedOrDiscarded
  refine ⟨fun s p wire early hrec hup => ⟨fun hflush => ⟨fun htaken hroom => ?_, fun htaken hfull => ?_, fun hstopped => ?_⟩,
      fun hflush => ?_⟩,
    fun s p wire early hrec hup hflush htaken hroom => ?_, fun s p hidle => by simp [recordTaken, hidle],
    fun s p h0 h1 wire => ⟨rfl, fun _ hup => scrIn_receivePair h0 h1 wire hup⟩,
    fun s p r => ⟨fifo_acceptRecord p r s, cntAccept_acceptRecord p r s⟩, fun s p cause r => dropRecord_counts_and_logs p cause r s,
    fun s p h0 h1 wire hrec hup hkind => ⟨_, rfl, ?_, ?_⟩, fun s p h0 h1 wire early hrec hdown => ⟨?_, fun hkind => ?_⟩,
    fun s p h0 h1 wire early => ⟨fun hoff => ⟨?_, ?_⟩, fun hkind => ?_⟩⟩
  · exact takes_record_accepted hrec hup hflush htaken hroom
  · exact takes_of_done ((execStreamRecord_of_up hrec hup).trans (by simp [hflush, htaken, hfull, recordSeen]))
  · exact takes_of_done ((execStreamRecord_of_up hrec hup).trans (by simp [hflush, hstopped, recordSeen]))
  · exact takes_of_done ((execStreamRecord_of_up hrec hup).trans (by simp [hflush, recordSeen]))
  · have hseen := besideWire_recordSeen wire hup
    refine ⟨_, takes_record_accepted hrec hup hflush htaken hroom, ?_, ?_, ?_⟩
    · rw [fifo_acceptRecord, show (port (recordSeen p wire s) p).fifo = _ from congrArg (·.fifo) hseen]
      rfl
    · rw [cntAccept_acceptRecord, show (port (recordSeen p wire s) p).cntAccept = _ from congrArg (·.cntAccept) hseen]
      rfl
    · exact comb_acceptRecord _ _ _
  · exact takes_of_done ((execStreamFramingError_of_pair hrec hkind).trans (by simp [hup]))
  · have hport := port_onPort_of_ne (s := (receivePair p h0 h1 wire s).2) (p := p) (f := fun x => { x with cntBad := sat 64 x.cntBad 1 })
      (ne_of_apply_ne (·.cntBad) (sat_succ_ne_zero _))
    have hpair := besideWire_receivePair h0 h1 wire hup
    rw [hport]
    exact ⟨congrArg (fun x => sat 64 x.cntBad 1) hpair, congrArg (·.fifo) hpair⟩
  · exact takes_of_done (execStreamRecord_of_down hrec hdown)
  · exact takes_of_done ((execStreamFramingError_of_pair hrec hkind).trans (by simp [hdown]))
  · exact takes_of_done (execStreamRecord_of_off hoff)
  · exact takes_of_done (if_pos (by simp [hoff]))
  · exact takes_of_done (if_pos (.inr (by simpa [Option.isSome_iff_ne_none] using hkind)))

end Sys2Proof.Machine
end

section
/-!
SUPPORT. What counting an event sends (R507, R508): nothing but messages of vectors, the overflow interrupt's.
-/

namespace Sys2Proof.Machine
open Sys2Proof

/-- From `s` to `t` nothing but messages of vectors has been sent. -/
def SendsMessages (s t : State) : Prop := ∃ l, t.out = l ++ s.out ∧ ∀ o ∈ l, ∃ v, o = .msix v

section
variable {s t u : State}

theorem SendsMessages.of_out (h : t.out = s.out) : SendsMessages s t := ⟨[], h, fun _ ho => absurd ho List.not_mem_nil⟩

theorem SendsMessages.trans (h : SendsMessages s t) (k : SendsMessages t u) : SendsMessages s u := by
  obtain ⟨l, hl, hmsix⟩ := h
  obtain ⟨l', hl', hmsix'⟩ := k
  exact ⟨l' ++ l, by rw [hl', hl, List.append_assoc], fun o ho => (List.mem_append.mp ho).elim (hmsix' o) (hmsix o)⟩

theorem sendsMessages_ite {c : Prop} [Decidable c] (ht : SendsMessages s t) (hu : SendsMessages s u) : SendsMessages s (if c then t else u) := by
  split
  · exact ht
  · exact hu

theorem sendsMessages_each {α : Type} (l : List α) (f : α → State → State) (hf : ∀ x s, SendsMessages s (f x s)) (s : State) :
    SendsMessages s (each l f s) := by
  induction l generalizing s with
  | nil => exact .of_out rfl
  | cons x l ih => exact (hf x s).trans (ih (f x s))

end

theorem sendsMessages_sendMsix (v : Nat) (s : State) : SendsMessages s (sendMsix v s) :=
  sendsMessages_ite (.of_out rfl) (sendsMessages_ite (.of_out rfl) ⟨[.msix v], rfl, fun _ ho => ⟨v, List.mem_singleton.mp ho⟩⟩)

theorem sendsMessages_pmcFlag (u i : Nat) (s : State) : SendsMessages s (pmcFlag u i s) :=
  sendsMessages_ite (.trans (.of_out rfl) (sendsMessages_sendMsix _ _)) (.of_out rfl)

theorem sendsMessages_pmcCarry (u i : Nat) (s : State) : SendsMessages s (pmcCarry u i s) := by
  unfold pmcCarry
  extract_lets p v s₁
  have h₁ : SendsMessages s s₁ := .of_out rfl
  exact sendsMessages_ite (sendsMessages_ite (h₁.trans (sendsMessages_pmcFlag _ _ _)) h₁) (sendsMessages_pmcFlag _ _ _)

theorem sendsMessages_pmcAdd (u code n i : Nat) (s : State) : SendsMessages s (pmcAdd u code n i s) := by
  unfold pmcAdd
  extract_lets p v s₁
  have h₁ : SendsMessages s s₁ := .of_out rfl
  exact sendsMessages_ite (sendsMessages_ite (h₁.trans (sendsMessages_pmcCarry _ _ _)) h₁) (.of_out rfl)

theorem sendsMessages_count (u code n : Nat) (s : State) : SendsMessages s (count u code n s) :=
  sendsMessages_ite (.of_out rfl) (sendsMessages_each _ _ (fun i s => sendsMessages_pmcAdd u code n i s) s)

end Sys2Proof.Machine
end

section
/-!
PROOF. Playback (R262, R263, R303 to R305; O25): one word position, the words of a course with their CHECK, and a read that takes its words'
places.
-/

namespace Sys2Proof.Machine
open Sys2Proof

/-! ## A block pair goes out (R303, R304) -/

section
variable {s : State} {p : Nat}

/-- A word as the lanes of port `p` send it: with the headers of its kind, and through the scramblers as they stand. -/
def egressPair (s : State) (p kind : Nat) (w : BitVec 128) : Out :=
  .egress p kind w (egressHeaders kind).1 (egressHeaders kind).2 (BitVec.ofNat 64 (scrPair (port s p).scrOut w).1.1)
    (BitVec.ofNat 64 (scrPair (port s p).scrOut w).1.2)

theorem sendPair_out (p kind : Nat) (w : BitVec 128) (s : State) : (sendPair p kind w s).out = egressPair s p kind w :: s.out := rfl

/-- A word that is counted goes out before what its count sends. -/
theorem out_count_sendPair (u code n p kind : Nat) (w : BitVec 128) (s : State) :
    ∃ l, (count u code n (sendPair p kind w s)).out = l ++ egressPair s p kind w :: s.out ∧ ∀ o ∈ l, ∃ v, o = .msix v := by
  rw [← sendPair_out]
  exact sendsMessages_count u code n (sendPair p kind w s)

theorem egressPair_congr {t : State} (h : (port t p).scrOut = (port s p).scrOut) (kind : Nat) (w : BitVec 128) :
    egressPair t p kind w = egressPair s p kind w := by rw [egressPair, h, egressPair]

/-! ## One word position (R263) -/

/-- The front word is counted, enters the sum for the next CHECK, and leaves the list. -/
def wordLeaves (p : Nat) (w : BitVec 128) (s : State) : State :=
  let s := onPort p (fun x => { x with cntWords := sat 64 x.cntWords 1, outCrc := x.outCrc ++ [w] }) s
  onPort p (fun x => { x with egFifo := x.egFifo.drop 1, play := advPos s p x.cur 1 x.play }) s

theorem wordPosition_data {w : BitVec 128} {l : List EgWord} (h : (port s p).egFifo = .data w :: l) :
    wordPosition p s = count (0x50 + p) 0x12 1 (sendPair p 0 w (wordLeaves p w s)) := by
  simp only [wordPosition, h]
  rfl

theorem port_wordLeaves (p : Nat) (w : BitVec 128) (s : State) : ∃ play, port (wordLeaves p w s) p = { port s p with
    cntWords := sat 64 (port s p).cntWords 1, outCrc := (port s p).outCrc ++ [w], egFifo := (port s p).egFifo.drop 1, play } := by
  unfold wordLeaves
  extract_lets s₁
  have h₁ : port s₁ p = _ := port_onPort_of_ne (ne_of_apply_ne (·.cntWords) (sat_succ_ne_zero _))
  refine ⟨_, (port_onPort_of_ne ?_).trans (by rw [h₁])⟩
  rw [h₁]
  exact ne_of_apply_ne (·.cntWords) (sat_succ_ne_zero _)

theorem wordPosition_empty (h : (port s p).egFifo = []) : wordPosition p s =
    count (0x50 + p) 0x13 1 (sendPair p 1 0 (onPort p (fun x => { x with cntNv := sat 64 x.cntNv 1 }) s)) := by
  simp only [wordPosition, h]

theorem wordPosition_tck (p : Nat) (s : State) : (wordPosition p s).tck = s.tck := by
  unfold wordPosition
  extract_lets x notValid step
  split
  · exact count_tck _ _ _ _
  · rfl
  · exact count_tck _ _ _ _

/-- What the lanes leave of a port when a word goes out, where it is not as at reset. -/
theorem port_sendPair_keeps {β : Type} {g : StmPort → β} (hg : ∀ x r, g { x with scrOut := r } = g x) (h : g (port s p) ≠ g {})
    (u code n kind : Nat) (w : BitVec 128) : g (port (count u code n (sendPair p kind w s)) p) = g (port s p) := by
  rw [port_congr (count_stm _ _ _ _)]
  exact port_onPort_keeps (f := fun x => { x with scrOut := (scrPair (port s p).scrOut w).2 }) (fun x => hg x _) h

/-! ## The words of a course, and their CHECK (R263, R305) -/

theorem sendCourse_eq (p : Nat) (s : State) : ∃ t w, t.tck = s.tck ∧
    sendCourse p s = onPort p (fun x => { x with outCrc := [], egSent := some t.tck.course }) (sendPair p 3 w t) :=
  ⟨_, _, each_keeps _ _ (·.tck) (fun _ => wordPosition_tck p) s, rfl⟩

/-- A course that was sent is noted, the next sum begins, and its CHECK went out last. -/
theorem sendCourse_ends (p : Nat) (s : State) : (port (sendCourse p s) p).egSent = some s.tck.course ∧ (port (sendCourse p s) p).outCrc = [] ∧
    ∃ w h0 h1 b0 b1, (sendCourse p s).out.head? = some (.egress p 3 w h0 h1 b0 b1) := by
  obtain ⟨t, w, htck, h⟩ := sendCourse_eq p s
  rw [h, port_onPort_of_ne (ne_of_apply_ne (·.egSent) (Option.some_ne_none _)), htck]
  exact ⟨rfl, rfl, w, _, _, _, _, rfl⟩

/-! ## A read takes its words' places (R262, R273) -/

/-- Word `k` of a read that is whole: a granule that returned poison makes poison words. -/
def readWord (r : EgRead) (k : Nat) : EgWord :=
  match r.got.find? fun q => q.1 == k / 4 with
  | some (_, some d) => .data (d.extractLsb' (128 * (k % 4)) 128)
  | _ => .poison

/-- A word of the list, when it waits for the read, becomes the word that was read. -/
def placeWord (i : Nat) (r : EgRead) : EgWord → EgWord
  | .wait j k => if j = i then readWord r k else .wait j k
  | w => w

theorem readWord_ne_wait (r : EgRead) (k i j : Nat) : readWord r k ≠ .wait i j := by
  unfold readWord
  split <;> exact nofun

theorem placeWord_ne_wait (i : Nat) (r : EgRead) (w : EgWord) (k : Nat) : placeWord i r w ≠ .wait i k := by
  cases w with
  | data w => exact nofun
  | poison => exact nofun
  | wait j m =>
    rw [placeWord]
    split
    · exact readWord_ne_wait r m i k
    · rename_i hj
      exact fun h => hj (EgWord.wait.inj h).1

theorem wait_notMem_placed (i : Nat) (r : EgRead) (l : List EgWord) (k : Nat) : EgWord.wait i k ∉ l.map (placeWord i r) := fun h => by
  obtain ⟨w, -, hw⟩ := List.mem_map.mp h
  exact placeWord_ne_wait i r w k hw

theorem placeRead_of_whole {i : Nat} {r : EgRead} (hfind : ((port s p).inFlight.find? fun x => x.id == i) = some r) (hgot : 8 ≤ r.got.length) :
    placeRead p i s = onPort p (fun x => { x with
      egFifo := x.egFifo.map (placeWord i r), standby := x.standby.map (placeWord i r), inFlight := x.inFlight.filter fun r => r.id != i }) s := by
  have hplace : placeWord i r = fun w => match w with
      | .wait j k => if j = i then readWord r k else w
      | w => w := by
    funext w
    cases w <;> rfl
  rw [placeRead, hfind, hplace]
  exact if_neg (Nat.not_lt.mpr hgot)

theorem engages_playbackReadData (req : Nat) (hp : p < 8) (hst : (port s p).egSt ≠ 0) :
    Engages (.playbackReadData p req) s (placeRead p req s) := engages_of_settled (if_pos ⟨hp, hst⟩)

end

/-- Settles O25: a word position and a course are read off the pair that they send, a read off the words that it replaces. -/
theorem playbackSendsItsWords : Obligations.PlaybackSendsItsWords := by
  unfold Obligations.PlaybackSendsItsWords
  refine ⟨fun s p hp hrun hnew hcourse hclk => ⟨_, rfl, ?_, sendCourse_ends p s⟩, fun s p hidle => takes_of_done (if_neg ?_),
    fun s p req => engages_playbackReadData req, fun s p req r hp hst hfind hgot => ⟨_, engages_playbackReadData req hp hst, ?_⟩,
    fun s p req hst => takes_of_done (if_neg fun h => h.2 hst), fun s p w l hfifo => ?_, fun s p hfifo => ?_⟩
  · exact engages_of_settled (if_pos ⟨hp, hrun, hnew, hcourse, hclk⟩)
  · rintro ⟨-, hrun, hnew, hcourse, -⟩
    simp [hrun, hnew, hcourse] at hidle
  · rw [placeRead_of_whole hfind hgot, port_onPort_of_ne (ne_of_apply_ne (·.egSt) hst)]
    exact ⟨rfl, List.length_map _, wait_notMem_placed req r _, wait_notMem_placed req r _⟩
  · obtain ⟨play, hport⟩ := port_wordLeaves p w s
    have hkeeps := port_sendPair_keeps (g := fun x => (x.cntWords, x.egFifo)) (fun _ _ => rfl)
      (ne_of_apply_ne Prod.fst (by rw [hport]; exact sat_succ_ne_zero _)) (0x50 + p) 0x12 1 0 w
    rw [hport, hfifo] at hkeeps
    have hout := out_count_sendPair (0x50 + p) 0x12 1 p 0 w (wordLeaves p w s)
    rw [egressPair_congr (s := s) (congrArg (·.scrOut) hport)] at hout
    rw [wordPosition_data hfifo]
    exact ⟨hout, congrArg Prod.snd hkeeps, congrArg Prod.fst hkeeps⟩
  · have hport : port (onPort p (fun x => { x with cntNv := sat 64 x.cntNv 1 }) s) p = _ :=
      port_onPort_of_ne (ne_of_apply_ne (·.cntNv) (sat_succ_ne_zero _))
    have hkeeps := port_sendPair_keeps (g := fun x => (x.cntNv, x.play)) (fun _ _ => rfl)
      (ne_of_apply_ne Prod.fst (by rw [hport]; exact sat_succ_ne_zero _)) (0x50 + p) 0x13 1 1 0
    have hout := out_count_sendPair (0x50 + p) 0x13 1 p 1 0 (onPort p (fun x => { x with cntNv := sat 64 x.cntNv 1 }) s)
    rw [egressPair_congr (s := s) (congrArg (·.scrOut) hport)] at hout
    rw [hport] at hkeeps
    rw [wordPosition_empty hfifo]
    exact ⟨hout, congrArg Prod.snd hkeeps, congrArg Prod.fst hkeeps⟩

end Sys2Proof.Machine
end

section
/-!
SUPPORT. What prefetch leaves of a stream port that is not IDLE (R262): its places, its standby list and its reads move on, and to its
words it adds only such as wait for their read.
-/

namespace Sys2Proof.Machine
open Sys2Proof

/-- A port without what prefetch moves on. -/
def besidePrefetch (x : StmPort) : StmPort := { x with
  egFifo := [], standby := [], standbyFull := false, pos := {}, sbPos := {}, inFlight := [], nextRd := 0 }

/-- `y` is `x` after prefetch: the words of `x` stand, and those behind them wait for their read. -/
def Prefetched (x y : StmPort) : Prop :=
  besidePrefetch y = besidePrefetch x ∧ ∃ l, y.egFifo = x.egFifo ++ l ∧ ∀ w ∈ l, ∃ i k, w = .wait i k

section
variable {s : State} {p : Nat} {x y z : StmPort} {f : StmPort → StmPort}

theorem Prefetched.of_same (h : besidePrefetch y = besidePrefetch x) (hfifo : y.egFifo = x.egFifo) : Prefetched x y :=
  ⟨h, [], by rw [hfifo, List.append_nil], fun _ hw => absurd hw List.not_mem_nil⟩

theorem Prefetched.refl (x : StmPort) : Prefetched x x := .of_same rfl rfl

theorem Prefetched.trans (h : Prefetched x y) (k : Prefetched y z) : Prefetched x z := by
  obtain ⟨hxy, l, hl, hwait⟩ := h
  obtain ⟨hyz, l', hl', hwait'⟩ := k
  exact ⟨hyz.trans hxy, l ++ l', by rw [hl', hl, List.append_assoc], fun w hw => (List.mem_append.mp hw).elim (hwait w) (hwait' w)⟩

theorem Prefetched.egSt (h : Prefetched x y) : y.egSt = x.egSt := congrArg (·.egSt) h.1

theorem prefetched_ite {c : Prop} [Decidable c] {t u : State} (ht : Prefetched x (port t p)) (hu : Prefetched x (port u p)) :
    Prefetched x (port (if c then t else u) p) := by
  split
  · exact ht
  · exact hu

theorem prefetched_onPort (hst : (port s p).egSt ≠ 0) (h : Prefetched (port s p) (f (port s p))) :
    Prefetched (port s p) (port (onPort p f s) p) := by
  rwa [port_onPort_of_ne (ne_of_apply_ne (·.egSt) (h.egSt.trans_ne hst))]

theorem internalRead_stm (src : Src) (parent g : Nat) (s : State) : (internalRead src parent g s).stm = s.stm := arrive_stm _ _ _

theorem prefetched_prefetchLine (standby : Bool) (hst : (port s p).egSt ≠ 0) :
    Prefetched (port s p) (port (prefetchLine p standby s) p) := by
  unfold prefetchLine
  extract_lets x l q room e a i n id ws s₁
  refine prefetched_ite (prefetched_onPort hst ?_) (prefetched_ite (.refl _) ?_)
  · cases standby <;> exact .of_same rfl rfl
  · rw [port_congr (each_keeps _ _ (·.stm) (fun _ _ => internalRead_stm _ _ _ _) s₁)]
    refine prefetched_onPort hst ?_
    cases standby with
    | true => exact .of_same rfl rfl
    | false =>
      refine ⟨rfl, ws, rfl, fun w hw => ?_⟩
      obtain ⟨j, -, hj⟩ := List.mem_map.mp hw
      exact ⟨_, _, hj.symm⟩

theorem prefetched_prefetchLoop (standby : Bool) (n : Nat) (hst : (port s p).egSt ≠ 0) :
    Prefetched (port s p) (port (prefetchLoop p standby n s) p) := by
  induction n generalizing s with
  | zero => exact .refl _
  | succ n ih =>
    have hline := prefetched_prefetchLine standby hst
    exact prefetched_ite hline (hline.trans (ih (hline.egSt.trans_ne hst)))

theorem prefetched_updStandby (hst : (port s p).egSt ≠ 0) : Prefetched (port s p) (port (updStandby p s) p) :=
  prefetched_ite (prefetched_onPort hst (.of_same rfl rfl)) (.refl _)

/-- Prefetch of a port that is not IDLE. -/
theorem prefetched_prefetchPort (hst : (port s p).egSt ≠ 0) : Prefetched (port s p) (port (prefetchPort p s) p) := by
  refine prefetched_ite (.refl _) ?_
  have hlist := prefetched_prefetchLoop false 512 hst
  have hboth := hlist.trans (prefetched_prefetchLoop true 512 (hlist.egSt.trans_ne hst))
  exact hboth.trans (prefetched_updStandby (hboth.egSt.trans_ne hst))

/-- A change of a port that leaves it active, and the prefetch after it. -/
theorem prefetched_onPort_prefetchPort (hst : (f (port s p)).egSt ≠ 0) :
    Prefetched (f (port s p)) (port (prefetchPort p (onPort p f s)) p) := by
  have hport := port_onPort_of_ne (ne_of_apply_ne (·.egSt) hst)
  rw [← hport] at hst ⊢
  exact prefetched_prefetchPort hst

end

end Sys2Proof.Machine
end

section
/-!
PROOF. The host's writes to the stream ports (R261, R267, R270, R271; O26): what ARM, the flushes and the write of a list entry make of the
port, and the ways in which they reach it.
-/

namespace Sys2Proof.Machine
open Sys2Proof

section
variable {s : State} {p : Nat}

@[simp] theorem port_tlpIn (s : State) (p : Nat) : port (tlpIn s) p = port s p := port_congr (tlpIn_stm s) p

/-! ## The flushes (R270, R271) -/

/-- A port whose FIFO was flushed: the records count as discarded, and what is left of one that had begun goes with them. -/
def recordsFlushed (x : StmPort) : StmPort :=
  { x with fifo := [], inPrev := false, flushed := true, cntDrop := sat 64 x.cntDrop x.fifo.length }

theorem flushIn_eq (p : Nat) (s : State) : flushIn p s = commitPort p (updStop p (onPort p recordsFlushed s)) := rfl

/-- A flush of ingress empties the FIFO, and counts what stood there. -/
theorem port_flushIn (p : Nat) (s : State) : (port (flushIn p s) p).fifo = [] ∧ (port (flushIn p s) p).inSt = (port s p).inSt ∧
    (port (flushIn p s) p).cntDrop = sat 64 (port s p).cntDrop (port s p).fifo.length := by
  have hport : port (onPort p recordsFlushed s) p = recordsFlushed (port s p) :=
    port_onPort_of_ne (ne_of_apply_ne StmPort.flushed (by simp [recordsFlushed]))
  have hstop : besideStop (port (updStop p (onPort p recordsFlushed s)) p) = besideStop (recordsFlushed (port s p)) := by
    rw [besideStop_updStop, hport]
    exact ne_of_apply_ne StmPort.flushed (by simp [hport, besideStop, recordsFlushed])
  have hcommit := besideCommit_commitPort (s := updStop p (onPort p recordsFlushed s)) (p := p)
    (ne_of_apply_ne StmPort.flushed ((congrArg StmPort.flushed hstop).trans_ne Bool.true_eq_false.mp))
  have hrest : besideCommit (besideStop (port (flushIn p s) p)) = besideCommit (besideStop (recordsFlushed (port s p))) :=
    (congrArg besideStop hcommit).trans (congrArg besideCommit hstop)
  exact ⟨congrArg (·.fifo) hrest, congrArg (·.inSt) hrest, congrArg (·.cntDrop) hrest⟩

theorem comb_flushIn (p : Nat) (s : State) : (flushIn p s).stm.comb = s.stm.comb := by
  rw [flushIn_eq, commitPort_comb, updStop_comb, onPort_stm]

/-- The words of a list that wait for their read. -/
def waitingWords (l : List EgWord) : List EgWord := l.filter fun w => match w with | .wait _ _ => true | _ => false

theorem wait_of_mem_waitingWords {l : List EgWord} {w : EgWord} (h : w ∈ waitingWords l) : ∃ i k, w = .wait i k := by
  cases w with
  | data w => simp [waitingWords] at h
  | poison => simp [waitingWords] at h
  | wait i k => exact ⟨i, k, rfl⟩

/-- A port whose words that stand have been skipped, its place of play with them. -/
def wordsSkipped (p : Nat) (s : State) (x : StmPort) : StmPort := { x with
  egFifo := waitingWords x.egFifo, play := (upto (egOccupancy x)).foldl (fun q _ => advPos s p x.cur 1 q) x.play }

theorem flushEg_of_active (hst : (port s p).egSt ≠ 0) : flushEg p s = prefetchPort p (onPort p (wordsSkipped p s) s) := if_neg hst

theorem prefetched_flushEg (hst : (port s p).egSt ≠ 0) : Prefetched (wordsSkipped p s (port s p)) (port (flushEg p s) p) := by
  rw [flushEg_of_active hst]
  exact prefetched_onPort_prefetchPort hst

theorem flushEg_of_idle (hst : (port s p).egSt = 0) : flushEg p s = s := if_pos hst

/-- A port without what a flush of egress, and the prefetch after it, move on. -/
def besideSkip (x : StmPort) : StmPort := { besidePrefetch x with play := {} }

theorem besideSkip_flushEg (p : Nat) (s : State) : besideSkip (port (flushEg p s) p) = besideSkip (port s p) := by
  by_cases hst : (port s p).egSt = 0
  · rw [flushEg_of_idle hst]
  · exact congrArg (fun x : StmPort => { x with play := {} }) (prefetched_flushEg hst).1

/-- A flush leaves only words that wait for their read. -/
theorem wait_of_mem_flushEg (hst : (port s p).egSt ≠ 0) {w : EgWord} (hw : w ∈ (port (flushEg p s) p).egFifo) : ∃ i k, w = .wait i k := by
  obtain ⟨-, l, hl, hwait⟩ := prefetched_flushEg hst
  rw [hl] at hw
  exact (List.mem_append.mp hw).elim wait_of_mem_waitingWords (hwait w)

/-! ## ARM (R261, R264) -/

/-- ARM of an IDLE direction: it is READY with the list that LIST_INIT names. -/
def armed (p : Nat) (s : State) (x : StmPort) : StmPort := { x with
  egSt := 1, cur := x.listInit, egFifo := [], standby := [], standbyFull := false, pos := {}, sbPos := {}, play := normPos s p x.listInit 33 {} }

theorem armPort_of_idle (hst : (port s p).egSt = 0) : armPort p s = prefetchPort p (onPort p (armed p s) s) := if_neg (not_not.mpr hst)

theorem armPort_of_active (hst : (port s p).egSt ≠ 0) : armPort p s = s := if_pos hst

theorem besidePrefetch_armPort (hst : (port s p).egSt = 0) :
    besidePrefetch (port (armPort p s) p) = besidePrefetch (armed p s (port s p)) := by
  rw [armPort_of_idle hst]
  exact (prefetched_onPort_prefetchPort Nat.one_ne_zero).1

theorem port_setWpt (v : Nat) (hwf : Table.wf {} s.stm.ports = true) :
    port (setWpt p v s) p = { port s p with wpt := clamp 1 (wptMax s) v } := by
  have hport := port_onPort_same (p := p) (f := fun x => { x with wpt := clamp 1 (wptMax s) v }) hwf
  exact ite_keeps (port · p) hport ((port_congr (event_stm _ _ _ _) p).trans hport)

/-- LIST_INIT and WPT are written. -/
def ctrlWritten (p : Nat) (v : BitVec 32) (s : State) : State :=
  setWpt p (bits v.toNat 16 12) (onPort p (fun x => { x with listInit := bits v.toNat 2 1 }) s)

theorem port_ctrlWritten (v : BitVec 32) (hwf : Table.wf {} s.stm.ports = true) : port (ctrlWritten p v s) p =
    { port s p with listInit := bits v.toNat 2 1, wpt := clamp 1 (wptMax s) (bits v.toNat 16 12) } := by
  rw [ctrlWritten, port_setWpt _ (wf_onPort hwf), port_onPort_same hwf]
  rfl

/-- The fields above ARM are as written. -/
theorem bits_or_arm (v lo w : Nat) (hlo : 2 ≤ lo) : bits (v ||| 2) lo w = bits v lo w := by
  have harm : 2 >>> lo = 0 := by
    rw [Nat.shiftRight_eq_div_pow]
    exact Nat.div_eq_of_lt (Nat.lt_of_lt_of_le (by decide : 2 < 2 ^ 2) (Nat.pow_le_pow_right Nat.two_pos hlo))
  rw [bits, bits, ← Nat.shiftRight_eq_div_pow, Nat.shiftRight_or_distrib, harm, Nat.or_zero, Nat.shiftRight_eq_div_pow]

theorem bitOf_eq_testBit (v i : Nat) : bitOf v i = v.testBit i := by
  rw [Nat.testBit_eq_decide_div_mod_eq]
  rfl

theorem bitOf_or_arm (v i : Nat) : bitOf (v ||| 2) i = (bitOf v i || Nat.testBit 2 i) := by
  rw [bitOf_eq_testBit, Nat.testBit_or, bitOf_eq_testBit]

/-- A write of STM_EG_CTRL: its fields first, then FLUSH and ARM. -/
theorem writeStmPort_ctrl (w : SlotWr) (s : State) (hlo : w.lo = true) : writeStmPort p 0x100 w s =
    let t := setWpt p (bits w.m 16 12) (onPort p (fun x => { x with listInit := bits w.m 2 1 }) s)
    let u := if bitOf w.a 0 then flushEg p t else t
    if bitOf w.a 1 then armPort p u else u := by
  rw [writeStmPort, if_neg (by decide), if_neg (by decide), if_neg (by decide), if_pos rfl, if_neg (by simp [hlo])]

/-- A write of STM_EG_CTRL with its ARM bit 1. -/
theorem writeStmPort_arm (off : Nat) (v : BitVec 32) (s : State) : writeStmPort p 0x100 (slotOf off ((v ||| 2).setWidth 64)) s =
    armPort p (if bitOf v.toNat 0 then flushEg p (ctrlWritten p v s) else ctrlWritten p v s) := by
  have hv : ((v ||| 2).setWidth 64).toNat = v.toNat ||| 2 := by
    rw [BitVec.toNat_setWidth_of_le (by decide), BitVec.toNat_or]
    rfl
  have hm : (slotOf off ((v ||| 2).setWidth 64)).m = v.toNat ||| 2 := hv
  have ha : (slotOf off ((v ||| 2).setWidth 64)).a = v.toNat ||| 2 := hv
  have hflush : bitOf (v.toNat ||| 2) 0 = bitOf v.toNat 0 := (bitOf_or_arm _ _).trans (Bool.or_false _)
  have harm : bitOf (v.toNat ||| 2) 1 = true := (bitOf_or_arm _ _).trans (Bool.or_true _)
  rw [writeStmPort_ctrl _ _ rfl, hm, ha, bits_or_arm _ 16 12 (by decide), bits_or_arm _ 2 1 (by decide), hflush]
  exact if_pos harm

/-- The port after ARM: one that was IDLE is READY with the list written, and WPT is as written, clamped. -/
theorem port_arm (off : Nat) (v : BitVec 32) (hwf : Table.wf {} s.stm.ports = true) :
    let t := writeStmPort p 0x100 (slotOf off ((v ||| 2).setWidth 64)) s
    ((port s p).egSt = 0 → (port t p).egSt = 1 ∧ (port t p).cur = bits v.toNat 2 1) ∧
    ((port s p).egSt ≠ 0 → (port t p).egSt = (port s p).egSt ∧ (port t p).cur = (port s p).cur) ∧
    (port t p).wpt = clamp 1 (wptMax s) (bits v.toNat 16 12) := by
  rw [writeStmPort_arm]
  generalize hu : (if bitOf v.toNat 0 then flushEg p (ctrlWritten p v s) else ctrlWritten p v s) = u
  have hskip : besideSkip (port u p) = besideSkip (port (ctrlWritten p v s) p) :=
    hu ▸ ite_keeps (fun t => besideSkip (port t p)) (besideSkip_flushEg p _) rfl
  rw [port_ctrlWritten v hwf] at hskip
  have hst : (port u p).egSt = (port s p).egSt := congrArg (·.egSt) hskip
  by_cases hidle : (port s p).egSt = 0
  · have harm := besidePrefetch_armPort (hst.trans hidle)
    refine ⟨fun _ => ⟨congrArg (·.egSt) harm, ?_⟩, fun h => absurd hidle h, ?_⟩
    · exact (congrArg (·.cur) harm).trans (congrArg (·.listInit) hskip)
    · exact (congrArg (·.wpt) harm).trans (congrArg (·.wpt) hskip)
  · dsimp only
    rw [armPort_of_active (hst.trans_ne hidle)]
    exact ⟨fun h => absurd h hidle, fun _ => ⟨hst, congrArg (·.cur) hskip⟩, congrArg (·.wpt) hskip⟩

/-! ## A list entry (R267) -/

/-- A list entry with one half written: STM_LIST_L when `high`, else STM_LIST_A. -/
def entryHalf (high : Bool) (v : Nat) (e : PlEnt) : PlEnt :=
  if high then { e with len := bits v 0 32, last := bitOf v 32, wrap := bitOf v 33 } else { e with addr := bits v 0 42, rep := bits v 42 16 }

/-- A write of a list entry's half is none of the port's own registers. -/
theorem writeStmPort_list {list entry : Nat} {high : Bool} (hl : list < 2) (he : entry < 16) (w : SlotWr) :
    writeStmPort p (0x200 + 0x100 * list + 0x10 * entry + 8 * b2n high) w s =
      writeEntry p (list * 16 + entry) (entryHalf high w.m (tget {} (port s p).lists (list * 16 + entry))) s := by
  have hhalf : b2n high ≤ 1 := by cases high <;> decide
  have hinst : inst (0x200 + 0x100 * list + 0x10 * entry + 8 * b2n high) 0x200 0x10 32 = some (list * 16 + entry, 8 * b2n high) := by
    rw [inst, if_pos (by omega), Option.some.injEq, Prod.mk.injEq]
    omega
  unfold writeStmPort
  rw [if_neg (by omega), if_neg (by omega), if_neg (by omega), if_neg (by omega), if_neg (by omega), hinst]
  cases high <;> rfl

/-- A list of an active port that is not its current one: its prefetch begins anew. -/
def standbyDropped (x : StmPort) : StmPort := { dropReads (waitsFor x.standby) x with standby := [], standbyFull := false, sbPos := {} }

theorem writeEntry_of_current {k : Nat} (e : PlEnt) (hst : (port s p).egSt ≠ 0) (hcur : k / 16 = (port s p).cur) : writeEntry p k e s = s :=
  if_pos ⟨hst, hcur⟩

theorem writeEntry_of_free {k : Nat} (e : PlEnt) (h : (port s p).egSt = 0 ∨ k / 16 ≠ (port s p).cur) : writeEntry p k e s =
    if (port s p).egSt = 0 then onPort p (fun x => { x with lists := tset {} x.lists k e }) s
    else prefetchPort p (onPort p standbyDropped (onPort p (fun x => { x with lists := tset {} x.lists k e }) s)) :=
  if_neg fun hboth => h.elim hboth.1 fun hcur => hcur hboth.2

/-- An entry that is free to be written holds what was written, and the port's state stands. -/
theorem port_writeEntry {k : Nat} {e : PlEnt} (h : (port s p).egSt = 0 ∨ k / 16 ≠ (port s p).cur) (he : e ≠ {}) :
    tget {} (port (writeEntry p k e s) p).lists k = e ∧ (port (writeEntry p k e s) p).egSt = (port s p).egSt := by
  have hlist : tget {} (tset {} (port s p).lists k e) k = e := tget_tset_of_ne _ _ _ he
  have hport : port (onPort p (fun x => { x with lists := tset {} x.lists k e }) s) p = _ :=
    port_onPort_of_ne (ne_of_apply_ne (fun x : StmPort => tget {} x.lists k) (hlist.trans_ne he))
  rw [writeEntry_of_free e h]
  split
  · rw [hport]
    exact ⟨hlist, rfl⟩
  · next hst =>
    have hprefetch := (prefetched_onPort_prefetchPort (p := p) (f := standbyDropped)
      (s := onPort p (fun x => { x with lists := tset {} x.lists k e }) s) (by rw [hport]; exact hst)).1
    rw [hport] at hprefetch
    exact ⟨(congrArg (fun x : StmPort => tget {} x.lists k) hprefetch).trans hlist, congrArg (·.egSt) hprefetch⟩

/-! ## The commands, case by case -/

theorem engages_arm {t : State} {v : BitVec 32} (hp : p < 8) (ht : hostBar (.arm p v) s = t) : Engages (.arm p v) s t :=
  engages_of_settled ((if_pos hp).trans (congrArg (settled s) ht))

theorem takes_ingressFlush {t : State} (hp : p < 8) (ht : hostBar (.ingressFlush p) s = t) : Takes (.ingressFlush p) s t :=
  takes_of_done ((if_pos hp).trans (congrArg (done s) ht))

theorem engages_egressFlush {t : State} (hp : p < 8) (ht : hostBar (.egressFlush p) s = t) : Engages (.egressFlush p) s t :=
  engages_of_settled ((if_pos hp).trans (congrArg (settled s) ht))

theorem engages_playlistEntryWrite {t : State} {list entry : Nat} {high : Bool} {v : BitVec 64} (hp : p < 8) (hl : list < 2) (he : entry < 16)
    (ht : hostBar (.playlistEntryWrite p list entry high v) s = t) : Engages (.playlistEntryWrite p list entry high v) s t :=
  engages_of_settled ((if_pos ⟨hp, hl, he⟩).trans (congrArg (settled s) ht))

theorem hostBar_ingressFlush (h : HostReaches s (offStream p)) : hostBar (.ingressFlush p) s = flushIn p (tlpIn s) :=
  (hostBar_of_reaches (f := writeStmPort p 0 (slotOf (offStream p) 1)) (fun _ => rfl) h).trans ((if_pos rfl).trans (if_pos (by simp [slotOf, bitOf])))

/-- The half of a list entry that the host writes. -/
theorem engages_playlistEntryWrite_reached {list entry : Nat} {high : Bool} {v : BitVec 64} (hp : p < 8) (hl : list < 2) (he : entry < 16)
    (h : HostReaches s (offStream p + (0x200 + 0x100 * list + 0x10 * entry + 8 * b2n high))) :
    Engages (.playlistEntryWrite p list entry high v) s (writeEntry p (list * 16 + entry)
      (entryHalf high v.toNat (tget {} (port s p).lists (list * 16 + entry))) (tlpIn s)) := by
  refine engages_playlistEntryWrite hp hl he ((hostBar_of_reaches (fun _ => rfl) h).trans ?_)
  rw [writeStmPort_list hl he, port_tlpIn]
  rfl

end

/-- Settles O26: each write reaches its register, and the port is read off what the register's write makes of it. -/
theorem streamWritesAct : Obligations.StreamWritesAct := by
  unfold Obligations.StreamWritesAct
  refine ⟨fun s p v hp h => ⟨_, rfl, engages_arm hp (hostBar_of_reaches (fun _ => rfl) h), fun hwf => ?_⟩,
    fun s p hst => armPort_of_idle hst, fun s p hst => armPort_of_active hst,
    fun s p hp h => ⟨_, rfl, takes_ingressFlush hp (hostBar_ingressFlush h), ?_⟩,
    fun s p hp h => ⟨_, rfl, engages_egressFlush hp (hostBar_of_reaches (fun _ => rfl) h), ?_⟩,
    fun s p list entry v hp hl he => ⟨fun h => ?_, fun h => ?_⟩, fun s p list entry v w high hp hl he hdown => ?_,
    fun s p k e => port_writeEntry, fun s p k e => writeEntry_of_current e⟩
  · obtain ⟨-, hports, -⟩ := hwf
    have harm := port_arm (s := tlpIn s) (p := p) (offStream p + 0x100) v (by rwa [tlpIn_stm])
    rw [port_tlpIn] at harm
    simpa only [wptMax, quarters, tlpIn_tck] using harm
  · obtain ⟨hfifo, hst, hcnt⟩ := port_flushIn p (tlpIn s)
    rw [port_tlpIn] at hst hcnt
    exact ⟨hfifo, hst, hcnt, (comb_flushIn p _).trans (by rw [tlpIn_stm])⟩
  · have hst := congrArg (·.egSt) (besideSkip_flushEg p (tlpIn s))
    rw [port_tlpIn] at hst
    exact ⟨hst, fun hactive w hw => wait_of_mem_flushEg (by rwa [port_tlpIn]) hw⟩
  · exact engages_playlistEntryWrite_reached (high := false) hp hl he h
  · exact engages_playlistEntryWrite_reached (high := true) hp hl he h
  · exact ⟨engages_arm hp (hostBar_of_down _ hdown), takes_ingressFlush hp (hostBar_of_down _ hdown),
      engages_egressFlush hp (hostBar_of_down _ hdown), engages_playlistEntryWrite hp hl he (hostBar_of_down _ hdown)⟩

end Sys2Proof.Machine
end

section
/-!
PROOF. STM_STOP_N (R253; O24): the statement's first clause speaks of every state, and not only of those whose tables are in their canonical
form, in which no port is listed twice.
-/

namespace Sys2Proof.Machine
open Sys2Proof

/-- The table of ports lists port 0 twice. The first entry becomes as at reset when the occupancy is looked at, and leaves the table; the
second one has its pin deasserted, and the least time of the pin runs. -/
def listedTwice : State := { stm := { ports := [(0, { full := true }), (0, { stop := false, stopHold := true })] } }

/-- After the update port 0 of `listedTwice` is the second entry: IDLE, with its pin deasserted. -/
theorem port_updStop_listedTwice : (port (updStop 0 listedTwice) 0).stop = false ∧ stopWanted (updStop 0 listedTwice) 0 = true := by
  decide +kernel

/-- Refutes O24: no least time runs at port 0 of `listedTwice`, and after the update its pin is deasserted while the condition of R253 holds.
With `TablesWf s`, which other clauses assume, the state is shut out. -/
theorem not_stopFollowsItsCondition : ¬ Obligations.StopFollowsItsCondition := by
  unfold Obligations.StopFollowsItsCondition
  rintro ⟨hfollows, -⟩
  obtain ⟨hstop, hwanted⟩ := port_updStop_listedTwice
  have hpin := (hfollows listedTwice 0 rfl).1
  rw [hstop, hwanted] at hpin
  exact Bool.false_ne_true hpin

end Sys2Proof.Machine
end

section
/-!
PROOF. The lanes of the stream ports (R275, R305, R306; O23): what a CHECK and an ALIGN make of a port, and how its lanes come into operation
and leave it.
-/

namespace Sys2Proof.Machine
open Sys2Proof

section
variable {s : State} {p : Nat} {wire : BitVec 128}

/-! ## A control word comes off the lanes (R303, R306) -/

theorem lnkSt_ne_of_receives (hrec : receives s p = true) : (port s p).lnkSt ≠ 0 := by
  simp only [receives, Bool.and_eq_true, bne_iff_ne] at hrec
  exact hrec.2

theorem receives_of_training (hp : p < 8) (hst : (port s p).lnkSt = 2) : receives s p = true := by simp [receives, hp, hst]

/-- A pair leaves a port that receives as it was, beside what it moves on. -/
theorem besideWire_receivePair_of_receiving (h0 h1 : BitVec 2) (wire : BitVec 128) (hst : (port s p).lnkSt ≠ 0) :
    besideWire (port (receivePair p h0 h1 wire s).2 p) = besideWire (port s p) :=
  port_onPort_keeps (fun _ => rfl) (ne_of_apply_ne (·.lnkSt) (by simpa [besideWire] using hst))

/-! ## CHECK (R305) -/

/-- The port has descrambled a CHECK, and its next sum begins. -/
def sumRestarted (p : Nat) (wire : BitVec 128) (s : State) : State :=
  onPort p (fun x => { x with inCrc := [] }) (receivePair p 2 2 wire s).2

theorem besideWire_sumRestarted (wire : BitVec 128) (hup : (port s p).linkUp = true) :
    besideWire (port (sumRestarted p wire s) p) = besideWire (port s p) := by
  refine (port_onPort_keeps ?_ (besideWire_ne_of_up (linkUp_receivePair 2 2 wire hup))).trans (besideWire_receivePair 2 2 wire hup)
  exact fun _ => rfl

theorem inCrc_sumRestarted (wire : BitVec 128) (hup : (port s p).linkUp = true) : (port (sumRestarted p wire s) p).inCrc = [] :=
  congrArg (·.inCrc) (port_onPort_of_ne (ne_of_apply_ne (·.linkUp) ((linkUp_receivePair 2 2 wire hup).trans_ne Bool.false_ne_true.symm)))

/-- A CHECK that fails is counted. -/
def checkFailed (p : Nat) (wire : BitVec 128) (s : State) : State :=
  onPort p (fun x => { x with cntChk := sat 64 x.cntChk 1 }) (sumRestarted p wire s)

theorem port_checkFailed (p : Nat) (wire : BitVec 128) (s : State) : port (checkFailed p wire s) p =
    { port (sumRestarted p wire s) p with cntChk := sat 64 (port (sumRestarted p wire s) p).cntChk 1 } :=
  port_onPort_of_ne (ne_of_apply_ne (·.cntChk) (sat_succ_ne_zero _))

theorem execStreamCheckWord_of_up (hrec : receives s p = true) (hup : (port s p).linkUp = true) : execStreamCheckWord p wire s =
    if (receivePair p 2 2 wire s).1.extractLsb' 0 8 ≠ 0x4B then done s (receivePair p 2 2 wire s).2
    else if Config.crc32 (wordBytes (port s p).inCrc) = (receivePair p 2 2 wire s).1.extractLsb' 32 32 then done s (sumRestarted p wire s)
    else done s (event 0x0601 (0x50 + p) 0 (checkFailed p wire s)) := (if_neg (by simp [hrec])).trans (if_neg (by simp [hup]))

theorem takes_check_failed (hrec : receives s p = true) (hup : (port s p).linkUp = true)
    (hcheck : (receivePair p 2 2 wire s).1.extractLsb' 0 8 = 0x4B)
    (hsum : Config.crc32 (wordBytes (port s p).inCrc) ≠ (receivePair p 2 2 wire s).1.extractLsb' 32 32) :
    Takes (.streamCheckWord p wire) s (event 0x0601 (0x50 + p) 0 (checkFailed p wire s)) :=
  takes_of_done ((execStreamCheckWord_of_up hrec hup).trans ((if_neg (not_not.mpr hcheck)).trans (if_neg hsum)))

theorem execStreamCheckWord_of_down (hrec : receives s p = true) (hup : (port s p).linkUp = false) :
    execStreamCheckWord p wire s = done s (judgeLanes p (receivePair p 2 2 wire s).2) := (if_neg (by simp [hrec])).trans (if_pos (by simp [hup]))

/-! ## ALIGN (R305, R306) -/

theorem execStreamAlignWord_of_receiving (hrec : receives s p = true) : execStreamAlignWord p wire s =
    if (port s p).lnkSt = 2 ∧ (receivePair p 2 2 wire s).1.extractLsb' 0 16 = 0xA578 then
      done s (judgeLanes p (onPort p (fun x => { x with aligned := true }) (receivePair p 2 2 wire s).2))
    else done s (receivePair p 2 2 wire s).2 := if_neg (by simp [hrec])

theorem port_aligned (p : Nat) (s : State) : port (onPort p (fun x => { x with aligned := true }) s) p = { port s p with aligned := true } :=
  port_onPort_of_ne (ne_of_apply_ne (·.aligned) (by simp))

/-! ## The lanes come into operation and leave it (R275, R306, R307) -/

theorem port_lanesUp (p : Nat) (s : State) : port (lanesUp p s) p = { port s p with lnkSt := 5, linkUp := true, lanesLost := false } :=
  port_onPort_of_ne (ne_of_apply_ne (·.linkUp) (by simp))

/-- A port whose lanes were in operation stops at the next course start, trains again, and counts the loss. -/
theorem port_loseLanes (hup : (port s p).linkUp = true) : port (loseLanes p s) p = { port s p with
    stopNext := true, lanesLost := true, linkUp := false, aligned := false, run := 0, headers := [], lnkSt := 2
    cntLost := sat 64 (port s p).cntLost 1 } := by
  have hdown : port (lanesDown p 2 s) p = _ := port_onPort_of_ne (ne_of_apply_ne (·.lnkSt) (by simp))
  rw [loseLanes, port_onPort_of_ne (ne_of_apply_ne (·.cntLost) (sat_succ_ne_zero _)), hdown]
  simp [hup]

theorem judgeLanes_of_up (hup : (port s p).linkUp = true) : judgeLanes p s =
    if 16 ≤ ((port s p).headers.filter (!·.1)).length ∨ 16 ≤ ((port s p).headers.filter (!·.2)).length then loseLanes p s
    else if (port s p).lnkSt = 2 ∧ (port s p).aligned ∧ 1024 ≤ (port s p).run then lanesUp p s else s := by
  simp [judgeLanes, hup]

theorem judgeLanes_of_down (hdown : (port s p).linkUp = false) : judgeLanes p s =
    if (port s p).lnkSt = 2 ∧ (port s p).aligned ∧ 1024 ≤ (port s p).run then lanesUp p s else s := by
  simp [judgeLanes, hdown]

end

/-- Settles O23: each command meets one branch of its meaning, and the port is read off what that branch makes of it. -/
theorem lanesAreCheckedAndAligned : Obligations.LanesAreCheckedAndAligned := by
  unfold Obligations.LanesAreCheckedAndAligned
  refine ⟨fun s p wire hrec hup hcheck => ⟨fun hsum => ?_, takes_check_failed hrec hup hcheck, inCrc_sumRestarted wire hup,
      congrArg (·.fifo) (besideWire_sumRestarted wire hup), congrArg (·.cntChk) (besideWire_sumRestarted wire hup)⟩,
    fun s p wire hrec hup hcheck hsum => ⟨_, takes_check_failed hrec hup hcheck hsum, ?_⟩,
    fun s p wire hrec hup hother => takes_of_done ((execStreamCheckWord_of_up hrec hup).trans (if_pos hother)),
    fun s p wire hp hst halign => ⟨_, rfl, ?_, ?_⟩, fun s p wire hrec hother => ⟨?_, ?_⟩, fun s p hp hst haligned => ⟨_, rfl, ?_, ?_⟩,
    fun s p hp hup => ⟨_, rfl, takes_of_done (if_pos ⟨hp, hup⟩), ?_⟩, fun s p => ⟨fun hup hbad => ?_, fun hup hgood hst => ?_, ?_, ?_⟩,
    fun s p wire => ⟨fun hoff => ⟨?_, ?_⟩, fun hrec hdown => ?_, fun hdown => ?_⟩, fun s p hother => ?_⟩
  · exact takes_of_done ((execStreamCheckWord_of_up hrec hup).trans ((if_neg (not_not.mpr hcheck)).trans (if_pos hsum)))
  · rw [port_congr (event_stm _ _ _ _), port_checkFailed]
    have hport := besideWire_sumRestarted wire hup
    exact ⟨inCrc_sumRestarted wire hup, congrArg (·.fifo) hport, congrArg (fun x => sat 64 x.cntChk 1) hport⟩
  · exact takes_of_done ((execStreamAlignWord_of_receiving (receives_of_training hp hst)).trans (if_pos ⟨hst, halign⟩))
  · have hpair := besideWire_receivePair_of_receiving 2 2 wire (lnkSt_ne_of_receives (receives_of_training hp hst))
    rw [port_aligned]
    exact ⟨rfl, (congrArg (·.lnkSt) hpair).trans hst⟩
  · exact takes_of_done ((execStreamAlignWord_of_receiving hrec).trans (if_neg (by tauto)))
  · exact congrArg (·.aligned) (besideWire_receivePair_of_receiving 2 2 wire (lnkSt_ne_of_receives hrec))
  · exact takes_of_done (if_pos ⟨hp, hst, haligned⟩)
  · simp [port_lanesUp]
  · simp [port_loseLanes hup]
  · exact (judgeLanes_of_up hup).trans (if_pos (by simpa using hbad))
  · exact (judgeLanes_of_up hup).trans ((if_neg (by simpa using hgood)).trans (if_neg (by simp [hst])))
  · exact fun hdown hst haligned hrun => (judgeLanes_of_down hdown).trans (if_pos ⟨hst, haligned, hrun⟩)
  · refine fun hdown hother => (judgeLanes_of_down hdown).trans (if_neg fun ⟨hst, haligned, hrun⟩ => ?_)
    rcases hother with h | h | h
    · exact h hst
    · simp [haligned] at h
    · omega
  · exact takes_of_done (if_pos (by simp [hoff]))
  · exact takes_of_done (if_pos (by simp [hoff]))
  · exact takes_of_done (execStreamCheckWord_of_down hrec hdown)
  · exact takes_of_done (if_neg fun h => by simp [hdown] at h)
  · refine takes_of_done (if_neg fun ⟨_, hst, haligned⟩ => ?_)
    rcases hother with h | h
    · exact h hst
    · simp [haligned] at h

end Sys2Proof.Machine
end

section
/-!
SUPPORT. The links (R277 to R307): what a link is after an update of it, and what counting, recording, sending and the choice of routes leave
of it.
-/

namespace Sys2Proof.Machine
open Sys2Proof

/-! ## One link after an update -/

section
variable {s t : State} {i j : Nat} {f : Lnk → Lnk}

/-- A link that is not as at reset is what the update made of it. -/
theorem link_onLink_of_ne (h : f (link s i) ≠ {}) : link (onLink i f s) i = f (link s i) := tget_tset_of_ne _ _ _ h

theorem link_onLink_of_st (h : (f (link s i)).st ≠ 0) : link (onLink i f s) i = f (link s i) := link_onLink_of_ne (ne_of_apply_ne (·.st) h)

/-- In the canonical form of the table any link is. -/
theorem link_onLink_same (hwf : Table.wf {} s.links = true) : link (onLink i f s) i = f (link s i) := tget_tmod_same _ _ _ _ hwf

theorem link_onLink_other (h : j ≠ i) : link (onLink i f s) j = link s j := tget_tmod_other _ _ _ h

/-- What the update leaves of every link, where it is not as at reset. -/
theorem link_onLink_keeps {β : Type} {g : Lnk → β} (hf : ∀ k, g (f k) = g k) (h : g (link s j) ≠ g {}) :
    g (link (onLink i f s) j) = g (link s j) := by
  by_cases hj : j = i
  · subst hj
    rw [link_onLink_of_ne (ne_of_apply_ne g ((hf _).trans_ne h)), hf]
  · rw [link_onLink_other hj]

theorem wf_onLink (hwf : Table.wf {} s.links = true) : Table.wf {} (onLink i f s).links = true := wf_tmod _ _ hwf

theorem link_congr (h : t.links = s.links) (j : Nat) : link t j = link s j := by rw [link, h, link]

end

/-! ## What leaves the links alone -/

section
variable (u code n src operand i : Nat) (s : State)

@[simp] theorem count_links : (count u code n s).links = s.links := congrArg (·.links) (besideCounting_count u code n s)
@[simp] theorem tlpIn_links : (tlpIn s).links = s.links := congrArg (·.links) (besideCounting_tlpIn s)
@[simp] theorem event_links : (event code src operand s).links = s.links := congrArg (·.links) (besideRecording_event code src operand s)
@[simp] theorem link_count (j : Nat) : link (count u code n s) j = link s j := link_congr (count_links u code n s) j
@[simp] theorem link_tlpIn (j : Nat) : link (tlpIn s) j = link s j := link_congr (tlpIn_links s) j
@[simp] theorem link_event (j : Nat) : link (event code src operand s) j = link s j := link_congr (event_links code src operand s) j

/-- The sets that go out in training are no part of the link. -/
@[simp] theorem link_sendSets (j : Nat) : link (sendSets i s) j = link s j := by
  unfold sendSets
  refine each_keeps _ _ (fun t => link t j) ?_ s
  exact fun _ _ => rfl

@[simp] theorem link_recomputeRoutes (j : Nat) : link (recomputeRoutes s) j = link s j := by
  unfold recomputeRoutes
  generalize upto 8 = l
  refine each_keeps l _ (fun t => link t j) ?_ s
  exact fun _ _ => rfl

end

/-! ## What sending leaves of the links (R286, R289, R297, R299) -/

/-- A link without what sending moves on: its credits, its sequence, the flits held for replay, the scramblers of what it sends, and the
messages that wait. -/
def besideSending (k : Lnk) : Lnk := { k with
  crQ := 0, crS := 0, crW := 0, crP := 0, crD := 0, txSeq := 0, txCount := 0, replay := [], scrTx := [], held := [], oldHeld := [] }

/-- From `s` to `t` the links that are not as at reset have done nothing but send. -/
def SendsOnly (s t : State) : Prop :=
  ∀ j, besideSending (link s j) ≠ besideSending {} → besideSending (link t j) = besideSending (link s j)

section
variable {s t u : State} {i : Nat}

theorem SendsOnly.of_links (h : ∀ j, link t j = link s j) : SendsOnly s t := fun j _ => congrArg besideSending (h j)

theorem SendsOnly.trans (h : SendsOnly s t) (k : SendsOnly t u) : SendsOnly s u := fun j hj =>
  (k j ((h j hj).trans_ne hj)).trans (h j hj)

/-- A link that is in some state is not as at reset. -/
theorem SendsOnly.of_st (h : SendsOnly s t) (hst : (link s i).st ≠ 0) : besideSending (link t i) = besideSending (link s i) :=
  h i (ne_of_apply_ne (·.st) hst)

theorem sendsOnly_onLink {f : Lnk → Lnk} (hf : ∀ k, besideSending (f k) = besideSending k) : SendsOnly s (onLink i f s) :=
  fun _ hj => link_onLink_keeps hf hj

theorem sendsOnly_ite {c : Prop} [Decidable c] (ht : SendsOnly s t) (hu : SendsOnly s u) : SendsOnly s (if c then t else u) := by
  split
  · exact ht
  · exact hu

theorem sendsOnly_each {α : Type} (l : List α) (f : α → State → State) (hf : ∀ x s, SendsOnly s (f x s)) (s : State) :
    SendsOnly s (each l f s) := by
  induction l generalizing s with
  | nil => exact .of_links fun _ => rfl
  | cons x l ih => exact (hf x s).trans (ih (f x s))

end

section
variable (i cls : Nat) (o : Out) (s : State)

/-- A link that has sent a sequenced flit, which it holds for replay (R289). -/
def flitSent (i : Nat) (x : Sent) (k : Lnk) : Lnk := { k with
  txSeq := (k.txSeq + 1) % 4096, replay := k.replay ++ [x], txCount := if sealing i k then k.txCount + 1 else k.txCount
  scrTx := scrPast k.width k.scrTx }

/-- A link that has sent an IDLE flit. -/
def idleSent (k : Lnk) : Lnk := { k with scrTx := scrPast k.width k.scrTx }

theorem links_sendRaw (ty start cr : Nat) (slots : List (BitVec 128)) (msg : Option Out) : ∃ x : Sent, x.fseq = (link s i).txSeq ∧
    x.msg = msg ∧ (sendRaw i ty start cr slots msg s).links = (onLink i (flitSent i x) s).links :=
  ⟨_, rfl, rfl, count_links _ _ _ _⟩

theorem sendsOnly_sendRaw (ty start cr : Nat) (slots : List (BitVec 128)) (msg : Option Out) :
    SendsOnly s (sendRaw i ty start cr slots msg s) := by
  obtain ⟨x, -, -, hlinks⟩ := links_sendRaw i s ty start cr slots msg
  exact (sendsOnly_onLink (f := flitSent i x) fun _ => rfl).trans (.of_links (link_congr hlinks))

theorem sendsOnly_sendIdle (nak : Bool) : SendsOnly s (sendIdle i nak s) :=
  (sendsOnly_onLink (f := idleSent) fun _ => rfl).trans (.of_links fun _ => rfl)

theorem besideSending_spend (k : Lnk) : besideSending (spend cls k) = besideSending k := by
  unfold spend
  repeat' split
  all_goals rfl

theorem sendsOnly_sendFlit : SendsOnly s (sendFlit i cls o s) := by
  unfold sendFlit
  extract_lets slots cap ty s₁ s₂ s₃
  have h₁ : SendsOnly s s₁ := sendsOnly_onLink (besideSending_spend cls)
  have h₂ : SendsOnly s₁ s₂ := sendsOnly_ite (sendsOnly_sendRaw _ _ _ _ _ _ _)
    ((sendsOnly_sendRaw _ _ _ _ _ _ _).trans (sendsOnly_sendRaw _ _ _ _ _ _ _))
  have h₃ : SendsOnly s s₃ := (h₁.trans h₂).trans (.of_links fun _ => rfl)
  exact sendsOnly_ite (h₃.trans (.of_links fun j => link_count _ _ _ _ j)) h₃

theorem sendsOnly_emit : SendsOnly s (emit o s) := by
  unfold emit
  split
  · exact sendsOnly_ite (.of_links fun _ => rfl)
      (sendsOnly_ite (.of_links fun j => link_count _ _ _ s j) (.of_links fun _ => rfl))
  · split
    · exact sendsOnly_onLink fun _ => rfl
    · exact sendsOnly_ite (sendsOnly_sendFlit _ _ _ s) (sendsOnly_ite (sendsOnly_onLink fun _ => rfl) (.of_links fun _ => rfl))
    · exact .of_links fun _ => rfl

theorem sendsOnly_releaseHeld : SendsOnly s (releaseHeld i s) := by
  unfold releaseHeld
  refine (sendsOnly_onLink (f := fun k => { k with held := [] }) fun _ => rfl).trans (sendsOnly_each _ _ (fun h t => ?_) _)
  exact sendsOnly_ite (sendsOnly_sendFlit _ _ _ t) (sendsOnly_onLink fun _ => rfl)

theorem sendsOnly_sendHello (d : Nat) : SendsOnly s (sendHello d s) := by
  unfold sendHello sendGroup
  split
  · exact sendsOnly_emit _ s
  · exact .of_links fun _ => rfl

/-! ## What a message leaves of the other links (R286, R311) -/

theorem link_sendRaw_other (ty start cr : Nat) (slots : List (BitVec 128)) (msg : Option Out) {j : Nat} (h : j ≠ i) :
    link (sendRaw i ty start cr slots msg s) j = link s j := by
  obtain ⟨x, -, -, hlinks⟩ := links_sendRaw i s ty start cr slots msg
  exact (link_congr hlinks j).trans (link_onLink_other h)

theorem link_sendFlit_other {j : Nat} (h : j ≠ i) : link (sendFlit i cls o s) j = link s j := by
  unfold sendFlit
  extract_lets slots cap ty s₁ s₂ s₃
  have h₁ : link s₁ j = link s j := link_onLink_other h
  have h₂ : link s₂ j = link s₁ j := ite_keeps (fun t => link t j) (link_sendRaw_other _ _ _ _ _ _ _ h)
    ((link_sendRaw_other _ _ _ _ _ _ _ h).trans (link_sendRaw_other _ _ _ _ _ _ _ h))
  exact ite_keeps (fun t => link t j) ((link_count _ _ _ _ j).trans (h₂.trans h₁)) (h₂.trans h₁)

/-- The port whose loss makes a message wait is a Coping port. -/
theorem le_of_holdPort {p : Nat} (h : holdPort s o = some p) : 8 ≤ p := by
  obtain ⟨d, -, hfind⟩ := Option.bind_eq_some_iff.mp h
  have hmem := List.mem_of_find?_eq_some hfind
  simp only [List.mem_cons, List.not_mem_nil, or_false] at hmem
  omega

/-- A message that is relayed over Coping leaves the Halyard ports alone. -/
theorem link_emit_relay (l : Nat) (slots : List (BitVec 128)) {j : Nat} (hj : j < 8) : link (emit (.relay l cls slots) s) j = link s j := by
  have hport : outPort s (.relay l cls slots) = some (some (8 + l), cls) := rfl
  have hother : j ≠ 8 + l := by omega
  unfold emit
  rw [hport]
  dsimp only
  split
  · next p hhold =>
    have hp := le_of_holdPort _ _ hhold
    exact link_onLink_other (by omega)
  · next p _ hp =>
    cases hp
    exact ite_keeps (fun t => link t j) (link_sendFlit_other _ _ _ _ hother) (ite_keeps (fun t => link t j) (link_onLink_other hother) rfl)
  · rfl

/-! ## The table of links keeps its form -/

theorem wf_links_sendRaw (ty start cr : Nat) (slots : List (BitVec 128)) (msg : Option Out) (hwf : Table.wf {} s.links = true) :
    Table.wf {} (sendRaw i ty start cr slots msg s).links = true := by
  obtain ⟨x, -, -, hlinks⟩ := links_sendRaw i s ty start cr slots msg
  exact hlinks ▸ wf_onLink hwf

theorem wf_links_sendFlit (hwf : Table.wf {} s.links = true) : Table.wf {} (sendFlit i cls o s).links = true := by
  unfold sendFlit
  extract_lets slots cap ty s₁ s₂ s₃
  have h₁ : Table.wf {} s₁.links = true := wf_onLink hwf
  have h₂ : Table.wf {} s₂.links = true := ite_keeps (fun t => Table.wf {} t.links) (wf_links_sendRaw _ _ _ _ _ _ _ h₁)
    (wf_links_sendRaw _ _ _ _ _ _ _ (wf_links_sendRaw _ _ _ _ _ _ _ h₁))
  split
  · rw [count_links]
    exact h₂
  · exact h₂

end

end Sys2Proof.Machine
end

section
/-!
SUPPORT. A Halyard port leaves operation (R208, R235, R298, R561): what becomes of its link, and what the loss of its agent leaves alone. A
port that starts DETECT (R292), and one whose checks have failed (R302).
-/

namespace Sys2Proof.Machine
open Sys2Proof

/-! ## What the loss of an agent leaves alone (R208) -/

/-- The state without what the loss of an agent touches: the home and the ordering, the counters, the outputs and the pending bits of the
overflow message, and the event recorder. -/
def besideLoss (s : State) : State := { besideHostPort s with evr := {}, flash := {} }

section
variable (a lg code src operand u c n : Nat) (s : State)

theorem besideLoss_of_besideHostPort {s t : State} (h : besideHostPort t = besideHostPort s) : besideLoss t = besideLoss s :=
  congrArg (fun x : State => { x with evr := {}, flash := {} }) h

theorem besideLoss_of_besideRecording {s t : State} (h : besideRecording t = besideRecording s) : besideLoss t = besideLoss s :=
  congrArg besideHostPort h

theorem besideLoss_count : besideLoss (count u c n s) = besideLoss s :=
  congrArg (fun x : State => { besideHostPort x with evr := {}, flash := {} }) (besideDraining_count u c n s)

theorem besideLoss_event : besideLoss (event code src operand s) = besideLoss s :=
  besideLoss_of_besideRecording (besideRecording_event code src operand s)

theorem besideLoss_onDir (f : Dir → Dir) : besideLoss (onDir f s) = besideLoss s := rfl

theorem besideLoss_onOrd (f : Ord → Ord) : besideLoss (onOrd f s) = besideLoss s := rfl

theorem besideLoss_setDirEnt (k : Nat) (e : Option DirEnt) : besideLoss (setDirEnt k e s) = besideLoss s := rfl

theorem besideLoss_record (st : DirSt) : besideLoss (record lg st s) = besideLoss s := by
  unfold record
  split
  · exact (besideLoss_setDirEnt _ _ _).trans (ite_keeps besideLoss (besideLoss_count _ _ _ _) rfl)
  · rfl

theorem besideLoss_close (t : Txn) : besideLoss (close t s) = besideLoss s := besideLoss_record _ s _

theorem besideLoss_leaveEnt : besideLoss (leaveEnt a lg s) = besideLoss s := by
  unfold leaveEnt
  repeat' split
  all_goals rfl

theorem besideLoss_leaveRecorded : besideLoss (leaveRecorded a lg s) = besideLoss s := by
  unfold leaveRecorded
  split
  · exact besideLoss_leaveEnt _ _ _
  · exact ite_keeps besideLoss rfl (besideLoss_record _ _ _)

theorem besideLoss_reserve (from_ : Src) (gaddr rsv : Nat) (d : Granule) (poison : Bool) :
    besideLoss (reserve from_ a gaddr lg rsv d poison s) = besideLoss s := ite_keeps besideLoss rfl rfl

/-- Of the loss of an agent only the home, its counts and the event show anything. -/
theorem besideLoss_loseAgent : besideLoss (loseAgent a s) = besideLoss s := by
  unfold loseAgent
  extract_lets link s₁ s₂ owned s₃ s₄ s₅ s₆ s₇
  have h₁ : besideLoss s₁ = besideLoss s := besideLoss_onDir s _
  have h₂ : besideLoss s₂ = besideLoss s₁ := each_keeps _ _ besideLoss (fun t s => besideLoss_close s t) s₁
  have h₃ : besideLoss s₃ = besideLoss s₂ := besideLoss_onDir s₂ _
  have h₄ : besideLoss s₄ = besideLoss s₃ := besideLoss_onOrd s₃ _
  have h₅ : besideLoss s₅ = besideLoss s₄ := each_keeps _ _ besideLoss
    (fun lg s => (besideLoss_reserve a lg _ _ _ _ _ _).trans (besideLoss_leaveRecorded a lg s)) s₄
  have h₆ : besideLoss s₆ = besideLoss s₅ := by
    refine each_keeps _ _ besideLoss (fun p s => ?_) s₅
    split
    · split
      · exact ite_keeps besideLoss rfl (besideLoss_record _ _ _)
      · rfl
    · rfl
  have h₇ : besideLoss s₇ = besideLoss s₆ := besideLoss_onDir s₆ _
  exact (besideLoss_event _ _ _ s₇).trans (h₇.trans (h₆.trans (h₅.trans (h₄.trans (h₃.trans (h₂.trans h₁))))))

/-- The agent is marked as lost. -/
theorem lost_loseAgent {a : Nat} (h : a < 64) (s : State) : (loseAgent a s).dir.lost.getLsbD a = true := by
  unfold loseAgent
  extract_lets link s₁ s₂ owned s₃ s₄ s₅ s₆ s₇
  have h₇ : s₇.dir.lost = s₆.dir.lost ||| BitVec.ofNat 64 (1 <<< a) := rfl
  rw [event_dir, h₇]
  simp only [BitVec.getLsbD_or, BitVec.getLsbD_ofNat, Nat.one_shiftLeft, Nat.testBit_two_pow_self, decide_eq_true h, Bool.and_self, Bool.or_true]

end

/-! ## A port leaves operation (R298, R561) -/

section
variable {s : State} {i cause reason st : Nat}

/-- The state without what the loss of an agent and the messages that go out touch. -/
def besideLeaving (s : State) : State := besideLoss (besideCompletions s)

theorem besideLeaving_emit (o : Out) (s : State) : besideLeaving (emit o s) = besideLeaving s := congrArg besideLoss (besideCompletions_emit o s)

theorem besideLeaving_of_besideLoss {s t : State} (h : besideLoss t = besideLoss s) : besideLeaving t = besideLeaving s :=
  congrArg besideCompletions h

theorem links_of_besideLoss {s t : State} (h : besideLoss t = besideLoss s) : t.links = s.links := congrArg (·.links) h

theorem loseAgent_links (a : Nat) (s : State) : (loseAgent a s).links = s.links := links_of_besideLoss (besideLoss_loseAgent a s)

/-- What waited at the port and in its buffer is gone, and nothing else. -/
theorem besideHostPort_drainWhere_dropPort (p : GbEnt → Bool) (src : Src) (s : State) :
    besideHostPort (drainWhere p (dropPort src s)) = besideHostPort s := by rw [besideHostPort_drainWhere, besideHostPort_dropPort]

theorem drainWhere_dropPort_links (p : GbEnt → Bool) (src : Src) (s : State) : (drainWhere p (dropPort src s)).links = s.links :=
  congrArg (·.links) (besideHostPort_drainWhere_dropPort p src s)

theorem leaveLink_of_training (h : inOperation (link s i) = false) : leaveLink i cause reason st s = onLink i (fun k => freshLink k st) s :=
  if_pos (by simp [h])

/-- A Halyard port in operation leaves it with an event: what it received and has not passed on is dropped, and its agent is lost. -/
theorem leaveLink_hal (hi : i < 8) (h : inOperation (link s i) = true) : ∃ e, besideRecording e = besideRecording s ∧
    leaveLink i cause reason st s = loseAgent (e.grp.id * 8 + i) (answerSnoops i (link s i).snoops
      (drainWhere (fun g => g.buf == i) (dropPort (.hal i) (onLink i (fun k => freshLink k st) e)))) :=
  ⟨event 0x0505 (0x40 + i) (eventPort i + 256 * cause + 65536 * reason) s, besideRecording_event _ _ _ s,
    (if_neg (by simp [h])).trans (if_pos hi)⟩

/-- An update of a link in a state with the same links. -/
theorem link_onLink_congr {t : State} {f : Lnk → Lnk} (h : t.links = s.links) : link (onLink i f t) i = link (onLink i f s) i :=
  link_congr (congrArg (fun l => tmod {} l i f) h) i

theorem link_answerSnoops (hi : i < 8) (n : Nat) (l : List (Nat × Nat)) (s : State) : link (answerSnoops n l s) i = link s i := by
  unfold answerSnoops
  refine each_keeps l _ (fun t => link t i) (fun x t => ?_) s
  dsimp only
  split
  · exact link_emit_relay _ _ _ _ hi
  · rfl

theorem besideLeaving_answerSnoops (n : Nat) (l : List (Nat × Nat)) (s : State) : besideLeaving (answerSnoops n l s) = besideLeaving s := by
  unfold answerSnoops
  refine each_keeps l _ besideLeaving (fun x t => ?_) s
  dsimp only
  split
  · exact besideLeaving_emit _ _
  · rfl

/-- The link is as before training. -/
theorem link_leaveLink (hi : i < 8) : link (leaveLink i cause reason st s) i = link (onLink i (fun k => freshLink k st) s) i := by
  cases h : inOperation (link s i) with
  | false => rw [leaveLink_of_training h]
  | true =>
    obtain ⟨e, he, hleave⟩ := leaveLink_hal (cause := cause) (reason := reason) (st := st) hi h
    rw [hleave, link_congr (loseAgent_links _ _), link_answerSnoops hi, link_congr (drainWhere_dropPort_links _ _ _)]
    exact link_onLink_congr (congrArg (·.links) he)

theorem link_leaveLink_same (hi : i < 8) (hwf : Table.wf {} s.links = true) :
    link (leaveLink i cause reason st s) i = freshLink (link s i) st := (link_leaveLink hi).trans (link_onLink_same hwf)

theorem link_leaveLink_of_st (hi : i < 8) (hst : st ≠ 0) : link (leaveLink i cause reason st s) i = freshLink (link s i) st :=
  (link_leaveLink hi).trans (link_onLink_of_st hst)

theorem besideLeaving_onLink (f : Lnk → Lnk) (s : State) : besideLeaving (onLink i f s) = besideLeaving s := rfl

/-- What is neither a link, nor the home's, nor a count or an event, stands. -/
theorem besideLeaving_leaveLink (hi : i < 8) : besideLeaving (leaveLink i cause reason st s) = besideLeaving s := by
  cases h : inOperation (link s i) with
  | false => rw [leaveLink_of_training h, besideLeaving_onLink]
  | true =>
    obtain ⟨e, he, hleave⟩ := leaveLink_hal (cause := cause) (reason := reason) (st := st) hi h
    rw [hleave, besideLeaving_of_besideLoss (besideLoss_loseAgent _ _), besideLeaving_answerSnoops,
      besideLeaving_of_besideLoss (besideLoss_of_besideHostPort (besideHostPort_drainWhere_dropPort _ _ _)), besideLeaving_onLink]
    exact besideLeaving_of_besideLoss (besideLoss_of_besideRecording he)

theorem plinth_leaveLink (hi : i < 8) : (leaveLink i cause reason st s).plinth = s.plinth := congrArg (·.plinth) (besideLeaving_leaveLink hi)

theorem lost_leaveLink (hi : i < 8) (hid : s.grp.id < 8) (h : inOperation (link s i) = true) :
    (leaveLink i cause reason st s).dir.lost.getLsbD (s.grp.id * 8 + i) = true := by
  obtain ⟨e, he, hleave⟩ := leaveLink_hal (cause := cause) (reason := reason) (st := st) hi h
  have hgrp : e.grp = s.grp := congrArg (·.grp) he
  rw [hleave, hgrp]
  exact lost_loseAgent (by omega) _

end

/-! ## DETECT (R292) -/

section
variable {s : State} {i : Nat}

/-- A link that begins DETECT. -/
def detecting (k : Lnk) : Lnk := { freshLink k 1 with failed := false }

theorem startDetect_of_ready (henable : (link s i).enable = true) (hdead : (link s i).dead = false) (hst : (link s i).st = 0)
    (hclosing : (link s i).closing = false) (hrst : i < 8 → s.plinth.agtRst.getLsbD i = false) (hclk : clocked s i = true)
    (hmem : s.glb.memReady = true) : startDetect i s = onLink i detecting s := by
  have hrst' : (decide (i < 8) && s.plinth.agtRst.getLsbD i) = false := by
    rw [Bool.and_eq_false_imp]
    exact fun hi => hrst (of_decide_eq_true hi)
  exact if_pos (by simp [henable, hdead, hst, hclosing, hrst', hclk, hmem])

theorem link_onLink_detecting : link (onLink i detecting s) i = detecting (link s i) := link_onLink_of_st Nat.one_ne_zero

/-- The link begins DETECT, or is as it was. -/
theorem link_startDetect (i : Nat) (s : State) : link (startDetect i s) i = link s i ∨ link (startDetect i s) i = detecting (link s i) := by
  unfold startDetect
  extract_lets k rst
  split
  · exact .inr link_onLink_detecting
  · exact .inl rfl

theorem plinth_startDetect (i : Nat) (s : State) : (startDetect i s).plinth = s.plinth := ite_keeps (·.plinth) rfl rfl

end

/-! ## A link whose checks fail (R301, R302) -/

/-- In training the link is DISABLED at once, and stays so. -/
theorem link_authFail_of_config {s : State} {i : Nat} (hst : (link s i).st = 4) :
    (link (authFail i s) i).st = 0 ∧ (link (authFail i s) i).dead = true := by
  unfold authFail
  extract_lets s₁ s₂
  have h₂ : link s₂ i = link s i := ite_keeps (fun t => link t i) (link_event _ _ _ s i) ((link_event _ _ _ s₁ i).trans (link_event _ _ _ s i))
  have hdead : link (onLink i (fun k => { k with dead := true }) s₂) i = { link s i with dead := true } := by
    rw [link_onLink_of_ne (ne_of_apply_ne (·.dead) (by simp)), h₂]
  have hlink := link_onLink_of_ne (f := fun k => freshLink k 0) (s := onLink i (fun k => { k with dead := true }) s₂) (i := i)
    (ne_of_apply_ne (·.dead) (by simp [hdead, freshLink]))
  rw [leaveLink_of_training (by simp [hdead, inOperation, hst]), hlink, hdead]
  exact ⟨rfl, rfl⟩

end Sys2Proof.Machine
end

section
/-!
PROOF. Training and its times (R292, R294, R449; O28): what the timeout of a training state makes of a link, how DETECT goes on, and the end of
the stretch of an agent's reset.
-/

namespace Sys2Proof.Machine
open Sys2Proof

section
variable {s t : State} {i : Nat} {p : Port}

/-! ## The commands of a port that the module has -/

theorem engages_onPortHere {c : Instr} {f : Nat → State → State} (hexec : exec c s = onPortHere p f s) (hport : portHere p = true) :
    Engages c s (f (portIdx p) s) := engages_of_settled (hexec.trans (if_pos hport))

theorem portHere_of_linkIn {st : Nat} (h : linkIn s p st = true) : portHere p = true ∧ (link s (portIdx p)).st = st := by
  simpa [linkIn] using h

/-! ## The timeout of a training state (R292, R294) -/

theorem stateTimeout_detect (hst : (link s i).st = 1) : stateTimeout i s = onLink i (fun k => { k with failed := true, lock := 0 }) s := by
  simp only [stateTimeout, hst]

/-- POLLING ends with a bound on the width of the next attempt. -/
theorem stateTimeout_polling (hst : (link s i).st = 2) : ∃ maxW : Lnk → Nat,
    stateTimeout i s = onLink i (fun k => { freshLink k 1 with maxW := maxW k }) s := by
  simp only [stateTimeout, hst]
  exact ⟨_, rfl⟩

theorem stateTimeout_equalize (hst : (link s i).st = 3) : stateTimeout i s = equalizeFails i s := by simp only [stateTimeout, hst]

theorem stateTimeout_config (hi : i < 8) (hst : (link s i).st = 4) : stateTimeout i s = onLink i (fun k => freshLink k 1) s := by
  simp only [stateTimeout, hst]
  exact if_neg (by omega)

theorem stateTimeout_recovery (hst : (link s i).st = 6) : stateTimeout i s = leaveLink i 5 0 1 s := by simp only [stateTimeout, hst]

theorem stateTimeout_other (hst : (link s i).st = 5 ∨ (link s i).st = 0) : stateTimeout i s = s := by
  rcases hst with hst | hst <;> simp only [stateTimeout, hst]

theorem link_stateTimeout_detect (hst : (link s i).st = 1) :
    (link (stateTimeout i s) i).failed = true ∧ (link (stateTimeout i s) i).st = 1 := by
  rw [stateTimeout_detect hst, link_onLink_of_st (by simp [hst])]
  exact ⟨rfl, hst⟩

theorem link_stateTimeout_polling (hst : (link s i).st = 2) :
    (link (stateTimeout i s) i).st = 1 ∧ (link (stateTimeout i s) i).tryHalf = (link s i).tryHalf := by
  obtain ⟨maxW, htimeout⟩ := stateTimeout_polling hst
  rw [htimeout, link_onLink_of_st Nat.one_ne_zero]
  exact ⟨rfl, rfl⟩

/-- What a failed EQUALIZE makes of a link, whichever attempt follows. -/
theorem link_equalizeFails (i : Nat) (s : State) : (link (equalizeFails i s) i).st = 1 ∧ (link (equalizeFails i s) i).tryHalf = true := by
  have hfails (f : Lnk → Lnk) (h : (f (link s i)).st = 1 ∧ (f (link s i)).tryHalf = true) :
      (link (onLink i f s) i).st = 1 ∧ (link (onLink i f s) i).tryHalf = true := by
    rwa [link_onLink_of_st (by simp [h.1])]
  refine hfails _ ?_
  dsimp only
  generalize (if i < 8 then 1 else 4) = least
  split
  · exact ⟨rfl, rfl⟩
  · next hhalf =>
    have hhalf' : (link s i).tryHalf = true := by simpa using hhalf
    split
    · exact ⟨rfl, hhalf'⟩
    · exact ⟨rfl, hhalf'⟩

theorem st_stateTimeout_hal (hi : i < 8) (hst : (link s i).st = 4 ∨ (link s i).st = 6) : (link (stateTimeout i s) i).st = 1 := by
  rcases hst with hst | hst
  · rw [stateTimeout_config hi hst, link_onLink_of_st Nat.one_ne_zero]
    rfl
  · rw [stateTimeout_recovery hst, link_leaveLink_of_st hi Nat.one_ne_zero]
    rfl

/-! ## DETECT goes on (R292) -/

theorem link_startPolling (i : Nat) (s : State) : link (startPolling i s) i = { link s i with st := 2, lock := 0 } := by
  rw [startPolling, link_sendSets, link_onLink_of_st (by simp)]

theorem execDetectRetry_of_not_detect (h : linkIn s p 1 = false) : execDetectRetry p s = done s s := if_neg (by simp [h])

theorem execReceiverDetected_of_not_detect (h : linkIn s p 1 = false) : execReceiverDetected p s = done s s := if_neg (by simp [h])

/-! ## The stretch of an agent's reset ends (R292, R449) -/

/-- AGT_RST_N of a port deasserts. -/
def deassertReset (p : Nat) (s : State) : State := onPlinth (fun x => { x with agtRst := clr8 x.agtRst p }) s

theorem getLsbD_clr8 {b : BitVec 8} {m : Nat} (h : m < 8) : (clr8 b m).getLsbD m = false := by
  simp [clr8, h]

/-- The stretch of a port ends. -/
def stretchEnded (p : Nat) : State → State := onLink p fun k => { k with stretch := false }

theorem stretchEnds_of_run {p : Nat} (h : (link s p).stretch = true) (hmem : s.glb.memReady = true) (hst : s.plinth.st = 2)
    (hdrain : s.pwr.drain = 0) : stretchEnds p s = startDetect p (deassertReset p (stretchEnded p s)) := by
  unfold stretchEnds
  rw [if_neg (by simp [h])]
  exact (if_neg (by simp [hmem, hst, hdrain])).trans (if_neg (by simp [hst]))

theorem stretchEnds_of_none {p : Nat} (h : (link s p).stretch = false) : stretchEnds p s = s := if_pos (by simp [h])

theorem engages_stretchEnds {p : Nat} (hp : p < 8) (s : State) : Engages (.agentResetStretchEnd p) s (stretchEnds p s) :=
  engages_onPortHere (p := .hal p) rfl (decide_eq_true hp)

/-- The agent may train again. -/
theorem link_stretchEnds {p : Nat} (hp : p < 8) (hwf : Table.wf {} s.links = true) (hmem : s.glb.memReady = true) :
    let t := startDetect p (deassertReset p (stretchEnded p s))
    (link t p).stretch = false ∧ ((link s p).enable = true → (link s p).dead = false → (link s p).st = 0 → (link s p).closing = false →
      clocked s p = true → (link t p).st = 1) := by
  have hlink : link (deassertReset p (stretchEnded p s)) p = { link s p with stretch := false } :=
    link_onLink_same (f := fun k => { k with stretch := false }) hwf
  refine ⟨?_, fun henable hdead hst hclosing hclk => ?_⟩
  · rcases link_startDetect p (deassertReset p (stretchEnded p s)) with h | h
    · rw [h, hlink]
    · rw [h, hlink]
      rfl
  · have hdetect : startDetect p (deassertReset p (stretchEnded p s)) = onLink p detecting (deassertReset p (stretchEnded p s)) := by
      refine startDetect_of_ready ?_ ?_ ?_ ?_ (fun _ => getLsbD_clr8 hp) hclk hmem <;> rwa [hlink]
    rw [hdetect, link_onLink_detecting]
    rfl

end

/-- Settles O28: each training state has one outcome of its timeout, DETECT goes on with one update of the link, and at the end of its stretch
a port starts DETECT. -/
theorem trainingHasItsTimes : Obligations.TrainingHasItsTimes := by
  unfold Obligations.TrainingHasItsTimes
  refine ⟨fun s p hport => engages_onPortHere rfl hport, fun s p hport => ⟨fun hst => ?_, fun hst => ?_, fun hst => ?_, fun hi hst => ?_,
      fun hst => ?_⟩,
    fun s i => ⟨link_stateTimeout_detect, link_stateTimeout_polling, fun hst => ?_, stateTimeout_other⟩,
    fun s p hdetect hfailed => ⟨_, rfl, takes_of_done (if_pos (by simp [hdetect, hfailed])), ?_⟩,
    fun s p hdetect hfailed => ⟨_, rfl, takes_of_done (if_pos (by simp [hdetect, hfailed])), ?_⟩,
    fun s p hother => ⟨takes_of_done (execDetectRetry_of_not_detect hother), takes_of_done (execReceiverDetected_of_not_detect hother)⟩,
    fun s p hport hlo hhi hcannot => ⟨_, rfl, takes_of_done (if_pos (by simp [hport, hlo, hhi, hcannot])), event_links _ _ _ s⟩,
    fun s p hother => takes_of_done (if_neg fun h => ?_),
    fun s p hp hstretch hmem hst hdrain => ⟨_, rfl, ?_⟩, fun s p hp hstretch hmem hst hdrain => ?_, fun s p hp hstretch => ?_⟩
  · exact ⟨_, engages_onPortHere rfl hport, (link_stateTimeout_detect hst).symm⟩
  · exact ⟨_, engages_onPortHere rfl hport, link_stateTimeout_polling hst⟩
  · exact ⟨_, engages_onPortHere rfl hport, stateTimeout_equalize hst ▸ link_equalizeFails _ s⟩
  · exact ⟨_, engages_onPortHere rfl hport, st_stateTimeout_hal hi hst⟩
  · have htimeout : Engages (.linkStateTimeout p) s (stateTimeout (portIdx p) s) := engages_onPortHere rfl hport
    rwa [stateTimeout_other hst] at htimeout
  · exact stateTimeout_equalize hst ▸ link_equalizeFails i s
  · obtain ⟨-, hst⟩ := portHere_of_linkIn hdetect
    rw [link_onLink_of_st (by simp [hst])]
    exact ⟨rfl, hst⟩
  · rw [link_startPolling]
    exact ⟨rfl, rfl⟩
  · simp only [Bool.and_eq_true, decide_eq_true_eq] at h
    obtain ⟨⟨⟨-, hcannot⟩, hlo⟩, hhi⟩ := h
    rcases hother with h | h | h
    · omega
    · omega
    · simp [hcannot] at h
  · have hends := engages_stretchEnds hp s
    rwa [stretchEnds_of_run hstretch hmem hst hdrain] at hends
  · have hends := engages_stretchEnds hp s
    rw [stretchEnds_of_run hstretch hmem hst hdrain] at hends
    refine ⟨_, hends, ?_, fun ⟨hwf, _⟩ => link_stretchEnds hp hwf hmem⟩
    rw [plinth_startDetect]
    exact getLsbD_clr8 hp
  · have hends := engages_stretchEnds hp s
    rwa [stretchEnds_of_none hstretch] at hends

end Sys2Proof.Machine
end

section
/-!
PROOF. The host's writes to a port (R292, R298, R307, R449; O30): ENABLE, AGENT_RESET and RETRAIN, each by what it makes of the port's link.
-/

namespace Sys2Proof.Machine
open Sys2Proof

section
variable {s : State} {i p : Nat} {q : Port}

/-! ## The writes reach the port (R307, R324) -/

@[simp] theorem tlpIn_plinth (s : State) : (tlpIn s).plinth = s.plinth := congrArg (·.plinth) (besideCounting_tlpIn s)

@[simp] theorem tlpIn_now (s : State) : (tlpIn s).now = s.now := congrArg (·.now) (besideCounting_tlpIn s)

/-- A write that reaches a port has its effect. -/
theorem engages_portWrite {c : Instr} {f : State → State} (hexec : exec c s = onPortHere q (fun _ => hostBar c) s)
    (heffect : ∀ t, barEffect c t = hostWrites (offLink q) f t) (hport : portHere q = true) (hreach : HostReaches s (offLink q)) :
    Engages c s (f (tlpIn s)) := hostBar_of_reaches heffect hreach ▸ engages_onPortHere (f := fun _ => hostBar c) hexec hport

/-- Where BAR0 is not decoded nothing comes of one. -/
theorem engages_portWrite_of_down {c : Instr} (hexec : exec c s = onPortHere q (fun _ => hostBar c) s) (hport : portHere q = true)
    (hdown : hostUp s = false) : Engages c s s := by
  have hengages := engages_onPortHere (f := fun _ => hostBar c) hexec hport
  rwa [hostBar_of_down c hdown] at hengages

/-! ## ENABLE = 1 (R292, R307) -/

/-- A link whose ENABLE has been written. -/
def withEnable (on : Bool) (k : Lnk) : Lnk := { k with enable := on }

theorem enableLink_same {on : Bool} (h : (link s i).enable = on) : enableLink i on s = s := if_pos h

theorem enableLink_on (h : (link s i).enable = false) : enableLink i true s = startDetect i (onLink i (withEnable true) s) :=
  (if_neg (by simp [h])).trans (if_pos rfl)

theorem enableLink_off (h : (link s i).enable = true) : enableLink i false s = closeLink i (onLink i (withEnable false) s) :=
  (if_neg (by simp [h])).trans (if_neg Bool.false_ne_true)

/-- The port is enabled, and starts DETECT when it may train. -/
theorem link_enableLink_on (h : (link s i).enable = false) : (link (enableLink i true s) i).enable = true ∧
    ((link s i).dead = false → (link s i).st = 0 → (link s i).closing = false → (i < 8 → s.plinth.agtRst.getLsbD i = false) →
      clocked s i = true → s.glb.memReady = true → (link (enableLink i true s) i).st = 1) := by
  have hlink : link (onLink i (withEnable true) s) i = withEnable true (link s i) :=
    link_onLink_of_ne (ne_of_apply_ne (·.enable) (by simp [withEnable]))
  rw [enableLink_on h]
  refine ⟨?_, fun hdead hst hclosing hrst hclk hmem => ?_⟩
  · rcases link_startDetect i (onLink i (withEnable true) s) with h | h <;> exact h ▸ hlink ▸ rfl
  · have hdetect : startDetect i (onLink i (withEnable true) s) = onLink i detecting (onLink i (withEnable true) s) :=
      startDetect_of_ready (congrArg (·.enable) hlink) ((congrArg (·.dead) hlink).trans hdead) ((congrArg (·.st) hlink).trans hst)
        ((congrArg (·.closing) hlink).trans hclosing) hrst hclk hmem
    rw [hdetect, link_onLink_detecting]
    rfl

/-! ## ENABLE = 0 (R298) -/

theorem plinth_sendFlit (cls : Nat) (o : Out) (s : State) : (sendFlit i cls o s).plinth = s.plinth :=
  congrArg (·.plinth) (besideCompletions_sendFlit i cls o s)

theorem sendDown_of_room {cause reason : Nat} (hst : (link s i).st = 5) (hroom : (link s i).replay.length < 512) :
    sendDown i cause reason s =
      let u := sendFlit i 5 (.lctl (portOf i) 3 [reason]) s
      if i < 8 ∧ (leaveLink i cause 0 0 u).plinth.agtRst.getLsbD i then leaveLink i cause 0 0 u
      else onLink i (keepFlits (link u i)) (leaveLink i cause 0 0 u) := if_pos ⟨hst, hroom⟩

/-- An ACTIVE port that is closed is DISABLED. With room for its LINK_DOWN, and with its agent not in reset, it keeps its lanes until an ACK
covers that. -/
theorem link_sendDown {cause reason : Nat} (hi : i < 8) (hwf : Table.wf {} s.links = true) (hst : (link s i).st = 5) :
    ∃ k, besideSending k = besideSending (link s i) ∧
      (link (sendDown i cause reason s) i = freshLink k 0 ∨ link (sendDown i cause reason s) i = keepFlits k (freshLink k 0)) ∧
      ((link s i).replay.length < 512 → s.plinth.agtRst.getLsbD i = false →
        link (sendDown i cause reason s) i = keepFlits k (freshLink k 0)) := by
  by_cases hroom : (link s i).replay.length < 512
  · rw [sendDown_of_room hst hroom]
    extract_lets u
    have hleft : link (leaveLink i cause 0 0 u) i = freshLink (link u i) 0 := link_leaveLink_same hi (wf_links_sendFlit _ _ _ _ hwf)
    have hkept : link (onLink i (keepFlits (link u i)) (leaveLink i cause 0 0 u)) i = keepFlits (link u i) (freshLink (link u i) 0) := by
      rw [link_onLink_of_ne (ne_of_apply_ne (·.closing) (by simp [keepFlits])), hleft]
    have hrst : (leaveLink i cause 0 0 u).plinth = s.plinth := (plinth_leaveLink hi).trans (plinth_sendFlit _ _ s)
    refine ⟨link u i, (sendsOnly_sendFlit _ _ _ s).of_st (by simp [hst]), ?_, fun _ hout => ?_⟩
    · split
      · exact .inl hleft
      · exact .inr hkept
    · rwa [if_neg (by simp [hrst, hout])]
  · have hdown : sendDown i cause reason s = leaveLink i cause 0 0 s := if_neg fun h => hroom h.2
    rw [hdown]
    exact ⟨link s i, rfl, .inl (link_leaveLink_same hi hwf), fun h => absurd h hroom⟩

theorem link_closeLink (hi : i < 8) (hwf : Table.wf {} s.links = true) (hst : (link s i).st = 5) :
    (link (closeLink i s) i).st = 0 ∧ (link (closeLink i s) i).enable = (link s i).enable ∧
    ((link s i).replay.length < 512 → s.plinth.agtRst.getLsbD i = false →
      (link (closeLink i s) i).closing = true ∧ (link (closeLink i s) i).width = (link s i).width) := by
  obtain ⟨k, hk, hlink, hkept⟩ := link_sendDown (cause := 0) (reason := 0) hi hwf hst
  have henable : k.enable = (link s i).enable := congrArg (·.enable) hk
  rw [closeLink]
  refine ⟨?_, ?_, fun hroom hout => ?_⟩
  · rcases hlink with h | h <;> rw [h] <;> rfl
  · rcases hlink with h | h <;> rw [h] <;> exact henable
  · rw [hkept hroom hout]
    exact ⟨rfl, congrArg (·.width) hk⟩

theorem link_enableLink_off (hi : i < 8) (hwf : Table.wf {} s.links = true) (hon : (link s i).enable = true) (hst : (link s i).st = 5) :
    (link (enableLink i false s) i).st = 0 ∧ (link (enableLink i false s) i).enable = false ∧
    ((link s i).replay.length < 512 → s.plinth.agtRst.getLsbD i = false →
      (link (enableLink i false s) i).closing = true ∧ (link (enableLink i false s) i).width = (link s i).width) := by
  have hlink : link (onLink i (withEnable false) s) i = withEnable false (link s i) := link_onLink_same hwf
  have hclosed := link_closeLink hi (wf_onLink (f := withEnable false) hwf) ((congrArg (·.st) hlink).trans hst)
  rw [hlink] at hclosed
  rw [enableLink_off hon]
  exact hclosed

/-! ## AGENT_RESET (R307, R449) -/

theorem getLsbD_set8 {b : BitVec 8} {m : Nat} (h : m < 8) : (set8 b m).getLsbD m = true := by
  simp [set8, h]

/-- The port sends its LINK_DOWN, when it can, and leaves operation with AGT_RST_N asserted. -/
theorem resetAgent_eq (p : Nat) (s : State) : ∃ u, u.plinth = s.plinth ∧ (Table.wf {} s.links = true → Table.wf {} u.links = true) ∧
    resetAgent p s = onLink p (fun k => { k with stretch := true })
      (leaveLink p 1 0 0 (onPlinth (fun x => { x with agtRst := set8 x.agtRst p }) u)) := by
  unfold resetAgent
  extract_lets k u
  refine ⟨u, ite_keeps (·.plinth) (plinth_sendFlit _ _ s) rfl, fun hwf => ?_, rfl⟩
  show Table.wf {} (if _ then _ else _ : State).links = true
  split
  · exact wf_links_sendFlit _ _ _ _ hwf
  · exact hwf

theorem agtRst_resetAgent (hp : p < 8) (s : State) : (resetAgent p s).plinth.agtRst.getLsbD p = true := by
  obtain ⟨u, -, -, hreset⟩ := resetAgent_eq p s
  rw [hreset, onLink_plinth, plinth_leaveLink hp]
  exact getLsbD_set8 hp

theorem stretch_resetAgent (p : Nat) (s : State) : (link (resetAgent p s) p).stretch = true := by
  rw [resetAgent, link_onLink_of_ne (ne_of_apply_ne (·.stretch) (by simp))]

theorem inOperation_resetAgent (hp : p < 8) (hwf : Table.wf {} s.links = true) : inOperation (link (resetAgent p s) p) = false := by
  obtain ⟨u, -, hwfu, hreset⟩ := resetAgent_eq p s
  have hleft := link_leaveLink_same (s := onPlinth (fun x => { x with agtRst := set8 x.agtRst p }) u) (cause := 1) (reason := 0) (st := 0)
    hp (hwfu hwf)
  rw [hreset, link_onLink_of_ne (ne_of_apply_ne (·.stretch) (by simp)), inOperation, hleft]
  rfl

/-! ## RETRAIN (R292) -/

theorem enterRecovery_of_inactive (h : (link s i).st ≠ 5) : enterRecovery i s = s := if_pos h

theorem link_enterRecovery (hst : (link s i).st = 5)
    (hfew : ((link s i).recovs.filter fun t => decide (s.now < t + sec)).length < 2) : link (enterRecovery i s) i = { link s i with
      cntRecov := sat 64 (link s i).cntRecov 1, recovs := s.now :: (link s i).recovs.filter fun t => decide (s.now < t + sec)
      st := 6, lock := 0, nakRun := 0 } := by
  unfold enterRecovery
  extract_lets k rs u
  have hu : link u i = { link s i with cntRecov := sat 64 (link s i).cntRecov 1, recovs := rs } := link_onLink_of_st (by simp [hst])
  have hrs : ¬ 3 ≤ rs.length := by
    simp only [rs, List.length_cons, k]
    omega
  rw [if_neg (not_not.mpr hst), if_neg hrs, link_sendSets, link_onLink_of_st (by simp), hu]

end

/-- Settles O30: each write that reaches its port is one operation on the link, and the link is read off what that makes of it. -/
theorem portWritesAct : Obligations.PortWritesAct := by
  unfold Obligations.PortWritesAct
  refine ⟨fun s q on hport hreach => engages_portWrite rfl (fun _ => rfl) hport hreach,
    fun s q hport hreach => ⟨fun hoff => ⟨_, engages_portWrite rfl (fun _ => rfl) hport hreach, ?_⟩,
      fun ⟨hwf, _⟩ hi hon hst => ⟨_, engages_portWrite rfl (fun _ => rfl) hport hreach, ?_⟩⟩,
    fun s p hp hreach => ⟨_, rfl, engages_portWrite (q := .hal p) rfl (fun _ => rfl) (decide_eq_true hp) hreach, agtRst_resetAgent hp _,
      stretch_resetAgent p _, fun ⟨hwf, _⟩ => inOperation_resetAgent hp (tlpIn_links s ▸ hwf)⟩,
    fun s q hport hreach => engages_portWrite rfl (fun _ => rfl) hport hreach,
    fun s q hport hreach hst hfew => ⟨_, engages_portWrite rfl (fun _ => rfl) hport hreach, ?_⟩,
    fun s q n on hdown hport hn => ⟨engages_portWrite_of_down rfl hport hdown,
      engages_portWrite_of_down (q := .hal n) rfl (decide_eq_true hn) hdown, engages_portWrite_of_down rfl hport hdown⟩,
    fun s i => enableLink_same, fun s i => enterRecovery_of_inactive, fun s i => link_enterRecovery,
    fun s p ⟨hwf, _⟩ hp => ⟨agtRst_resetAgent hp s, stretch_resetAgent p s, inOperation_resetAgent hp hwf⟩⟩
  · have henable := link_enableLink_on (s := tlpIn s) (i := portIdx q) (by rwa [link_tlpIn])
    simpa only [link_tlpIn, tlpIn_plinth, tlpIn_glb, clocked, tlpIn_clk] using henable
  · have hclosed := link_enableLink_off (s := tlpIn s) hi (by rwa [tlpIn_links]) (by rwa [link_tlpIn]) (by rwa [link_tlpIn])
    simpa only [link_tlpIn, tlpIn_plinth] using hclosed
  · have hlink := link_enterRecovery (s := tlpIn s) (i := portIdx q) (by rwa [link_tlpIn]) (by rwa [link_tlpIn, tlpIn_now])
    rw [hlink, link_tlpIn]
    exact ⟨rfl, rfl⟩

end Sys2Proof.Machine
end

section
/-!
PROOF. Links complete their training (R287, R293, R298, R301, R302; O29): what training sets, the credits, the messages of the key exchange and
LINK_DOWN make of a link.
-/

namespace Sys2Proof.Machine
open Sys2Proof

/-! ## Training sets (R293) -/

section
variable {s : State} {i : Nat} {v : BitVec 256} {low : Bool}

theorem takeSet_of_bad (hset : readSet v = none) : takeSet i v low s =
    if (link s i).st = 4 ∧ (link s i).agree < 8 then onLink i (fun k => { k with agree := 0 }) s else s := by
  simp only [takeSet, hset]

/-- A set that gives a lane of a port in POLLING its lock ends POLLING when no lane of the agreed width is left. -/
theorem takeSet_of_polling {x : TrainSet} (hset : readSet v = some x) (hlane : x.lane < lanesOf i) (hst : (link s i).st = 2)
    (hlo : 1 ≤ x.state) (hhi : x.state ≤ 3) :
    let lock := (link s i).lock ||| (1 <<< x.lane)
    let w := min (lanesTried i (link s i)) (widthOf i x.width)
    takeSet i v low s = if lanesDone lock w then startEqualize i w ((link s i).tryHalf || !bitOf x.rate 0) s
      else onLink i (fun k => { k with lock }) s := by
  simp only [takeSet, hset]
  rw [if_neg (Nat.not_le.mpr hlane), if_pos hst, if_neg (not_not.mpr ⟨hlo, hhi⟩)]

theorem link_startEqualize (i w : Nat) (half : Bool) (s : State) : (link (startEqualize i w half s) i).st = 3 ∧
    (link (startEqualize i w half s) i).width = w ∧ (link (startEqualize i w half s) i).lock = 0 := by
  simp only [startEqualize, free, link_sendSets]
  rw [link_onLink_of_st (by simp)]
  exact ⟨rfl, rfl, rfl⟩

end

/-! ## A link comes into operation (R292, R310, R315) -/

/-- A link that has completed its training. -/
def operating (k : Lnk) : Lnk := { k with st := 5, tryHalf := false, maxW := 0, cannot := false }

theorem sendsOnly_activate (i : Nat) (s : State) : SendsOnly (onLink i operating s) (activate i s) := by
  unfold activate
  extract_lets s₁ s₂
  have h₂ : SendsOnly s₁ s₂ := (SendsOnly.of_links (link_recomputeRoutes s₁)).trans (sendsOnly_releaseHeld _ _)
  split
  · exact sendsOnly_releaseHeld i s₁
  · exact sendsOnly_ite (h₂.trans (sendsOnly_each _ _ (fun d t => sendsOnly_sendHello t d) s₂)) h₂

theorem besideSending_activate (i : Nat) (s : State) : besideSending (link (activate i s) i) = besideSending (operating (link s i)) := by
  have hlink : link (onLink i operating s) i = operating (link s i) := link_onLink_of_st (by simp [operating])
  rw [(sendsOnly_activate i s).of_st (by simp [hlink, operating]), hlink]

/-! ## The credits (R287, R301) -/

section
variable {s : State} {i q sc w pc d : Nat}

theorem takeCredits_of_enough (hi : i < 8) (hst : (link s i).st = 4) (hagree : (link s i).agree = 8) (hfirst : (link s i).credInit = false)
    (hsc : 16 ≤ sc) : takeCredits i q sc w pc d s =
      activate i (onLink i (fun k => { k with credInit := true, crQ := q % 4096, crS := sc % 4096, crW := w % 4096 }) s) :=
  (if_neg (by simp [hst, hagree, hfirst])).trans ((if_pos hi).trans (if_neg (Nat.not_lt.mpr hsc)))

theorem takeCredits_of_few (hi : i < 8) (hst : (link s i).st = 4) (hagree : (link s i).agree = 8) (hfirst : (link s i).credInit = false)
    (hsc : sc < 16) : takeCredits i q sc w pc d s = onLink i (fun k => freshLink k 1) s :=
  (if_neg (by simp [hst, hagree, hfirst])).trans ((if_pos hi).trans (if_pos hsc))

/-- With its credits a Halyard link is in operation. -/
theorem link_takeCredits_hal (hi : i < 8) (hst : (link s i).st = 4) (hagree : (link s i).agree = 8) (hfirst : (link s i).credInit = false)
    (hsc : 16 ≤ sc) : (link (takeCredits i q sc w pc d s) i).st = 5 ∧ (link (takeCredits i q sc w pc d s) i).credInit = true := by
  have hlink : link (onLink i (fun k => { k with credInit := true, crQ := q % 4096, crS := sc % 4096, crW := w % 4096 }) s) i = _ :=
    link_onLink_of_st (by simp [hst])
  have hactive := besideSending_activate i
    (onLink i (fun k => { k with credInit := true, crQ := q % 4096, crS := sc % 4096, crW := w % 4096 }) s)
  rw [hlink] at hactive
  rw [takeCredits_of_enough hi hst hagree hfirst hsc]
  exact ⟨congrArg (·.st) hactive, congrArg (·.credInit) hactive⟩

/-- A Coping link that has its credits and makes its offer, with a nonce and an ephemeral key. -/
def offering (q sc w pc d nonce priv : Nat) (k : Lnk) : Lnk := { k with
  credInit := true, crQ := q % 4096, crS := sc % 4096, crW := w % 4096, crP := pc % 4096, crD := d % 4096
  epoch := k.epoch + 1, offNonce := nonce % 2 ^ 128, offPriv := priv }

theorem takeCredits_cop (hi : ¬ i < 8) (hst : (link s i).st = 4) (hagree : (link s i).agree = 8) (hfirst : (link s i).credInit = false)
    (hepoch : (link s i).epoch + 1 < 0xFFFF) : ∃ nonce priv o, takeCredits i q sc w pc d s =
      emit o (onLink i (offering q sc w pc d nonce priv) { s with fv := s.fv + 1 + 1 }) :=
  ⟨Config.freeValue s.fv, Config.freeValue (s.fv + 1), _,
    (if_neg (by simp [hst, hagree, hfirst])).trans ((if_neg hi).trans (if_neg (Nat.not_le.mpr hepoch)))⟩

/-- With its credits a Coping link offers its key under the next epoch. -/
theorem link_takeCredits_cop (hi : ¬ i < 8) (hst : (link s i).st = 4) (hagree : (link s i).agree = 8) (hfirst : (link s i).credInit = false)
    (hepoch : (link s i).epoch + 1 < 0xFFFF) : (link (takeCredits i q sc w pc d s) i).st = 4 ∧
      (link (takeCredits i q sc w pc d s) i).credInit = true ∧ (link (takeCredits i q sc w pc d s) i).epoch = (link s i).epoch + 1 := by
  obtain ⟨nonce, priv, o, htake⟩ := takeCredits_cop (q := q) (sc := sc) (w := w) (pc := pc) (d := d) hi hst hagree hfirst hepoch
  have hlink : link (onLink i (offering q sc w pc d nonce priv) { s with fv := s.fv + 1 + 1 }) i =
      offering q sc w pc d nonce priv (link s i) := link_onLink_of_st (hst.trans_ne (by decide))
  have hsent := (sendsOnly_emit o _).of_st (i := i) ((congrArg (·.st) hlink).trans_ne (hst.trans_ne (by decide)))
  rw [hlink] at hsent
  rw [htake]
  exact ⟨(congrArg (·.st) hsent).trans hst, congrArg (·.credInit) hsent, congrArg (·.epoch) hsent⟩

end

/-! ## LINK_DOWN (R298) -/

section
variable {s : State} {i : Nat}

theorem takeLinkDown_of_training (reason : Nat) (h : inOperation (link s i) = false) : takeLinkDown i reason s = s := if_neg (by simp [h])

theorem takeLinkDown_of_operation (reason : Nat) (h : inOperation (link s i) = true) :
    takeLinkDown i reason s = leaveLink i 3 reason 1 (sendIdle i false s) := if_pos h

theorem inOperation_sendIdle (nak : Bool) (h : inOperation (link s i) = true) : inOperation (link (sendIdle i nak s) i) = true := by
  have hst : (link s i).st ≠ 0 := fun h0 => by simp [inOperation, h0] at h
  exact (congrArg inOperation ((sendsOnly_sendIdle i s nak).of_st hst)).trans h

/-- An operating Halyard link is back in DETECT, and its agent is lost. -/
theorem takeLinkDown_hal (reason : Nat) (hi : i < 8) (hid : s.grp.id < 8) (h : inOperation (link s i) = true) :
    (link (takeLinkDown i reason s) i).st = 1 ∧ (takeLinkDown i reason s).dir.lost.getLsbD (s.grp.id * 8 + i) = true := by
  rw [takeLinkDown_of_operation reason h]
  refine ⟨?_, lost_leaveLink (s := sendIdle i false s) hi hid (inOperation_sendIdle false h)⟩
  rw [link_leaveLink_of_st hi Nat.one_ne_zero]
  rfl

end

/-! ## The key exchange (R301, R302) -/

section
variable {s : State} {l : Nat} {o : KeyOffer}

theorem takeOffer_of_bad (hst : (link s (8 + l)).st = 4) (hcred : (link s (8 + l)).credInit = true) (hstage : (link s (8 + l)).keyStage = 0)
    (hbad : keyHash o.idKey ∉ s.glb.groupKeys ∨ peerOf s.grp.id s.grp.size l ≠ some o.grp) : takeOffer l o s = authFail (8 + l) s :=
  (if_neg (by simp [hst, hcred, hstage])).trans (if_pos hbad)

/-- An offer that passes its checks is answered and kept. -/
theorem link_takeOffer (hst : (link s (8 + l)).st = 4) (hcred : (link s (8 + l)).credInit = true) (hstage : (link s (8 + l)).keyStage = 0)
    (hkey : keyHash o.idKey ∈ s.glb.groupKeys) (hpeer : peerOf s.grp.id s.grp.size l = some o.grp) :
    (link (takeOffer l o s) (8 + l)).keyStage = 1 ∧ (link (takeOffer l o s) (8 + l)).peerOffer = some o ∧
      (link (takeOffer l o s) (8 + l)).st = 4 := by
  have haccept : ∃ m tx, takeOffer l o s = emit m (onLink (8 + l) (fun k => { k with keyStage := 1, peerOffer := some o, txKey := tx }) s) := by
    unfold takeOffer
    dsimp only
    rw [if_neg (by simp [hst, hcred, hstage]), if_neg (by simp [hkey, hpeer])]
    exact ⟨_, _, rfl⟩
  obtain ⟨m, tx, htake⟩ := haccept
  have hlink : link (onLink (8 + l) (fun k => { k with keyStage := 1, peerOffer := some o, txKey := tx }) s) (8 + l) = _ :=
    link_onLink_of_st (by simp [hst])
  have hsent := (sendsOnly_emit m (onLink (8 + l) (fun k => { k with keyStage := 1, peerOffer := some o, txKey := tx }) s)).of_st
    (i := 8 + l) (by simp [hlink, hst])
  rw [hlink] at hsent
  rw [htake]
  exact ⟨congrArg (·.keyStage) hsent, congrArg (·.peerOffer) hsent, (congrArg (·.st) hsent).trans hst⟩

/-- The peer's key has been proven (R301). -/
def proveKey (o : KeyOffer) : State → State := onGrp fun g => { g with proven := tset none g.proven o.grp (some (keyHash o.idKey)) }

/-- The peer's traffic key has been unwrapped, and KEY_DONE has gone. -/
def takeKey (i key : Nat) (o : KeyOffer) (s : State) : State :=
  onLink i (fun k => { k with keyStage := 2, peerKey := key, txCount := 0 }) (emit (.lctl (portOf i) 6 [(link s i).epoch]) (proveKey o s))

theorem takeWrap_of_offer (wrapped sig : Nat) (hst : (link s (8 + l)).st = 4) (hstage : (link s (8 + l)).keyStage = 1)
    (hoffer : (link s (8 + l)).peerOffer = some o) : takeWrap l wrapped sig s =
      match Config.keyUnwrap (wrapKeyOf (ownOffer s (link s (8 + l))) o (link s (8 + l)).offPriv) wrapped with
      | some key => if Config.ecdsaOk o.idKey (offersHash (ownOffer s (link s (8 + l))) o) sig then takeKey (8 + l) key o s else authFail (8 + l) s
      | none => authFail (8 + l) s := by
  simp only [takeWrap, hoffer]
  rw [if_neg (by simp [hst, hstage])]
  rfl

theorem takeKey_proves (i key : Nat) (o : KeyOffer) (s : State) : (link (takeKey i key o s) i).keyStage = 2 ∧
    (link (takeKey i key o s) i).peerKey = key ∧ tget none (takeKey i key o s).grp.proven o.grp = some (keyHash o.idKey) := by
  have hgrp : (takeKey i key o s).grp = (proveKey o s).grp := congrArg (·.grp) (besideCompletions_emit _ (proveKey o s))
  rw [hgrp, takeKey, link_onLink_of_ne (ne_of_apply_ne (·.keyStage) (by simp))]
  exact ⟨rfl, rfl, tget_tset_of_ne _ _ _ (by simp)⟩

theorem takeDone_of_wrapped {epoch : Nat} (hst : (link s (8 + l)).st = 4) (hstage : (link s (8 + l)).keyStage = 2)
    (hepoch : ((link s (8 + l)).peerOffer.map (·.epoch)) = some epoch) :
    takeDone l epoch s = activate (8 + l) (onLink (8 + l) (fun k => { k with keyed := true, rxCount := 0 }) s) :=
  (if_neg (by simp [hst, hstage])).trans (if_neg (by simpa using hepoch))

theorem link_takeDone {epoch : Nat} (hst : (link s (8 + l)).st = 4) (hstage : (link s (8 + l)).keyStage = 2)
    (hepoch : ((link s (8 + l)).peerOffer.map (·.epoch)) = some epoch) : (link (takeDone l epoch s) (8 + l)).st = 5 ∧
      (link (takeDone l epoch s) (8 + l)).keyed = true ∧ (link (takeDone l epoch s) (8 + l)).rxCount = 0 := by
  have hlink : link (onLink (8 + l) (fun k => { k with keyed := true, rxCount := 0 }) s) (8 + l) = _ := link_onLink_of_st (by simp [hst])
  have hactive := besideSending_activate (8 + l) (onLink (8 + l) (fun k => { k with keyed := true, rxCount := 0 }) s)
  rw [hlink] at hactive
  rw [takeDone_of_wrapped hst hstage hepoch]
  exact ⟨congrArg (·.st) hactive, congrArg (·.keyed) hactive, congrArg (·.rxCount) hactive⟩

end

/-! ## The commands, each on its port -/

section
variable {p : Port} {l : Nat} (s : State)

theorem engages_trainingSet (v : BitVec 256) (low : Bool) (hport : portHere p = true) :
    Engages (.trainingSet p v low) s (takeSet (portIdx p) v low s) := engages_of_settled (if_pos hport)

theorem engages_creditInit (q sc w pc d : Nat) (hport : portHere p = true) :
    Engages (.creditInit p q sc w pc d) s (takeCredits (portIdx p) q sc w pc d s) := engages_of_settled (if_pos hport)

theorem engages_linkDown (reason : Nat) (hport : portHere p = true) :
    Engages (.linkDown p reason) s (takeLinkDown (portIdx p) reason s) := engages_of_settled (if_pos hport)

theorem engages_creditInit_hal {n : Nat} (q sc w pc d : Nat) (hn : n < 8) :
    Engages (.creditInit (.hal n) q sc w pc d) s (takeCredits n q sc w pc d s) := engages_creditInit s q sc w pc d (decide_eq_true hn)

theorem engages_creditInit_cop (q sc w pc d : Nat) (hl : l < 4) :
    Engages (.creditInit (.cop l) q sc w pc d) s (takeCredits (8 + l) q sc w pc d s) := engages_creditInit s q sc w pc d (decide_eq_true hl)

theorem engages_linkDown_hal {n : Nat} (reason : Nat) (hn : n < 8) : Engages (.linkDown (.hal n) reason) s (takeLinkDown n reason s) :=
  engages_linkDown s reason (decide_eq_true hn)

theorem engages_keyOffer (o : KeyOffer) (hl : l < 4) : Engages (.keyOffer l o) s (takeOffer l o s) :=
  engages_of_settled (if_pos (decide_eq_true hl))

theorem engages_keyWrap (wrapped sig : Nat) (hl : l < 4) : Engages (.keyWrap l wrapped sig) s (takeWrap l wrapped sig s) :=
  engages_of_settled (if_pos (decide_eq_true hl))

theorem engages_keyDone (epoch : Nat) (hl : l < 4) : Engages (.keyDone l epoch) s (takeDone l epoch s) :=
  engages_of_settled (if_pos (decide_eq_true hl))

end

/-- Settles O29: each arrival is one operation on its link, and the link is read off what that makes of it. -/
theorem linksCompleteTheirTraining : Obligations.LinksCompleteTheirTraining := by
  unfold Obligations.LinksCompleteTheirTraining
  refine ⟨fun s p v low hport => engages_trainingSet s v low hport,
    fun s p v low x hport hset hlane hst hlo hhi => ⟨fun hdone => ⟨_, engages_trainingSet s v low hport, ?_⟩,
      fun hmore => ⟨_, engages_trainingSet s v low hport, ?_⟩⟩,
    fun s p q sc w pc d hport => engages_creditInit s q sc w pc d hport,
    fun s p q sc w pc d hp hst hagree hfirst => ⟨fun hsc => ?_, fun hsc => ?_⟩,
    fun s l q sc w pc d hl hst hagree hfirst hepoch => ⟨_, engages_creditInit_cop s q sc w pc d hl,
      link_takeCredits_cop (by omega) hst hagree hfirst hepoch⟩,
    fun s p reason hport => engages_linkDown s reason hport,
    fun s p reason hp hid hop => ⟨_, engages_linkDown_hal s reason hp, takeLinkDown_hal reason hp hid hop⟩,
    fun s l hl => ⟨fun o => engages_keyOffer s o hl, fun w g => engages_keyWrap s w g hl, fun e => engages_keyDone s e hl⟩,
    fun s l o hl hst hcred hstage => ⟨fun hkey hpeer => ⟨_, engages_keyOffer s o hl, link_takeOffer hst hcred hstage hkey hpeer⟩,
      fun hbad => ⟨_, engages_keyOffer s o hl, ?_⟩⟩,
    fun s l w g o hl hst hstage hoffer => ⟨_, engages_keyWrap s w g hl, ?_⟩,
    fun s l epoch hl hst hstage hepoch => ⟨_, engages_keyDone s epoch hl, link_takeDone hst hstage hepoch⟩,
    fun s i v low hset => ⟨fun hother => ?_, fun hst hagree => ?_⟩,
    fun s i q sc w pc d hi hst hagree hfirst hsc => takeCredits_of_enough hi hst hagree hfirst hsc,
    fun s l o hst hcred hstage hkey => takeOffer_of_bad hst hcred hstage (.inl hkey),
    fun s l epoch => takeDone_of_wrapped, fun s i => takeLinkDown_of_training 0⟩
  · rw [takeSet_of_polling hset hlane hst hlo hhi, if_pos hdone]
    exact link_startEqualize _ _ _ _
  · rw [takeSet_of_polling hset hlane hst hlo hhi, if_neg (by simp [hmore]), link_onLink_of_st (by simp [hst])]
    exact ⟨hst, rfl⟩
  · exact ⟨_, engages_creditInit_hal s q sc w pc d hp, link_takeCredits_hal hp hst hagree hfirst hsc⟩
  · refine ⟨_, engages_creditInit_hal s q sc w pc d hp, ?_⟩
    rw [takeCredits_of_few hp hst hagree hfirst hsc, link_onLink_of_st Nat.one_ne_zero]
    rfl
  · rw [takeOffer_of_bad hst hcred hstage hbad]
    exact link_authFail_of_config hst
  · rw [takeWrap_of_offer w g hst hstage hoffer]
    cases Config.keyUnwrap (wrapKeyOf (ownOffer s (link s (8 + l))) o (link s (8 + l)).offPriv) w with
    | none => exact link_authFail_of_config hst
    | some key =>
      cases Config.ecdsaOk o.idKey (offersHash (ownOffer s (link s (8 + l))) o) g with
      | false =>
        simp only [Bool.false_eq_true, if_false]
        exact link_authFail_of_config hst
      | true =>
        simp only [if_true]
        exact takeKey_proves _ _ _ _
  · exact (takeSet_of_bad hset).trans (if_neg (by omega))
  · exact (takeSet_of_bad hset).trans (if_pos ⟨hst, hagree⟩)

end Sys2Proof.Machine
end

section
/-!
PROOF. Flits (R279 to R291, R296; O27): what becomes of a flit that comes off the lanes, by its CRC, its type and its place in the sequence,
and what is sent.
-/

namespace Sys2Proof.Machine
open Sys2Proof

section
variable {s : State} {i : Nat} {f : BitVec 2048} {fixed : Bool}

/-! ## What is sent (R289) -/

theorem link_sendRaw (i ty start cr : Nat) (slots : List (BitVec 128)) (msg : Option Out) (s : State) :
    ∃ x : Sent, x.fseq = (link s i).txSeq ∧ x.msg = msg ∧ link (sendRaw i ty start cr slots msg s) i = flitSent i x (link s i) := by
  obtain ⟨x, hfseq, hmsg, hlinks⟩ := links_sendRaw i s ty start cr slots msg
  exact ⟨x, hfseq, hmsg, (link_congr hlinks i).trans (link_onLink_of_ne (ne_of_apply_ne (·.replay) (by simp [flitSent])))⟩

theorem link_sendIdle (nak : Bool) (hst : (link s i).st ≠ 0) : link (sendIdle i nak s) i = idleSent (link s i) :=
  link_onLink_of_st (f := idleSent) hst

theorem sendIdle_dir (i : Nat) (nak : Bool) (s : State) : (sendIdle i nak s).dir = s.dir := rfl

/-! ## A flit is counted (R281, R307) -/

/-- A flit has been counted, and so has its correction. -/
def flitCounted (i : Nat) (fixed : Bool) (s : State) : State :=
  let u := count (0x40 + i) 0x11 1 s
  if fixed then count (0x40 + i) 0x16 1 (onLink i (fun k => { k with cntFec := sat 64 k.cntFec 1 }) u) else u

theorem link_flitCounted (fixed : Bool) (hst : (link s i).st ≠ 0) : ∃ n, link (flitCounted i fixed s) i = { link s i with cntFec := n } := by
  unfold flitCounted
  extract_lets u
  have hu : link u i = link s i := link_count _ _ _ s i
  cases fixed with
  | false => exact ⟨(link s i).cntFec, hu⟩
  | true => exact ⟨_, (link_count _ _ _ _ i).trans ((link_onLink_of_st (by rwa [hu])).trans
      (congrArg (fun k : Lnk => { k with cntFec := sat 64 k.cntFec 1 }) hu))⟩

theorem flitCounted_dir (i : Nat) (fixed : Bool) (s : State) : (flitCounted i fixed s).dir = s.dir :=
  ite_keeps (·.dir) ((count_dir _ _ _ _).trans (count_dir _ _ _ s)) (count_dir _ _ _ s)

theorem flitCounted_cch (i : Nat) (fixed : Bool) (s : State) : (flitCounted i fixed s).cch = s.cch :=
  ite_keeps (·.cch) ((count_cch _ _ _ _).trans (count_cch _ _ _ s)) (count_cch _ _ _ s)

/-! ## The acknowledgement and the credits of a flit (R286, R289) -/

/-- A link without what an acknowledgement and returned credits touch. -/
def besideAck (k : Lnk) : Lnk := { k with peerAck := 0, replay := [], crQ := 0, crS := 0, crW := 0, crP := 0, crD := 0 }

theorem takeAckNak_of_ack (i ack : Nat) (s : State) : takeAckNak i ack false s =
    if seqAfter ack (link s i).peerAck < 2048 then onLink i (fun k => { k with
      peerAck := ack
      replay := k.replay.filter fun r => decide (0 < seqAfter r.fseq ack) && decide (seqAfter r.fseq ack < 2048) }) s else s := by
  unfold takeAckNak
  exact if_neg Bool.false_ne_true

theorem besideAck_takeAckNak (ack : Nat) (hst : (link s i).st ≠ 0) :
    besideAck (link (takeAckNak i ack false s) i) = besideAck (link s i) := by
  rw [takeAckNak_of_ack]
  refine ite_keeps (fun t => besideAck (link t i)) (link_onLink_keeps ?_ (ne_of_apply_ne (·.st) hst)) rfl
  exact fun _ => rfl

theorem peerAck_takeAckNak {ack : Nat} (hst : (link s i).st ≠ 0) (hahead : seqAfter ack (link s i).peerAck < 2048) :
    (link (takeAckNak i ack false s) i).peerAck = ack := by
  rw [takeAckNak_of_ack, if_pos hahead, link_onLink_of_st hst]

theorem takeAckNak_dir (i ack : Nat) (s : State) : (takeAckNak i ack false s).dir = s.dir := by
  rw [takeAckNak_of_ack]
  split <;> rfl

theorem besideAck_creditField (v : Nat) (hst : (link s i).st ≠ 0) : besideAck (link (creditField i v s) i) = besideAck (link s i) :=
  link_onLink_keeps (fun _ => rfl) (ne_of_apply_ne (·.st) hst)

/-! ## A flit at an ACTIVE port (R281, R289) -/

/-- A bad flit is counted. -/
def badCounted (i : Nat) (fixed : Bool) (s : State) : State :=
  onLink i (fun k => { k with cntBad := sat 64 k.cntBad 1 }) (flitCounted i fixed s)

/-- The link waits for the flit that is next in sequence. -/
def nowWaiting (k : Lnk) : Lnk := { k with waiting := true }

/-- The flit next in sequence has come. -/
def flitAccepted (fseq : Nat) (k : Lnk) : Lnk := { k with
  rxSeq := (k.rxSeq + 1) % 4096, lastAck := fseq, waiting := false, rxCount := k.rxCount + 1 }

section
variable (hclosing : (link s i).closing = false) (hst : (link s i).st = 5)
include hclosing hst

theorem takeFlit_of_bad (hty : bits f.toNat 126 2 ≠ 0) : takeFlit i f fixed false s =
    if (link s i).waiting then badCounted i fixed s else sendIdle i true (onLink i nowWaiting (badCounted i fixed s)) := by
  refine (if_neg (by simp [hclosing])).trans ((if_neg (by simp [hst])).trans ((if_pos rfl).trans ?_))
  simp only [hty, false_or]
  rfl

theorem takeFlit_of_idle (hty : bits f.toNat 126 2 = 0) : takeFlit i f fixed true s =
    takeAckNak i (bits f.toNat 102 12) (bitOf f.toNat 101) (flitCounted i fixed s) :=
  (if_neg (by simp [hclosing])).trans ((if_neg (by simp [hst])).trans ((if_neg (by simp)).trans (if_pos hty)))

theorem takeFlit_of_other (hty : bits f.toNat 126 2 ≠ 0) (hseq : bits f.toNat 114 12 ≠ (link s i).rxSeq) :
    takeFlit i f fixed true s = flitCounted i fixed s :=
  (if_neg (by simp [hclosing])).trans ((if_neg (by simp [hst])).trans ((if_neg (by simp)).trans ((if_neg hty).trans (if_pos (.inr hseq)))))

/-- The messages of the flit next in sequence act once its sequence, its credits and its ACK are taken, and its ACK goes with what is sent then,
or in an IDLE flit. -/
theorem takeFlit_of_next {slots : List (BitVec 128)} (hty : bits f.toNat 126 2 = 1) (hseq : bits f.toNat 114 12 = (link s i).rxSeq)
    (hopen : openFlit (flitCounted i fixed s) i f = some slots) : ∃ l t, t = releaseHeld i (takeMsgs i l
      (takeAckNak i (bits f.toNat 102 12) (bitOf f.toNat 101)
        (creditField i f.toNat (onLink i (flitAccepted (bits f.toNat 114 12)) (flitCounted i fixed s))))) ∧
      (takeFlit i f fixed true s = t ∨ takeFlit i f fixed true s = sendIdle i false t) := by
  unfold takeFlit
  extract_lets k v ty fseq ack nak u₁ u₂ bad next taken
  rw [if_neg (by simp [k, hclosing]), if_neg (by simp [k, hst])]
  have hty' : ty = 1 := hty
  have hopen' : openFlit u₂ i f = some slots := hopen
  rw [if_neg (by simp), if_neg (by simp [hty']), if_neg (by simp [hty', fseq, v, k, hseq]), hopen']
  dsimp only
  rw [if_pos hty']
  refine ⟨(upto slots.length).map fun j => ((nth slots j).getD 0, bitOf v (87 + j)), _, rfl, ?_⟩
  split
  · exact .inr rfl
  · exact .inl rfl

end

theorem openFlit_of_plain (h : i < 8 ∨ (link s i).keyed = false) : ∃ slots, openFlit s i f = some slots :=
  ⟨_, if_neg (by
    rintro ⟨hi, hkeyed⟩
    rcases h with h | h
    · omega
    · simp [hkeyed] at h)⟩

/-! ## A flit comes off the lanes (R281, R282) -/

theorem receiveFlit_of_carrying {wire : BitVec 2048}
    (h : (link s i).closing = true ∨ (link s i).st = 5 ∨ ((link s i).st = 4 ∧ (link s i).agree = 8)) : receiveFlit i wire s =
      let d := scrFlit (link s i).width (link s i).scrRx wire
      let c := checkFlit d.1
      takeFlit i c.1 c.2.1 c.2.2 (onLink i (fun k => { k with scrRx := d.2 }) s) := if_pos h

theorem receiveFlit_of_none {wire : BitVec 2048} (hclosing : (link s i).closing = false) (hst : (link s i).st ≠ 5)
    (hconfig : (link s i).st ≠ 4 ∨ (link s i).agree ≠ 8) : receiveFlit i wire s = s := if_neg (by simp [hclosing, hst]; tauto)

/-! ## What each flit does to the link -/

/-- Of a bad flit the link takes nothing, and it waits for the one that is next in sequence. -/
theorem link_takeFlit_of_bad (hclosing : (link s i).closing = false) (hst : (link s i).st = 5) (hty : bits f.toNat 126 2 ≠ 0) :
    ∃ fec scr, link (takeFlit i f fixed false s) i =
      { link s i with cntFec := fec, cntBad := sat 64 (link s i).cntBad 1, waiting := true, scrTx := scr } := by
  have hup : (link s i).st ≠ 0 := by omega
  obtain ⟨n, hcounted⟩ := link_flitCounted fixed hup
  have hbad : link (badCounted i fixed s) i = { link s i with cntFec := n, cntBad := sat 64 (link s i).cntBad 1 } := by
    rw [badCounted, link_onLink_of_st (by simpa [hcounted]), hcounted]
  rw [takeFlit_of_bad hclosing hst hty]
  split
  · next hwaiting =>
    refine ⟨n, (link s i).scrTx, hbad.trans ?_⟩
    rw [← hwaiting]
  · have hnak : link (onLink i nowWaiting (badCounted i fixed s)) i = nowWaiting (link (badCounted i fixed s) i) :=
      link_onLink_of_st (by simpa [nowWaiting, hbad])
    rw [link_sendIdle true (by simpa [hnak, nowWaiting, hbad]), hnak, hbad]
    exact ⟨n, _, rfl⟩

theorem takeFlit_of_bad_dir (hclosing : (link s i).closing = false) (hst : (link s i).st = 5) (hty : bits f.toNat 126 2 ≠ 0) :
    (takeFlit i f fixed false s).dir = s.dir := by
  rw [takeFlit_of_bad hclosing hst hty]
  have hbad : (badCounted i fixed s).dir = s.dir := flitCounted_dir i fixed s
  split
  · exact hbad
  · exact (sendIdle_dir _ _ _).trans hbad

/-- The first bad flit of a run is answered with a NAK. -/
theorem takeFlit_of_first_bad_out (hclosing : (link s i).closing = false) (hst : (link s i).st = 5) (hty : bits f.toNat 126 2 ≠ 0)
    (hwaiting : (link s i).waiting = false) : ∃ w, (takeFlit i f fixed false s).out.head? = some (.flit (portOf i) w) := by
  rw [takeFlit_of_bad hclosing hst hty, if_neg (by simp [hwaiting])]
  exact ⟨_, rfl⟩

/-- An IDLE flit acknowledges and does nothing else to the link. -/
theorem link_takeFlit_of_idle (hclosing : (link s i).closing = false) (hst : (link s i).st = 5) (hty : bits f.toNat 126 2 = 0)
    (hnak : bitOf f.toNat 101 = false) :
    (∃ n, besideAck (link (takeFlit i f fixed true s) i) = besideAck { link s i with cntFec := n }) ∧
    (seqAfter (bits f.toNat 102 12) (link s i).peerAck < 2048 → (link (takeFlit i f fixed true s) i).peerAck = bits f.toNat 102 12) := by
  have hup : (link s i).st ≠ 0 := by omega
  obtain ⟨n, hcounted⟩ := link_flitCounted fixed hup
  have hup' : (link (flitCounted i fixed s) i).st ≠ 0 := by simpa [hcounted]
  rw [takeFlit_of_idle hclosing hst hty, hnak]
  refine ⟨⟨n, (besideAck_takeAckNak _ hup').trans (congrArg besideAck hcounted)⟩, fun hahead => ?_⟩
  exact peerAck_takeAckNak hup' (by simpa [hcounted])

/-- The sequence has moved on by the time that the messages of a flit act. -/
theorem link_before_takeMsgs (ack v fseq : Nat) (hst : (link s i).st = 5) :
    ∃ n, besideAck (link (takeAckNak i ack false (creditField i v (onLink i (flitAccepted fseq) (flitCounted i fixed s)))) i) =
      besideAck (flitAccepted fseq { link s i with cntFec := n }) := by
  have hup : (link s i).st ≠ 0 := by omega
  obtain ⟨n, hcounted⟩ := link_flitCounted fixed hup
  have haccepted : link (onLink i (flitAccepted fseq) (flitCounted i fixed s)) i = flitAccepted fseq { link s i with cntFec := n } := by
    rw [link_onLink_of_st (by simpa [flitAccepted, hcounted]), hcounted]
  have hcredit : besideAck (link (creditField i v (onLink i (flitAccepted fseq) (flitCounted i fixed s))) i) =
      besideAck (flitAccepted fseq { link s i with cntFec := n }) := by
    rw [besideAck_creditField v (by simpa [haccepted, flitAccepted]), haccepted]
  have hcreditSt : (link (creditField i v (onLink i (flitAccepted fseq) (flitCounted i fixed s))) i).st = (link s i).st :=
    congrArg (·.st) hcredit
  exact ⟨n, (besideAck_takeAckNak ack (hcreditSt.trans_ne hup)).trans hcredit⟩

/-! ## The commands -/

theorem engages_flitReceived {p : Port} {wire : BitVec 2048} (hport : portHere p = true) :
    Engages (.flitReceived p wire) s (receiveFlit (portIdx p) wire s) := engages_of_settled (if_pos hport)

theorem takes_nakRepeat {p : Port} (hlink : linkIn s p 5 = true) (hwaiting : (link s (portIdx p)).waiting = true) :
    Takes (.nakRepeat p) s (sendIdle (portIdx p) true s) := takes_of_done (if_pos (by simp [hlink, hwaiting]))

theorem takes_nakRepeat_of_none {p : Port} (h : linkIn s p 5 = false ∨ (link s (portIdx p)).waiting = false) :
    Takes (.nakRepeat p) s s := takes_of_done (if_neg (by rcases h with h | h <;> simp [h]))

theorem takes_reservedLtype {p : Port} {lt : Byte} (hport : portHere p = true)
    (hst : (link s (portIdx p)).st = 5 ∨ ((link s (portIdx p)).st = 4 ∧ (link s (portIdx p)).agree = 8))
    (hltype : knownLtype p lt.toNat = false) : Takes (.reservedLtype p lt) s (reservedLt (portIdx p) s) :=
  takes_of_done (if_pos (by simpa [hport, hltype] using hst))

end

/-- Settles O27: what a flit changes is read off the lemma of its case, which counts it first and then takes of it what its CRC, its type and
its place in the sequence allow. -/
theorem flitsAreTakenInSequence : Obligations.FlitsAreTakenInSequence := by
  unfold Obligations.FlitsAreTakenInSequence
  refine ⟨fun s p wire => engages_flitReceived, fun s i wire => receiveFlit_of_carrying, fun s i f fixed hclosing hst => ?_,
    fun s p wire hclosing hst hconfig hport => ?_, fun s i ty start cr slots msg => ?_, fun s p hlink hwaiting => ?_,
    fun s p => takes_nakRepeat_of_none, fun s p lt hport hst hltype => ?_, fun s p lt hltype => ?_⟩
  · have hup : (link s i).st ≠ 0 := by omega
    refine ⟨fun hty => ?_, fun hty hseq => ?_, fun hty hnak => ?_, fun hty hseq hnak hopen => ?_⟩
    · obtain ⟨fec, scr, hlink⟩ := link_takeFlit_of_bad (fixed := fixed) hclosing hst hty
      refine ⟨_, rfl, ?_, ?_, ?_, ?_, takeFlit_of_bad_dir hclosing hst hty, takeFlit_of_first_bad_out hclosing hst hty⟩ <;> rw [hlink]
    · obtain ⟨n, hcounted⟩ := link_flitCounted fixed hup
      refine ⟨_, rfl, ?_⟩
      rw [takeFlit_of_other hclosing hst hty hseq, hcounted]
      exact ⟨rfl, flitCounted_dir i fixed s, flitCounted_cch i fixed s⟩
    · obtain ⟨⟨n, hlink⟩, hack⟩ := link_takeFlit_of_idle (fixed := fixed) hclosing hst hty hnak
      refine ⟨_, rfl, congrArg (·.rxSeq) hlink, congrArg (·.nakRun) hlink, ?_, hack⟩
      rw [takeFlit_of_idle hclosing hst hty, hnak, takeAckNak_dir, flitCounted_dir]
    · obtain ⟨n, hcounted⟩ := link_flitCounted fixed hup
      obtain ⟨slots, hslots⟩ := openFlit_of_plain (s := flitCounted i fixed s) (i := i) (f := f) (by simpa [hcounted] using hopen)
      obtain ⟨l, t, ht, htake⟩ := takeFlit_of_next hclosing hst hty hseq hslots
      obtain ⟨m, hlink⟩ := link_before_takeMsgs (fixed := fixed) (bits f.toNat 102 12) f.toNat (bits f.toNat 114 12) hst
      rw [hnak] at ht
      refine ⟨_, l, t, ht, htake, congrArg (·.rxSeq) hlink, (congrArg (·.lastAck) hlink).trans hseq, congrArg (·.waiting) hlink, ?_⟩
      exact (takeAckNak_dir _ _ _).trans (flitCounted_dir i fixed s)
  · have hnone := engages_flitReceived (s := s) (wire := wire) hport
    rwa [receiveFlit_of_none hclosing hst hconfig] at hnone
  · obtain ⟨x, hfseq, hmsg, hlink⟩ := link_sendRaw i ty start cr slots msg s
    dsimp only
    rw [hlink]
    exact ⟨rfl, x, rfl, hfseq, hmsg⟩
  · obtain ⟨-, hst⟩ := portHere_of_linkIn hlink
    have hidle : link (sendIdle (portIdx p) true s) (portIdx p) = idleSent (link s (portIdx p)) := link_sendIdle true (by omega)
    refine ⟨_, rfl, takes_nakRepeat hlink hwaiting, ⟨_, rfl⟩, sendIdle_dir _ _ _, ?_, ?_⟩ <;> rw [hidle]
    · rfl
    · exact hwaiting
  · exact ⟨_, rfl, takes_reservedLtype hport hst hltype, event_links _ _ _ s, event_dir _ _ _ s⟩
  · exact takes_of_done (if_neg (by simp [hltype]))

end Sys2Proof.Machine
end

section
/-!
SUPPORT. The module group (R308 to R320): what the messages of a group and the answers to forwarded requests leave of the group's registers and
of TCK.
-/

namespace Sys2Proof.Machine
open Sys2Proof

/-! ## What counts, events and what is sent leave of the group and of TCK -/

section
variable (u code n src operand d lt m except t : Nat) (fields : List Nat) (o : Out) (s : State)

@[simp] theorem count_grp : (count u code n s).grp = s.grp := congrArg (·.grp) (besideCounting_count u code n s)
@[simp] theorem tlpIn_grp : (tlpIn s).grp = s.grp := congrArg (·.grp) (besideCounting_tlpIn s)
@[simp] theorem event_grp : (event code src operand s).grp = s.grp := congrArg (·.grp) (besideRecording_event code src operand s)
@[simp] theorem emit_grp : (emit o s).grp = s.grp := congrArg (·.grp) (besideCompletions_emit o s)
@[simp] theorem emit_tck : (emit o s).tck = s.tck := congrArg (·.tck) (besideCompletions_emit o s)

theorem finish_grp (c : Cmd) (status result : Nat) : (finish c status result s).grp = s.grp :=
  congrArg (·.grp) (besideCompletions_finish c s status result)

theorem finish_tck (c : Cmd) (status result : Nat) : (finish c status result s).tck = s.tck :=
  congrArg (·.tck) (besideCompletions_finish c s status result)

@[simp] theorem sendGroup_grp : (sendGroup lt d fields s).grp = s.grp := by
  unfold sendGroup
  split
  · exact emit_grp _ s
  · rfl

@[simp] theorem sendGroup_tck : (sendGroup lt d fields s).tck = s.tck := by
  unfold sendGroup
  split
  · exact emit_tck _ s
  · rfl

@[simp] theorem sendHello_grp : (sendHello d s).grp = s.grp := sendGroup_grp _ _ _ s

@[simp] theorem sendAlign_grp : (sendAlign except src t s).grp = s.grp := each_keeps _ _ (·.grp) (fun _ _ => emit_grp _ _) s

@[simp] theorem sendAlign_tck : (sendAlign except src t s).tck = s.tck := each_keeps _ _ (·.tck) (fun _ _ => emit_tck _ _) s

@[simp] theorem leaderAlign_grp : (leaderAlign s).grp = s.grp := ite_keeps (·.grp) (sendAlign_grp _ _ _ s) rfl

end

/-! ## What the answer to a forwarded request leaves of the group (R190, R227, R314) -/

section
variable (id flags info kind cause addr j off p i g gaddr tag parent : Nat) (s : State)

theorem writeAway_grp (w : Away) : (writeAway w s).grp = s.grp := ite_keeps (·.grp) rfl rfl

theorem stageTimes_grp (passed : List Bool) : (stageTimes passed s).2.grp = s.grp := by
  unfold stageTimes
  generalize passed.zipIdx = l
  generalize 0 = v
  induction l generalizing v s with
  | nil => rfl
  | cons q l ih =>
    rw [List.foldl_cons]
    cases q.1 with
    | true => exact ih (free s).2 _
    | false => exact ih s _

theorem endSample_grp (passed : List Bool) : (endSample id flags info passed s).grp = s.grp := by
  unfold endSample
  split
  · rfl
  · exact stageTimes_grp s passed

theorem hostErr_grp (bar4 : Bool) : (hostErr kind cause addr bar4 s).grp = s.grp := by
  unfold hostErr
  extract_lets s₁ s₂
  have h₂ : s₂.grp = s₁.grp := by
    simp only [s₂]
    split
    iterate 7 exact emit_grp _ _
    rfl
  rw [count_grp, event_grp, h₂]
  rfl

theorem internalWrite_grp (from_ : Src) (d : Granule) (poison : Bool) : (internalWrite from_ parent gaddr d poison s).grp = s.grp := by
  obtain ⟨p, v, harrive⟩ := arrive_eq from_
    (.wrNc { port := .hal 0, agent := 0, txid := parent, gaddr, req := rqOfSrc s from_ } (BitVec.allOnes 64) d poison) s
  rw [internalWrite, harrive]

theorem copyGot_grp (d : Granule) (poison : Bool) : (copyGot j off d poison s).grp = s.grp := by
  unfold copyGot
  split
  · rfl
  · extract_lets s₁ a put
    have hput (z : Bool) (u : State) : (put z u).grp = u.grp := internalWrite_grp _ _ _ _ _ _
    exact ite_keeps (·.grp) ((count_grp _ _ _ _).trans (hput _ _)) (ite_keeps (·.grp) (hput _ _) rfl)

/-- The state without what the log of a stream port touches: the ports, and the recorder with its appends. -/
def besideLogging (s : State) : State := { besideRecording s with stm := {} }

theorem besideLogging_onStm (f : Stm → Stm) : besideLogging (onStm f s) = besideLogging s := rfl

theorem besideLogging_event (code src operand : Nat) : besideLogging (event code src operand s) = besideLogging s :=
  congrArg (fun x : State => { x with stm := {} }) (besideRecording_event code src operand s)

theorem besideLogging_streamError (dir : Nat) : besideLogging (streamError p cause dir tag addr s) = besideLogging s :=
  (besideLogging_event _ _ _ _).trans (besideLogging_onStm s _)

/-- The records of a combining entry are logged and dropped, each on its port (R250, R272). -/
theorem besideLogging_dropEach (l : List (Nat × Nat × Nat)) : besideLogging (each l (fun r s =>
    streamError r.1 cause 0 r.2.1 r.2.2 (onPort r.1 (fun x => { x with cntDrop := sat 64 x.cntDrop 1 }) s)) s) = besideLogging s := by
  refine each_keeps _ _ besideLogging (fun r u => ?_) s
  exact (besideLogging_streamError _ _ _ _ _ _).trans (besideLogging_onStm u _)

theorem grp_of_besideLogging {s t : State} (h : besideLogging t = besideLogging s) : t.grp = s.grp := congrArg (·.grp) h

theorem egressGot_grp (d : Option Granule) : (egressGot p i g d cause s).grp = s.grp := by
  unfold egressGot
  split
  · rfl
  · exact ite_keeps (·.grp) rfl (grp_of_besideLogging (besideLogging_streamError _ _ _ _ _ _))

theorem combDone_grp : (combDone i cause s).grp = s.grp := by
  unfold combDone
  split
  · rfl
  · exact ite_keeps (·.grp) (count_grp _ _ _ _) (grp_of_besideLogging (besideLogging_dropEach _ _ _))

theorem hostReadDone_grp : (hostReadDone tag s).grp = s.grp := by
  unfold hostReadDone
  split
  · rfl
  · extract_lets first n s₁ s₂ bytes ep s₃
    have h₂ : s₂.grp = s.grp := endSample_grp _ _ _ _ _
    refine ite_keeps (·.grp) rfl ?_
    split
    · rw [emit_grp, hostErr_grp, h₂]
    · have h₃ : s₃.grp = s₂.grp := by
        simp only [s₃]
        clear_value ep
        cases ep with
        | none => rfl
        | some i => exact hostErr_grp _ _ _ _ _
      rw [emit_grp, h₃, h₂]

theorem hostGot_grp (d : Granule) (poison : Bool) : (hostGot parent d poison s).grp = s.grp := hostReadDone_grp _ _

theorem hostBad_grp : (hostBad parent cause s).grp = s.grp := hostReadDone_grp _ _

/-- The answer goes to its requester, and the group is none of it. -/
@[simp] theorem fwdAnswer_grp (f : Fwd) (st : RStat) (grant : CacheSt) (d : Option (Granule × Bool)) :
    (fwdAnswer f st id grant d s).grp = s.grp := by
  unfold fwdAnswer
  extract_lets s₁ s₂ fl s₃
  have h₂ : s₂.grp = s.grp := by
    simp only [s₂]
    split
    iterate 2 exact ite_keeps (·.grp) (writeAway_grp _ _) rfl
    rfl
  have h₃ : s₃.grp = s.grp := (endSample_grp _ _ _ _ _).trans h₂
  rw [← h₃]
  cases f.src with
  | hal q | cop q =>
    cases d with
    | none => exact ite_keeps (·.grp) (emit_grp _ _) (emit_grp _ _)
    | some x => exact emit_grp _ _
  | host =>
    dsimp only
    split
    · exact ite_keeps (·.grp) rfl (hostErr_grp _ _ _ _ _)
    · cases d with
      | none => exact (emit_grp _ _).trans (hostErr_grp _ _ _ _ _)
      | some x => exact ite_keeps (·.grp) ((emit_grp _ _).trans (hostErr_grp _ _ _ _ _)) (emit_grp _ _)
    · cases d with
      | none => exact hostBad_grp _ _ _
      | some x => exact hostGot_grp _ _ _ _
  | copy q =>
    cases d with
    | none => exact ite_keeps (·.grp) rfl rfl
    | some x => exact copyGot_grp _ _ _ _ _
  | stream q =>
    dsimp only
    split
    · exact combDone_grp _ _ _
    · cases d with
      | none => exact egressGot_grp _ _ _ _ _ _
      | some x => exact egressGot_grp _ _ _ _ _ _
  | fw => rfl
  | dbg =>
    cases d with
    | none => exact emit_grp _ _
    | some x => exact emit_grp _ _

end

end Sys2Proof.Machine
end

section
/-!
SUPPORT. The members of a group: a member is lost (R316), and those that wait are readmitted (R317). The leader and the routes follow from the
members and are left out of what is said of them.
-/

namespace Sys2Proof.Machine
open Sys2Proof

/-! ## Masks of members -/

section
variable {b : BitVec 8} {m : Nat} (hm : m < 8) (k : Nat)
include hm

theorem getLsbD_set8_of_lt : (set8 b k).getLsbD m = (b.getLsbD m || m == k) := by
  have hbit : (k ≤ m ∧ m - k = 0) ↔ m = k := by omega
  rw [Bool.eq_iff_iff]
  simp [set8, hm, hbit]

theorem getLsbD_clr8_of_lt : (clr8 b k).getLsbD m = (b.getLsbD m && m != k) := by
  have hbit : (m < k ∨ ¬ m - k = 0) ↔ ¬ m = k := by omega
  rw [Bool.eq_iff_iff]
  simp [clr8, hm, hbit]

end

/-! ## The members, the leader and the routes apart -/

/-- What holds at first and is kept at each element holds at the end. -/
theorem each_preserves {α : Type} {P : State → Prop} (l : List α) (f : α → State → State) (hf : ∀ x s, P s → P (f x s)) {s : State} (h : P s) :
    P (each l f s) := by
  induction l generalizing s with
  | nil => exact h
  | cons x l ih => exact ih (hf x s h)

/-- The group's registers without the leader and the routes. -/
def members (s : State) : Grp := { s.grp with leader := 0, route := [] }

section
variable {s t : State} {m : Nat}

theorem members_congr (h : t.grp = s.grp) : members t = members s := congrArg (fun g : Grp => { g with leader := 0, route := [] }) h

theorem members_electLeader (s : State) : members (electLeader s) = members s := rfl

theorem members_recomputeRoutes (s : State) : members (recomputeRoutes s) = members s := by
  unfold recomputeRoutes
  refine each_keeps _ _ members ?_ s
  exact fun _ _ => rfl

/-! ## Group hoists (R63) -/

theorem takeHoistCancel_grp (id : Nat) (s : State) : (takeHoistCancel id s).grp = s.grp := by
  unfold takeHoistCancel
  extract_lets s₁
  split
  · exact ite_keeps (·.grp) (event_grp _ _ _ _) rfl
  · exact ite_keeps (·.grp) (event_grp _ _ _ _) rfl

theorem endGroupHoist_grp (g : GroupHoist) (status : Nat) (s : State) : (endGroupHoist g status s).grp = s.grp := by
  unfold endGroupHoist
  extract_lets s₁ s₂
  rw [finish_grp]
  refine ite_keeps (·.grp) rfl ?_
  exact (each_keeps _ _ (·.grp) (fun _ _ => sendGroup_grp _ _ _ _) _).trans (takeHoistCancel_grp _ _)

theorem checkGroupHoists_grp (s : State) : (checkGroupHoists s).grp = s.grp :=
  each_keeps _ _ (·.grp) (fun g u => ite_keeps (·.grp) (endGroupHoist_grp g 0 u) rfl) s

/-! ## What waited for a member's LINK_RESUME (R311) -/

/-- A message that goes out again is sent on the present route, or is gone. -/
theorem resendOn_cases (o : Out) (s : State) : resendOn o s = s ∨ ∃ o', resendOn o s = emit o' s := by
  unfold resendOn
  split
  · split
    · exact .inr ⟨_, rfl⟩
    · exact .inl rfl
  · split
    · split
      · exact .inr ⟨_, rfl⟩
      · exact .inl rfl
    · exact .inl rfl
  · split
    · split
      · exact .inr ⟨_, rfl⟩
      · exact .inl rfl
    · exact .inl rfl
  · exact .inr ⟨_, rfl⟩

theorem resendOn_grp (o : Out) (s : State) : (resendOn o s).grp = s.grp := by
  rcases resendOn_cases o s with h | ⟨o', h⟩
  · rw [h]
  · rw [h, emit_grp]

theorem endHold_grp (i : Nat) (again : List Sent) (s : State) : (endHold i again s).grp = s.grp :=
  each_keeps _ _ (·.grp) resendOn_grp _

/-! ## The loss of a member (R316) -/

theorem grp_of_besideLoss (h : besideLoss t = besideLoss s) : t.grp = s.grp := congrArg (·.grp) h

theorem loseAgent_grp (a : Nat) (s : State) : (loseAgent a s).grp = s.grp := grp_of_besideLoss (besideLoss_loseAgent a s)

/-- The group's registers after the loss of a member. -/
def memberLost (m : Nat) (g : Grp) : Grp :=
  { g with lost := set8 g.lost m, gone := set8 g.gone m, present := clr8 g.present m, waiting := clr8 g.waiting m }

theorem members_loseOne (hgone : s.grp.gone.getLsbD m = false) (hother : m ≠ s.grp.id) (hin : m < s.grp.size) :
    members (loseOne m s) = memberLost m (members s) := by
  unfold loseOne
  rw [if_neg (by simp [hgone, hother, hin])]
  extract_lets s₁ s₂ s₃ s₄ s₅ s₆ s₇
  have h₁ : members s₁ = memberLost m (members s) := rfl
  have h₂ : members s₂ = members s₁ :=
    (members_recomputeRoutes _).trans ((members_electLeader _).trans (members_congr (event_grp _ _ _ s₁)))
  have h₃ : members s₃ = members s₂ := each_keeps _ _ members (fun _ _ => members_congr (endHold_grp _ _ _)) s₂
  have h₄ : members s₄ = members s₃ := members_congr (onOrd_grp _ s₃)
  have h₅ : members s₅ = members s₄ := each_keeps _ _ members (fun _ _ => members_congr (fwdAnswer_grp _ _ _ _ _ _)) s₄
  have h₆ : members s₆ = members s₅ := each_keeps _ _ members (fun _ u => members_congr (loseAgent_grp _ u)) s₅
  have h₇ : members s₇ = members s₆ := each_keeps _ _ members (fun _ _ => members_congr (sendGroup_grp _ _ _ _)) s₆
  rw [members_congr (checkGroupHoists_grp s₇), h₇, h₆, h₅, h₄, h₃, h₂, h₁]

theorem loseOne_cases (m : Nat) (s : State) : loseOne m s = s ∨ members (loseOne m s) = memberLost m (members s) := by
  by_cases h : s.grp.gone.getLsbD m ∨ m = s.grp.id ∨ s.grp.size ≤ m
  · exact .inl (if_pos h)
  · push Not at h
    obtain ⟨hgone, hother, hin⟩ := h
    exact .inr (members_loseOne (by simpa using hgone) hother hin)

theorem formed_loseOne (m : Nat) (s : State) : (loseOne m s).grp.formed = s.grp.formed := by
  rcases loseOne_cases m s with h | h
  · rw [h]
  · exact congrArg (·.formed) h

/-- The member is lost, and not present. -/
def Lost (m : Nat) (s : State) : Prop := s.grp.gone.getLsbD m = true ∧ s.grp.present.getLsbD m = false

/-- Another member of the group, which is lost only if it is not present. -/
structure Losable (m : Nat) (s : State) : Prop where
  other : m ≠ s.grp.id
  within : m < s.grp.size
  absent : s.grp.gone.getLsbD m = true → s.grp.present.getLsbD m = false

theorem lost_of_memberLost {k : Nat} (hm : m < 8) (h : members t = memberLost k (members s)) (hlost : m = k ∨ Lost m s) : Lost m t := by
  have hgone : t.grp.gone = set8 s.grp.gone k := congrArg (·.gone) h
  have hpresent : t.grp.present = clr8 s.grp.present k := congrArg (·.present) h
  rw [Lost, hgone, hpresent, getLsbD_set8_of_lt hm, getLsbD_clr8_of_lt hm]
  rcases hlost with rfl | ⟨h, h'⟩
  · simp
  · simp [h, h']

theorem Lost.loseOne (hm : m < 8) (k : Nat) (h : Lost m s) : Lost m (loseOne k s) := by
  rcases loseOne_cases k s with hk | hk
  · rwa [hk]
  · exact lost_of_memberLost hm hk (.inr h)

theorem Losable.loseOne (hm : m < 8) (k : Nat) (h : Losable m s) : Losable m (loseOne k s) := by
  rcases loseOne_cases k s with hk | hk
  · rwa [hk]
  · have hgone : (Machine.loseOne k s).grp.gone = set8 s.grp.gone k := congrArg (·.gone) hk
    have hpresent : (Machine.loseOne k s).grp.present = clr8 s.grp.present k := congrArg (·.present) hk
    refine ⟨(congrArg (·.id) hk).symm ▸ h.other, (congrArg (·.size) hk).symm ▸ h.within, ?_⟩
    rw [hgone, hpresent, getLsbD_set8_of_lt hm, getLsbD_clr8_of_lt hm]
    intro hset
    rcases Bool.or_eq_true_iff.mp hset with hbit | hbit
    · rw [h.absent hbit, Bool.false_and]
    · rw [bne, hbit, Bool.not_true, Bool.and_false]

theorem Losable.lost (hm : m < 8) (h : Losable m s) : Lost m (Machine.loseOne m s) := by
  cases hgone : s.grp.gone.getLsbD m with
  | true => exact Lost.loseOne hm m ⟨hgone, h.absent hgone⟩
  | false => exact lost_of_memberLost hm (members_loseOne hgone h.other h.within) (.inl rfl)

/-! ## Members are lost, and those that only they led to -/

theorem loseUnreachable_preserves {P : State → Prop} (hP : ∀ k s, P s → P (loseOne k s)) (h : P s) : P (loseUnreachable s) := by
  refine each_preserves _ _ (fun _ u hu => ?_) h
  split
  · exact hP _ u hu
  · exact hu

theorem loseMember_preserves {P : State → Prop} (hP : ∀ k s, P s → P (loseOne k s)) (k : Nat) (s : State) (h : P s) : P (loseMember k s) :=
  loseUnreachable_preserves hP (hP k s h)

theorem formed_each_loseMember (l : List Nat) (s : State) : (each l loseMember s).grp.formed = s.grp.formed :=
  each_preserves (P := fun u => u.grp.formed = s.grp.formed) _ _
    (loseMember_preserves fun k u hu => (formed_loseOne k u).trans hu) rfl

/-- Each member that is said to be lost is lost in the end. -/
theorem lost_each_loseMember (hm : m < 8) {l : List Nat} (hmem : m ∈ l) (h : Losable m s) : Lost m (each l loseMember s) := by
  induction l generalizing s with
  | nil => exact absurd hmem List.not_mem_nil
  | cons k l ih =>
    rw [each_cons]
    rcases List.mem_cons.mp hmem with rfl | htail
    · have hlost : Lost m (loseMember m s) := loseUnreachable_preserves (P := Lost m) (fun k _ => Lost.loseOne hm k) (h.lost hm)
      exact each_preserves _ _ (loseMember_preserves (P := Lost m) fun k _ => Lost.loseOne hm k) hlost
    · exact ih htail (loseMember_preserves (P := Losable m) (fun k _ => Losable.loseOne hm k) k s h)

/-! ## Readmission (R317) -/

/-- The group's registers after the readmission of a member. -/
def memberBack (m : Nat) (g : Grp) : Grp := { g with
  waiting := clr8 g.waiting m, gone := clr8 g.gone m, present := set8 g.present m, readmit := clr8 g.readmit m, isolated := false }

/-- A member's bits after the readmission of some: `back` says whether it is one of them. -/
def BackIn (m : Nat) (back : Bool) (g h : Grp) : Prop :=
  h.waiting.getLsbD m = (g.waiting.getLsbD m && !back) ∧ h.gone.getLsbD m = (g.gone.getLsbD m && !back) ∧
    h.present.getLsbD m = (g.present.getLsbD m || back) ∧ h.readmit.getLsbD m = (g.readmit.getLsbD m && !back)

theorem BackIn.of_members {back : Bool} {g : Grp} (h : BackIn m back g s.grp) (ht : members t = members s) : BackIn m back g t.grp := by
  have hs : BackIn m back g (members s) := h
  rwa [← ht] at hs

theorem backIn_each (hm : m < 8) (l : List Nat) (s : State) :
    BackIn m (l.contains m) s.grp (each l (fun k => onGrp (memberBack k)) s).grp := by
  induction l generalizing s with
  | nil => simp [BackIn, each]
  | cons k l ih =>
    obtain ⟨hwaiting, hgone, hpresent, hreadmit⟩ := ih (onGrp (memberBack k) s)
    rw [each_cons, List.contains_cons, BackIn, hwaiting, hgone, hpresent, hreadmit]
    simp only [onGrp_grp, memberBack, getLsbD_set8_of_lt hm, getLsbD_clr8_of_lt hm, Bool.not_or, Bool.and_assoc, Bool.or_assoc, bne,
      and_self]

/-- A member comes back when the mask names it and it waits. -/
theorem backIn_readmitMembers (hm : m < 8) (mask : BitVec 8) (s : State) :
    BackIn m (mask.getLsbD m && s.grp.waiting.getLsbD m) s.grp (readmitMembers mask s).grp := by
  have hmem : ((upto 8).filter fun k => mask.getLsbD k && s.grp.waiting.getLsbD k).contains m =
      (mask.getLsbD m && s.grp.waiting.getLsbD m) := by
    rw [Bool.eq_iff_iff]
    simp [upto, hm]
  rw [← hmem]
  unfold readmitMembers
  extract_lets ms lead s₁ s₂
  have h₁ : BackIn m (ms.contains m) s.grp s₁.grp := backIn_each hm ms s
  have h₂ : members s₂ = members s₁ := (members_recomputeRoutes _).trans (members_electLeader s₁)
  have hback : BackIn m (ms.contains m) s.grp s₂.grp := h₁.of_members h₂
  split
  · exact hback
  · rwa [sendAlign_grp]

end

end Sys2Proof.Machine
end

section
/-!
PROOF. Group messages (R311, R315 to R320, R63; O31): each message that another member sends is one operation on the state, and what it makes of
the group, the hoists or the link is read off that operation.
-/

namespace Sys2Proof.Machine
open Sys2Proof

section
variable {s : State} {m : Nat}

/-! ## GROUP_HELLO (R315) -/

theorem takeHello_of_mismatch {src size il part : Nat} (hother : src ≠ s.grp.id)
    (h : size ≠ s.grp.size ∨ il ≠ s.grp.interleave ∨ part ≠ (if isBig s then 0x7240 else 0x7212)) :
    takeHello src size il part s = event 0x0701 13 src s := (if_neg hother).trans (if_pos h)

theorem checkFormed_present (s : State) : (checkFormed s).grp.present = s.grp.present :=
  ite_keeps (·.grp.present) rfl (congrArg (·.present) (leaderAlign_grp _))

/-- A member that agrees, and is not lost, is present. -/
theorem present_takeHello {part : Nat} (hm : m < 8) (hother : m ≠ s.grp.id) (hin : m < s.grp.size)
    (hpart : part = (if isBig s then 0x7240 else 0x7212)) (hgone : s.grp.gone.getLsbD m = false) :
    (takeHello m s.grp.size s.grp.interleave part s).grp.present.getLsbD m = true := by
  unfold takeHello
  rw [if_neg hother, if_neg (by simp [hpart]), if_neg (by omega), if_neg (by simp [hgone])]
  extract_lets first s₁ s₂
  have h₁ : s₁.grp.present.getLsbD m = true := getLsbD_set8 hm
  have h₂ : s₂.grp = s₁.grp := ite_keeps (·.grp) (sendHello_grp _ s₁) rfl
  have hpresent : (electLeader s₂).grp.present = s₁.grp.present := congrArg (·.present) (members_congr h₂)
  rw [checkFormed_present, hpresent]
  exact h₁

/-! ## TICK_ALIGN (R318, R319) -/

theorem takeAlign_same (l src : Nat) (s : State) : takeAlign l src s.tck.count s = sendAlign l src s.tck.count s := if_pos rfl

theorem count_takeAlign (l src t : Nat) (s : State) : (takeAlign l src t s).tck.count = t := by
  unfold takeAlign
  extract_lets c s₁ s₂ s₃
  have h₂ : SameCourse s₁ s₂ := sameCourse_ite ((sameCourse_event _ _ _ (.refl s₁)).frame (onGrp_tck _ _) (onGrp_now _ _)) (.refl s₁)
  have h₃ : SameCourse s₁ s₃ :=
    sameCourse_ite (sameCourse_each _ _ h₂ fun _ _ h => sameCourse_event _ _ _ (sameCourse_setHoist _ _ h)) h₂
  clear_value s₃
  have hcount : s₃.tck.count = t := congrArg (·.count) h₃.1
  split
  · next hsame => rw [sendAlign_tck, hsame]
  · rw [sendAlign_tck, hcount]

/-! ## HOIST_ARM and HOIST_CANCEL (R63) -/

theorem hoists_freezeHoists (s : State) : (freezeHoists s).tck.hoists = s.tck.hoists := by
  unfold freezeHoists
  split
  exact each_keeps _ _ (·.tck.hoists) (fun _ u => ite_keeps (·.tck.hoists) rfl (congrArg (·.hoists) (event_tck _ _ _ u))) _

/-- What a member's answer and the freeze leave of the hoists. -/
theorem hoists_takeHoistArm (src tag e : Nat) (s : State) : (takeHoistArm src tag e s).tck.hoists =
    if checkHoist s e (hoistOf e none) = 0 then (armHoist { hoistOf e none with queue := none } s).tck.hoists else s.tck.hoists := by
  unfold takeHoistArm
  extract_lets h st s₁
  have hfrozen : (if s₁.tck.running then freezeHoists s₁ else s₁).tck.hoists = s₁.tck.hoists :=
    ite_keeps (·.tck.hoists) (hoists_freezeHoists s₁) rfl
  rw [sendGroup_tck, hfrozen]
  exact apply_ite (fun u : State => u.tck.hoists) _ _ _

theorem hoists_armHoist {i : Nat} (h : Hoist) (hfree : ((upto 64).find? fun j => (tget none s.tck.hoists j).isNone) = some i) :
    (armHoist h s).tck.hoists = tset none s.tck.hoists i (some h) := by
  unfold armHoist
  extract_lets u
  have hu : ((upto 64).find? fun j => (tget none u.tck.hoists j).isNone) = some i := hfree
  rw [hu]
  rfl

/-- Before the freeze of its tick a cancelled hoist is free. -/
theorem hoists_takeHoistCancel {id i : Nat} {h : Hoist} (hfind : findHoist s id = some (i, h)) (hearly : s.tck.count + 1 < h.launch) :
    (takeHoistCancel id s).tck.hoists = tset none s.tck.hoists i none := by
  unfold takeHoistCancel
  extract_lets u
  have hu : findHoist u id = some (i, h) := hfind
  have hlate : ¬ h.launch ≤ u.tck.count + 1 := Nat.not_le.mpr hearly
  rw [hu]
  dsimp only
  rw [if_neg hlate]
  rfl

/-! ## HOIST_REPLY (R63) -/

theorem groupHoists_takeHoistCancel (id : Nat) (s : State) : (takeHoistCancel id s).tck.groupHoists = s.tck.groupHoists := by
  unfold takeHoistCancel
  extract_lets u
  split
  · exact ite_keeps (·.tck.groupHoists) (congrArg (·.groupHoists) (event_tck _ _ _ _)) rfl
  · exact ite_keeps (·.tck.groupHoists) (congrArg (·.groupHoists) (event_tck _ _ _ _)) rfl

/-- A group hoist that ends is no longer listed, and the others are. -/
theorem groupHoists_endGroupHoist (g : GroupHoist) (status : Nat) (s : State) :
    (endGroupHoist g status s).tck.groupHoists = s.tck.groupHoists.filter fun x => x.tag != g.tag := by
  unfold endGroupHoist
  extract_lets s₁ s₂
  rw [finish_tck]
  refine ite_keeps (·.tck.groupHoists) rfl ?_
  exact (congrArg (·.groupHoists) (each_keeps _ _ (·.tck) (fun _ _ => sendGroup_tck _ _ _ _) _)).trans (groupHoists_takeHoistCancel g.id s₁)

theorem tag_of_find {l : List GroupHoist} {tag : Nat} {g : GroupHoist} (h : (l.find? fun x => x.tag == tag) = some g) : g.tag = tag := by
  simpa using List.find?_some h

theorem mem_endGroupHoist {tag status : Nat} {g x : GroupHoist} (hfind : (s.tck.groupHoists.find? fun x => x.tag == tag) = some g)
    (hx : x ∈ (endGroupHoist g status s).tck.groupHoists) : x.tag ≠ tag := by
  rw [groupHoists_endGroupHoist, tag_of_find hfind, List.mem_filter] at hx
  simpa using hx.2

theorem takeHoistReply_of_late {src tag st : Nat} {g : GroupHoist} (hfind : (s.tck.groupHoists.find? fun x => x.tag == tag) = some g)
    (h : st ≠ 0 ∨ g.accepted + 2 < s.tck.course) : takeHoistReply src tag st s = endGroupHoist g 0x0017 s := by
  simp only [takeHoistReply, hfind]
  exact if_pos h

/-- A group hoist whose member has replied. -/
def repliedBy (src tag : Nat) (x : GroupHoist) : GroupHoist := if x.tag = tag then { x with replied := set8 x.replied src } else x

theorem takeHoistReply_of_success {src tag : Nat} {g : GroupHoist} (hfind : (s.tck.groupHoists.find? fun x => x.tag == tag) = some g)
    (hintime : s.tck.course ≤ g.accepted + 2) :
    takeHoistReply src tag 0 s = checkGroupHoists (onTck (fun t => { t with groupHoists := t.groupHoists.map (repliedBy src tag) }) s) := by
  simp only [takeHoistReply, hfind]
  exact if_neg (by omega)

theorem replied_of_mem_map {l : List GroupHoist} {src tag : Nat} {x : GroupHoist} (hsrc : src < 8) (hx : x ∈ l.map (repliedBy src tag))
    (htag : x.tag = tag) : x.replied.getLsbD src = true := by
  obtain ⟨y, -, rfl⟩ := List.mem_map.mp hx
  unfold repliedBy at htag ⊢
  split
  · exact getLsbD_set8 hsrc
  · next hy => exact absurd (by rwa [if_neg hy] at htag) hy

/-- Those that are complete end, and no other comes. -/
theorem groupHoists_checkGroupHoists (s : State) : (checkGroupHoists s).tck.groupHoists ⊆ s.tck.groupHoists := by
  refine each_preserves (P := fun u => u.tck.groupHoists ⊆ s.tck.groupHoists) _ _ (fun g u hu => ?_) (List.Subset.refl _)
  split
  · rw [groupHoists_endGroupHoist]
    exact List.Subset.trans List.filter_sublist.subset hu
  · exact hu

/-! ## LINK_RESUME (R311) -/

theorem besideSending_onLink {f : Lnk → Lnk} {i : Nat} (hf : ∀ k, besideSending (f k) = besideSending k)
    (hi : besideSending (link s i) ≠ besideSending {}) (j : Nat) : besideSending (link (onLink i f s) j) = besideSending (link s j) := by
  by_cases hj : j = i
  · subst hj
    exact link_onLink_keeps hf hi
  · exact congrArg besideSending (link_onLink_other hj)

theorem resume_of_holdPort {o : Out} {p : Nat} (h : holdPort s o = some p) : (link s p).resume = true := by
  obtain ⟨d, -, hfind⟩ := Option.bind_eq_some_iff.mp h
  have hp := List.find?_some hfind
  simp only [Bool.and_eq_true] at hp
  exact hp.1

/-- A message moves no link but one that carries it or holds it back, and nothing of that but what sending moves. -/
theorem besideSending_emit (o : Out) (s : State) (j : Nat) : besideSending (link (emit o s) j) = besideSending (link s j) := by
  unfold emit
  split
  · exact ite_keeps (fun u => besideSending (link u j)) rfl
      (ite_keeps (fun u => besideSending (link u j)) (congrArg besideSending (link_count _ _ _ s j)) rfl)
  · next _ cls _ =>
    split
    · next i hhold _ =>
      refine besideSending_onLink ?_ (ne_of_apply_ne (·.resume) (by simpa [besideSending] using resume_of_holdPort hhold)) j
      exact fun _ => rfl
    · next i _ _ =>
      have hsent (hst : (link s i).st ≠ 0) : besideSending (link (sendFlit i cls o s) j) = besideSending (link s j) := by
        by_cases hj : j = i
        · subst hj
          exact (sendsOnly_sendFlit _ _ _ s).of_st hst
        · exact congrArg besideSending (link_sendFlit_other _ _ _ _ hj)
      dsimp only
      split
      · next hcan =>
        refine hsent fun hst => ?_
        simp [canSend, hst] at hcan
      · split
        · next hst =>
          unfold hold
          refine besideSending_onLink ?_ (ne_of_apply_ne (·.st) (show (link s i).st ≠ 0 by omega)) j
          exact fun _ => rfl
        · rfl
    · rfl

theorem besideSending_resendOn (o : Out) (s : State) (j : Nat) : besideSending (link (resendOn o s) j) = besideSending (link s j) := by
  rcases resendOn_cases o s with h | ⟨o', h⟩
  · rw [h]
  · rw [h, besideSending_emit]

/-- What waited has gone, and the port waits no longer. -/
theorem resume_endHold (i : Nat) (again : List Sent) (hwf : Table.wf {} s.links = true) : (link (endHold i again s) i).resume = false := by
  unfold endHold
  extract_lets k
  generalize again.filterMap (·.msg) ++ k.oldHeld.map (·.2) = l
  have hsent := each_keeps l resendOn (fun u => besideSending (link u i)) (fun o u => besideSending_resendOn o u i)
    (onLink i (fun k => { k with resume := false, resumeAt := none, holdFor := 0, oldSent := [], oldHeld := [] }) s)
  rw [link_onLink_same hwf] at hsent
  exact congrArg (·.resume) hsent

theorem linkResumed_of_waiting {i fseq : Nat} (h : (link s i).resume = true) : ∃ again, linkResumed i fseq s = endHold i again s :=
  ⟨_, if_neg (by simp [h])⟩

theorem resumeAt_linkResumed {i fseq : Nat} (h : (link s i).resume = false) (hup : inOperation (link s i) = true) :
    (link (linkResumed i fseq s) i).resumeAt = some fseq := by
  have hst : (link s i).st = 5 ∨ (link s i).st = 6 := by simpa [inOperation] using hup
  have hresumed : linkResumed i fseq s = onLink i (fun k => { k with resumeAt := some fseq }) s :=
    (if_pos (by simp [h])).trans (if_pos hst)
  rw [hresumed, link_onLink_of_ne (ne_of_apply_ne (·.resumeAt) (by simp))]

/-! ## MEMBER_STATE (R316) -/

/-- A member that another reports lost is lost. -/
theorem lost_takeMemberState (present waiting : BitVec 8) {lost : BitVec 8} (hm : m < 8) (hin : m < s.grp.size) (hother : m ≠ s.grp.id)
    (hlost : lost.getLsbD m = true) (hgone : s.grp.gone.getLsbD m = false) : Lost m (takeMemberState present lost waiting s) := by
  unfold takeMemberState
  extract_lets s₁
  have hid : s₁.grp.id = s.grp.id := ite_keeps (·.grp.id) rfl rfl
  have hsize : s₁.grp.size = s.grp.size := ite_keeps (·.grp.size) rfl rfl
  have hgone₁ : s₁.grp.gone = s.grp.gone := ite_keeps (·.grp.gone) rfl rfl
  refine lost_each_loseMember hm (by simp [upto, hm, hlost]) ⟨hid ▸ hother, hsize ▸ hin, fun h => ?_⟩
  rw [hgone₁, hgone] at h
  exact absurd h Bool.false_ne_true

/-! ## READMIT (R317) -/

/-- A member that waits is back. -/
theorem back_takeReadmit {mask : BitVec 8} (hm : m < 8) (hmask : mask.getLsbD m = true) (hwaiting : s.grp.waiting.getLsbD m = true) :
    (takeReadmit mask s).grp.waiting.getLsbD m = false ∧ (takeReadmit mask s).grp.gone.getLsbD m = false ∧
      (takeReadmit mask s).grp.present.getLsbD m = true := by
  obtain ⟨hback, hgone, hpresent, -⟩ := backIn_readmitMembers hm mask s
  rw [hmask, hwaiting] at hback hgone hpresent
  rw [takeReadmit]
  exact ⟨by simpa using hback, by simpa using hgone, by simpa using hpresent⟩

/-! ## The commands -/

theorem engages_groupMessage {c : Instr} {f : State → State} {l src : Nat} (hexec : exec c s = groupMessage l src f s)
    (hlink : linkIn s (.cop l) 5 = true) (hin : src < s.grp.size) (hother : src ≠ s.grp.id) : Engages c s (f s) :=
  engages_of_settled (hexec.trans (if_pos (by simp [hlink, hin, hother])))

theorem engages_groupHello {l src size il ts part tck : Nat} (hlink : linkIn s (.cop l) 5 = true) :
    Engages (.groupHello l src size il ts part tck) s (takeHello src size il part s) := engages_of_settled (if_pos hlink)

theorem engages_linkResume {l src port fseq : Nat} (hport : port < 4) (hlink : linkIn s (.cop l) 5 = true) (hin : src < s.grp.size)
    (hother : src ≠ s.grp.id) : Engages (.linkResume l src port fseq) s (linkResumed (8 + port) fseq s) :=
  engages_groupMessage (if_pos hport) hlink hin hother

end

/-- Settles O31: a message of another member is its operation, and each clause is what that operation does to its part of the state. -/
theorem groupMessagesAct : Obligations.GroupMessagesAct := by
  unfold Obligations.GroupMessagesAct
  refine ⟨fun s l src hlink hin hother => ⟨fun _ _ _ _ _ => engages_groupHello hlink, fun _ => engages_groupMessage rfl hlink hin hother,
      fun _ _ => engages_groupMessage rfl hlink hin hother, fun _ _ => engages_groupMessage rfl hlink hin hother,
      fun _ => engages_groupMessage rfl hlink hin hother, fun _ _ hport => engages_linkResume hport hlink hin hother,
      fun _ _ _ => engages_groupMessage rfl hlink hin hother, fun _ => engages_groupMessage rfl hlink hin hother⟩,
    fun s l src hlink hin hother hsrc => ⟨fun _ _ _ hpart hgone => ⟨_, engages_groupHello hlink, present_takeHello hsrc hother hin hpart hgone⟩,
      fun n => ⟨_, engages_groupMessage rfl hlink hin hother, count_takeAlign l src _ s⟩,
      fun tag e i hcheck hfree => ⟨_, engages_groupMessage rfl hlink hin hother, ?_⟩,
      fun tag e hcheck => ⟨_, engages_groupMessage rfl hlink hin hother, (hoists_takeHoistArm _ _ _ s).trans (if_neg hcheck)⟩,
      fun tag st g hfind hst => ⟨_, engages_groupMessage rfl hlink hin hother, fun x hx => ?_⟩,
      fun tag g hfind hintime => ⟨_, engages_groupMessage rfl hlink hin hother, fun x hx htag => ?_⟩,
      fun id i h hfind hearly => ⟨_, engages_groupMessage rfl hlink hin hother, hoists_takeHoistCancel hfind hearly⟩,
      fun port fseq hport => ⟨fun hresume ⟨hwf, _⟩ => ⟨_, engages_linkResume hport hlink hin hother, ?_⟩,
        fun hresume hup => ⟨_, engages_linkResume hport hlink hin hother, resumeAt_linkResumed hresume hup⟩⟩,
      fun present lost waiting m hm hmin hmother hlost hgone =>
        ⟨_, engages_groupMessage rfl hlink hin hother, lost_takeMemberState present waiting hm hmin hmother hlost hgone⟩,
      fun mask m hm hmask hwaiting => ⟨_, engages_groupMessage rfl hlink hin hother, back_takeReadmit hm hmask hwaiting⟩⟩,
    fun s l src size il ts part tck hlink => engages_groupHello hlink,
    fun s src size il part hother h => takeHello_of_mismatch hother h,
    fun s l src => takeAlign_same l src s, fun s l src t => count_takeAlign l src t s⟩
  · rw [hoists_takeHoistArm, if_pos hcheck, hoists_armHoist _ hfree]
    exact tget_tset_of_ne _ _ _ (Option.some_ne_none _)
  · rw [takeHoistReply_of_late hfind (.inl hst)] at hx
    exact mem_endGroupHoist hfind hx
  · rw [takeHoistReply_of_success hfind hintime] at hx
    exact replied_of_mem_map hsrc (groupHoists_checkGroupHoists _ hx) htag
  · obtain ⟨again, hresumed⟩ := linkResumed_of_waiting (fseq := fseq) hresume
    rw [hresumed]
    exact resume_endHold _ again hwf

end Sys2Proof.Machine
end

section
/-!
PROOF. The times and the writes of a group (R63, R315 to R318; O32): the end of the wait for formation, the leader's TICK_ALIGN, the end of a
group hoist without its replies, and GRP_READMIT.
-/

namespace Sys2Proof.Machine
open Sys2Proof

section
variable {s : State} {m : Nat}

/-! ## The end of the wait for formation (R315, R316) -/

theorem engages_formWait (h : s.glb.memReady = true) : Engages .formWait s (formEnds s) := engages_of_settled (if_pos h)

theorem formEnds_of_over (h : s.grp.formed = true ∨ s.grp.size = 1) : formEnds s = s := if_pos h

/-- The members that are absent. -/
def absent (s : State) : List Nat := (upto s.grp.size).filter fun m => m != s.grp.id && !s.grp.present.getLsbD m

/-- The group is formed, and the absent members have been lost one after another. -/
def absentLost (s : State) : State := each (absent s) loseMember (onGrp (fun g => { g with formed := true }) s)

/-- What follows the losses changes neither who is lost nor that the group is formed. -/
theorem formEnds_absentLost (hformed : s.grp.formed = false) (hsize : s.grp.size ≠ 1) :
    (formEnds s).grp.formed = (absentLost s).grp.formed ∧ (formEnds s).grp.gone = (absentLost s).grp.gone := by
  unfold formEnds
  rw [if_neg (by simp [hformed, hsize])]
  extract_lets s₁ s₂ s₃ s₄
  rw [leaderAlign_grp]
  exact ⟨ite_keeps (·.grp.formed) rfl rfl, ite_keeps (·.grp.gone) rfl rfl⟩

theorem lost_absentLost (hm : m < 8) (hin : m < s.grp.size) (hother : m ≠ s.grp.id) (habsent : s.grp.present.getLsbD m = false) :
    Lost m (absentLost s) :=
  lost_each_loseMember hm (by simp [absent, upto, hin, hother, habsent]) ⟨hother, hin, fun _ => habsent⟩

theorem formed_formEnds (hformed : s.grp.formed = false) (hsize : s.grp.size ≠ 1) : (formEnds s).grp.formed = true :=
  (formEnds_absentLost hformed hsize).1.trans (formed_each_loseMember _ _)

theorem gone_formEnds (hformed : s.grp.formed = false) (hsize : s.grp.size ≠ 1) (hm : m < 8) (hin : m < s.grp.size) (hother : m ≠ s.grp.id)
    (habsent : s.grp.present.getLsbD m = false) : (formEnds s).grp.gone.getLsbD m = true := by
  obtain ⟨hgone, -⟩ := lost_absentLost hm hin hother habsent
  rwa [(formEnds_absentLost hformed hsize).2]

/-! ## TICK_ALIGN of the leader (R318) -/

theorem takes_tickAlignSend (hrunning : s.tck.running = true) (hcount : s.tck.count % 4096 = 0) (hsize : 1 < s.grp.size)
    (hleader : s.grp.leader = s.grp.id) : Takes .tickAlignSend s (sendAlign 99 s.grp.id s.tck.count s) :=
  takes_of_done (if_pos ⟨hrunning, hcount, hsize, hleader⟩)

theorem takes_tickAlignSend_of_none
    (h : s.tck.running = false ∨ s.tck.count % 4096 ≠ 0 ∨ s.grp.size ≤ 1 ∨ s.grp.leader ≠ s.grp.id) : Takes .tickAlignSend s s := by
  refine takes_of_done (if_neg ?_)
  rintro ⟨hrunning, hcount, hsize, hleader⟩
  rcases h with h | h | h | h
  · exact absurd hrunning (by simp [h])
  · exact h hcount
  · omega
  · exact h hleader

/-! ## A group hoist without its replies (R63) -/

section
variable {tag : Nat} {g : GroupHoist} (hfind : (s.tck.groupHoists.find? fun g => g.tag == tag) = some g)
include hfind

theorem execGroupHoistTimeout_of_find : exec (.groupHoistTimeout tag) s =
    if g.accepted + 2 ≤ s.tck.course then settled s (endGroupHoist g 0x0017 s) else done s s := by
  show execGroupHoistTimeout tag s = _
  simp only [execGroupHoistTimeout, hfind]

theorem engages_groupHoistTimeout (hpast : g.accepted + 2 ≤ s.tck.course) :
    Engages (.groupHoistTimeout tag) s (endGroupHoist g 0x0017 s) :=
  engages_of_settled ((execGroupHoistTimeout_of_find hfind).trans (if_pos hpast))

theorem takes_groupHoistTimeout_early (hearly : s.tck.course < g.accepted + 2) : Takes (.groupHoistTimeout tag) s s :=
  takes_of_done ((execGroupHoistTimeout_of_find hfind).trans (if_neg (Nat.not_le.mpr hearly)))

end

/-! ## GRP_READMIT (R317) -/

/-- The request stands, and has gone to the other members. -/
theorem askReadmit_eq (mask : BitVec 8) (s : State) : ∃ u, u.grp = { s.grp with readmit := s.grp.readmit ||| mask } ∧
    askReadmit mask s = onGrp (fun g => { g with readmit := g.readmit &&& g.gone }) (readmitMembers mask u) :=
  ⟨_, each_keeps _ _ (·.grp) (fun _ _ => sendGroup_grp _ _ _ _) _, rfl⟩

theorem askReadmit_member {mask : BitVec 8} (hm : m < 8) (hmask : mask.getLsbD m = true) :
    (s.grp.waiting.getLsbD m = true →
      (askReadmit mask s).grp.waiting.getLsbD m = false ∧ (askReadmit mask s).grp.present.getLsbD m = true) ∧
    (s.grp.waiting.getLsbD m = false → (askReadmit mask s).grp.readmit.getLsbD m = s.grp.gone.getLsbD m) := by
  obtain ⟨u, hu, hask⟩ := askReadmit_eq mask s
  obtain ⟨hback, hgone, hpresent, hreadmit⟩ := backIn_readmitMembers hm mask u
  rw [hu, hmask] at hback hgone hpresent hreadmit
  rw [hask]
  refine ⟨fun hwaiting => ⟨?_, ?_⟩, fun hwaiting => ?_⟩
  · exact hback.trans (by simp [hwaiting])
  · exact hpresent.trans (by simp [hwaiting])
  · rw [onGrp_grp, BitVec.getLsbD_and, hreadmit, hgone]
    simp [hwaiting, hmask]

theorem execReadmitWrite_of_some {mask : BitVec 8} (hmask : mask ≠ 0) (s : State) :
    exec (.readmitWrite mask) s = settled s (hostBar (.readmitWrite mask) s) := if_neg hmask

theorem engages_readmitWrite {mask : BitVec 8} {t : State} (hmask : mask ≠ 0) (h : hostBar (.readmitWrite mask) s = t) :
    Engages (.readmitWrite mask) s t := engages_of_settled ((execReadmitWrite_of_some hmask s).trans (congrArg (settled s) h))

end

/-- Settles O32: each time and each write is one operation on the state; the members after it are those that the loss and the readmission of
members leave. -/
theorem theGroupKeepsItsTimes : Obligations.TheGroupKeepsItsTimes := by
  unfold Obligations.TheGroupKeepsItsTimes
  refine ⟨fun s => engages_formWait,
    fun s hmem hformed hsize => ⟨_, engages_formWait hmem, formed_formEnds hformed hsize, fun m => gone_formEnds hformed hsize⟩,
    fun s hmem => takes_of_done (if_neg (by simp [hmem])), fun s => formEnds_of_over, fun s => formed_formEnds,
    fun s hrunning hcount hsize hleader => ⟨_, rfl, takes_tickAlignSend hrunning hcount hsize hleader, sendAlign_tck _ _ _ s⟩,
    fun s => takes_tickAlignSend_of_none,
    fun s tag g hfind => ⟨fun hpast => ⟨_, rfl, engages_groupHoistTimeout hfind hpast, fun x => mem_endGroupHoist hfind, ?_⟩,
      takes_groupHoistTimeout_early hfind⟩,
    fun s mask => ⟨fun hmask => takes_of_done (if_pos hmask), fun hmask hdown => engages_readmitWrite hmask (hostBar_of_down _ hdown)⟩,
    fun s mask hmask hreach => ⟨_, rfl, engages_readmitWrite hmask (hostBar_of_reaches (fun _ => rfl) hreach), fun m hm hbit => ?_⟩⟩
  · rw [groupHoists_endGroupHoist, tag_of_find hfind]
  · have hmember := askReadmit_member (s := tlpIn s) hm hbit
    rwa [tlpIn_grp] at hmember

end Sys2Proof.Machine
end

section
/-!
SUPPORT. The queues of the host (R331 to R342): what an update makes of a queue, and what counting, sending, an interrupt, a completion entry
and the check of an entry with FENCE leave of it.
-/

namespace Sys2Proof.Machine
open Sys2Proof

/-- The value that an index of a table in its canonical form reads as can be written there again. -/
theorem tset_tget_self {α : Type} [DecidableEq α] {d : α} {t : Table α} (i : Nat) (h : Table.wf d t = true) : tset d t i (tget d t i) = t := by
  induction t with
  | nil => exact if_pos rfl
  | cons p t ih =>
    obtain ⟨k, v⟩ := p
    obtain ⟨hbelow, hv, ht⟩ := wf_cons.mp h
    rcases Nat.lt_trichotomy i k with hlt | rfl | hgt
    · have hd : tget d ((k, v) :: t) i = d := tget_of_below d fun p hp => by
        rcases List.mem_cons.mp hp with rfl | hp
        · exact hlt
        · exact hlt.trans (hbelow p hp)
      rw [hd]
      simp [tset, hlt]
    · simp [tset, tget, hv]
    · have hk : ¬i < k := by omega
      have hne : i ≠ k := by omega
      simp [tset, tget, hk, hne, ih ht]

/-! ## One queue after an update -/

section
variable {s t : State} {q k : Nat} {f g : HQueue → HQueue}

theorem queue_congr (h : t.hst.queues = s.hst.queues) (k : Nat) : queue t k = queue s k := by rw [queue, h, queue]

/-- A queue that is not as at reset after its update is what the update makes of it. -/
theorem queue_onQueue_of_ne (h : f (queue s q) ≠ {}) : queue (onQueue q f s) q = f (queue s q) := tget_tset_of_ne _ _ _ h

theorem queue_onQueue_other (h : k ≠ q) : queue (onQueue q f s) k = queue s k := tget_tmod_other _ _ _ h

theorem onQueue_congr (h : f (queue s q) = g (queue s q)) : onQueue q f s = onQueue q g s := by
  have htable : tmod {} s.hst.queues q f = tmod {} s.hst.queues q g := congrArg (tset ({} : HQueue) s.hst.queues q) h
  simp only [onQueue, onHst, htable]

theorem onQueue_self (hwf : Table.wf {} s.hst.queues = true) (h : f (queue s q) = queue s q) : onQueue q f s = s := by
  have htable : tmod {} s.hst.queues q f = s.hst.queues :=
    (congrArg (tset ({} : HQueue) s.hst.queues q) h).trans (tset_tget_self q hwf)
  simp only [onQueue, onHst, htable]

theorem wf_queues_onQueue (hwf : Table.wf {} s.hst.queues = true) : Table.wf {} (onQueue q f s).hst.queues = true := by
  simp only [onQueue_hst]
  exact wf_tmod _ _ hwf

/-- An enabled queue is none of those that the table leaves out. -/
theorem ne_default_of_enable {h : HQueue} (henable : h.enable = true) : h ≠ {} := ne_of_apply_ne HQueue.enable (by simp [henable])

end

/-! ## What leaves the table of queues alone -/

section
variable (u code n v q : Nat) (o : Out) (s : State)

theorem queues_sendMsix : (sendMsix v s).hst.queues = s.hst.queues := ite_keeps (·.hst.queues) rfl (ite_keeps (·.hst.queues) rfl rfl)

@[simp] theorem queues_count : (count u code n s).hst.queues = s.hst.queues :=
  count_keeps (g := (·.hst.queues)) queues_sendMsix (fun _ _ => rfl) u code n s

theorem queues_msix : (msix v s).hst.queues = s.hst.queues :=
  (queues_sendMsix v _).trans (ite_keeps (·.hst.queues) rfl (queues_count _ _ _ s))

theorem queues_sendRaw (i ty start cr : Nat) (slots : List (BitVec 128)) (msg : Option Out) :
    (sendRaw i ty start cr slots msg s).hst.queues = s.hst.queues := queues_count _ _ _ _

theorem queues_sendFlit (i cls : Nat) : (sendFlit i cls o s).hst.queues = s.hst.queues := by
  unfold sendFlit
  extract_lets slots cap ty s₁ s₂ s₃
  have h₂ : s₂.hst.queues = s.hst.queues := ite_keeps (·.hst.queues) (queues_sendRaw _ _ _ _ _ _ _)
    ((queues_sendRaw _ _ _ _ _ _ _).trans (queues_sendRaw _ _ _ _ _ _ _))
  exact ite_keeps (·.hst.queues) ((queues_count _ _ _ _).trans h₂) h₂

@[simp] theorem queues_emit : (emit o s).hst.queues = s.hst.queues := by
  unfold emit
  split
  · exact ite_keeps (·.hst.queues) rfl (ite_keeps (·.hst.queues) (queues_count _ _ _ s) rfl)
  · split
    · rfl
    · exact ite_keeps (·.hst.queues) (queues_sendFlit _ s _ _) (ite_keeps (·.hst.queues) rfl rfl)
    · rfl

theorem queues_cmdDenied (status : Nat) : (cmdDenied status s).hst.queues = s.hst.queues := ite_keeps (·.hst.queues) rfl rfl

@[simp] theorem queues_tlpIn : (tlpIn s).hst.queues = s.hst.queues := queues_count _ _ _ s

@[simp] theorem queue_tlpIn (k : Nat) : queue (tlpIn s) k = queue s k := queue_congr (queues_tlpIn s) k

end

/-! ## What completion entries leave of the queues (R333, R338, R339) -/

/-- A queue without what its completion entries and their interrupts move on. -/
def besideCqes (h : HQueue) : HQueue := { h with cqTail := 0, phase := false, gap := false, gapPend := false, dones := [] }

/-- A queue without what the end of a command touches: the entries, the check of an entry with FENCE, and the commands at work. -/
def besideEntries (h : HQueue) : HQueue := { besideCqes h with fetched := [], started := [], fenced := none, winRun := none }

/-- From `s` to `t` the queues that `g` does not show as at reset stay as `g` shows them. -/
def QueuesKeep (g : HQueue → HQueue) (s t : State) : Prop := ∀ k, g (queue s k) ≠ g {} → g (queue t k) = g (queue s k)

section
variable {g g' f : HQueue → HQueue} {s t u : State} {q : Nat}

theorem QueuesKeep.refl (g : HQueue → HQueue) (s : State) : QueuesKeep g s s := fun _ _ => rfl

theorem QueuesKeep.trans (h : QueuesKeep g s t) (h' : QueuesKeep g t u) : QueuesKeep g s u := fun k hk =>
  (h' k ((h k hk).trans_ne hk)).trans (h k hk)

theorem QueuesKeep.of_queues (h : QueuesKeep g s t) (hu : u.hst.queues = t.hst.queues) : QueuesKeep g s u := fun k hk =>
  (congrArg g (queue_congr hu k)).trans (h k hk)

/-- What shows less of a queue is kept with what shows more of it. -/
theorem QueuesKeep.mono (hg : ∀ h, g' (g h) = g' h) (h : QueuesKeep g s t) : QueuesKeep g' s t := fun k hk => by
  have hne : g (queue s k) ≠ g {} := fun he => hk (by rw [← hg, he, hg])
  rw [← hg, h k hne, hg]

theorem QueuesKeep.onQueue (h : QueuesKeep g s t) (hf : ∀ x, g (f x) = g x) : QueuesKeep g s (onQueue q f t) := fun k hk => by
  have hk' : g (queue t k) ≠ g {} := (h k hk).trans_ne hk
  by_cases hkq : k = q
  · subst hkq
    rw [queue_onQueue_of_ne (ne_of_apply_ne g ((hf _).trans_ne hk')), hf, h k hk]
  · rw [queue_onQueue_other hkq, h k hk]

theorem QueuesKeep.ite {c : Prop} [Decidable c] (ht : QueuesKeep g s t) (hu : QueuesKeep g s u) :
    QueuesKeep g s (if c then t else u) := by
  split
  · exact ht
  · exact hu

theorem QueuesKeep.each {α : Type} {l : List α} {f : α → State → State} (hf : ∀ x u, QueuesKeep g s u → QueuesKeep g s (f x u))
    (h : QueuesKeep g s t) : QueuesKeep g s (each l f t) := each_preserves l f hf h

end

section
variable {s t : State} (q status result : Nat) (d : Done) (c : Cmd)

theorem QueuesKeep.queueInt (h : QueuesKeep besideCqes s t) : QueuesKeep besideCqes s (queueInt q t) := by
  refine .ite (h.onQueue fun _ => rfl) (.of_queues ?_ (queues_msix _ _))
  exact h.onQueue fun _ => rfl

theorem QueuesKeep.writeCqe (h : QueuesKeep besideCqes s t) : QueuesKeep besideCqes s (writeCqe q d t) := by
  unfold Machine.writeCqe
  extract_lets x s₁ s₂
  have h₁ : QueuesKeep besideCqes s s₁ := h.of_queues ((queues_count _ _ _ _).trans (queues_emit _ t))
  have h₂ : QueuesKeep besideCqes s s₂ := h₁.onQueue fun _ => rfl
  exact .ite (h₂.queueInt q) h₂

theorem QueuesKeep.writeCqes (h : QueuesKeep besideCqes s t) : QueuesKeep besideCqes s (writeCqes q t) := by
  refine .each (fun d u hu => .ite (.writeCqe q d ?_) hu) h
  exact hu.onQueue fun _ => rfl

theorem QueuesKeep.postDone (h : QueuesKeep besideCqes s t) : QueuesKeep besideCqes s (postDone q d t) := by
  refine .ite h (.writeCqes q ?_)
  exact h.onQueue fun _ => rfl

theorem QueuesKeep.entries (h : QueuesKeep besideCqes s t) : QueuesKeep besideEntries s t :=
  .mono (g := besideCqes) (fun _ => rfl) h

theorem QueuesKeep.checkFenced (h : QueuesKeep besideEntries s t) : QueuesKeep besideEntries s (checkFenced q t) := by
  unfold Machine.checkFenced
  split
  · exact h
  · refine .ite h ?_
    extract_lets t₁
    have h₁ : QueuesKeep besideEntries s t₁ := h.onQueue fun _ => rfl
    split
    · exact (h₁.of_queues (queues_cmdDenied t₁ _)).trans (((QueuesKeep.refl _ _).postDone _ _).entries)
    · exact h₁.onQueue fun _ => rfl

theorem QueuesKeep.finish (hc : c.q < 64) (h : QueuesKeep besideEntries s t) : QueuesKeep besideEntries s (finish c status result t) := by
  unfold Machine.finish
  rw [if_neg (by omega)]
  extract_lets win t₁
  have h₁ : QueuesKeep besideEntries s t₁ := h.onQueue fun _ => rfl
  exact (h₁.trans (((QueuesKeep.refl _ t₁).postDone _ _).entries)).checkFenced _

end

/-! ## Where nothing waits -/

section
variable {s : State} {q : Nat}

theorem writeCqes_of_none (h : (queue s q).dones = []) : writeCqes q s = s := by rw [writeCqes, h]; rfl

theorem checkFenced_of_none (h : (queue s q).fenced = none) : checkFenced q s = s := by simp [checkFenced, h]

end

end Sys2Proof.Machine
end

section
/-!
PROOF. Host scratch SRAM (R217, R324, R327, R492; O37): an access to BAR4 is refused before memory is ready, waits behind a device access, or is
performed on the bytes.
-/

namespace Sys2Proof.Machine
open Sys2Proof

section
variable {s : State} {off len tag a : Nat} {data : List Byte}

/-! ## The bytes after a write -/

theorem readN_scratchWrite (hwf : Memory.wf 0 s.hst.scratch = true) :
    Memory.readN 0 (scratchWrite off data s).hst.scratch off data.length = data := readN_writeN _ _ _ _ hwf

theorem read_scratchWrite_outside (h : a < off ∨ off + data.length ≤ a) :
    Memory.read 0 (scratchWrite off data s).hst.scratch a = Memory.read 0 s.hst.scratch a := by
  rcases h with hbelow | habove
  · exact read_writeN_below _ _ _ _ hbelow
  · exact read_writeN_above _ _ _ _ habove

/-! ## The performed access (R324, R492) -/

@[simp] theorem tlpIn_scratch (s : State) : (tlpIn s).hst.scratch = s.hst.scratch :=
  congrArg (·.hst.scratch) (besideCompletions_count 8 0x10 1 s)
@[simp] theorem tlpIn_marks (s : State) : (tlpIn s).hst.marks = s.hst.marks := congrArg (·.hst.marks) (besideCompletions_count 8 0x10 1 s)
@[simp] theorem tlpIn_ready (s : State) : (tlpIn s).hst.ready = s.hst.ready := congrArg (·.hst.ready) (besideCompletions_count 8 0x10 1 s)

theorem barEffect_bar4Write_ready (h : s.hst.ready = true) : barEffect (.bar4Write off data) s = scratchWrite off data s :=
  if_neg (by simp [h])

theorem barEffect_bar4Write_early (h : s.hst.ready = false) : barEffect (.bar4Write off data) s = hostErr 1 3 off true s := if_pos (by simp [h])

theorem barEffect_bar4Read_ready (h : s.hst.ready = true) : barEffect (.bar4Read off len tag) s =
    emit (.cpl tag .sc false (Memory.readN 0 s.hst.scratch off len)) (scratchRead off len s).2 := if_neg (by simp [h])

theorem barEffect_bar4Read_early (h : s.hst.ready = false) :
    barEffect (.bar4Read off len tag) s = emit (.cpl tag .ur false []) (hostErr 0 3 off true s) := if_pos (by simp [h])

/-! ## The command -/

theorem takes_bar4Write (h : off + data.length ≤ 2 ^ 22) : Takes (.bar4Write off data) s (hostBar (.bar4Write off data) s) :=
  takes_of_done (if_neg (Nat.not_lt.mpr h))

theorem takes_bar4Read (h : off + len ≤ 2 ^ 22) : Takes (.bar4Read off len tag) s (hostBar (.bar4Read off len tag) s) :=
  takes_of_done (if_neg (Nat.not_lt.mpr h))

theorem takes_bar4Write_performed (hup : hostUp s = true) (hw : barWaits s s.dir.nextId = false) (h : off + data.length ≤ 2 ^ 22) :
    Takes (.bar4Write off data) s (barEffect (.bar4Write off data) (tlpIn s)) := hostBar_of_free _ hup hw ▸ takes_bar4Write h

theorem takes_bar4Read_performed (hup : hostUp s = true) (hw : barWaits s s.dir.nextId = false) (h : off + len ≤ 2 ^ 22) :
    Takes (.bar4Read off len tag) s (barEffect (.bar4Read off len tag) (tlpIn s)) := hostBar_of_free _ hup hw ▸ takes_bar4Read h

/-- An access to no byte of the SRAM, or to a BAR that is not decoded, has no effect. -/
theorem takes_bar4Write_none (h : hostUp s = false ∨ 2 ^ 22 < off + data.length) : Takes (.bar4Write off data) s s := by
  by_cases hin : off + data.length ≤ 2 ^ 22
  · have htakes := takes_bar4Write (s := s) hin
    rwa [hostBar_of_down _ (h.resolve_right (by omega))] at htakes
  · exact takes_of_done (if_pos (Nat.lt_of_not_le hin))

theorem takes_bar4Read_none (h : hostUp s = false ∨ 2 ^ 22 < off + len) : Takes (.bar4Read off len tag) s s := by
  by_cases hin : off + len ≤ 2 ^ 22
  · have htakes := takes_bar4Read (s := s) (tag := tag) hin
    rwa [hostBar_of_down _ (h.resolve_right (by omega))] at htakes
  · exact takes_of_done (if_pos (Nat.lt_of_not_le hin))

end

/-- Settles O37: the access is performed by `barEffect`, and a write is one of the bytes of a memory. -/
theorem bar4ReadsWhatWasWritten : Obligations.Bar4ReadsWhatWasWritten := by
  unfold Obligations.Bar4ReadsWhatWasWritten
  refine ⟨fun s off data hup hw hin => ⟨fun hready => ?_, fun hearly => ?_⟩, fun s off len tag hup hw hin => ⟨fun hready => ?_, fun hearly => ?_⟩,
    fun s off len tag data => ⟨takes_bar4Write_none, takes_bar4Read_none⟩, fun s off len tag data hup hw => ⟨fun hin => ?_, fun hin => ?_⟩,
    fun s off data hwf => ⟨readN_scratchWrite hwf, wf_writeN _ _ hwf, fun a => read_scratchWrite_outside⟩⟩
  · have htakes := takes_bar4Write_performed hup hw hin
    rw [barEffect_bar4Write_ready (by rwa [tlpIn_ready])] at htakes
    refine ⟨_, rfl, htakes, fun hwf => readN_scratchWrite (by rwa [tlpIn_scratch]), fun a ha => ?_⟩
    rw [read_scratchWrite_outside ha, tlpIn_scratch]
  · exact barEffect_bar4Write_early (s := tlpIn s) (by rwa [tlpIn_ready]) ▸ takes_bar4Write_performed hup hw hin
  · have htakes := takes_bar4Read_performed (tag := tag) hup hw hin
    rw [barEffect_bar4Read_ready (by rwa [tlpIn_ready]), tlpIn_scratch] at htakes
    exact ⟨_, htakes, tlpIn_scratch s, tlpIn_marks s⟩
  · exact barEffect_bar4Read_early (s := tlpIn s) (by rwa [tlpIn_ready]) ▸ takes_bar4Read_performed hup hw hin
  · exact ⟨_, hostBar_of_waits (.bar4Write off data) hup hw ▸ takes_bar4Write hin, joins_holdBar _ s⟩
  · exact ⟨_, hostBar_of_waits (.bar4Read off len tag) hup hw ▸ takes_bar4Read hin, joins_holdBar _ s⟩

end Sys2Proof.Machine
end

section
/-!
PROOF. The doorbells (R335; O39): a legal index is taken, and no entry that is written then, and no command that is checked then, moves the head
of the completion queue.
-/

namespace Sys2Proof.Machine
open Sys2Proof

section
variable {s : State} {q v : Nat}

/-! ## The three answers to an index (R335) -/

theorem sqDoorbell_of_legal (henable : (queue s q).enable = true) (hv : v ≤ (queue s q).sqSize) :
    sqDoorbell q v s = onQueue q (fun h => { h with sqTail := v }) s := by
  simp [sqDoorbell, henable, hv]

theorem sqDoorbell_of_beyond (henable : (queue s q).enable = true) (hv : (queue s q).sqSize < v) : sqDoorbell q v s = queueError q 1 s := by
  simp [sqDoorbell, henable, hv]

theorem sqDoorbell_of_disabled (h : (queue s q).enable = false) : sqDoorbell q v s = s := by simp [sqDoorbell, h]

/-- The head is beyond the ring, or passes the tail: counted from the present head, it comes after the tail. -/
def headBeyond (v : Nat) (h : HQueue) : Prop :=
  h.cqSize < v ∨ (h.cqTail + (h.cqSize + 1) - h.cqHead) % (h.cqSize + 1) < (v + (h.cqSize + 1) - h.cqHead) % (h.cqSize + 1)

theorem cqDoorbell_of_legal (henable : (queue s q).enable = true) (hv : ¬headBeyond v (queue s q)) :
    cqDoorbell q v s = checkFenced q (writeCqes q (onQueue q (fun h => { h with cqHead := v }) s)) :=
  (if_neg (by simp [henable])).trans (if_neg hv)

theorem cqDoorbell_of_beyond (henable : (queue s q).enable = true) (hv : headBeyond v (queue s q)) : cqDoorbell q v s = queueError q 2 s :=
  (if_neg (by simp [henable])).trans (if_pos hv)

theorem cqDoorbell_of_disabled (h : (queue s q).enable = false) : cqDoorbell q v s = s := if_pos (by simp [h])

theorem queueError_of_sound (cause : Nat) (h : (queue s q).error = false) :
    queueError q cause s = onQueue q (fun h => { h with error := true, errCause := cause }) s := onQueue_congr (if_neg (by simp [h]))

/-! ## The queue after the new head -/

theorem queue_newHead (henable : (queue s q).enable = true) :
    queue (onQueue q (fun h => { h with cqHead := v }) s) q = { queue s q with cqHead := v } :=
  queue_onQueue_of_ne (f := fun h => { h with cqHead := v }) (ne_default_of_enable henable)

/-- The entries that are written and the command that is checked leave the head. -/
theorem cqHead_released (henable : (queue s q).enable = true) :
    (queue (checkFenced q (writeCqes q (onQueue q (fun h => { h with cqHead := v }) s))) q).cqHead = v := by
  generalize ht : onQueue q (fun h => { h with cqHead := v }) s = t
  have hqueue : queue t q = { queue s q with cqHead := v } := ht ▸ queue_newHead henable
  have hkeep : QueuesKeep besideEntries t (checkFenced q (writeCqes q t)) := (((QueuesKeep.refl _ t).writeCqes q).entries).checkFenced q
  have hne : besideEntries (queue t q) ≠ besideEntries {} := ne_of_apply_ne (·.enable) (by simp [besideEntries, besideCqes, hqueue, henable])
  exact (congrArg (·.cqHead) (hkeep q hne)).trans (congrArg (·.cqHead) hqueue)

theorem queue_released (henable : (queue s q).enable = true) (hdones : (queue s q).dones = []) (hfenced : (queue s q).fenced = none) :
    queue (checkFenced q (writeCqes q (onQueue q (fun h => { h with cqHead := v }) s))) q = { queue s q with cqHead := v } := by
  have hqueue := queue_newHead (v := v) henable
  rw [writeCqes_of_none (by rw [hqueue]; exact hdones), checkFenced_of_none (by rw [hqueue]; exact hfenced), hqueue]

/-! ## The commands -/

theorem takes_sqTailDoorbell (hq : q < 64) (hreach : HostReaches s (offDoor q)) :
    Takes (.sqTailDoorbell q v) s (sqDoorbell q (v % 4096) (tlpIn s)) :=
  takes_of_done ((if_pos hq).trans (congrArg (done s) (hostBar_of_reaches (fun _ => rfl) hreach)))

theorem takes_cqHeadDoorbell (hq : q < 64) (hreach : HostReaches s (offDoor q + 8)) :
    Takes (.cqHeadDoorbell q v) s (cqDoorbell q (v % 4096) (tlpIn s)) :=
  takes_of_done ((if_pos hq).trans (congrArg (done s) (hostBar_of_reaches (fun _ => rfl) hreach)))

/-- A doorbell that BAR0 does not decode, or of no queue, has no effect. -/
theorem takes_doorbells_none (h : hostUp s = false ∨ 64 ≤ q) : Takes (.sqTailDoorbell q v) s s ∧ Takes (.cqHeadDoorbell q v) s s := by
  by_cases hq : q < 64
  · have hdown := h.resolve_right (by omega)
    exact ⟨takes_of_done ((if_pos hq).trans (congrArg (done s) (hostBar_of_down _ hdown))),
      takes_of_done ((if_pos hq).trans (congrArg (done s) (hostBar_of_down _ hdown)))⟩
  · exact ⟨takes_of_done (if_neg hq), takes_of_done (if_neg hq)⟩

end

/-- Settles O39: each doorbell is one of the three answers to its index. -/
theorem doorbellsMoveTheRings : Obligations.DoorbellsMoveTheRings := by
  unfold Obligations.DoorbellsMoveTheRings
  refine ⟨fun s q v hq hv hreach henable => ?_, fun s q v hq hv hreach henable => ?_, fun s q v hq hsq hcq hdisabled => ?_,
    fun s q v => takes_doorbells_none⟩
  all_goals rw [← queue_tlpIn s q] at *
  · have htakes := takes_sqTailDoorbell (v := v) hq hreach
    rw [Nat.mod_eq_of_lt hv] at htakes
    refine ⟨fun hlegal => ⟨_, rfl, sqDoorbell_of_legal henable hlegal ▸ htakes, queue_onQueue_of_ne (ne_default_of_enable henable),
      fun k hk => (queue_onQueue_other hk).trans (queue_tlpIn s k)⟩, fun hlegal htail hwf => ?_, fun hbeyond hsound => ?_⟩
    · obtain ⟨-, -, hqueues, -⟩ := hwf
      have hsame := onQueue_self (s := tlpIn s) (q := q) (f := fun h => { h with sqTail := v }) (by rwa [queues_tlpIn]) (by rw [htail])
      exact hsame ▸ sqDoorbell_of_legal henable hlegal ▸ htakes
    · exact queueError_of_sound 1 hsound ▸ sqDoorbell_of_beyond henable hbeyond ▸ htakes
  · have htakes := takes_cqHeadDoorbell (v := v) hq hreach
    rw [Nat.mod_eq_of_lt hv] at htakes
    refine ⟨fun hring hpass => ⟨_, rfl, ?_, cqHead_released henable, fun hdones hfenced => queue_released henable hdones hfenced⟩,
      fun hbeyond hsound => queueError_of_sound 2 hsound ▸ cqDoorbell_of_beyond henable hbeyond ▸ htakes⟩
    have hlegal : ¬headBeyond v (queue (tlpIn s) q) := fun hb => hb.elim (by omega) (by omega)
    exact cqDoorbell_of_legal henable hlegal ▸ htakes
  · exact ⟨sqDoorbell_of_disabled hdisabled ▸ takes_sqTailDoorbell hq hsq, cqDoorbell_of_disabled hdisabled ▸ takes_cqHeadDoorbell hq hcq⟩

end Sys2Proof.Machine
end

section
/-!
PROOF. The queues and their entries (R332, R336, R339, R340; O40): the statement's clause on an entry with FENCE speaks of every state, and not only
of those whose tables are in their canonical form, in which no queue is listed twice.
-/

namespace Sys2Proof.Machine
open Sys2Proof

/-- A NOP with FENCE. -/
def fencedNop : BitVec 512 := 0x100

/-- The table of queues lists queue 0 twice. The first entry becomes as at reset when its command is checked, and leaves the table; the second
one still has an entry with FENCE. -/
def queueListedTwice : State := { hst := { queues := [(0, { fenced := some fencedNop }), (0, { fenced := some fencedNop })] } }

/-- The state in which the check of the entry has begun. -/
def fenceChecked : State := onQueue 0 (fun h => { h with fenced := none }) queueListedTwice

theorem readEntry_fencedNop :
    (readEntry fenceChecked 0 fencedNop).2 = .inr (.nop { q := 0, cid := 0, fence := true, noInt := false }) := by decide +kernel

theorem fenced_checkFenced_queueListedTwice : (queue (checkFenced 0 queueListedTwice) 0).fenced = some fencedNop := by decide +kernel

/-- Refutes O40: the check of the entry of queue 0 of `queueListedTwice` leaves an entry to be checked. With `TablesWf s`, which other clauses
assume, the state is shut out. -/
theorem not_queuesTakeTheirEntries : ¬ Obligations.QueuesTakeTheirEntries := by
  unfold Obligations.QueuesTakeTheirEntries
  rintro ⟨-, -, -, -, -, hcheck, -⟩
  have hwaits := (hcheck queueListedTwice 0 fencedNop rfl).2 rfl rfl
  obtain ⟨-, hnone⟩ := hwaits _ readEntry_fencedNop
  rw [fenced_checkFenced_queueListedTwice] at hnone
  exact nomatch hnone

end Sys2Proof.Machine
end

section
/-!
PROOF. The completion entry of a command (R333, R338, R340; O41): its queue after the one entry, written where there is room and else kept, and the
record of what went out.
-/

namespace Sys2Proof.Machine
open Sys2Proof

section
variable {s : State} {q : Nat} {d : Done} {c : Cmd} {status result : Nat}

/-! ## A queue that has had its entry -/

/-- An interrupt moves on the gap alone. -/
theorem queue_queueInt (henable : (queue s q).enable = true) :
    ∃ g p, queue (queueInt q s) q = { queue s q with gap := g, gapPend := p } := by
  unfold queueInt
  extract_lets h
  split
  · exact ⟨h.gap, true, queue_onQueue_of_ne (ne_default_of_enable henable)⟩
  · exact ⟨decide (0 < h.intGap), h.gapPend,
      (queue_congr (queues_msix _ _) q).trans (queue_onQueue_of_ne (ne_default_of_enable henable))⟩

/-- A written entry moves the tail on, with the phase where the ring begins anew, and may begin the gap (R338, R339). -/
theorem queue_writeCqe (henable : (queue s q).enable = true) : ∃ g p, queue (writeCqe q d s) q = { queue s q with
    cqTail := ((queue s q).cqTail + 1) % ((queue s q).cqSize + 1)
    phase := if (queue s q).cqTail = (queue s q).cqSize then !(queue s q).phase else (queue s q).phase
    gap := g, gapPend := p } := by
  unfold writeCqe
  extract_lets h s₁ s₂
  have h₁ : queue s₁ q = queue s q := queue_congr ((queues_count _ _ _ _).trans (queues_emit _ s)) q
  have h₂ : queue s₂ q = { queue s q with
      cqTail := (h.cqTail + 1) % (h.cqSize + 1), phase := if h.cqTail = h.cqSize then !h.phase else h.phase } := by
    rw [← h₁]
    exact (queue_onQueue_of_ne (ne_default_of_enable (h₁ ▸ henable))).trans (by rw [h₁])
  split
  · obtain ⟨g, p, hint⟩ := queue_queueInt (s := s₂) (q := q) (by rw [h₂]; exact henable)
    exact ⟨g, p, by rw [hint, h₂]⟩
  · exact ⟨h.gap, h.gapPend, h₂⟩

/-! ## What goes out (R333) -/

theorem mem_out_emit_tlp {o : Out} (hport : outPort s o = none) (htlp : isTlp o = true) (hwanted : wanted o = true)
    (hlink : s.hst.linkUp = true) : o ∈ (emit o s).out := by
  simp [emit, hport, htlp, hwanted, hlink, push]

theorem ev_queueInt {a : State} (q : Nat) (s : State) (h : Evolves a s) : Evolves a (queueInt q s) :=
  ev_ite (ev_msix _ _ (ev_onQueue _ _ s h)) fun _ => ev_onQueue _ _ s h

theorem mem_out_of_evolves {o : Out} {t : State} (h : Evolves s t) (ho : o ∈ s.out) : o ∈ t.out := h.out.mem ho

/-- The entry goes to its place in the ring. -/
theorem mem_out_writeCqe (hlink : s.hst.linkUp = true) : .cqe q (queue s q).cqTail ((queue s q).cqBase * 4096 + 16 * (queue s q).cqTail)
    (cqEntry d (queue s q).sqHead (queue s q).phase) ∈ (writeCqe q d s).out := by
  unfold writeCqe
  extract_lets h s₁ s₂
  have h₁ := mem_out_of_evolves (ev_count 8 0x13 1 _ (.refl _))
    (mem_out_emit_tlp (s := s) (o := .cqe q h.cqTail (h.cqBase * 4096 + 16 * h.cqTail) (cqEntry d h.sqHead h.phase)) rfl rfl rfl hlink)
  split
  · exact mem_out_of_evolves (ev_queueInt q s₂ (.refl _)) h₁
  · exact h₁

/-! ## The one entry of a command (R333, R340) -/

/-- The completion entry of a command of the queue. -/
def entryOf (c : Cmd) (status result : Nat) (h : HQueue) : Done :=
  { kind := 0, cid := c.cid, status, result := BitVec.ofNat 64 result, noInt := c.noInt, win := decide (h.winRun = some c) }

/-- A queue after the end of a command that had started: the command is none of those at work. -/
def ended (c : Cmd) (h : HQueue) : HQueue :=
  { h with started := h.started.erase c, winRun := if h.winRun = some c then none else h.winRun }

/-- A queue after the end of a command that has no entry, because the queue was disabled or reset since. -/
def endedMute (c : Cmd) (h : HQueue) : HQueue :=
  { h with mute := h.mute.erase c, winRun := if h.winRun = some c then none else h.winRun }

theorem finish_of_mute (hc : 64 ≤ c.q) : finish c status result s = onQueue (c.q % 64) (endedMute c) s := if_pos hc

theorem finish_of_queue (hc : c.q < 64) : finish c status result s =
    checkFenced c.q (postDone c.q (entryOf c status result (queue s c.q)) (onQueue c.q (ended c) s)) := by
  have hended : onQueue c.q (fun h => { h with
      started := h.started.erase c, winRun := if decide ((queue s c.q).winRun = some c) then none else h.winRun }) s =
      onQueue c.q (ended c) s := onQueue_congr (by simp only [ended, decide_eq_true_eq])
  exact (if_neg (by omega)).trans (congrArg (fun t => checkFenced c.q (postDone c.q (entryOf c status result (queue s c.q)) t)) hended)

theorem queue_onQueue_ended (henable : (queue s c.q).enable = true) : queue (onQueue c.q (ended c) s) c.q = ended c (queue s c.q) :=
  queue_onQueue_of_ne (ne_default_of_enable henable)

theorem postDone_of_enable (henable : (queue s q).enable = true) (hcommit : pastCommit s = false) :
    postDone q d s = writeCqes q (onQueue q (fun h => { h with dones := h.dones ++ [d] }) s) := if_neg (by simp [henable, hcommit])

theorem writeCqes_of_full (hdones : (queue s q).dones = [d]) (hroom : cqRoom (queue s q) = false) : writeCqes q s = s := by
  rw [writeCqes, hdones]
  exact if_neg (by simp [hroom])

theorem writeCqes_of_room (hdones : (queue s q).dones = [d]) (hroom : cqRoom (queue s q) = true) :
    writeCqes q s = writeCqe q d (onQueue q (fun h => { h with dones := h.dones.drop 1 }) s) := by
  rw [writeCqes, hdones]
  exact if_pos (by simp [hdones, hroom])

/-- No entry with FENCE is checked while an entry waits for its place. -/
theorem checkFenced_of_dones (h : (queue s q).dones ≠ []) : checkFenced q s = s := by
  have hearlier : earlierDone s q = false := by simp [earlierDone, h]
  unfold checkFenced
  split
  · rfl
  · exact if_pos (by simp [hearlier])

end

section
variable {s : State} {c : Cmd} {status result : Nat}

/-- What a command's end is for an enabled queue in which nothing waits: its entry waits last, and is written if it can be. -/
theorem finish_of_enable (hc : c.q < 64) (henable : (queue s c.q).enable = true) (hcommit : pastCommit s = false)
    (hdones : (queue s c.q).dones = []) : ∃ t, finish c status result s = checkFenced c.q (writeCqes c.q t) ∧
      queue t c.q = { ended c (queue s c.q) with dones := [entryOf c status result (queue s c.q)] } ∧ t.out = s.out ∧
      t.hst.linkUp = s.hst.linkUp := by
  have hqueue := queue_onQueue_ended henable
  have henable' : (queue (onQueue c.q (ended c) s) c.q).enable = true := by rw [hqueue]; exact henable
  refine ⟨_, (finish_of_queue hc).trans (congrArg _ (postDone_of_enable henable' hcommit)),
    (queue_onQueue_of_ne (ne_default_of_enable henable')).trans ?_, rfl, rfl⟩
  rw [hqueue]
  simp [ended, hdones]

/-- The full queue keeps the entry. -/
theorem finish_full (hc : c.q < 64) (henable : (queue s c.q).enable = true) (hcommit : pastCommit s = false)
    (hdones : (queue s c.q).dones = []) (hroom : cqRoom (queue s c.q) = false) :
    queue (finish c status result s) c.q = { ended c (queue s c.q) with dones := [entryOf c status result (queue s c.q)] } ∧
      (finish c status result s).out = s.out := by
  obtain ⟨t, hfinish, hqueue, hout, -⟩ := finish_of_enable (status := status) (result := result) hc henable hcommit hdones
  rw [hfinish, writeCqes_of_full (congrArg HQueue.dones hqueue) (by rw [hqueue]; exact hroom), checkFenced_of_dones (by simp [hqueue])]
  exact ⟨hqueue, hout⟩

/-- The queue with room has the entry written to its ring. -/
theorem finish_room (hc : c.q < 64) (henable : (queue s c.q).enable = true) (hcommit : pastCommit s = false)
    (hdones : (queue s c.q).dones = []) (hfenced : (queue s c.q).fenced = none) (hroom : cqRoom (queue s c.q) = true) :
    ∃ t, finish c status result s = writeCqe c.q (entryOf c status result (queue s c.q)) t ∧
      queue t c.q = ended c (queue s c.q) ∧ t.hst.linkUp = s.hst.linkUp := by
  obtain ⟨t, hfinish, hqueue, -, hlink⟩ := finish_of_enable (status := status) (result := result) hc henable hcommit hdones
  have hdropped : queue (onQueue c.q (fun h => { h with dones := h.dones.drop 1 }) t) c.q = ended c (queue s c.q) := by
    rw [queue_onQueue_of_ne (ne_default_of_enable (by rw [hqueue]; exact henable)), hqueue]
    simp [ended, hdones]
  refine ⟨_, ?_, hdropped, hlink⟩
  rw [hfinish, writeCqes_of_room (congrArg HQueue.dones hqueue) (by rw [hqueue]; exact hroom)]
  obtain ⟨g, p, hwritten⟩ := queue_writeCqe (d := entryOf c status result (queue s c.q)) (congrArg HQueue.enable hdropped |>.trans henable)
  exact checkFenced_of_none (by rw [hwritten, hdropped]; exact hfenced)

end

/-- Settles O41: a command without an entry changes its queue's account of it alone, and one with an entry has it waiting in the full queue, or
written in the other. -/
theorem commandsEndWithOneEntry : Obligations.CommandsEndWithOneEntry := by
  unfold Obligations.CommandsEndWithOneEntry
  refine ⟨fun s c status result hwf hc => ?_, fun s c status result hc henable hcommit hdones hroom => ?_,
    fun s c status result hc henable hcommit hdones hfenced hroom => ?_⟩
  · obtain ⟨-, -, hqueues, -⟩ := hwf
    rw [finish_of_mute hc]
    refine ⟨rfl, fun k => ?_, congrArg HQueue.mute (queue_onQueue_same hqueues)⟩
    by_cases hk : k = c.q % 64
    · subst hk
      exact (congrArg HQueue.dones (queue_onQueue_same (f := endedMute c) hqueues)).trans rfl
    · rw [queue_onQueue_other hk]
  · obtain ⟨hqueue, hout⟩ := finish_full (status := status) (result := result) hc henable hcommit hdones hroom
    rw [hqueue]
    exact ⟨rfl, hout, rfl⟩
  · obtain ⟨t, hfinish, hqueue, hlink⟩ := finish_room (status := status) (result := result) hc henable hcommit hdones hfenced hroom
    obtain ⟨g, p, hwritten⟩ := queue_writeCqe (d := entryOf c status result (queue s c.q)) (congrArg HQueue.enable hqueue |>.trans henable)
    rw [hfinish, hwritten, hqueue]
    refine ⟨hdones, rfl, rfl, fun hup => ?_⟩
    have hmem := mem_out_writeCqe (q := c.q) (d := entryOf c status result (queue s c.q)) (hlink.trans hup)
    rw [hqueue] at hmem
    exact hmem

end Sys2Proof.Machine
end

section
/-!
SUPPORT. The start and the end of a command (R336, R343, R358): a command that Stop serves starts in it too, and what the end leaves of the host
interface, of power and of the tests.
-/

namespace Sys2Proof.Machine
open Sys2Proof

section
variable {s : State} {c : Cmd} {i : Instr} {f : State → State}

/-- A fetched command that nothing holds starts, unless the module is in Stop and does not serve it there. -/
theorem startCmd_of_canStart (hfetched : i ∈ (queue s c.q).fetched) (hcan : canStart s c i = true) : startCmd c i f s =
    if (inStop s || s.pwr.runSt == 1) && !servedInStop i then finish c 0x0009 0 (begun c s) else f (begun c s) := by
  unfold startCmd
  rw [takeCmd_of_fetched hfetched]
  exact if_neg (by simp [hcan])

theorem startCmd_of_served (hserved : servedInStop i = true) (hfetched : i ∈ (queue s c.q).fetched) (hcan : canStart s c i = true) :
    startCmd c i f s = f (begun c s) := (startCmd_of_canStart hfetched hcan).trans (if_neg (by simp [hserved]))

theorem takes_of_starts (hexec : exec i s = done s (startCmd c i f s)) (h : Starts s c i) : Takes i s (f (begun c s)) :=
  takes_of_done (hexec.trans (congrArg (done s) (startCmd_of_starts f h)))

theorem takes_of_served (hexec : exec i s = done s (startCmd c i f s)) (hserved : servedInStop i = true)
    (hfetched : i ∈ (queue s c.q).fetched) (hcan : canStart s c i = true) : Takes i s (f (begun c s)) :=
  takes_of_done (hexec.trans (congrArg (done s) (startCmd_of_served hserved hfetched hcan)))

theorem engages_of_served (hexec : exec i s = settled s (startCmd c i f s)) (hserved : servedInStop i = true)
    (hfetched : i ∈ (queue s c.q).fetched) (hcan : canStart s c i = true) : Engages i s (f (begun c s)) :=
  engages_of_settled (hexec.trans (congrArg (settled s) (startCmd_of_served hserved hfetched hcan)))

end

/-! ## What the end of a command leaves alone -/

section
variable (c : Cmd) (status result : Nat) (s : State)

theorem finish_hst {β : Type} {g : Hst → β} (hg : ∀ h q p, g { h with queues := q, msixPend := p } = g h) :
    g (finish c status result s).hst = g s.hst := by
  have hbeside := congrArg (fun t : State => g t.hst) (besideCompletions_finish c s status result)
  simpa only [besideCompletions, hg] using hbeside

theorem finish_pwr : (finish c status result s).pwr = s.pwr := congrArg (·.pwr) (besideCompletions_finish c s status result)
theorem finish_err : (finish c status result s).err = s.err := congrArg (·.err) (besideCompletions_finish c s status result)

end

end Sys2Proof.Machine
end

section
/-!
PROOF. The module commands (R356 to R358, R388, R463, R464; O44): a life-cycle change, a test, STOP and RUN on the state in which they have started,
and the end of Stop entry.
-/

namespace Sys2Proof.Machine
open Sys2Proof

/-! ## A life-cycle change (R356, R388) -/

section
variable {s : State} {c : Cmd} {dst off len : Nat}

theorem lcCheck_begun (c : Cmd) (s : State) : lcCheck (begun c s) dst off len = lcCheck s dst off len := rfl

theorem lifecycle_refused (h : (lcCheck s dst off len).1 ≠ 0) : lifecycle c dst off len s = finish c (lcCheck s dst off len).1 0 s := if_pos h

theorem lifecycle_verified (h : (lcCheck s dst off len).1 = 0) : lifecycle c dst off len s = onPwr (fun p => { p with drain := 3 })
    (abortFetched (onHst (fun h => { h with lc := some (dst, (lcCheck s dst off len).2) }) (finish c 0 dst s))) := if_neg (not_not.mpr h)

/-- The fetched commands that a change stops end with their entries, and leave the rest alone. -/
theorem besideCompletions_abortFetched (s : State) : besideCompletions (abortFetched s) = besideCompletions s := by
  refine each_keeps _ _ besideCompletions (fun q t => ?_) s
  refine (each_keeps _ _ besideCompletions (fun i u => ?_) _).trans ?_
  · split
    · exact besideCompletions_postDone _ _ u
    · rfl
  · refine (besideCompletions_onQueue _ _ _).trans ?_
    split
    · exact (besideCompletions_postDone _ _ _).trans rfl
    · rfl

theorem abortFetched_lc (s : State) : (abortFetched s).hst.lc = s.hst.lc := by
  have hbeside := congrArg (·.hst.lc) (besideCompletions_abortFetched s)
  simpa only [besideCompletions] using hbeside

/-- Of the life cycle, of the drain and of the fuses a change that verifies touches the first two (R388). -/
theorem lifecycle_lc (h : (lcCheck s dst off len).1 = 0) : (lifecycle c dst off len s).hst.lc = some (dst, (lcCheck s dst off len).2) := by
  rw [lifecycle_verified h, onPwr_hst, abortFetched_lc, onHst_hst]

theorem lifecycle_drain (h : (lcCheck s dst off len).1 = 0) : (lifecycle c dst off len s).pwr.drain = 3 := by
  rw [lifecycle_verified h]
  rfl

theorem lifecycle_keeps_flash_fuses : (lifecycle c dst off len s).flash = s.flash ∧ (lifecycle c dst off len s).fuses = s.fuses := by
  have hfinish (status result : Nat) := besideCompletions_finish c s status result
  by_cases h : (lcCheck s dst off len).1 = 0
  · rw [lifecycle_verified h]
    have habort := besideCompletions_abortFetched
      (onHst (fun h => { h with lc := some (dst, (lcCheck s dst off len).2) }) (finish c 0 dst s))
    exact ⟨(congrArg (·.flash) habort).trans (congrArg (·.flash) (hfinish 0 dst)),
      (congrArg (·.fuses) habort).trans (congrArg (·.fuses) (hfinish 0 dst))⟩
  · rw [lifecycle_refused h]
    exact ⟨congrArg (·.flash) (hfinish _ 0), congrArg (·.fuses) (hfinish _ 0)⟩

theorem starts_lifecycle {i : Instr} (hexec : exec i s = settled s (startCmd c i (lifecycle c dst off len) s)) (h : Starts s c i) :
    ∃ t, t = lifecycle c dst off len (begun c s) ∧ Engages i s t ∧
      ((lcCheck s dst off len).1 = 0 → t.hst.lc = some (dst, (lcCheck s dst off len).2) ∧ t.pwr.drain = 3 ∧ t.flash.lc = s.flash.lc) ∧
      ((lcCheck s dst off len).1 ≠ 0 → t = finish c (lcCheck s dst off len).1 0 (begun c s)) := by
  obtain ⟨hflash, -⟩ := lifecycle_keeps_flash_fuses (s := begun c s) (c := c) (dst := dst) (off := off) (len := len)
  refine ⟨_, rfl, engages_of_starts hexec h, fun hok => ?_, fun hbad => ?_⟩
  · have hok' : (lcCheck (begun c s) dst off len).1 = 0 := by rwa [lcCheck_begun]
    rw [lifecycle_lc hok', lcCheck_begun]
    exact ⟨rfl, lifecycle_drain hok', congrArg Flash.lc hflash⟩
  · have hbad' : (lcCheck (begun c s) dst off len).1 ≠ 0 := by rwa [lcCheck_begun]
    rw [lifecycle_refused hbad', lcCheck_begun]

end

/-! ## What the queueing of a media read leaves of the tests (R45, R46) -/

section
variable (s : State)

theorem err_leaveCohort (b : Nat) : (leaveCohort b s).err = s.err := by
  unfold leaveCohort
  split
  · rfl
  · rfl

theorem err_count (u code n : Nat) : (count u code n s).err = s.err := congrArg (·.err) (besideCounting_count u code n s)

theorem err_displacePiece (bank : Nat) : (displacePiece bank s).err = s.err := by
  refine ite_keeps (·.err) rfl ((err_count _ _ _ _).trans ?_)
  refine each_keeps (s.med.progs.filter _) _ (·.err) (fun p t => ?_) s
  split
  · exact ite_keeps (·.err) (err_leaveCohort t _) rfl
  · rfl

theorem err_placeLate (i : Nat) : (placeLate i s).err = s.err := by
  unfold placeLate
  split
  · rfl
  · rename_i r _
    extract_lets b taken
    have hfree : (if taken then (1, s) else free s).2.err = s.err := by
      split
      · rfl
      · rfl
    generalize (if taken then (1, s) else free s) = p at hfree ⊢
    obtain ⟨v, t⟩ := p
    refine ite_keeps (·.err) hfree (ite_keeps (·.err) hfree ?_)
    extract_lets t₂ l
    have h₂ : t₂.err = s.err := (err_displacePiece t b).trans hfree
    refine ite_keeps (·.err) h₂ ?_
    split
    · exact h₂
    · exact h₂

theorem err_queueRead (why : RdWhy) (ppn cls level arrived : Nat) : (queueRead why ppn cls level arrived s).err = s.err := by
  unfold queueRead
  extract_lets ch late n r s₁ s₂
  have h₂ : s₂.err = s.err := ite_keeps (·.err) (err_count _ _ _ _) rfl
  exact ite_keeps (·.err) ((err_placeLate s₂ _).trans h₂) h₂

end

/-! ## The test of a location (R357, R486) -/

section
variable {s : State} {c : Cmd} {m loc : Nat}

theorem testBusy_openWindow (c : Cmd) (s : State) : testBusy (openWindow c s) m loc = testBusy s m loc := rfl

theorem hostTest_busy (h : testBusy s m loc = true) : hostTest c m loc s = finish c 0 3 (fillWindow c [] (openWindow c s)) :=
  if_pos (by simp [testBusy_openWindow, h])

/-- The test that the command asks for. -/
def askedTest (c : Cmd) (m loc : Nat) : STest := { mem := m, loc, cmd := some c, after := false }

theorem hostTest_free (hbusy : testBusy s m loc = false) (hnone : testOf s m loc = none) : hostTest c m loc s =
    tryTest (askedTest c m loc) (onErr (fun e => { e with tests := e.tests ++ [askedTest c m loc] }) (openWindow c s)) := by
  have hnone' : testOf (openWindow c s) m loc = none := hnone
  simp [hostTest, testBusy_openWindow, hbusy, hnone', askedTest]

/-- A test that starts runs; that of a media page has its first sensing queued. -/
theorem tests_tryTest {t : STest} (hbusy : testBusy s t.mem t.loc = false) (hroom : t.mem = 7 → mediaRoom s = true) :
    (tryTest t s).err.tests = s.err.tests.map fun x => if x.mem = t.mem ∧ x.loc = t.loc then { x with running := true } else x := by
  have hstarts : ¬(testBusy s t.mem t.loc || (t.mem == 7 && !mediaRoom s)) = true := by simpa [hbusy] using hroom
  rw [tryTest, if_neg hstarts]
  exact ite_keeps (·.err.tests) (congrArg (·.tests) (err_queueRead _ _ _ _ _ _)) rfl

/-- The test of the command is the only one of its location, and runs. -/
theorem tests_hostTest_free (hbusy : testBusy s m loc = false) (hnone : testOf s m loc = none) (hroom : m = 7 → mediaRoom s = true) :
    (hostTest c m loc s).err.tests = s.err.tests ++ [{ askedTest c m loc with running := true }] := by
  rw [hostTest_free hbusy hnone, tests_tryTest]
  rotate_left
  · exact hbusy
  · exact hroom
  have hothers : ∀ x ∈ s.err.tests, ¬(x.mem = m ∧ x.loc = loc) := by
    simpa [testOf] using hnone
  have hsame : (s.err.tests.map fun x => if x.mem = m ∧ x.loc = loc then { x with running := true } else x) = s.err.tests :=
    (List.map_congr_left fun x hx => if_neg (hothers x hx)).trans (List.map_id _)
  have happend : (onErr (fun e => { e with tests := e.tests ++ [askedTest c m loc] }) (openWindow c s)).err.tests =
    s.err.tests ++ [askedTest c m loc] := rfl
  rw [happend, List.map_append]
  exact congrArg₂ (· ++ ·) hsame (congrArg (fun x => [x]) (if_pos ⟨rfl, rfl⟩))

end

/-! ## STOP and RUN (R358, R464) -/

section
variable {s : State} {c : Cmd}

theorem askStop_inStop (h : s.pwr.runSt = 2) : askStop c s = finish c 0 0 s := if_pos h

theorem stops_askStop (h : s.pwr.runSt ≠ 2) : (askStop c s).hst.stops = s.hst.stops ++ [c] := by
  rw [askStop, if_neg h]
  exact ite_keeps (·.hst.stops) rfl rfl

theorem entry_askStop (hrun : s.pwr.runSt = 0) (hentry : s.pwr.entry = 0) : (askStop c s).pwr.entry = 1 := by
  rw [askStop, if_neg (by omega)]
  exact congrArg (fun t : State => t.pwr.entry) (if_pos ⟨hrun, hentry⟩)

theorem askRun_inRun (hrun : s.pwr.runSt = 0) (hentry : s.pwr.entry = 0) : askRun c s = finish c 0 0 s := if_pos ⟨hrun, hentry⟩

theorem runs_askRun (h : s.pwr.runSt ≠ 0 ∨ s.pwr.entry ≠ 0) : (askRun c s).hst.runs = s.hst.runs ++ [c] := by
  rw [askRun, if_neg (by omega)]
  exact ite_keeps (·.hst.runs) rfl rfl

theorem askRun_inStop (h : s.pwr.runSt = 2) : askRun c s = beginWake (onHst (fun h => { h with runs := h.runs ++ [c] }) s) :=
  (if_neg (by omega)).trans (if_pos h)

/-! ## The end of Stop entry (R463) -/

/-- The state in which the STOP commands have ended, before a RUN that waits wakes the module. -/
def stopped (us : Nat) (s : State) : State :=
  let s := onPwr (fun p => { p with runSt := 2, entry := 0, entryUs := us }) s
  let s := onClk (fun k => { k with cores := 13, dram := 0, media := 0 }) (onOrd (fun o => { o with draining := false }) s)
  let s := recordSeconds s
  each s.hst.stops (fun c s => finish c 0 0 s) (onHst (fun h => { h with stops := [] }) s)

theorem stopDone_entered (us : Nat) (h : s.pwr.entry = 5) :
    stopDone us s = if (stopped us s).hst.runs.isEmpty then stopped us s else beginWake (stopped us s) := if_neg (by simp [h])

theorem stopDone_early (us : Nat) (h : s.pwr.entry ≠ 5) : stopDone us s = s := if_pos h

theorem stopped_pwr (us : Nat) (s : State) : (stopped us s).pwr = { s.pwr with runSt := 2, entry := 0, entryUs := us } :=
  each_keeps _ _ (·.pwr) (fun c t => finish_pwr c 0 0 t) _

theorem stopped_stops (us : Nat) (s : State) : (stopped us s).hst.stops = [] :=
  each_keeps _ _ (·.hst.stops) (fun c t => finish_hst c 0 0 t (g := (·.stops)) fun _ _ _ => rfl) _

theorem stopped_runs (us : Nat) (s : State) : (stopped us s).hst.runs = s.hst.runs :=
  each_keeps _ _ (·.hst.runs) (fun c t => finish_hst c 0 0 t (g := (·.runs)) fun _ _ _ => rfl) _

theorem stopDone_asleep (us : Nat) (h : s.pwr.entry = 5) (hruns : s.hst.runs = []) : stopDone us s = stopped us s :=
  (stopDone_entered us h).trans (if_pos (by rw [stopped_runs, hruns]; rfl))

theorem stopDone_wakes (us : Nat) (h : s.pwr.entry = 5) (hruns : s.hst.runs ≠ []) : stopDone us s = beginWake (stopped us s) :=
  (stopDone_entered us h).trans (if_neg (by rw [stopped_runs]; simpa using hruns))

theorem stopDone_effect (us : Nat) (h : s.pwr.entry = 5) : (stopDone us s).pwr.entryUs = us ∧ (stopDone us s).pwr.entry = 0 ∧
    (stopDone us s).hst.stops = [] ∧ (stopDone us s).pwr.runSt = if s.hst.runs = [] then 2 else 3 := by
  have hpwr := stopped_pwr us s
  by_cases hruns : s.hst.runs = []
  · rw [stopDone_asleep us h hruns, hpwr, if_pos hruns]
    exact ⟨rfl, rfl, stopped_stops us s, rfl⟩
  · rw [stopDone_wakes us h hruns, if_neg hruns]
    exact ⟨congrArg Pwr.entryUs hpwr, congrArg Pwr.entry hpwr, stopped_stops us s, rfl⟩

end

/-- Settles O44: each command that starts makes its own operation of the state `begun`. -/
theorem moduleCommandsStart : Obligations.ModuleCommandsStart := by
  unfold Obligations.ModuleCommandsStart
  refine ⟨fun s c off len => ⟨starts_lifecycle rfl, starts_lifecycle rfl, starts_lifecycle rfl, starts_lifecycle rfl, fun h => ?_⟩,
    fun s c => ⟨fun hfetched hcan => ?_, fun hfetched hcan => ?_⟩,
    fun s us h => ⟨_, rfl, engages_of_settled rfl, stopDone_effect us h⟩,
    fun s us h => engages_of_settled (congrArg (settled s) (stopDone_early us h)), fun s us h hruns => ?_,
    fun s c dst off len => lifecycle_refused, fun s c dst off len => ?_, fun s c => askRun_inRun⟩
  · refine ⟨_, rfl, engages_of_starts rfl h, fun hbusy => ?_, fun hbusy hnone hroom => tests_hostTest_free (s := begun c s) hbusy hnone hroom⟩
    rw [hostTest_busy (s := begun c s) hbusy, finish_err]
    rfl
  · exact ⟨_, rfl, engages_of_served rfl rfl hfetched hcan, askStop_inStop (s := begun c s), stops_askStop (s := begun c s),
      entry_askStop (s := begun c s)⟩
  · refine ⟨_, rfl, engages_of_served rfl rfl hfetched hcan, askRun_inRun (s := begun c s), runs_askRun (s := begun c s), fun hstop => ?_⟩
    rw [askRun_inStop (s := begun c s) hstop]
    exact ⟨rfl, rfl⟩
  · obtain ⟨hus, -, hstops, hrun⟩ := stopDone_effect us h
    exact ⟨hrun.trans (if_pos hruns), hus, hstops⟩
  · obtain ⟨hflash, hfuses⟩ := lifecycle_keeps_flash_fuses (s := s) (c := c) (dst := dst) (off := off) (len := len)
    refine ⟨?_, ?_, congrArg Flash.lc hflash, hfuses⟩
    · split
      next hok => exact lifecycle_lc hok
      next hbad => rw [lifecycle_refused hbad]; exact finish_hst c _ 0 s (g := (·.lc)) fun _ _ _ => rfl
    · split
      next hok => exact lifecycle_drain hok
      next hbad => rw [lifecycle_refused hbad, finish_pwr]

end Sys2Proof.Machine
end

section
/-!
PROOF. The short commands (R58, R61, R336, R343, R351, R353, R358, R413; O42): NOP, SNAPSHOT, ATTEST and the hoist commands on the state in which
they have started, and what a command that does not start does.
-/

namespace Sys2Proof.Machine
open Sys2Proof

/-! ## NOP (R343) -/

section
variable {s : State} {c : Cmd}

/-- Of its queue an entry moves on the ring, the gap and what waits; a disabled queue has none. -/
theorem besideCqes_postDone (q : Nat) (d : Done) (s : State) : besideCqes (queue (postDone q d s) q) = besideCqes (queue s q) := by
  by_cases henable : (queue s q).enable = true
  · exact (QueuesKeep.refl besideCqes s).postDone q d q (ne_of_apply_ne HQueue.enable (by simp [besideCqes, henable]))
  · rw [postDone, if_pos (by simp [henable])]

/-- Where no entry with FENCE waits, the end of a command leaves the fetched commands. -/
theorem fetched_finish (status result : Nat) (hwf : Table.wf {} s.hst.queues = true) (hfenced : (queue s c.q).fenced = none) :
    (queue (finish c status result s) c.q).fetched = (queue s c.q).fetched := by
  by_cases hc : 64 ≤ c.q
  · rw [finish_of_mute hc, queue_onQueue_other (by omega)]
  · rw [finish_of_queue (by omega)]
    generalize entryOf c status result (queue s c.q) = d
    have hqueue : queue (onQueue c.q (ended c) s) c.q = ended c (queue s c.q) := queue_onQueue_same hwf
    have hbeside := besideCqes_postDone c.q d (onQueue c.q (ended c) s)
    rw [hqueue] at hbeside
    have hnone : (queue (postDone c.q d (onQueue c.q (ended c) s)) c.q).fenced = none := (congrArg HQueue.fenced hbeside).trans hfenced
    have hfetched := congrArg HQueue.fetched hbeside
    rwa [checkFenced_of_none hnone]

end

/-! ## Hoists (R58, R61, R63, R351) -/

section
variable {s : State} {c : Cmd} {e i id : Nat} {h : Hoist}

theorem submitHoist_refused (hbad : checkHoist s e (hoistOf e (some s.grp.id)) ≠ 0) :
    submitHoist c e s = finish c (checkHoist s e (hoistOf e (some s.grp.id))) 0 s := if_pos hbad

/-- What follows the arming of an entry, the end of the command or the messages to the other members, leaves the entries. -/
theorem hoists_submitHoist (hok : checkHoist s e (hoistOf e (some s.grp.id)) = 0) :
    (submitHoist c e s).tck.hoists = (armHoist { hoistOf e (some s.grp.id) with queue := some c.q } s).tck.hoists := by
  unfold submitHoist
  extract_lets h st s₁
  rw [if_neg (not_not.mpr hok)]
  refine ite_keeps (·.tck.hoists) (congrArg Tck.hoists (finish_tck s₁ c 0 _)) ?_
  exact each_keeps _ _ (·.tck.hoists) (fun d t => congrArg Tck.hoists (sendGroup_tck _ _ _ t)) _

/-- The entry stands armed in the first free place. -/
theorem tget_hoists_submitHoist (hok : checkHoist s e (hoistOf e (some s.grp.id)) = 0)
    (hfree : ((upto 64).find? fun j => (tget none s.tck.hoists j).isNone) = some i) :
    tget none (submitHoist c e s).tck.hoists i = some { hoistOf e (some s.grp.id) with queue := some c.q } := by
  rw [hoists_submitHoist hok, hoists_armHoist _ hfree]
  exact tget_tset_of_ne _ _ _ nofun

theorem tck_cancelHoist_none (hfind : findHoist s id = none) : (cancelHoist c id s).tck = s.tck := by
  rw [cancelHoist, hfind]
  exact finish_tck s c _ _

/-- A cancel in time frees the place of its entry, and one that comes too late leaves it. -/
theorem hoists_cancelHoist (hfind : findHoist s id = some (i, h)) : (cancelHoist c id s).tck.hoists =
    if h.launch < s.tck.count + (if h.group then 4 else 2) then s.tck.hoists else tset none s.tck.hoists i none := by
  rw [cancelHoist, hfind]
  by_cases hlate : h.launch < s.tck.count + (if h.group then 4 else 2)
  · rw [if_pos hlate]
    exact (congrArg (fun t : State => t.tck.hoists) (if_pos hlate)).trans (congrArg Tck.hoists (finish_tck s c _ _))
  · rw [if_neg hlate]
    refine (congrArg (fun t : State => t.tck.hoists) (if_neg hlate)).trans ((congrArg Tck.hoists (finish_tck _ c _ _)).trans ?_)
    refine ite_keeps (·.tck.hoists) ?_ rfl
    exact each_keeps _ _ (·.tck.hoists) (fun d t => congrArg Tck.hoists (sendGroup_tck _ _ _ t)) _

end

/-! ## ATTEST (R342, R358, R413) -/

section
variable {s : State} {c : Cmd} {kind : Nat} {nonce : BitVec 256} {d : List Byte} {i : Instr}

theorem queue_openWindow : queue (openWindow c s) c.q = { queue s c.q with winCid := c.cid, winSt := 1, winData := [], winRun := some c } :=
  queue_onQueue_of_ne (ne_of_apply_ne HQueue.winSt Nat.one_ne_zero)

/-- ATTEST starts in Stop too: its report is asked for, and its window waits for it. -/
theorem starts_attest (hexec : exec i s = done s (startCmd c i (startAttest c kind nonce) s)) (hserved : servedInStop i = true)
    (hfetched : i ∈ (queue s c.q).fetched) (hcan : canStart s c i = true) :
    ∃ t, t = startAttest c kind nonce (begun c s) ∧ Takes i s t ∧ t.hst.attests = s.hst.attests ++ [(c, kind, nonce.toNat)] ∧
      (queue t c.q).winSt = 1 ∧ (queue t c.q).winCid = c.cid := by
  have hwindow : queue (startAttest c kind nonce (begun c s)) c.q = queue (openWindow c (begun c s)) c.q := rfl
  refine ⟨_, rfl, takes_of_served hexec hserved hfetched hcan, rfl, ?_⟩
  rw [hwindow, queue_openWindow]
  exact ⟨rfl, rfl⟩

theorem fillWindow_hst (c : Cmd) (d : List Byte) (s : State) {β : Type} {g : Hst → β} (hg : ∀ h q p, g { h with queues := q, msixPend := p } = g h) :
    g (fillWindow c d s).hst = g s.hst := hg s.hst (tmod {} s.hst.queues (c.q % 64) _) s.hst.msixPend

theorem queue_fillWindow (hc : c.q < 64) (hst : (queue s c.q).winSt = 1) (hcid : (queue s c.q).winCid = c.cid)
    (hrun : (queue s c.q).winRun = some c) : queue (fillWindow c d s) c.q = { queue s c.q with winSt := 2, winData := d } := by
  have hfill : fillWindow c d s = onQueue c.q (fun h => { h with winSt := 2, winData := d }) s := by
    rw [fillWindow, Nat.mod_eq_of_lt hc]
    exact onQueue_congr (if_pos ⟨hst, hcid, hrun⟩)
  rw [hfill]
  exact queue_onQueue_of_ne (ne_of_apply_ne HQueue.winSt two_ne_zero)

/-- The end of a command leaves the result in its window. -/
theorem window_finish (status result : Nat) (hc : c.q < 64) (hst : (queue s c.q).winSt = 2) :
    (queue (finish c status result s) c.q).winSt = 2 ∧ (queue (finish c status result s) c.q).winData = (queue s c.q).winData := by
  have hkeep := (QueuesKeep.refl besideEntries s).finish status result c hc c.q
    (ne_of_apply_ne HQueue.winSt (by simp [besideEntries, besideCqes, hst]))
  have hdata := congrArg HQueue.winData hkeep
  exact ⟨(congrArg HQueue.winSt hkeep).trans hst, hdata⟩

theorem attestReady_of_cons {n : Nat} {rest : List (Cmd × Nat × Nat)} (h : s.hst.attests = (c, kind, n) :: rest) : attestReady s =
    finish c 0 (report s kind n).length (fillWindow c (report s kind n) { s with hst := { s.hst with attests := rest } }) := by
  rw [attestReady, h]
  rfl

theorem attestReady_of_nil (h : s.hst.attests = []) : attestReady s = s := by rw [attestReady, h]

end

/-! ## Commands of every kind, and those that do not start (R332, R343, R358) -/

/-- How a command of a queue starts: it takes effect alone, or the engines go on, or it joins its copy channel. -/
inductive StartsBy (c : Cmd) (i : Instr) : Prop where
  | alone (f : State → State) (h : ∀ s, exec i s = done s (startCmd c i f s))
  | engaged (f : State → State) (h : ∀ s, exec i s = settled s (startCmd c i f s))
  | joins (src dst len j : Nat) (pk : Bool) (hi : i = .copy c src dst len j pk) (h : ∀ s, exec i s = settled s (startCopy c j i s))

theorem startsBy_of_cmdOf {i : Instr} {c : Cmd} (h : cmdOf i = some c) : StartsBy c i := by
  cases i with
  | nop | hoistSubmit | hoistCancel | snapshot | attestCert | attestIdentity | attestConfig | attestGroup =>
    obtain rfl := Option.some.inj h
    exact .alone _ fun _ => rfl
  | cachePreload | cacheUnlock | cacheMaintClean | cacheMaintFlush | cacheMaintInvalidate | cacheMaintSetClean | cacheMaintSetFlush
  | cacheMaintSetInvalidate | sealedImport | lifecycleOwned | lifecycleSealed | lifecycleReturn | lifecycleEnd | selfTest | stop | run =>
    obtain rfl := Option.some.inj h
    exact .engaged _ fun _ => rfl
  | copy =>
    obtain rfl := Option.some.inj h
    exact .joins _ _ _ _ _ rfl fun _ => rfl
  | _ => exact nomatch (h : (none : Option Cmd) = some c)

section
variable {s t : State} {c : Cmd} {i : Instr} {f : State → State} {j : Nat}

/-- A fetched command that something holds does nothing yet. -/
theorem startCmd_of_held (hfetched : i ∈ (queue s c.q).fetched) (hcan : canStart s c i = false) : startCmd c i f s = s := by
  rw [startCmd, takeCmd_of_fetched hfetched]
  exact if_pos (by simp [hcan])

theorem startCopy_of_held (hfetched : i ∈ (queue s c.q).fetched) (hcan : canStart s c i = false) : startCopy c j i s = s := by
  rw [startCopy, takeCmd_of_fetched hfetched]
  exact if_pos (by simp [hcan])

theorem takes_or_engages_of_held (hcmd : cmdOf i = some c) (hfetched : i ∈ (queue s c.q).fetched) (hcan : canStart s c i = false) :
    Takes i s s ∨ Engages i s s := by
  cases startsBy_of_cmdOf hcmd with
  | alone f h => exact .inl (takes_of_done ((h s).trans (congrArg (done s) (startCmd_of_held hfetched hcan))))
  | engaged f h => exact .inr (engages_of_settled ((h s).trans (congrArg (settled s) (startCmd_of_held hfetched hcan))))
  | joins src dst len j pk hi h => exact .inr (engages_of_settled ((h s).trans (congrArg (settled s) (startCopy_of_held hfetched hcan))))

theorem inStop_or_entering (hstop : inStop s = true ∨ s.pwr.runSt = 1) : (inStop s || s.pwr.runSt == 1) = true := by simpa using hstop

/-- In Stop a command that it does not serve ends. -/
theorem startCmd_of_stop (hfetched : i ∈ (queue s c.q).fetched) (hcan : canStart s c i = true) (hstop : inStop s = true ∨ s.pwr.runSt = 1)
    (hserved : servedInStop i = false) : startCmd c i f s = finish c 9 0 (begun c s) :=
  (startCmd_of_canStart hfetched hcan).trans (if_pos (by rw [inStop_or_entering hstop, hserved]; rfl))

theorem startCopy_of_stop (hfetched : i ∈ (queue s c.q).fetched) (hcan : canStart s c i = true) (hstop : inStop s = true ∨ s.pwr.runSt = 1) :
    startCopy c j i s = finish c 9 0 (onQueue c.q (fun h => { h with fetched := h.fetched.drop 1 }) s) := by
  rw [startCopy, takeCmd_of_fetched hfetched]
  exact (if_neg (by simp [hcan])).trans (if_pos (inStop_or_entering hstop))

theorem takes_or_engages_of_stop (hcmd : cmdOf i = some c) (hfetched : i ∈ (queue s c.q).fetched) (hcan : canStart s c i = true)
    (hstop : inStop s = true ∨ s.pwr.runSt = 1) (hserved : servedInStop i = false)
    (hcopy : ∀ src dst len ch pk, i ≠ .copy c src dst len ch pk) :
    Takes i s (finish c 9 0 (begun c s)) ∨ Engages i s (finish c 9 0 (begun c s)) := by
  cases startsBy_of_cmdOf hcmd with
  | alone f h => exact .inl (takes_of_done ((h s).trans (congrArg (done s) (startCmd_of_stop hfetched hcan hstop hserved))))
  | engaged f h => exact .inr (engages_of_settled ((h s).trans (congrArg (settled s) (startCmd_of_stop hfetched hcan hstop hserved))))
  | joins src dst len j pk hi h => exact absurd hi (hcopy src dst len j pk)

/-- The state in which a command that no entry brought has been fetched (log 51). -/
def fetchedWith (c : Cmd) (i : Instr) (s : State) : State :=
  onQueue c.q (fun h => { h with fetched := h.fetched ++ [i] }) (count 8 0x12 1 s)

theorem takeCmd_of_unfetched (hfetched : i ∉ (queue s c.q).fetched) (hc : c.q < 64) (hmay : mayFetch s c.q = true)
    (hfence : c.fence = false ∨ earlierDone s c.q = true) (hstatus : cmdStatus s i = 0) : takeCmd c i s = fetchedWith c i s := by
  have hheld : (c.fence && !earlierDone s c.q) = false := by rcases hfence with h | h <;> simp [h]
  have htaken : ¬(decide (i ∈ (queue s c.q).fetched) || decide (64 ≤ c.q) || !mayFetch s c.q || (c.fence && !earlierDone s c.q)) = true := by
    simp [hfetched, hc, hmay, hheld]
  exact (if_neg htaken).trans (if_neg (not_not.mpr hstatus))

theorem mem_fetched_fetchedWith : i ∈ (queue (fetchedWith c i s) c.q).fetched := by
  have hne : ({ queue (count 8 0x12 1 s) c.q with fetched := (queue (count 8 0x12 1 s) c.q).fetched ++ [i] } : HQueue) ≠ {} :=
    ne_of_apply_ne HQueue.fetched (by simp)
  rw [fetchedWith, queue_onQueue_of_ne hne]
  simp

theorem takeCmd_fetchedWith : takeCmd c i (fetchedWith c i s) = fetchedWith c i s := takeCmd_of_fetched mem_fetched_fetchedWith

theorem pending_fetchedWith (c : Cmd) (i : Instr) (s : State) : (fetchedWith c i s).pending = s.pending :=
  congrArg (·.pending) (besideCompletions_count 8 0x12 1 s)

theorem done_congr (h : s.pending = t.pending) (u : State) : done s u = done t u := by rw [done, done, h]

/-- The start of a command that no entry brought is that of the fetched command. -/
theorem exec_of_unfetched (hcmd : cmdOf i = some c) (htake : takeCmd c i s = fetchedWith c i s) : exec i s = exec i (fetchedWith c i s) := by
  have hpending := (pending_fetchedWith c i s).symm
  have hcmds (f : State → State) : startCmd c i f s = startCmd c i f (fetchedWith c i s) := by
    rw [startCmd, startCmd, htake, takeCmd_fetchedWith]
  have hcopies (j : Nat) : startCopy c j i s = startCopy c j i (fetchedWith c i s) := by
    rw [startCopy, startCopy, htake, takeCmd_fetchedWith]
  cases startsBy_of_cmdOf hcmd with
  | alone f h => rw [h, h, hcmds, done_congr hpending]
  | engaged f h => rw [h, h, hcmds, settled, settled, done_congr hpending]
  | joins src dst len j pk hi h => rw [h, h, hcopies, settled, settled, done_congr hpending]

end

/-- Settles O42: each command that starts makes its own operation of the state `begun`, and the others are told apart by `StartsBy`. -/
theorem shortCommandsStart : Obligations.ShortCommandsStart := by
  unfold Obligations.ShortCommandsStart
  refine ⟨fun s c => ⟨fun h => ?_, fun h => ⟨_, takes_of_starts rfl h, rfl, rfl⟩, fun e h => ?_, fun id h => ?_⟩,
    fun s c n => ⟨starts_attest rfl rfl, starts_attest rfl rfl, starts_attest rfl rfl, starts_attest rfl rfl⟩,
    fun s c kind nonce rest h => ?_, fun s h => takes_of_done (congrArg (done s) (attestReady_of_nil h)),
    fun s c i hcmd => ⟨takes_or_engages_of_held hcmd, fun hfetched hcan hstop hserved => ⟨takes_or_engages_of_stop hcmd hfetched hcan hstop hserved, ?_⟩,
      fun hfetched hc hmay hfence hstatus => exec_of_unfetched hcmd (takeCmd_of_unfetched hfetched hc hmay hfence hstatus)⟩⟩
  · have hbeside := besideCompletions_finish c (begun c s) 0 0
    refine ⟨_, rfl, takes_of_starts rfl h, congrArg (·.cch) hbeside, congrArg (·.dir) hbeside, congrArg (·.med) hbeside,
      congrArg (·.tck) hbeside, fun hwf hfenced => ?_⟩
    obtain ⟨-, -, hqueues, -⟩ := hwf
    have hbegun : queue (begun c s) c.q = { queue s c.q with
        fetched := (queue s c.q).fetched.drop 1, started := (queue s c.q).started ++ [c] } := queue_onQueue_same hqueues
    have hwf' : Table.wf {} (begun c s).hst.queues = true := wf_queues_onQueue hqueues
    rw [fetched_finish 0 0 hwf' (by rw [hbegun]; exact hfenced), hbegun]
  · refine ⟨_, rfl, takes_of_starts rfl h, fun i hok hfree => tget_hoists_submitHoist (s := begun c s) hok hfree, fun hbad => ?_⟩
    rw [submitHoist_refused (s := begun c s) hbad]
    exact finish_tck _ c _ _
  · exact ⟨_, rfl, takes_of_starts rfl h, fun hfind => tck_cancelHoist_none (s := begun c s) hfind,
      fun i h hfind => hoists_cancelHoist (s := begun c s) hfind⟩
  · refine ⟨_, takes_of_done (congrArg (done s) (attestReady_of_cons h)), rfl, ?_, fun hc hst hcid hrun => ?_⟩
    · rw [finish_hst _ _ _ _ (g := (·.attests)) fun _ _ _ => rfl, fillWindow_hst _ _ _ (g := (·.attests)) fun _ _ _ => rfl]
    · have hfilled := queue_fillWindow (s := { s with hst := { s.hst with attests := rest } }) (d := report s kind nonce) hc hst hcid hrun
      obtain ⟨hdone, hdata⟩ := window_finish 0 (report s kind nonce).length hc (congrArg HQueue.winSt hfilled)
      exact ⟨hdone, hdata.trans (congrArg HQueue.winData hfilled)⟩
  · rintro src dst len ch pk rfl
    exact engages_of_settled (congrArg (settled s) (startCopy_of_stop hfetched hcan hstop))

end Sys2Proof.Machine
end

section
/-!
PROOF. The accesses to BAR0 and to the configuration space (R217, R322 to R324, R327 to R329, R531; O33, which these lemmas do not settle). All but
one of the statement's clauses hold. The clause on a read of the configuration space speaks of every state, also of those in which MPS or MRRS
exceeds its 3 bits: there it asks for bits of `Config.freeValue`, a constant without a body (log 8), and the statement holds just when they are set.
-/

namespace Sys2Proof.Machine
open Sys2Proof

/-! ## Accesses to BAR0 (R327, R329, R531) -/

section
variable {s : State} {off size tag : Nat} {v : BitVec 64}

/-- An aligned write of 4 or 8 bytes is one access to BAR0. -/
theorem engages_registerWrite (hup : hostUp s = true) (hsize : size = 4 ∨ size = 8) (halign : off % size = 0) :
    Engages (.registerWrite off size v) s (hostBar (.registerWrite off size v) s) :=
  engages_of_settled ((if_neg (by simp [hup])).trans (if_pos ⟨hsize, halign⟩))

theorem takes_registerWrite_unaligned (hup : hostUp s = true) (hbad : (size ≠ 4 ∧ size ≠ 8) ∨ off % size ≠ 0) :
    Takes (.registerWrite off size v) s (emit (.aer 0) (tlpIn s)) :=
  takes_of_done ((if_neg (by simp [hup])).trans (if_neg (by omega)))

/-- GLB_SCRATCH lies in a block that is always served and never gated, and no domain is woken for it. -/
theorem regWrite_scratch (v : BitVec 64) (s : State) : regWrite 1 0x0000058 8 v s = onGlb (fun g => { g with scratch := v }) s := by
  have hserved : served s 0x0000058 = true := by simp [served]
  have hgated : gatedOff s 0x0000058 = false := by simp [gatedOff, gateOf]
  have hwake : wakeFor 0x0000058 s = s := if_pos (by simp)
  have hwhole : v.toNat % 2 ^ 32 + v.toNat / 2 ^ 32 % 2 ^ 32 * 2 ^ 32 = v.toNat := by omega
  have hslot : BitVec.ofNat 64 (slotWrite 1 0x0000058 8 v s).m = v := by
    simp only [slotWrite]
    simpa using congrArg (BitVec.ofNat 64) hwhole
  have hwrite : writeSlot (slotWrite 1 0x0000058 8 v s) s =
      onGlb (fun g => { g with scratch := BitVec.ofNat 64 (slotWrite 1 0x0000058 8 v s).m }) s := by
    simp [writeSlot, writeGlb, isExpert, slotWrite]
  rw [regWrite_eq, hserved, hgated, hwake, hwrite, hslot]
  simp

theorem takes_bar0BadAccess_write (hup : hostUp s = true) : Takes (.bar0BadAccess true) s (emit (.aer 0) (tlpIn s)) :=
  takes_of_done ((if_neg (by simp [hup])).trans (if_pos rfl))

theorem takes_bar0BadAccess_read (hup : hostUp s = true) :
    Takes (.bar0BadAccess false) s (emit (.cpl 0 .ur false []) (emit (.aer 0) (tlpIn s))) :=
  takes_of_done ((if_neg (by simp [hup])).trans (if_neg (by simp)))

/-- An AtomicOp is unsupported, unless it is to BAR4 before memory is ready. -/
theorem takes_atomicUnsupported {bar4 : Bool} (hup : hostUp s = true) (hearly : (bar4 && !s.hst.ready) = false) :
    Takes (.atomicUnsupported bar4 off tag) s (emit (.cpl tag .ur false []) (emit (.aer 0) (tlpIn s))) :=
  takes_of_done ((if_neg (by simp [hup])).trans (if_neg (by simp [hearly])))

theorem takes_atomicUnsupported_early (hup : hostUp s = true) (hready : s.hst.ready = false) :
    Takes (.atomicUnsupported true off tag) s (emit (.cpl tag .ur false []) (hostErr 2 3 off true (tlpIn s))) :=
  takes_of_done ((if_neg (by simp [hup])).trans (if_pos (by simp [hready])))

theorem takes_bar0_down (hdown : hostUp s = false) : (∀ off size v, Takes (.registerWrite off size v) s s) ∧
    (∀ write, Takes (.bar0BadAccess write) s s) ∧ ∀ bar4 off tag, Takes (.atomicUnsupported bar4 off tag) s s :=
  ⟨fun _ _ _ => takes_of_done (if_pos (by simp [hdown])), fun _ => takes_of_done (if_pos (by simp [hdown])),
    fun _ _ _ => takes_of_done (if_pos (by simp [hdown]))⟩

end

/-! ## A write that waits (R217) -/

/-- A command that is one access of the host, whether or not the engines go on after it. -/
def IsAccess (c : Instr) (s : State) : Prop := Takes c s (hostBar c s) ∨ Engages c s (hostBar c s)

section
variable {c : Instr} {s : State}

theorem IsAccess.joins (h : IsAccess c s) (hup : hostUp s = true) (hw : barWaits s s.dir.nextId = true) :
    ∃ t, (Takes c s t ∨ Engages c s t) ∧ Joins .host c s t := by
  rw [IsAccess, hostBar_of_waits c hup hw] at h
  exact ⟨_, h, joins_holdBar c s⟩

theorem IsAccess.of_done (h : exec c s = done s (hostBar c s)) : IsAccess c s := .inl h

theorem IsAccess.of_settled (h : exec c s = settled s (hostBar c s)) : IsAccess c s := .inr h

theorem isAccess_whole (h : c ∈ [.expertClr, .freeze, .freezeRelease, .pmcClear, .glbResetKey, .cphLockRead .host]) : IsAccess c s := by
  simp only [List.mem_cons, List.not_mem_nil, or_false] at h
  rcases h with rfl | rfl | rfl | rfl | rfl | rfl
  · exact .of_done rfl
  · exact .of_done rfl
  · exact .of_done rfl
  · exact .of_done rfl
  · exact .of_settled rfl
  · exact .of_done rfl

theorem isAccess_queue {q : Nat} (hq : q < 64)
    (h : c = .queueEnable q ∨ c = .queueDisable q ∨ ∃ v, c = .sqTailDoorbell q v ∨ c = .cqHeadDoorbell q v) : IsAccess c s := by
  rcases h with rfl | rfl | ⟨v, rfl | rfl⟩
  · exact .of_done (if_pos hq)
  · exact .of_done (if_pos hq)
  · exact .of_done (if_pos hq)
  · exact .of_done (if_pos hq)

theorem isAccess_stream {p : Nat} (hp : p < 8) (h : c = .ingressFlush p ∨ c = .egressFlush p ∨ (∃ v, c = .arm p v) ∨
    ∃ l e high v, l < 2 ∧ e < 16 ∧ c = .playlistEntryWrite p l e high v) : IsAccess c s := by
  rcases h with rfl | rfl | ⟨v, rfl⟩ | ⟨l, e, high, v, hl, he, rfl⟩
  · exact .of_done (if_pos hp)
  · exact .of_settled (if_pos hp)
  · exact .of_settled (if_pos hp)
  · exact .of_settled (if_pos ⟨hp, hl, he⟩)

end

/-! ## The configuration space (R322, R324) -/

section
variable {s : State} {r : CfgReg} {v : BitVec 32} {tag n b : Nat}

/-- What a read gives: the bits of R322, and a free value where it gives nothing (log 52). -/
def cfgWord (n : Nat) (g : Nat × Nat) : BitVec 32 := (BitVec.ofNat 32 n &&& ~~~(BitVec.ofNat 32 g.1)) ||| BitVec.ofNat 32 g.2

theorem testBit_cfgWord {g : Nat × Nat} (hb : b < 32) :
    (cfgWord n g).toNat.testBit b = ((n.testBit b && !g.1.testBit b) || g.2.testBit b) := by
  have hbit : (cfgWord n g).getLsbD b = ((n.testBit b && !g.1.testBit b) || g.2.testBit b) := by
    simp only [cfgWord, BitVec.getLsbD_or, BitVec.getLsbD_and, BitVec.getLsbD_not, BitVec.getLsbD_ofNat, hb, decide_true, Bool.true_and]
  exact hbit

theorem exec_cfgRead (hready : s.hst.cfgReady = true) (hlisted : cfgListed r = true) : exec (.configurationRequest false r v tag) s =
    done s (emit (.cpl tag .sc false (leBytes 4 (cfgWord (free (tlpIn s)).1 (cfgBits s r)).toNat)) (free (tlpIn s)).2) :=
  (if_neg (by simp [hready])).trans ((if_neg (by simp)).trans (if_neg (by simp [hlisted])))

/-- Of the values that R322 gives all lie in the bits that it gives, but for sizes that exceed their fields. -/
theorem mask_of_value (hlisted : cfgListed r = true) (hvalue : (cfgBits s r).2.testBit b = true) :
    (cfgBits s r).1.testBit b = true ∨ 5 ≤ b ∧ r = .cap 0x10 2 := by
  have hin {mask x : Nat} (hsub : x &&& mask = x) (hx : x.testBit b = true) : mask.testBit b = true := by
    rw [← hsub, Nat.testBit_and] at hx
    exact (Bool.and_eq_true_iff.mp hx).2
  revert hvalue
  unfold cfgBits
  split
  · exact fun hx => .inl (hin (by decide) hx)
  · intro hx
    refine .inr ⟨?_, rfl⟩
    by_contra hlow
    have hmul : s.hst.mps * 0x20 + s.hst.mrrs * 0x1000 = 2 ^ 5 * (s.hst.mps + s.hst.mrrs * 0x80) := by omega
    rw [hmul, Nat.testBit_two_pow_mul] at hx
    simp [hlow] at hx
  · exact fun hx => .inl (hin (by decide) hx)
  · exact fun hx => .inl (hin (by decide) hx)
  · exact fun hx => .inl (hin (by decide) hx)
  · split
    · exact fun hx => .inl (hin (by decide) hx)
    · exact fun hx => absurd hx (by simp)
  · exact fun hx => .inl (hin (by decide) hx)
  · rename_i id _ _
    have hid : id = 0x01 ∨ id = 0x10 ∨ id = 0x11 := by simpa [cfgListed, or_assoc] using hlisted
    rcases hid with rfl | rfl | rfl
    all_goals exact fun hx => .inl (hin (by decide) hx)
  · rename_i id
    have hid : id = 0x0001 ∨ id = 0x001F ∨ id = 0x0026 ∨ id = 0x002A ∨ id = 0x0031 ∨ id = 0x002F := by
      simpa [cfgListed, or_assoc] using hlisted
    rcases hid with rfl | rfl | rfl | rfl | rfl | rfl
    all_goals exact fun hx => .inl (hin (by decide) hx)
  · exact fun hx => absurd hx (by simp)

/-- The sizes take their ranges, and bit 15 is a Function Level Reset. -/
theorem cfgWrite_sizes (h : v.getLsbD 15 = false) : cfgWrite (.cap 0x10 2) v s = onHst (fun x => { x with
    mps := if bits v.toNat 5 3 ≤ 2 then bits v.toNat 5 3 else x.mps
    mrrs := if bits v.toNat 12 3 ≤ 5 then bits v.toNat 12 3 else x.mrrs }) s := if_neg (by simp only [h]; decide)

theorem cfgWrite_power (h : v.toNat % 4 = 3 ∨ v.toNat % 4 = 0) :
    cfgWrite (.cap 0x01 1) v s = onHst (fun x => { x with d3 := bits v.toNat 0 2 == 3 }) s :=
  if_pos (by simpa [bits] using h)

end

/-! ## What the statement asks of the free values -/

/-- Each free value has every bit set that lies from 5 to 31 and outside the fields of MPS and MRRS. -/
def FreeBitsSet : Prop := ∀ k b, 5 ≤ b → b < 32 → (0x70E0 : Nat).testBit b = false → (Config.freeValue k).testBit b = true

section
variable {s : State} {r : CfgReg} {v : BitVec 32} {tag k b x y : Nat}

theorem cfgRead_of_freeBits (hfree : FreeBitsSet) (hready : s.hst.cfgReady = true) (hlisted : cfgListed r = true) :
    ∃ n t x, free (tlpIn s) = (n, t) ∧ Takes (.configurationRequest false r v tag) s (emit (.cpl tag .sc false (leBytes 4 x)) t) ∧
      ∀ b, b < 32 → x.testBit b = if (cfgBits s r).1.testBit b then (cfgBits s r).2.testBit b else n.testBit b := by
  refine ⟨_, _, _, rfl, takes_of_done (exec_cfgRead hready hlisted), fun b hb => ?_⟩
  rw [testBit_cfgWord hb]
  cases hmask : (cfgBits s r).1.testBit b with
  | true => simp
  | false =>
    cases hvalue : (cfgBits s r).2.testBit b with
    | false => simp [free]
    | true =>
      obtain hin | ⟨hlow, rfl⟩ := mask_of_value hlisted hvalue
      · simp [hin] at hmask
      · have hset : (Config.freeValue (tlpIn s).fv).testBit b = true := hfree _ b hlow hb hmask
        simp [hset]

/-- Four bytes tell the bits below 32. -/
theorem testBit_of_leBytes (h : leBytes 4 x = leBytes 4 y) (hb : b < 32) : x.testBit b = y.testBit b := by
  have hval (z : Nat) : leVal (leBytes 4 z) = z % 2 ^ 32 := by
    simp only [leBytes, leVal, BitVec.toNat_ofNat]
    omega
  have hmod : x % 2 ^ 32 = y % 2 ^ 32 := by rw [← hval, h, hval]
  have hbits (z : Nat) : (z % 2 ^ 32).testBit b = z.testBit b := by rw [Nat.testBit_mod_two_pow, decide_eq_true hb, Bool.true_and]
  rw [← hbits x, hmod, hbits]

theorem emit_cpl_out (hlink : s.hst.linkUp = true) (htag : tag < noTag) (d : List Byte) :
    (emit (.cpl tag .sc false d) s).out = .cpl tag .sc false d :: (count 8 0x11 1 s).out := by
  have hgoes : (s.hst.linkUp && wanted (.cpl tag .sc false d)) = true := by simp [hlink, wanted, htag]
  exact congrArg State.out ((if_neg (by simp [isTlp])).trans (if_pos hgoes))

/-- The link is up, the k-th free value comes next, and MPS has the one bit that stands at bit `b` of its dword. -/
def oversized (k b : Nat) : State := { hst := { cfgReady := true, linkUp := true, mps := 2 ^ (b - 5), mrrs := 0 }, fv := k }

theorem value_oversized (hlow : 5 ≤ b) : (cfgBits (oversized k b) (.cap 0x10 2)).2 = 2 ^ b := by
  have hpow : 2 ^ (b - 5) * 2 ^ 5 = 2 ^ b := by rw [← pow_add, Nat.sub_add_cancel hlow]
  have hsum : (cfgBits (oversized k b) (.cap 0x10 2)).2 = 2 ^ (b - 5) * 0x20 + 0 * 0x1000 := rfl
  omega

theorem freeBits_of_bar0 (h : Obligations.Bar0AcceptsAlignedAccesses) : FreeBitsSet := by
  unfold Obligations.Bar0AcceptsAlignedAccesses at h
  obtain ⟨-, -, -, -, hcfg, -⟩ := h
  intro k b hlow hb hmask
  obtain ⟨-, hready⟩ := hcfg (oversized k b) false (.cap 0x10 2) 0 0
  obtain ⟨-, -, hread⟩ := hready rfl
  obtain ⟨n, t, x, hfree, htakes, hx⟩ := hread rfl
  have hlink : (free (tlpIn (oversized k b))).2.hst.linkUp = true :=
    congrArg (·.hst.linkUp) (besideCompletions_count 8 0x10 1 (oversized k b))
  have hn : (free (tlpIn (oversized k b))).1 = Config.freeValue k :=
    congrArg (fun u : State => Config.freeValue u.fv) (besideCounting_tlpIn (oversized k b))
  have ht : t = (free (tlpIn (oversized k b))).2 := by rw [hfree]
  have hnext := Host.Outcome.next.inj ((exec_cfgRead rfl rfl).symm.trans htakes)
  have hout := congrArg State.out hnext
  simp only [ht] at hout
  rw [emit_cpl_out hlink (by decide), emit_cpl_out hlink (by decide)] at hout
  have hbytes : leBytes 4 (cfgWord (free (tlpIn (oversized k b))).1 (cfgBits (oversized k b) (.cap 0x10 2))).toNat = leBytes 4 x := by
    simpa using hout
  have hset : x.testBit b = true := by
    rw [← testBit_of_leBytes hbytes hb, testBit_cfgWord hb, value_oversized hlow]
    simp
  have hgiven := hx b hb
  rw [show (cfgBits (oversized k b) (.cap 0x10 2)).1.testBit b = false from hmask, hset] at hgiven
  have hbit : n.testBit b = true := by simpa using hgiven.symm
  rw [hfree] at hn
  rwa [← hn]

theorem bar0_of_freeBits (hfree : FreeBitsSet) : Obligations.Bar0AcceptsAlignedAccesses := by
  unfold Obligations.Bar0AcceptsAlignedAccesses
  refine ⟨fun s off size v hup hw hsize halign => ?_, fun s off size v hup hw hsize halign => ?_,
    fun s off size v hup hbad => takes_registerWrite_unaligned hup hbad,
    fun s hup => ⟨takes_bar0BadAccess_write hup, takes_bar0BadAccess_read hup⟩,
    fun s write r v tag => ⟨fun hearly => takes_of_done (if_pos (by simp [hearly])), fun hready => ⟨?_, fun hunlisted => ?_,
      cfgRead_of_freeBits hfree hready⟩⟩,
    fun s v => ⟨fun hv => ?_, fun hv => ?_, fun hv => ?_⟩,
    fun s off tag hup => ⟨takes_atomicUnsupported hup rfl, fun hready => takes_atomicUnsupported hup (by simp [hready]),
      takes_atomicUnsupported_early hup⟩,
    fun s c hup hw hc => IsAccess.joins ?_ hup hw, fun s => takes_bar0_down⟩
  · have hengages := engages_registerWrite (v := v) hup hsize halign
    rw [hostBar_of_free _ hup hw] at hengages
    refine ⟨_, rfl, hengages, ?_⟩
    rintro rfl rfl
    rw [regWrite_scratch]
    exact ⟨rfl, tlpIn_dir s, tlpIn_med s, tlpIn_cch s⟩
  · exact ⟨_, rfl, hostBar_of_waits (.registerWrite off size v) hup hw ▸ engages_registerWrite hup hsize halign, joins_holdBar _ s⟩
  · exact engages_of_settled ((if_neg (by simp [hready])).trans (if_pos rfl))
  · exact takes_of_done ((if_neg (by simp [hready])).trans ((if_neg (by simp)).trans (if_pos (by simp [hunlisted]))))
  · rw [cfgWrite_sizes hv]
    exact ⟨rfl, rfl⟩
  · rw [cfgWrite_power (.inl hv)]
    simp [bits, hv]
  · rw [cfgWrite_power (.inr hv)]
    simp [bits, hv]
  · rcases hc with hc | ⟨u, hu, rfl⟩ | ⟨v, rfl⟩ | ⟨m, hm, rfl⟩ | ⟨slot, rfl | ⟨offset, rfl⟩⟩ | ⟨q, hq, hc⟩ | ⟨j, hj, rfl | rfl⟩ | ⟨p, hp, hc⟩
    · exact isAccess_whole hc
    · exact .of_done (if_pos hu)
    · exact .of_settled rfl
    · exact .of_settled (if_neg hm)
    · exact .of_done rfl
    · exact .of_done rfl
    · exact isAccess_queue hq hc
    · exact .of_settled (if_pos hj)
    · exact .of_settled (if_pos hj)
    · exact isAccess_stream hp hc

/-- The statement of O33 is one about the free values, which are constants without a body (log 8). -/
theorem bar0AcceptsAlignedAccesses_iff : Obligations.Bar0AcceptsAlignedAccesses ↔ FreeBitsSet := ⟨freeBits_of_bar0, bar0_of_freeBits⟩

end

end Sys2Proof.Machine
end

section
/-!
SUPPORT. Every operation of the model takes a state that has evolved from `s₀` to one that has (O3, O5): the canonical forms, the queue, what
manufacture burned in, the strap, the clock and what has been sent. One lemma an operation, in the order of the model's files, each from the
lemmas about the operations that it calls. Drift and repointing.
-/

namespace Sys2Proof.Machine
open Sys2Proof

variable {s₀ s : State}

theorem ev_onBlk {b f} (h₀ : Evolves s₀ s) : Evolves s₀ (onBlk b f s) := by grind [onBlk, ev_onMed]

theorem ev_onPkg {i f} (h₀ : Evolves s₀ s) : Evolves s₀ (onPkg i f s) := ev_onDrf _ _ h₀

theorem ev_takeCohort {b} (h₀ : Evolves s₀ s) : Evolves s₀ (takeCohort b s) := by grind [takeCohort, ev_onBlk, ev_onPkg]

theorem ev_leaveCohort {b} (h₀ : Evolves s₀ s) : Evolves s₀ (leaveCohort b s) := by grind [leaveCohort, ev_onBlk, ev_onPkg]

theorem ev_advancePkg {i n} (h₀ : Evolves s₀ s) : Evolves s₀ (advancePkg i n s) := by grind [advancePkg, ev_onPkg, ev_each, ev_onBlk]

theorem ev_applySample (h₀ : Evolves s₀ s) : Evolves s₀ (applySample s) := by grind [applySample, ev_onDrf, ev_each, ev_advancePkg]

theorem ev_readTrims (h₀ : Evolves s₀ s) : Evolves s₀ (readTrims s) := by grind [readTrims, ev_onDrf]

theorem ev_queueRepoint (h₀ : Evolves s₀ s) : Evolves s₀ (queueRepoint s) := by
  unfold queueRepoint
  refine ev_each _ _ h₀ fun (b, x) s hs => ?_
  dsimp only
  split
  · split
    · exact hs
    · split
      · exact ev_event _ _ _ _ (ev_onDrf _ _ (ev_onBlk (ev_ite hs fun _ => ev_onBlk hs)))
      · exact ev_ite hs fun _ => ev_onBlk hs
  · exact hs

end Sys2Proof.Machine
end

section
/-!
SUPPORT. The operations evolve, continued (O3, O5). The medium: blocks, maps, streams and programs.
-/

namespace Sys2Proof.Machine
open Sys2Proof

variable {s₀ s : State}

theorem ev_enter {r urgent} (h₀ : Evolves s₀ s) : Evolves s₀ (enter r urgent s) := by grind [enter, ev_onMed]

theorem ev_enterWaiting (h₀ : Evolves s₀ s) : Evolves s₀ (enterWaiting s) :=
  ev_each s.med.jwait (fun x => enter x.1 x.2) (ev_onMed _ _ h₀) fun _ _ => ev_enter

theorem ev_journalTimeout (h₀ : Evolves s₀ s) : Evolves s₀ (journalTimeout s) := ev_onMed _ _ h₀

theorem ev_touchMap {m d} (h₀ : Evolves s₀ s) : Evolves s₀ (touchMap m d s) := ev_onMed _ _ h₀

theorem ev_addValid {b} (h₀ : Evolves s₀ s) : Evolves s₀ (addValid b s) := ev_onBlk h₀

theorem ev_dropValid {b} (h₀ : Evolves s₀ s) : Evolves s₀ (dropValid b s) := ev_onBlk h₀

theorem ev_setMap {u e} (h₀ : Evolves s₀ s) : Evolves s₀ (setMap u e s) := by
  grind [setMap, ev_dropValid, ev_addValid, ev_touchMap, ev_onMed]

theorem ev_setDir {m e} (h₀ : Evolves s₀ s) : Evolves s₀ (setDir m e s) := by grind [setDir, ev_dropValid, ev_addValid, ev_onMed]

theorem ev_onStream {bank k f} (h₀ : Evolves s₀ s) : Evolves s₀ (onStream bank k f s) := ev_onMed _ _ h₀

theorem ev_openBlock {bank k} (h₀ : Evolves s₀ s) : Evolves s₀ (openBlock bank k s).2 := by grind [openBlock, ev_enter, ev_onMed, ev_onBlk]

theorem ev_ensureNext {bank k} (h₀ : Evolves s₀ s) : Evolves s₀ (ensureNext bank k s) := by grind [ensureNext, ev_openBlock, ev_onStream]

theorem ev_ensureCur {bank k} (h₀ : Evolves s₀ s) : Evolves s₀ (ensureCur bank k s) := by grind [ensureCur, ev_onStream, ev_openBlock]

theorem ev_takePage {bank k} (h₀ : Evolves s₀ s) : Evolves s₀ (takePage bank k s).2 := by
  grind [takePage, ev_ensureCur, ev_onBlk, ev_ensureNext, ev_onStream]

theorem ev_closeOpen {keep} (h₀ : Evolves s₀ s) : Evolves s₀ (closeOpen keep s) := by grind [closeOpen, ev_onMed, ev_each, ev_onBlk]

theorem ev_closeBlock {b} (h₀ : Evolves s₀ s) : Evolves s₀ (closeBlock b s) := by grind [closeBlock, ev_onMed, ev_onBlk]

theorem ev_displacePiece {bank} (h₀ : Evolves s₀ s) : Evolves s₀ (displacePiece bank s) := by
  grind [displacePiece, ev_each, ev_leaveCohort, ev_count, ev_onMed]

theorem ev_putRead {i inRead} (h₀ : Evolves s₀ s) : Evolves s₀ (putRead i inRead s) := by grind [putRead, ev_onMed]

theorem ev_placeLate {i} (h₀ : Evolves s₀ s) : Evolves s₀ (placeLate i s) := by
  unfold placeLate
  split
  · exact h₀
  · extract_lets +onlyGivenNames b taken
    have hdrawn : Evolves s₀ (if taken then (1, s) else free s).2 := ev_prod_ite (ev_free s h₀) fun _ => h₀
    generalize (if taken then (1, s) else free s) = drawn at hdrawn ⊢
    obtain ⟨v, t⟩ := drawn
    grind [ev_putRead, ev_displacePiece, ev_onMed]

theorem ev_queueRead {why ppn cls level arrived} (h₀ : Evolves s₀ s) : Evolves s₀ (queueRead why ppn cls level arrived s) := by
  grind [queueRead, ev_onMed, ev_count, ev_placeLate]

theorem ev_promoteRead {i cls arrived} (h₀ : Evolves s₀ s) : Evolves s₀ (promoteRead i cls arrived s) := by
  grind [promoteRead, ev_onMed, ev_count, ev_placeLate]

theorem ev_warnRead {why} (h₀ : Evolves s₀ s) : Evolves s₀ (warnRead why s) := ev_onMed _ _ h₀

theorem ev_loadMap {m pinned} (h₀ : Evolves s₀ s) : Evolves s₀ (loadMap m pinned s) := ev_onMed _ _ h₀

theorem ev_roomForMap (h₀ : Evolves s₀ s) : Evolves s₀ (roomForMap s).2 := by grind [roomForMap, ev_onMed]

theorem ev_needMap {m cls level arrived} (h₀ : Evolves s₀ s) : Evolves s₀ (needMap m cls level arrived s) := by
  grind [needMap, ev_promoteRead, ev_roomForMap, ev_loadMap, ev_queueRead]

theorem ev_writeFlag {u e wb} (h₀ : Evolves s₀ s) : Evolves s₀ (writeFlag u e wb s) := by grind [writeFlag, ev_onMed, ev_enter, ev_setMap]

theorem ev_stageWrite {u bank d} (h₀ : Evolves s₀ s) : Evolves s₀ (stageWrite u bank d s) := ev_onMed _ _ h₀

theorem ev_placeAfresh {g} (h₀ : Evolves s₀ s) : Evolves s₀ (placeAfresh g s) := by grind [placeAfresh, ev_onMed]

theorem ev_stageProgram {g} (h₀ : Evolves s₀ s) : Evolves s₀ (stageProgram g s) := by grind [stageProgram, ev_needMap, ev_onMed]

theorem ev_settlePend {u} (h₀ : Evolves s₀ s) : Evolves s₀ (settlePend u s) := by grind [settlePend, ev_setMap, ev_onMed]

theorem ev_checkWorn {k} (h₀ : Evolves s₀ s) : Evolves s₀ (checkWorn k s) := by
  unfold checkWorn
  extract_lets op s₁
  have h₁ : Evolves s₀ s₁ := ev_ite h₀ fun h => ev_event _ _ _ _ (ev_onMedium _ _ (ev_onMed _ _ h))
  clear_value s₁
  exact ev_ite h₁ fun h => ev_trap _ _ (ev_onMedium _ _ (ev_onMed _ _ h))

theorem ev_retire {b cause} (h₀ : Evolves s₀ s) : Evolves s₀ (retire b cause s) := by
  rw [show retire = _ by delta retire; rfl]
  extract_lets +onlyGivenNames k s₁ s₂ s₃ s₄ own rest spare
  have h₄ : Evolves s₀ s₄ := ev_event _ _ _ _ (ev_onMed _ _ (ev_onBlk (ev_enter h₀)))
  clear_value spare s₄
  cases spare with
  | some x => exact ev_onBlk (ev_enter h₄)
  | none =>
    extract_lets s₅ s₆
    have h₅ : Evolves s₀ s₅ := ev_ite (ev_event _ _ _ _ (ev_onMed _ _ h₄)) fun _ => h₄
    clear_value s₅
    have h₆ : Evolves s₀ s₆ := ev_ite (ev_trap _ _ (ev_onMemErr _ _ _ h₅)) fun _ => h₅
    exact ev_checkWorn h₆

theorem ev_failBlock {b cause} (h₀ : Evolves s₀ s) : Evolves s₀ (failBlock b cause s) := by
  grind [failBlock, ev_enter, ev_onBlk, ev_onMed, ev_each, ev_onStream]

theorem ev_retireEmpty (h₀ : Evolves s₀ s) : Evolves s₀ (retireEmpty s) := by grind [retireEmpty, ev_each, ev_retire]

theorem ev_heavyRead {b} (h₀ : Evolves s₀ s) : Evolves s₀ (heavyRead b s) := by grind [heavyRead, ev_count, ev_onBlk, ev_onMed]

theorem ev_driftAhead {b} (h₀ : Evolves s₀ s) : Evolves s₀ (driftAhead b s) := by grind [driftAhead, ev_onDrf, ev_event, ev_onMed, ev_onBlk]

theorem ev_mapPageProg {m} (h₀ : Evolves s₀ s) : Evolves s₀ (mapPageProg m s) := by grind [mapPageProg, ev_onMed]

theorem ev_segmentProg {n gen} (h₀ : Evolves s₀ s) : Evolves s₀ (segmentProg n gen s) := by grind [segmentProg, ev_onMed]

theorem ev_startCkpt {why} (h₀ : Evolves s₀ s) : Evolves s₀ (startCkpt why s) := by grind [startCkpt, ev_onMed]

theorem ev_ckptSegments {c} (h₀ : Evolves s₀ s) : Evolves s₀ (ckptSegments c s) := by grind [ckptSegments, ev_onMed]

theorem ev_ckptPrograms {c} (h₀ : Evolves s₀ s) : Evolves s₀ (ckptPrograms c s) := by
  grind [ckptPrograms, ev_each, ev_segmentProg, ev_onMed]

theorem ev_ckptAdvance (h₀ : Evolves s₀ s) : Evolves s₀ (ckptAdvance s) := by
  grind [ckptAdvance, ev_each, ev_mapPageProg, ev_ckptSegments, ev_enter, ev_onMed, ev_ckptPrograms]

end Sys2Proof.Machine
end

section
/-!
SUPPORT. The operations evolve, continued (O3, O5). Relocations and the journal.
-/

namespace Sys2Proof.Machine
open Sys2Proof

variable {s₀ s : State}

theorem ev_onReloc {i f} (h₀ : Evolves s₀ s) : Evolves s₀ (onReloc i f s) := ev_onMed _ _ h₀

theorem ev_dropReloc {i} (h₀ : Evolves s₀ s) : Evolves s₀ (dropReloc i s) := ev_onMed _ _ h₀

theorem ev_beginReloc {r} (h₀ : Evolves s₀ s) : Evolves s₀ (beginReloc r s) := by
  rw [show beginReloc = _ by delta beginReloc; rfl]
  extract_lets +onlyGivenNames x k go
  have hgo {t : State} (h : Evolves s₀ t) : Evolves s₀ (go t) :=
    ev_onReloc (ev_ite (ev_onBlk (ev_enter h)) fun _ => ev_enter h)
  clear_value go
  split
  · exact h₀
  · split
    · split
      · exact hgo h₀
      · rename_i j _
        extract_lets +onlyGivenNames s₁
        have h₁ : Evolves s₀ s₁ := ev_ensureNext h₀
        clear_value s₁
        grind [ev_onStream]
    · exact hgo h₀

theorem ev_startReloc {b act} (h₀ : Evolves s₀ s) : Evolves s₀ (startReloc b act s) := by grind [startReloc, ev_beginReloc, ev_onMed]

theorem ev_commitRun {r urgent l} (h₀ : Evolves s₀ s) : Evolves s₀ (commitRun r urgent l s) := by
  cases l with
  | nil => exact h₀
  | cons c l => exact ev_onReloc (ev_enter h₀)

theorem ev_commitCopied {r l last} (h₀ : Evolves s₀ s) : Evolves s₀ (commitCopied r l last s) := by
  grind [commitCopied, ev_each, ev_commitRun, ev_onReloc]

theorem ev_commitWindow {r last} (h₀ : Evolves s₀ s) : Evolves s₀ (commitWindow r last s) := by
  grind [commitWindow, ev_onReloc, ev_commitCopied]

theorem ev_toPending {b} (h₀ : Evolves s₀ s) : Evolves s₀ (toPending b s) := ev_onBlk h₀

theorem ev_relocStep {r} (h₀ : Evolves s₀ s) : Evolves s₀ (relocStep r s) := by
  rw [show relocStep = _ by delta relocStep; rfl]
  split
  · exact ev_beginReloc h₀
  · split
    · split
      · exact h₀
      · split
        · extract_lets +onlyGivenNames lev
          grind [ev_queueRead, ev_onReloc]
        · extract_lets +onlyGivenNames maps s₁
          have h₁ : Evolves s₀ s₁ := ev_each _ _ h₀ fun _ _ => ev_needMap
          clear_value maps s₁
          grind [ev_commitWindow, ev_onReloc]
    · split
      · exact ev_ite h₀ fun _ => ev_onMed _ _ h₀
      · extract_lets +onlyGivenNames x fin
        have hfin {t : State} (h : Evolves s₀ t) : Evolves s₀ (fin t) := ev_dropReloc (ev_ite h fun h => ev_onDrf _ _ h)
        clear_value fin
        grind [ev_retire, ev_enter, ev_onReloc, ev_onMed, ev_toPending]

theorem ev_copyRead {i page} (h₀ : Evolves s₀ s) : Evolves s₀ (copyRead i page s) := by grind [copyRead, ev_onMed, ev_onReloc]

theorem ev_loseMap {m} (h₀ : Evolves s₀ s) : Evolves s₀ (loseMap m s) := by grind [loseMap, ev_each, ev_setMap, ev_setDir]

theorem ev_copyLost {i page} (h₀ : Evolves s₀ s) : Evolves s₀ (copyLost i page s) := by
  grind [copyLost, ev_writeFlag, ev_loseMap, ev_onReloc]

theorem ev_moveCopies {r redo l} (h₀ : Evolves s₀ s) : Evolves s₀ (moveCopies r redo l s) := by
  grind [moveCopies, ev_each, ev_setMap, ev_setDir]

theorem ev_recycleJournal (h₀ : Evolves s₀ s) : Evolves s₀ (recycleJournal s) := by grind [recycleJournal, ev_each, ev_enter, ev_onMed]

theorem ev_ckptDone {c jseq} (h₀ : Evolves s₀ s) : Evolves s₀ (ckptDone c jseq s) := by grind [ckptDone, ev_onMed, ev_onMedium]

theorem ev_journalDurable {j} (h₀ : Evolves s₀ s) : Evolves s₀ (journalDurable j s) := by
  unfold journalDurable
  split
  · exact h₀
  · extract_lets +onlyGivenNames s₁ s₂ s₃ s₄ s₅
    have h₂ : Evolves s₀ s₂ := ev_onMed _ _ (ev_onMedium _ _ h₀)
    have h₃ : Evolves s₀ s₃ := ev_each _ _ h₂ fun r s h => ev_onReloc (ev_each _ _ h fun _ _ => ev_moveCopies)
    have h₅ : Evolves s₀ s₅ := ev_onMed _ _ (ev_each _ _ h₃ fun _ _ => ev_toPending)
    clear_value s₅
    grind [ev_ckptDone]

theorem ev_onProg {i f} (h₀ : Evolves s₀ s) : Evolves s₀ (onProg i f s) := ev_onMed _ _ h₀

theorem ev_dropProg {i} (h₀ : Evolves s₀ s) : Evolves s₀ (dropProg i s) := ev_onMed _ _ h₀

theorem ev_requeue {p bank} (h₀ : Evolves s₀ s) : Evolves s₀ (requeue p bank s) := ev_onProg h₀

theorem ev_progVerified {p ppn} (h₀ : Evolves s₀ s) : Evolves s₀ (progVerified p ppn s) := by
  have h₁ {f} : Evolves s₀ (onMedium f (dropProg p.id s)) := ev_onMedium _ _ (ev_dropProg h₀)
  unfold progVerified
  refine ev_closeBlock ?_
  split
  · exact ev_settlePend (ev_onMed _ _ (ev_setMap h₁))
  · exact ev_onReloc (ev_onMed _ _ h₁)
  · exact ev_onMed _ _ (ev_setDir h₁)
  · exact ev_journalDurable h₁
  · exact ev_onMed _ _ h₁
  · exact ev_onCph _ _ h₁ fun h => h

theorem ev_targetFailed {r i t} (h₀ : Evolves s₀ s) : Evolves s₀ (targetFailed r i t s) := by
  grind [targetFailed, ev_commitCopied, ev_onReloc]

theorem ev_progFailed {p ppn} (h₀ : Evolves s₀ s) : Evolves s₀ (progFailed p ppn s) := by
  grind [progFailed, ev_event, ev_failBlock, ev_targetFailed, ev_dropProg, ev_requeue]

theorem ev_progAbandon {p ppn} (h₀ : Evolves s₀ s) : Evolves s₀ (progAbandon p ppn s) := by
  unfold progAbandon
  extract_lets +onlyGivenNames s₁ s₂ s₃
  have h₂ : Evolves s₀ s₂ := ev_onMed _ _ (ev_event _ _ _ _ h₀)
  clear_value s₂
  have h₃ : Evolves s₀ s₃ := by grind [ev_requeue, ev_onMed]
  exact ev_closeBlock h₃

theorem ev_onRst {b f} (h₀ : Evolves s₀ s) : Evolves s₀ (onRst b f s) := ev_onMed _ _ h₀

theorem ev_resetVerified {r} (h₀ : Evolves s₀ s) : Evolves s₀ (resetVerified r s) := by
  unfold resetVerified
  exact ev_onMedium _ _ (ev_onBlk (ev_enter (ev_leaveCohort (ev_onMed _ _ h₀))))

theorem ev_resetFailed {r} (h₀ : Evolves s₀ s) : Evolves s₀ (resetFailed r s) := by grind [resetFailed, ev_retire, ev_onMed]

theorem ev_enduranceEnd (h₀ : Evolves s₀ s) : Evolves s₀ (enduranceEnd s) := by grind [enduranceEnd, ev_each, ev_retire, ev_onMed]

theorem ev_journalPrograms (h₀ : Evolves s₀ s) : Evolves s₀ (journalPrograms s) := by grind [journalPrograms, ev_takePage, ev_onMed]

theorem ev_mediaStep (h₀ : Evolves s₀ s) : Evolves s₀ (mediaStep s) := by
  unfold mediaStep
  extract_lets +onlyGivenNames s₁ s₂ s₃ s₄ s₅ s₆
  have h₁ : Evolves s₀ s₁ := ev_journalPrograms (ev_enterWaiting h₀)
  have h₂ : Evolves s₀ s₂ := ev_each _ _ h₁ fun _ _ => ev_placeAfresh
  have h₃ : Evolves s₀ s₃ := ev_each _ _ h₂ fun _ _ => ev_stageProgram
  have h₄ : Evolves s₀ s₄ := ev_each _ _ h₃ fun _ _ => ev_settlePend
  have h₅ : Evolves s₀ s₅ := ev_each _ _ h₄ fun _ _ => ev_needMap
  have h₆ : Evolves s₀ s₆ := ev_each _ _ h₅ fun _ _ => ev_relocStep
  exact ev_ckptAdvance (ev_enduranceEnd (ev_recycleJournal (ev_retireEmpty h₆)))

end Sys2Proof.Machine
end

section
/-!
SUPPORT. The operations evolve, continued (O3, O5). The cache and its inline records.
-/

namespace Sys2Proof.Machine
open Sys2Proof

variable {s₀ s : State}

theorem ev_onWay {k f} (h₀ : Evolves s₀ s) : Evolves s₀ (onWay k f s) := ev_onCch _ _ h₀

theorem ev_onLine {k i f} (h₀ : Evolves s₀ s) : Evolves s₀ (onLine k i f s) := ev_onWay h₀

theorem ev_onPageLine {u f} (h₀ : Evolves s₀ s) : Evolves s₀ (onPageLine u f s) := by grind [onPageLine, ev_onLine]

theorem ev_putUnit {k i major minor d f} (h₀ : Evolves s₀ s) : Evolves s₀ (putUnit k i major minor d f s) := by
  unfold putUnit
  exact ev_onLine (ev_onSec _ _ (ev_count _ _ _ _ h₀) fun h => wf_tset _ _ h)

theorem ev_metaFails {b} (h₀ : Evolves s₀ s) : Evolves s₀ (metaFails b s) := by grind [metaFails, ev_onSec, ev_each, ev_onLine]

theorem ev_useRecord {k i} (h₀ : Evolves s₀ s) : Evolves s₀ (useRecord k i s) := by grind [useRecord, ev_onSec, ev_count, ev_metaFails]

theorem ev_bumpUnit {k i} (h₀ : Evolves s₀ s) : Evolves s₀ (bumpUnit k i s).2 := by
  grind [bumpUnit, ev_useRecord, ev_onSec, ev_count, ev_fatal]

theorem ev_writeUnit {k i d f} (h₀ : Evolves s₀ s) : Evolves s₀ (writeUnit k i d f s) := by grind [writeUnit, ev_bumpUnit, ev_putUnit]

theorem ev_reencStep (h₀ : Evolves s₀ s) : Evolves s₀ (reencStep s) := by grind [reencStep, ev_onSec, ev_putUnit]

theorem ev_fillData {u d} (h₀ : Evolves s₀ s) : Evolves s₀ (fillData u d s) := by grind [fillData, ev_writeUnit]

theorem ev_fillPoison {u} (h₀ : Evolves s₀ s) : Evolves s₀ (fillPoison u s) := by grind [fillPoison, ev_onCch, ev_onLine]

theorem ev_resolveFill {u} (h₀ : Evolves s₀ s) : Evolves s₀ (resolveFill u s) := by
  grind [resolveFill, ev_fillData, ev_fillPoison, ev_needMap, ev_warnRead, ev_touchMap, ev_queueRead, ev_event]

theorem ev_promoteFill {k i u cls arrived} (h₀ : Evolves s₀ s) : Evolves s₀ (promoteFill k i u cls arrived s) := by
  grind [promoteFill, ev_onLine, ev_promoteRead]

theorem ev_warnFill {k i u} (h₀ : Evolves s₀ s) : Evolves s₀ (warnFill k i u s) := by grind [warnFill, ev_warnRead, ev_onLine]

theorem ev_startFill {k i u cls arrived warn} (h₀ : Evolves s₀ s) : Evolves s₀ (startFill k i u cls arrived s warn) := by
  grind [startFill, ev_resolveFill, ev_onLine]

theorem ev_pickVictim {set cands} (h₀ : Evolves s₀ s) : Evolves s₀ (pickVictim set cands s).2 := by grind [pickVictim, ev_each, ev_onWay]

theorem ev_finishEvict {k} (h₀ : Evolves s₀ s) : Evolves s₀ (finishEvict k s) := by grind [finishEvict, ev_onWay]

theorem ev_startEvict {k inc} (h₀ : Evolves s₀ s) : Evolves s₀ (startEvict k inc s) := by
  grind [startEvict, ev_onCch, ev_count, ev_finishEvict, ev_onWay]

theorem ev_allocate {u cls age lock} (h₀ : Evolves s₀ s) : Evolves s₀ (allocate u cls age lock s) := by
  grind [allocate, ev_onWay, ev_pickVictim, ev_startEvict]

theorem ev_lookup {id u mode cls arrived} (h₀ : Evolves s₀ s) : Evolves s₀ (lookup id u mode cls arrived s).2 := by
  grind [lookup, ev_promoteFill, ev_warnFill, ev_startFill, ev_count, ev_allocate]

theorem ev_countLook {l} (h₀ : Evolves s₀ s) : Evolves s₀ (countLook l s) := by grind [countLook, ev_count, ev_onCch, ev_onWay]

theorem ev_poisonLine {k i cover} (h₀ : Evolves s₀ s) : Evolves s₀ (poisonLine k i cover s) := by grind [poisonLine, ev_onCch, ev_onLine]

theorem ev_tagFail (h₀ : Evolves s₀ s) : Evolves s₀ (tagFail s) := ev_onSec _ _ h₀ fun h => h

/-- The state of an answer evolves from `a`. -/
def AnswerEvolves {α : Type} (a : State) (p : α × State) : Prop := Evolves a p.2

theorem answerEvolves_mk {α : Type} {a t : State} {v : α} (h : Evolves a t) : AnswerEvolves a (v, t) := h

theorem ev_readLine {k u g} (h₀ : Evolves s₀ s) : Evolves s₀ (readLine k u g s).2 := by
  change AnswerEvolves s₀ (readLine k u g s)
  rw [show readLine = _ by delta readLine; rfl]
  extract_lets +onlyGivenNames i s₁ l
  have h₁ : Evolves s₀ s₁ := ev_count _ _ _ _ (ev_useRecord h₀)
  clear_value l s₁
  have htag {op src code} : Evolves s₀ (event op src code (tagFail s₁)) := ev_event _ _ _ _ (ev_tagFail h₁)
  split
  · exact h₁
  · split
    · exact h₁
    · extract_lets +onlyGivenNames s₂ s₃
      have h₃ : Evolves s₀ s₃ := ev_startFill (ev_event _ _ _ _ (ev_tagFail (ev_onCch _ _ h₁)))
      clear_value s₃
      split
      · exact h₃
      · exact h₃
      · exact h₃
  · split
    · exact h₁
    · exact answerEvolves_mk (ev_poisonLine htag)
  · split
    · exact h₁
    · split
      · exact h₁
      · exact answerEvolves_mk (ev_onCch _ _ (ev_onLine htag))
  · exact h₁

theorem ev_cleanLine {k i drop} (h₀ : Evolves s₀ s) : Evolves s₀ (cleanLine k i drop s) := by grind [cleanLine, ev_onCch, ev_onLine]

theorem ev_writeLine {k u g data mask poison} (h₀ : Evolves s₀ s) : Evolves s₀ (writeLine k u g data mask poison s).2 := by
  grind [writeLine, ev_useRecord, ev_count, ev_cleanLine, ev_onLine, ev_event, ev_tagFail, ev_poisonLine, ev_writeUnit]

theorem ev_writeWhole {k u d poison} (h₀ : Evolves s₀ s) : Evolves s₀ (writeWhole k u d poison s) := by
  grind [writeWhole, ev_onLine, ev_poisonLine, ev_writeUnit, ev_cleanLine]

theorem ev_tellSeq {u seq} (h₀ : Evolves s₀ s) : Evolves s₀ (tellSeq u seq s) := by grind [tellSeq, ev_onDir, ev_onCch, ev_onMed]

theorem ev_lineLeaves {u} (h₀ : Evolves s₀ s) : Evolves s₀ (lineLeaves u s) := by
  unfold lineLeaves
  split
  · exact h₀
  · rename_i k _
    extract_lets +onlyGivenNames i s₁ w l d flag out
    have h₁ : Evolves s₀ s₁ := ev_useRecord h₀
    have hflag {e : MapEnt} {t u : State} (h : Evolves s₀ t) (hu : flag e t = some u) : Evolves s₀ u := by
      grind [ev_writeFlag]
    have hout {p : Bool} {t u : State} (h : Evolves s₀ t) (hu : out p t = some u) : Evolves s₀ u := by
      grind [ev_stageWrite]
    clear_value out flag l w s₁
    split
    · extract_lets +onlyGivenNames bad
      split
      · exact h₁
      · rename_i t ht
        have h₂ := hout h₁ ht
        clear ht
        grind [ev_tellSeq, ev_event, ev_tagFail, ev_onCch, ev_onLine, ev_finishEvict]
    · split
      · split
        · exact h₁
        · rename_i t ht
          exact ev_tellSeq (ev_onLine (hout h₁ ht))
      · exact h₁

theorem ev_holdStep (h₀ : Evolves s₀ s) : Evolves s₀ (holdStep s) := by grind [holdStep, ev_onCch]

theorem ev_cleanerStep (h₀ : Evolves s₀ s) : Evolves s₀ (cleanerStep s) := by grind [cleanerStep, ev_onCch, ev_each, ev_cleanLine]

theorem ev_strictStep (h₀ : Evolves s₀ s) : Evolves s₀ (strictStep s) := by grind [strictStep, ev_each, ev_cleanLine]

theorem ev_fillStep (h₀ : Evolves s₀ s) : Evolves s₀ (fillStep s) := by grind [fillStep, ev_each, ev_resolveFill]

end Sys2Proof.Machine
end

section
/-!
SUPPORT. The operations evolve, continued (O3, O5). The home engine: requests, transactions and answers.
-/

namespace Sys2Proof.Machine
open Sys2Proof

variable {s₀ s : State}

theorem ev_setDirEnt {k e} (h₀ : Evolves s₀ s) : Evolves s₀ (setDirEnt k e s) := ev_onDir _ _ h₀

theorem ev_record {lg st} (h₀ : Evolves s₀ s) : Evolves s₀ (record lg st s) := by grind [record, ev_count, ev_onDir, ev_setDirEnt]

theorem ev_onTxn {i f} (h₀ : Evolves s₀ s) : Evolves s₀ (onTxn i f s) := ev_onDir _ _ h₀

theorem ev_dropTxn {i} (h₀ : Evolves s₀ s) : Evolves s₀ (dropTxn i s) := ev_onDir _ _ h₀

theorem ev_sendSnoop {i slot lg k a} (h₀ : Evolves s₀ s) : Evolves s₀ (sendSnoop i slot lg k a s) := by
  grind [sendSnoop, ev_onTxn, ev_emit, ev_onDir]

theorem ev_onGb {i f} (h₀ : Evolves s₀ s) : Evolves s₀ (onGb i f s) := ev_onOrd _ _ h₀

theorem ev_dropGb {i} (h₀ : Evolves s₀ s) : Evolves s₀ (dropGb i s) := ev_onOrd _ _ h₀

theorem ev_notePeak {b} (h₀ : Evolves s₀ s) : Evolves s₀ (notePeak b s) := by grind [notePeak, ev_onOrd]

theorem ev_takeId (h₀ : Evolves s₀ s) : Evolves s₀ (takeId s) := ev_onDir _ _ h₀

theorem ev_order {r} (h₀ : Evolves s₀ s) : Evolves s₀ (order r s) := by grind [order, ev_count, ev_onDir]

theorem ev_passEntry {g} (h₀ : Evolves s₀ s) : Evolves s₀ (passEntry g s) := by grind [passEntry, ev_order, ev_onGb, ev_takeId]

theorem ev_drainEntry {i} (h₀ : Evolves s₀ s) : Evolves s₀ (drainEntry i s) := by grind [drainEntry, ev_each, ev_passEntry]

theorem ev_drainWhere {p} (h₀ : Evolves s₀ s) : Evolves s₀ (drainWhere p s) := by grind [drainWhere, ev_each, ev_drainEntry]

theorem ev_afterPlace {i b} (h₀ : Evolves s₀ s) : Evolves s₀ (afterPlace i b s) := by grind [afterPlace, ev_drainEntry]

theorem ev_tagRequest {path id kind rq gaddr} (h₀ : Evolves s₀ s) : Evolves s₀ (tagRequest path id kind rq gaddr s) := by
  grind [tagRequest, ev_free, ev_onPmc]

theorem ev_stageTimes {passed} (h₀ : Evolves s₀ s) : Evolves s₀ (stageTimes passed s).2 := by
  unfold stageTimes
  refine ev_foldl _ _ h₀ fun a p h => ?_
  dsimp only
  split
  · exact ev_free _ h
  · exact h

theorem ev_endSample {id flags info passed} (h₀ : Evolves s₀ s) : Evolves s₀ (endSample id flags info passed s) := by
  grind [endSample, ev_stageTimes, ev_onPmc]

theorem ev_arrive {src c} (h₀ : Evolves s₀ s) : Evolves s₀ (arrive src c s) := by
  unfold arrive
  extract_lets +onlyGivenNames id s₁
  have h₁ : Evolves s₀ s₁ := ev_onDir _ _ h₀
  clear_value s₁
  split
  · exact h₁
  · exact h₁
  · exact h₁
  · exact ev_tagRequest h₁
  · exact h₁

theorem ev_hostErr {kind cause addr bar4} (h₀ : Evolves s₀ s) : Evolves s₀ (hostErr kind cause addr bar4 s) := by
  unfold hostErr
  extract_lets +onlyGivenNames s₁ s₂
  have h₁ : Evolves s₀ s₁ := ev_onHst _ _ h₀ (by grind)
  clear_value s₁
  have h₂ : Evolves s₀ s₂ := by
    unfold s₂
    split
    case h_8 => exact h₁
    all_goals exact ev_emit _ _ h₁
  exact ev_count _ _ _ _ (ev_event _ _ _ _ h₂)

theorem ev_internalWrite {src parent gaddr d poison} (h₀ : Evolves s₀ s) : Evolves s₀ (internalWrite src parent gaddr d poison s) := by
  grind [internalWrite, ev_arrive]

theorem ev_internalRead {src parent gaddr} (h₀ : Evolves s₀ s) : Evolves s₀ (internalRead src parent gaddr s) := by
  grind [internalRead, ev_arrive]

theorem ev_onRun {j f} (h₀ : Evolves s₀ s) : Evolves s₀ (onRun j f s) := ev_onCopy _ _ _ h₀

theorem ev_copyGot {j off d poison} (h₀ : Evolves s₀ s) : Evolves s₀ (copyGot j off d poison s) := by
  grind [copyGot, ev_onRun, ev_internalWrite, ev_count]

theorem ev_copyRefused {j off write st} (h₀ : Evolves s₀ s) : Evolves s₀ (copyRefused j off write st s) := by grind [copyRefused, ev_onRun]

theorem ev_streamError {p cause dir tag addr} (h₀ : Evolves s₀ s) : Evolves s₀ (streamError p cause dir tag addr s) := by
  grind [streamError, ev_onPort, ev_event]

theorem ev_onEgRead {p i f} (h₀ : Evolves s₀ s) : Evolves s₀ (onEgRead p i f s) := ev_onPort _ _ _ h₀

theorem ev_egressGot {p i g d cause} (h₀ : Evolves s₀ s) : Evolves s₀ (egressGot p i g d cause s) := by
  grind [egressGot, ev_onPort, ev_onEgRead, ev_streamError]

theorem ev_combDone {i cause} (h₀ : Evolves s₀ s) : Evolves s₀ (combDone i cause s) := by
  grind [combDone, ev_onStm, ev_count, ev_each, ev_streamError, ev_onPort]

theorem ev_importGot {g d} (h₀ : Evolves s₀ s) : Evolves s₀ (importGot g d s) := ev_onCph _ _ h₀ fun h => h

theorem ev_hostReadDone {tag} (h₀ : Evolves s₀ s) : Evolves s₀ (hostReadDone tag s) := by
  unfold hostReadDone
  split
  · exact h₀
  · extract_lets +onlyGivenNames first n
    split
    · exact h₀
    · extract_lets +onlyGivenNames s₁ s₂
      have h₂ : Evolves s₀ s₂ := ev_endSample (ev_onDir _ _ h₀)
      clear_value s₂
      split
      · exact ev_emit _ _ (ev_hostErr h₂)
      · extract_lets +onlyGivenNames bytes ep s₃
        have h₃ : Evolves s₀ s₃ := by
          unfold s₃
          clear_value ep
          cases ep with
          | some i => exact ev_hostErr h₂
          | none => exact h₂
        exact ev_emit _ _ h₃

theorem ev_hostGot {parent d poison} (h₀ : Evolves s₀ s) : Evolves s₀ (hostGot parent d poison s) := by
  grind [hostGot, ev_hostReadDone, ev_onDir]

theorem ev_hostBad {parent cause} (h₀ : Evolves s₀ s) : Evolves s₀ (hostBad parent cause s) := by grind [hostBad, ev_hostReadDone, ev_onDir]

theorem ev_sampleTxn {t poison} (h₀ : Evolves s₀ s) : Evolves s₀ (sampleTxn t poison s) := by grind [sampleTxn, ev_each, ev_endSample]

theorem ev_checkBound {t} (h₀ : Evolves s₀ s) : Evolves s₀ (checkBound t s) := by grind [checkBound, ev_event, ev_onTck, ev_free]

theorem ev_answerRead {t st d poison} (h₀ : Evolves s₀ s) : Evolves s₀ (answerRead t st d poison s) := by
  grind [answerRead, ev_checkBound, ev_sampleTxn, ev_emit, ev_push, ev_hostGot, ev_copyGot, ev_egressGot, ev_importGot]

theorem ev_refuse {src id agent txid parent gaddr k st} (h₀ : Evolves s₀ s) :
    Evolves s₀ (refuse src id agent txid parent gaddr k st s) := by
  unfold refuse
  extract_lets +onlyGivenNames s₁ s₂
  have h₁ : Evolves s₀ s₁ := ev_endSample h₀
  clear_value s₁
  have h₂ : Evolves s₀ s₂ := by grind [ev_denied, ev_trap]
  clear_value s₂
  cases src with
  | hal p | cop l => grind [ev_onDir, ev_emit]
  | host =>
    cases k with
    | write => exact ev_hostErr h₂
    | atomic op size off cmp => exact ev_emit _ _ (ev_hostErr h₂)
    | rdShared | rdUnique | upgrade | rdOnce | accum | maint => exact ev_hostBad h₂
  | copy j => exact ev_copyRefused h₂
  | stream p =>
    cases k with
    | accum ws => exact ev_combDone h₂
    | write | atomic | rdShared | rdUnique | upgrade | rdOnce | maint => exact ev_egressGot h₂
  | fw => exact ev_importGot h₂
  | dbg => exact ev_emit _ _ h₂

theorem ev_answerWrite {t st} (h₀ : Evolves s₀ s) : Evolves s₀ (answerWrite t st s) := by
  grind [answerWrite, ev_sampleTxn, ev_trap, ev_emit, ev_hostErr, ev_count, ev_onRun, ev_copyRefused, ev_combDone]

theorem ev_close {t} (h₀ : Evolves s₀ s) : Evolves s₀ (close t s) := by grind [close, ev_dropTxn, ev_record]

theorem ev_startTxn {t} (h₀ : Evolves s₀ s) : Evolves s₀ (startTxn t s) := by
  unfold startTxn
  extract_lets +onlyGivenNames r lg d
  split
  rename_i list kind _
  extract_lets +onlyGivenNames entry needs slot
  split
  · exact h₀
  · extract_lets +onlyGivenNames s₁
    have h₁ : Evolves s₀ s₁ := ev_count _ _ _ _ h₀
    clear_value s₁ slot
    split
    · split
      · exact ev_setDirEnt (ev_onTxn h₁)
      · split
        · exact h₁
        · split
          · exact h₁
          · extract_lets +onlyGivenNames vg s₂ s₃ s₄
            have h₄ : Evolves s₀ s₄ := ev_onDir _ _ (ev_onTxn (ev_setDirEnt h₁))
            exact ev_each _ _ (ev_count _ _ _ _ h₄) fun _ _ => ev_sendSnoop
    · extract_lets +onlyGivenNames s₂ s₃
      have h₂ : Evolves s₀ s₂ := by grind [ev_setDirEnt]
      exact ev_each _ _ (ev_onTxn h₂) fun _ _ => ev_sendSnoop

theorem ev_endSnoops {t} (h₀ : Evolves s₀ s) : Evolves s₀ (endSnoops t s) := by grind [endSnoops, ev_setDirEnt, ev_onTxn]

theorem ev_finishWrite {t st} (h₀ : Evolves s₀ s) : Evolves s₀ (finishWrite t st s) := by
  grind [finishWrite, ev_dropGb, ev_record, ev_onTxn, ev_dropTxn, ev_answerWrite]

theorem ev_lookTxn {t mode cls} (h₀ : Evolves s₀ s) : Evolves s₀ (lookTxn t mode cls s).2 := by
  grind [lookTxn, ev_lookup, ev_onTxn, ev_countLook]

theorem ev_homeAtomic {t k f} {ans : Granule → Bool → RStat → State → State} (h₀ : Evolves s₀ s)
    (hans : ∀ d p r s, Evolves s₀ s → Evolves s₀ (ans d p r s)) : Evolves s₀ (homeAtomic t k f ans s) := by
  unfold homeAtomic
  extract_lets +onlyGivenNames u g i s₁ l done
  have h₁ : Evolves s₀ s₁ := ev_useRecord h₀
  have hdone {s : State} (h : Evolves s₀ s) : Evolves s₀ (done s) := ev_dropTxn (ev_record h)
  clear_value done l s₁
  split
  · exact hdone (hans _ _ _ _ h₁)
  · split
    · exact hdone (hans _ _ _ _ (ev_poisonLine (ev_event _ _ _ _ (ev_tagFail h₁))))
    · extract_lets +onlyGivenNames old s₂
      have h₂ : Evolves s₀ s₂ := ev_count _ _ _ _ (ev_onDir _ _ h₁)
      clear_value s₂
      have h₃ : Evolves s₀ (writeLine k u g (f old) (BitVec.allOnes 64) false s₂).2 := ev_writeLine h₂
      generalize writeLine k u g (f old) (BitVec.allOnes 64) false s₂ = written at h₃ ⊢
      obtain ⟨st, s₃⟩ := written
      exact ev_ite (ev_dropTxn (hans _ _ _ _ (ev_record h₃))) fun _ => ev_onTxn (ev_record h₃)

theorem ev_answerAtomic {t size off old poison st} (h₀ : Evolves s₀ s) : Evolves s₀ (answerAtomic t size off old poison st s) := by
  grind [answerAtomic, ev_emit, ev_hostErr]

theorem ev_answerAccum {t poison st} (h₀ : Evolves s₀ s) : Evolves s₀ (answerAccum t poison st s) := by
  grind [answerAccum, ev_combDone, ev_emit]

theorem ev_closeLost {t} (h₀ : Evolves s₀ s) : Evolves s₀ (closeLost t s) := by grind [closeLost, ev_close]

theorem ev_lineTxn {t} (h₀ : Evolves s₀ s) : Evolves s₀ (lineTxn t s) := by
  rw [show lineTxn = _ by delta lineTxn; rfl]
  extract_lets +onlyGivenNames r u g
  refine ev_ite ?_ fun _ => h₀
  split
  case h_1 | h_2 | h_3 | h_4 =>
    extract_lets +onlyGivenNames t' s₁ st
    have h₁ : Evolves s₀ s₁ := ev_onTxn h₀
    clear_value st t' s₁
    refine ev_ite (ev_ite (ev_ite ?_ fun _ => ev_onTxn (ev_emit _ _ h₁)) fun _ => ev_close (ev_refuse h₁)) fun _ => ev_closeLost h₁
    split
    · exact ev_pair ‹_› (ev_lookTxn h₁)
    · have h₂ := ev_pair ‹_› (ev_lookTxn h₁)
      split
      · exact ev_pair ‹_› (ev_readLine h₂)
      · have h₃ := ev_pair ‹_› (ev_readLine h₂)
        exact ev_ite (ev_onTxn (ev_answerRead h₃)) fun _ => ev_close (ev_answerRead h₃)
  · refine ev_ite (ev_ite ?_ fun _ => ?_) fun _ => ev_finishWrite h₀
    · split
      · exact ev_pair ‹_› (ev_lookTxn h₀)
      · have h₁ := ev_pair ‹_› (ev_lookTxn h₀)
        split
        exact ev_finishWrite (ev_pair ‹_› (ev_writeLine h₁))
    · extract_lets +onlyGivenNames all
      refine ev_ite ?_ fun _ => h₀
      split
      · exact ev_pair ‹_› (ev_lookTxn h₀)
      · exact ev_each _ _ (ev_writeWhole (ev_pair ‹_› (ev_lookTxn h₀))) fun _ _ => ev_finishWrite
  · split
    · exact ev_pair ‹_› (ev_lookTxn h₀)
    · exact ev_homeAtomic (ev_pair ‹_› (ev_lookTxn h₀)) fun _ _ _ _ => ev_answerAtomic
  · split
    · exact ev_pair ‹_› (ev_lookTxn h₀)
    · exact ev_homeAtomic (ev_pair ‹_› (ev_lookTxn h₀)) fun _ _ _ _ => ev_answerAccum
  · exact ev_close h₀

theorem ev_txnStep {i} (h₀ : Evolves s₀ s) : Evolves s₀ (txnStep i s) := by
  grind [txnStep, ev_startTxn, ev_endSnoops, ev_lineTxn, ev_dropTxn, ev_answerAtomic, ev_answerAccum, ev_emit, ev_answerWrite]

theorem ev_mergeEntry {g} (h₀ : Evolves s₀ s) : Evolves s₀ (mergeEntry g s) := by
  unfold mergeEntry
  split
  · exact h₀
  · extract_lets +onlyGivenNames u early s₁ acked toss
    have h₁ : Evolves s₀ s₁ := ev_ite h₀ fun h => ev_emit _ _ (ev_onGb h)
    clear_value toss acked s₁
    split
    · exact ev_dropGb (ev_ite h₁ fun h => ev_emit _ _ h)
    · split
      have h₂ := ev_pair ‹_› (ev_lookup h₁)
      extract_lets +onlyGivenNames s₃
      have h₃ : Evolves s₀ s₃ := ev_ite (ev_onGb (ev_countLook h₂)) fun _ => h₂
      clear_value s₃
      split
      · exact h₃
      · split
        have h₄ := ev_pair ‹_› (ev_writeLine h₃)
        extract_lets +onlyGivenNames s₅
        have h₅ : Evolves s₀ s₅ := ev_dropGb h₄
        clear_value s₅
        exact ev_ite h₅ fun h => ev_ite (ev_emit _ _ h) fun _ => ev_onDir _ _ (ev_takeId h)

theorem ev_reserve {src agent gaddr lg rsv d poison} (h₀ : Evolves s₀ s) : Evolves s₀ (reserve src agent gaddr lg rsv d poison s) := by
  grind [reserve, ev_notePeak, ev_onOrd, ev_takeId]

theorem ev_leaveEnt {a lg} (h₀ : Evolves s₀ s) : Evolves s₀ (leaveEnt a lg s) := by grind [leaveEnt, ev_setDirEnt]

theorem ev_leaveRecorded {a lg} (h₀ : Evolves s₀ s) : Evolves s₀ (leaveRecorded a lg s) := by
  grind [leaveRecorded, ev_leaveEnt, ev_onTxn, ev_record]

theorem ev_onSnoop {i a lg f} (h₀ : Evolves s₀ s) : Evolves s₀ (onSnoop i a lg f s) := ev_onTxn h₀

theorem ev_takeWb {src a gaddr lg d poison} (h₀ : Evolves s₀ s) : Evolves s₀ (takeWb src a gaddr lg d poison s) := by
  grind [takeWb, ev_count, ev_reserve, ev_onSnoop, ev_leaveRecorded, ev_emit, ev_event, ev_onDir]

theorem ev_takeEvict {a gaddr lg} (h₀ : Evolves s₀ s) : Evolves s₀ (takeEvict a gaddr lg s) := by
  grind [takeEvict, ev_count, ev_onSnoop, ev_emit, ev_leaveRecorded]

theorem ev_takeResp {src a htid gaddr lg st evicted data} (h₀ : Evolves s₀ s) :
    Evolves s₀ (takeResp src a htid gaddr lg st evicted data s) := by
  unfold takeResp
  split
  · exact h₀
  · split
    · exact h₀
    · extract_lets +onlyGivenNames s₁ s₂ s₃ s₄
      have h₁ : Evolves s₀ s₁ := ev_ite h₀ fun h => ev_count _ _ _ _ (ev_onDir _ _ h)
      clear_value s₁
      have h₂ : Evolves s₀ s₂ := ev_ite h₁ fun h => ev_onDir _ _ h
      have h₃ : Evolves s₀ s₃ := ev_onSnoop h₂
      clear_value s₃
      have h₄ : Evolves s₀ s₄ := ev_ite h₃ fun h => ev_onTxn h
      cases data with
      | none => exact ev_ite h₄ fun h => ev_emit _ _ h
      | some dp => exact ev_reserve h₄

theorem ev_takeAck {a htid} (h₀ : Evolves s₀ s) : Evolves s₀ (takeAck a htid s) := by grind [takeAck, ev_close]

theorem ev_loseAgent {a} (h₀ : Evolves s₀ s) : Evolves s₀ (loseAgent a s) := by
  unfold loseAgent
  extract_lets +onlyGivenNames link s₁ s₂ owned s₃ s₄ s₅ s₆ s₇
  have h₂ : Evolves s₀ s₂ := ev_each _ _ (ev_onDir _ _ h₀) fun _ _ => ev_close
  have h₄ : Evolves s₀ s₄ := ev_onOrd _ _ (ev_onDir _ _ h₂)
  have h₅ : Evolves s₀ s₅ := ev_each _ _ h₄ fun _ _ h => ev_reserve (ev_leaveRecorded h)
  have h₆ : Evolves s₀ s₆ := by
    refine ev_each _ _ h₅ fun p s h => ?_
    split
    · split
      · exact ev_ite (ev_record h) fun _ => ev_setDirEnt h
      · exact h
    · exact h
  exact ev_event _ _ _ _ (ev_onDir _ _ h₆)

theorem ev_forward {id src h agent txid parent gaddr write c} (h₀ : Evolves s₀ s) :
    Evolves s₀ (forward id src h agent txid parent gaddr write c s) := by
  unfold forward
  exact ev_emit _ _ (ev_onGrp _ _ (ev_onDir _ _ h₀) rfl)

theorem ev_dropHeld {i} (h₀ : Evolves s₀ s) : Evolves s₀ (dropHeld i s) := ev_onDir _ _ h₀

theorem ev_noteHeld {h} (h₀ : Evolves s₀ s) : Evolves s₀ (noteHeld h s) := by grind [noteHeld, ev_onCch, ev_onDir]

theorem ev_placeWrite {id src rq agent txid gaddr lg mask data poison relaxed whole reqs} (h₀ : Evolves s₀ s) :
    Evolves s₀ (placeWrite id src rq agent txid gaddr lg mask data poison relaxed whole reqs s) := by
  grind [placeWrite, ev_onOrd, ev_emit, ev_endSample, ev_onGb, ev_afterPlace, ev_notePeak]

theorem ev_admitGranule {h rq agent txid parent gaddr k mask data poison} (h₀ : Evolves s₀ s) :
    Evolves s₀ (admitGranule h rq agent txid parent gaddr k mask data poison s).2 := by
  rw [show admitGranule = _ by delta admitGranule; rfl]
  extract_lets +onlyGivenNames cls link gone refused
  have hgone {t : State} (ht : Evolves s₀ t) : Evolves s₀ (gone t).2 := ev_dropHeld ht
  have hrefused {st : RStat} : Evolves s₀ (refused st s).2 := hgone (ev_refuse h₀)
  clear_value refused gone link
  split
  · exact hrefused
  · split
    · exact hgone h₀
    · refine ev_prod_ite (ev_prod_ite (ev_prod_ite (ev_prod_ite ?_ fun _ => hrefused) fun _ => h₀) fun _ => h₀) fun _ => hrefused
      exact hgone (ev_forward h₀)
  · extract_lets +onlyGivenNames u lg gather isAgent mine fresh
    clear_value fresh mine isAgent gather
    refine ev_prod_ite (ev_prod_ite ?_ fun _ => h₀) fun _ => hrefused
    split
    · refine ev_prod_ite (ev_prod_ite (ev_prod_ite (ev_prod_ite ?_ fun _ => ?_) fun _ => ?_) fun _ => h₀) fun _ => h₀
      · split
        · exact hgone (ev_emit _ _ (ev_onOrd _ _ (ev_endSample h₀)))
        · exact hgone (ev_order (ev_each _ _ h₀ fun _ _ => ev_drainEntry))
      · exact ev_prod_ite (hgone (ev_placeWrite h₀)) fun _ => h₀
      · exact ev_mk (ev_ite h₀ fun _ => ev_noteHeld h₀)
    · exact hrefused

theorem ev_admitBarrier {h m arg compl} (h₀ : Evolves s₀ s) : Evolves s₀ (admitBarrier h m arg compl s) := by
  grind [admitBarrier, ev_dropHeld, ev_emit, ev_onDir]

theorem ev_barrierStep {b} (h₀ : Evolves s₀ s) : Evolves s₀ (barrierStep b s) := by
  grind [barrierStep, ev_drainWhere, ev_onDir, ev_emit, ev_onOrd]

theorem ev_drainOlder {relaxed rq lg} (h₀ : Evolves s₀ s) : Evolves s₀ (drainOlder relaxed rq lg s) := by grind [drainOlder, ev_drainEntry]

theorem ev_admitHostWrite {h addr data relaxed poisoned} (h₀ : Evolves s₀ s) :
    Evolves s₀ (admitHostWrite h addr data relaxed poisoned s).2 := by
  rw [show admitHostWrite = _ by delta admitHostWrite; rfl]
  extract_lets +onlyGivenNames rq
  split
  · exact ev_dropHeld h₀
  · extract_lets +onlyGivenNames later d mask
    have hlater {t : State} (ht : Evolves s₀ t) : Evolves s₀ (later t).2 :=
      ev_prod_ite (ev_mk (ev_onDir _ _ ht)) fun _ => ev_dropHeld ht
    clear_value later
    split
    · exact hlater h₀
    · grind [ev_drainWhere, ev_hostErr, ev_forward]
    · grind [ev_drainOlder, ev_noteHeld, ev_placeWrite, ev_takeId]

theorem ev_hostDenied {cause} (h₀ : Evolves s₀ s) : Evolves s₀ (hostDenied cause s) := by grind [hostDenied, ev_denied, ev_trap]

theorem ev_issueReads {h rq tag first n} (h₀ : Evolves s₀ s) : Evolves s₀ (issueReads h rq tag first n s).2 := by
  induction n generalizing s with
  | nil => exact h₀
  | cons p rest ih =>
    unfold issueReads
    refine ev_prod_ite (ih ?_) fun _ => h₀
    split
    · exact ev_order (ev_takeId h₀)
    · exact ev_forward (ev_takeId h₀)
    · exact h₀

theorem ev_admitHost {h} (h₀ : Evolves s₀ s) : Evolves s₀ (admitHost h s).2 := by
  rw [show admitHost = _ by delta admitHost; rfl]
  extract_lets +onlyGivenNames rq
  have hrefused {t k c b a tag cpl} : Evolves s₀ (emit (.cpl tag cpl false []) (hostErr k c a b (hostDenied t (dropHeld h.id s)))) :=
    ev_emit _ _ (ev_hostErr (ev_hostDenied (ev_dropHeld h₀)))
  split
  · extract_lets +onlyGivenNames begun
    split
    · exact hrefused
    · extract_lets +onlyGivenNames s₁
      have h₁ : Evolves s₀ s₁ := ev_drainWhere h₀
      clear_value s₁
      refine ev_prod_ite (ev_prod_ite ?_ fun _ => h₁) fun _ => h₁
      extract_lets +onlyGivenNames s₂ first
      have h₂ : Evolves s₀ s₂ := ev_ite (ev_onDir _ _ h₁) fun _ => h₁
      clear_value first s₂
      split
      · exact ev_mk (ev_hostReadDone (ev_dropHeld (ev_pair ‹_› (ev_issueReads h₂))))
      · exact ev_mk (ev_onDir _ _ (ev_pair ‹_› (ev_issueReads h₂)))
  · extract_lets +onlyGivenNames n
    split
    · exact hrefused
    · extract_lets +onlyGivenNames s₁ g off data
      have h₁ : Evolves s₀ s₁ := ev_drainWhere h₀
      clear_value s₁
      split
      · exact ev_prod_ite (ev_prod_ite (ev_mk (ev_order (ev_dropHeld h₁))) fun _ => ev_noteHeld h₁) fun _ => h₁
      · exact ev_prod_ite (ev_mk (ev_forward (ev_dropHeld h₁))) fun _ => h₁
      · exact ev_dropHeld h₁
  · split
    · exact ev_admitHostWrite h₀
    · split
      · exact ev_mk (ev_hostErr (ev_hostDenied (ev_dropHeld h₀)))
      · exact ev_admitHostWrite (ev_onDir _ _ (ev_ite h₀ fun h => ev_hostErr h))
  · exact h₀

theorem ev_admitOne {h} (h₀ : Evolves s₀ s) : Evolves s₀ (admitOne h s) := by
  grind [admitOne, ev_holdStep, ev_admitHost, ev_dropHeld, ev_admitBarrier, ev_admitGranule]

theorem ev_admitStep (h₀ : Evolves s₀ s) : Evolves s₀ (admitStep s) := by grind [admitStep, ev_each, ev_admitOne]

theorem ev_homeStep (h₀ : Evolves s₀ s) : Evolves s₀ (homeStep s) := by
  grind [homeStep, ev_admitStep, ev_each, ev_mergeEntry, ev_txnStep, ev_barrierStep]

theorem ev_writeAway {w} (h₀ : Evolves s₀ s) : Evolves s₀ (writeAway w s) := by grind [writeAway, ev_free, ev_onOrd]

theorem ev_awayStep (h₀ : Evolves s₀ s) : Evolves s₀ (awayStep s) := by grind [awayStep, ev_each, ev_writeAway, ev_onOrd]

theorem ev_fwdAnswer {f st htid grant d} (h₀ : Evolves s₀ s) : Evolves s₀ (fwdAnswer f st htid grant d s) := by
  unfold fwdAnswer
  extract_lets +onlyGivenNames s₁ s₂ flags s₃
  have h₁ : Evolves s₀ s₁ := ev_onDir _ _ h₀
  clear_value s₁
  have h₂ : Evolves s₀ s₂ := by grind [ev_writeAway]
  have h₃ : Evolves s₀ s₃ := ev_endSample h₂
  clear_value s₃
  split
  · grind [ev_emit]
  · grind [ev_emit]
  · grind [ev_emit, ev_hostErr, ev_hostGot, ev_hostBad]
  · grind [ev_copyGot, ev_onRun, ev_copyRefused]
  · grind [ev_combDone, ev_egressGot]
  · exact ev_importGot h₃
  · grind [ev_emit]

end Sys2Proof.Machine
end

section
/-!
SUPPORT. The operations evolve, continued (O3, O5). Stream ports and the combiner.
-/

namespace Sys2Proof.Machine
open Sys2Proof

variable {s₀ s : State}

theorem ev_updStop {p} (h₀ : Evolves s₀ s) : Evolves s₀ (updStop p s) := by grind [updStop, ev_onPort]

theorem ev_dropRecord {p cause r} (h₀ : Evolves s₀ s) : Evolves s₀ (dropRecord p cause r s) := by
  grind [dropRecord, ev_count, ev_streamError, ev_onPort]

theorem ev_applyEntry {i} (h₀ : Evolves s₀ s) : Evolves s₀ (applyEntry i s) := ev_onStm _ _ h₀ fun h => h

theorem ev_beginEntry {i} (h₀ : Evolves s₀ s) : Evolves s₀ (beginEntry i s) := by grind [beginEntry, ev_onStm, ev_arrive]

theorem ev_combineOne {p} (h₀ : Evolves s₀ s) : Evolves s₀ (combineOne p s) := by
  grind [combineOne, ev_onPort, ev_dropRecord, ev_denied, ev_applyEntry, ev_count, ev_onStm, ev_takeId]

theorem ev_applyStep (h₀ : Evolves s₀ s) : Evolves s₀ (applyStep s) := by grind [applyStep, ev_each, ev_applyEntry, ev_beginEntry]

theorem ev_scheduleComb (h₀ : Evolves s₀ s) : Evolves s₀ (scheduleComb s) := by grind [scheduleComb, ev_each, ev_applyEntry]

theorem ev_commitPort {p} (h₀ : Evolves s₀ s) : Evolves s₀ (commitPort p s) := by grind [commitPort, ev_onPort]

theorem ev_prefetchLine {p standby} (h₀ : Evolves s₀ s) : Evolves s₀ (prefetchLine p standby s) := by
  grind [prefetchLine, ev_onPort, ev_each, ev_internalRead]

theorem ev_updStandby {p} (h₀ : Evolves s₀ s) : Evolves s₀ (updStandby p s) := by grind [updStandby, ev_onPort]

theorem ev_prefetchLoop {p standby n} (h₀ : Evolves s₀ s) : Evolves s₀ (prefetchLoop p standby n s) := by
  induction n generalizing s with
  | zero => exact h₀
  | succ n ih => exact ev_ite (ih (ev_prefetchLine h₀)) fun _ => ev_prefetchLine h₀

theorem ev_prefetchPort {p} (h₀ : Evolves s₀ s) : Evolves s₀ (prefetchPort p s) := by grind [prefetchPort, ev_updStandby, ev_prefetchLoop]

theorem ev_placeRead {p i} (h₀ : Evolves s₀ s) : Evolves s₀ (placeRead p i s) := by grind [placeRead, ev_onPort]

theorem ev_sendPair {p kind w} (h₀ : Evolves s₀ s) : Evolves s₀ (sendPair p kind w s) := by grind [sendPair, ev_emit, ev_onPort]

theorem ev_receivePair {p h0 h1 wire} (h₀ : Evolves s₀ s) : Evolves s₀ (receivePair p h0 h1 wire s).2 := by grind [receivePair, ev_onPort]

theorem ev_lanesDown {p st} (h₀ : Evolves s₀ s) : Evolves s₀ (lanesDown p st s) := ev_onPort _ _ _ h₀

theorem ev_loseLanes {p} (h₀ : Evolves s₀ s) : Evolves s₀ (loseLanes p s) := by grind [loseLanes, ev_onPort, ev_lanesDown]

theorem ev_lanesUp {p} (h₀ : Evolves s₀ s) : Evolves s₀ (lanesUp p s) := ev_onPort _ _ _ h₀

theorem ev_judgeLanes {p} (h₀ : Evolves s₀ s) : Evolves s₀ (judgeLanes p s) := by grind [judgeLanes, ev_loseLanes, ev_lanesUp]

theorem ev_wordPosition {p} (h₀ : Evolves s₀ s) : Evolves s₀ (wordPosition p s) := by grind [wordPosition, ev_count, ev_sendPair, ev_onPort]

theorem ev_sendCourse {p} (h₀ : Evolves s₀ s) : Evolves s₀ (sendCourse p s) := by
  grind [sendCourse, ev_each, ev_wordPosition, ev_onPort, ev_sendPair]

theorem ev_setWpt {p v} (h₀ : Evolves s₀ s) : Evolves s₀ (setWpt p v s) := by grind [setWpt, ev_onPort, ev_event]

theorem ev_armPort {p} (h₀ : Evolves s₀ s) : Evolves s₀ (armPort p s) := by grind [armPort, ev_prefetchPort, ev_onPort]

theorem ev_stopIn {p} (h₀ : Evolves s₀ s) : Evolves s₀ (stopIn p s) := by grind [stopIn, ev_applyStep, ev_updStop, ev_onPort]

theorem ev_stopEg {p} (h₀ : Evolves s₀ s) : Evolves s₀ (stopEg p s) := by grind [stopEg, ev_onPort]

theorem ev_startIn {p} (h₀ : Evolves s₀ s) : Evolves s₀ (startIn p s) := by grind [startIn, ev_updStop, ev_onPort]

theorem ev_startEg {p} (h₀ : Evolves s₀ s) : Evolves s₀ (startEg p s) := by grind [startEg, ev_armPort, ev_onPort]

theorem ev_switchList {p l} (h₀ : Evolves s₀ s) : Evolves s₀ (switchList p l s) := by grind [switchList, ev_prefetchPort, ev_onPort]

theorem ev_emptyFifos (h₀ : Evolves s₀ s) : Evolves s₀ (emptyFifos s) := by grind [emptyFifos, ev_each, ev_combineOne]

theorem ev_warnStreams (h₀ : Evolves s₀ s) : Evolves s₀ (warnStreams s) := by
  grind [warnStreams, ev_each, ev_updStop, ev_onPort, ev_applyStep, ev_emptyFifos]

theorem ev_unwarnStreams (h₀ : Evolves s₀ s) : Evolves s₀ (unwarnStreams s) := by grind [unwarnStreams, ev_each, ev_updStop, ev_onPort]

theorem ev_updPorts (h₀ : Evolves s₀ s) : Evolves s₀ (updPorts s) := by grind [updPorts, ev_each, ev_commitPort, ev_updStop]

end Sys2Proof.Machine
end

section
/-!
SUPPORT. The operations evolve, continued (O3, O5). Command queues and copy channels.
-/

namespace Sys2Proof.Machine
open Sys2Proof

variable {s₀ s : State}

theorem ev_writeCqe {q d} (h₀ : Evolves s₀ s) : Evolves s₀ (writeCqe q d s) := by
  grind [writeCqe, ev_count, ev_emit, ev_onQueue, ev_queueInt]

theorem ev_writeCqes {q} (h₀ : Evolves s₀ s) : Evolves s₀ (writeCqes q s) := by grind [writeCqes, ev_each, ev_writeCqe, ev_onQueue]

theorem ev_postDone {q d} (h₀ : Evolves s₀ s) : Evolves s₀ (postDone q d s) := by grind [postDone, ev_writeCqes, ev_onQueue]

theorem ev_cmdDenied {status} (h₀ : Evolves s₀ s) : Evolves s₀ (cmdDenied status s) := by grind [cmdDenied, ev_denied]

theorem ev_checkFenced {q} (h₀ : Evolves s₀ s) : Evolves s₀ (checkFenced q s) := by
  grind [checkFenced, ev_onQueue, ev_postDone, ev_cmdDenied]

theorem ev_finish {c status result} (h₀ : Evolves s₀ s) : Evolves s₀ (finish c status result s) := by
  grind [finish, ev_onQueue, ev_checkFenced, ev_postDone]

theorem ev_openWindow {c} (h₀ : Evolves s₀ s) : Evolves s₀ (openWindow c s) := ev_onQueue _ _ _ h₀

theorem ev_fillWindow {c d} (h₀ : Evolves s₀ s) : Evolves s₀ (fillWindow c d s) := ev_onQueue _ _ _ h₀

theorem ev_muteQueue {q} (h₀ : Evolves s₀ s) : Evolves s₀ (muteQueue q s) := by
  unfold muteQueue
  extract_lets +onlyGivenNames f s₁ s₂ s₃ s₄ s₅
  have h₂ : Evolves s₀ s₂ := ev_onCph _ _ (ev_onCch _ _ h₀) fun h => h
  have h₄ : Evolves s₀ s₄ := ev_onErr _ _ (ev_onTck _ _ h₂)
  have h₅ : Evolves s₀ s₅ := ev_onHst _ _ h₄ fun ⟨scratch, queues, copies⟩ => ⟨scratch, queues, by dsimp only; exact wf_tall _ copies⟩
  exact ev_onQueue _ _ _ h₅

theorem ev_takeCmd {c i} (h₀ : Evolves s₀ s) : Evolves s₀ (takeCmd c i s) := by
  grind [takeCmd, ev_count, ev_postDone, ev_cmdDenied, ev_onQueue]

theorem ev_startCmd {c i} {f : State → State} (h₀ : Evolves s₀ s) (hf : ∀ s, Evolves s₀ s → Evolves s₀ (f s)) :
    Evolves s₀ (startCmd c i f s) := by
  unfold startCmd
  extract_lets +onlyGivenNames s₁
  have h₁ : Evolves s₀ s₁ := ev_takeCmd h₀
  clear_value s₁
  exact ev_ite (ev_ite (hf _ (ev_onQueue _ _ _ h₁)) fun _ => ev_finish (ev_onQueue _ _ _ h₁)) fun _ => h₁

theorem ev_startCopy {c j i} (h₀ : Evolves s₀ s) : Evolves s₀ (startCopy c j i s) := by
  grind [startCopy, ev_takeCmd, ev_onQueue, ev_finish, ev_onCopy]

theorem ev_copyReads {j n} (h₀ : Evolves s₀ s) : Evolves s₀ (copyReads j n s) := by
  induction n generalizing s with
  | zero => exact h₀
  | succ n ih =>
    unfold copyReads
    split
    · exact h₀
    · exact ev_ite h₀ fun _ => ih (ev_internalRead (ev_onRun h₀))

theorem ev_copyStep {j} (h₀ : Evolves s₀ s) : Evolves s₀ (copyStep j s) := by
  grind [copyStep, ev_onCopy, ev_finish, ev_count, ev_copyReads, ev_onQueue]

theorem ev_onJob {id f} (h₀ : Evolves s₀ s) : Evolves s₀ (onJob id f s) := ev_onCch _ _ h₀

theorem ev_endJob {j status result} (h₀ : Evolves s₀ s) : Evolves s₀ (endJob j status result s) := by grind [endJob, ev_finish, ev_onCch]

theorem ev_snoopLine {u op} (h₀ : Evolves s₀ s) : Evolves s₀ (snoopLine u op s) := by grind [snoopLine, ev_each, ev_order, ev_takeId]

theorem ev_maintLine {j u} (h₀ : Evolves s₀ s) : Evolves s₀ (maintLine j u s) := by grind [maintLine, ev_onLine, ev_cleanLine, ev_onJob]

theorem ev_nextLine {j n} (h₀ : Evolves s₀ s) : Evolves s₀ (nextLine j n s) := ev_onJob h₀

theorem ev_maintOne {j u} (h₀ : Evolves s₀ s) : Evolves s₀ (maintOne j u s) := by
  grind [maintOne, ev_snoopLine, ev_onJob, ev_nextLine, ev_maintLine, ev_finishEvict]

theorem ev_preloadLines {j k u n} (h₀ : Evolves s₀ s) : Evolves s₀ (preloadLines j k u n s) := by
  grind [preloadLines, ev_each, ev_onJob, ev_startFill]

theorem ev_preloadOne {j g u} (h₀ : Evolves s₀ s) : Evolves s₀ (preloadOne j g u s) := by
  grind [preloadOne, ev_endJob, ev_each, ev_cleanLine, ev_onWay, ev_preloadLines, ev_nextLine, ev_takeId, ev_onJob, ev_allocate]

theorem ev_jobStep {j} (h₀ : Evolves s₀ s) : Evolves s₀ (jobStep j s) := by
  grind [jobStep, ev_maintOne, ev_nextLine, ev_onJob, ev_preloadOne, ev_endJob]

theorem ev_startJob {j} (h₀ : Evolves s₀ s) : Evolves s₀ (startJob j s) := by grind [startJob, ev_takeId, ev_onCch]

theorem ev_unlockRange {a len} (h₀ : Evolves s₀ s) : Evolves s₀ (unlockRange a len s) := by grind [unlockRange, ev_onCch]

theorem ev_fenceStep (h₀ : Evolves s₀ s) : Evolves s₀ (fenceStep s) := by grind [fenceStep, ev_each, ev_emit, ev_onOrd]

end Sys2Proof.Machine
end

section
/-!
SUPPORT. The operations evolve, continued (O3, O5). The plan of a course.
-/

namespace Sys2Proof.Machine
open Sys2Proof

variable {s₀ s : State}

theorem ev_timePasses {ps} (h₀ : Evolves s₀ s) : Evolves s₀ (timePasses ps s) := by
  unfold timePasses
  extract_lets +onlyGivenNames cyc s₁
  have h₁ : Evolves s₀ s₁ :=
    h₀.trans' ⟨id, rfl, rfl, Nat.le_refl _, Nat.le_add_right _ _, Nat.le_refl _, rfl, List.suffix_rfl⟩
  clear_value s₁
  refine ev_ite (ev_each _ _ h₁ fun u s h => ev_ite ?_ fun _ => h) fun _ => h₁
  have hcounted {f} : Evolves s₀ (count u 0x01 cyc (onUnit u f s)) := ev_count _ _ _ _ (ev_onUnit _ _ _ h)
  refine ev_ite (ev_each _ _ hcounted fun c s h => ?_) fun _ => hcounted
  exact ev_ite h fun _ => ev_count _ _ _ _ (ev_free s h)

theorem ev_takeSnapshot {src} (h₀ : Evolves s₀ s) : Evolves s₀ (takeSnapshot src s) := by grind [takeSnapshot, ev_onPmc]

/-- The state is the last part of a triple. -/
theorem ev_triple {α β : Type} {p : α × β × State} {v : α} {q : β × State} (h : p = (v, q)) (k : Evolves s₀ p.2.2) :
    Evolves s₀ q.2 := by
  subst h
  exact k

theorem ev_assignRead {r} {ps : Plan × State} (h₀ : Evolves s₀ ps.2) : Evolves s₀ (assignRead r ps).2 := by
  unfold assignRead
  exact ev_prod_ite (ev_prod_ite h₀ fun _ => ev_mk (ev_putRead h₀)) fun _ => ev_mk (ev_putRead h₀)

theorem ev_relevelReads (h₀ : Evolves s₀ s) : Evolves s₀ (relevelReads s) := by grind [relevelReads, ev_onMed]

theorem ev_givePage {p} (h₀ : Evolves s₀ s) : Evolves s₀ (givePage p s).2 := by grind [givePage, ev_takePage]

theorem ev_firstPiece {p} (h₀ : Evolves s₀ s) : Evolves s₀ (firstPiece p s).2 := by
  unfold firstPiece
  split
  · exact ev_pair ‹_› (ev_givePage h₀)
  · have h₁ := ev_pair ‹_› (ev_givePage h₀)
    extract_lets +onlyGivenNames wave s₂ s₃
    have h₂ : Evolves s₀ s₂ := ev_onProg h₁
    clear_value s₂
    have h₃ : Evolves s₀ s₃ := ev_ite h₂ fun h => ev_takeCohort (ev_leaveCohort h)
    clear_value s₃
    split
    · exact ev_mk (ev_onProg h₃)
    · exact ev_mk (ev_onMed _ _ (ev_ite (ev_enter h₃) fun _ => h₃))
    · exact h₃

theorem ev_beginFirst {n} (h₀ : Evolves s₀ s) : Evolves s₀ (beginFirst n s).2 := by
  induction n generalizing s with
  | nil => exact h₀
  | cons p l ih =>
    unfold beginFirst
    split
    · exact ev_pair ‹_› (ev_firstPiece h₀)
    · exact ih (ev_pair ‹_› (ev_firstPiece h₀))

theorem ev_giveSlot {b owner} (h₀ : Evolves s₀ s) : Evolves s₀ (giveSlot b owner s).2 := by grind [giveSlot, ev_beginFirst, ev_onRst]

theorem ev_patrolSlot {b} {ps : Plan × State} (h₀ : Evolves s₀ ps.2) : Evolves s₀ (patrolSlot b ps).2.2 := by
  have hslot {c : Prop} [Decidable c] {p q : Plan} {l : List MRead} {t : State} (h : Evolves s₀ t) :
      Evolves s₀ (if c then (false, p, t) else (true, q, each l (fun r s => putRead r.id false s) t)).2.2 := by
    split
    · exact h
    · exact ev_each _ _ h fun _ _ => ev_putRead
  unfold patrolSlot
  split
  extract_lets +onlyGivenNames all isPatrol
  clear_value all
  cases all with
  | nil => exact hslot h₀
  | cons r l =>
    dsimp only
    split
    · split
      · exact hslot h₀
      · exact hslot (ev_assignRead h₀)
    · exact hslot h₀

theorem ev_takeSlot {b owner} {ps : Plan × State} (h₀ : Evolves s₀ ps.2) : Evolves s₀ (takeSlot b owner ps).2.2 := by
  unfold takeSlot
  split
  split
  · exact h₀
  · split
    · exact ev_patrolSlot h₀
    · split
      · exact h₀
      · split
        · exact ev_pair ‹_› (ev_giveSlot h₀)
        · exact ev_pair ‹_› (ev_giveSlot h₀)

theorem ev_tryOwners {b l} {ps : Plan × State} (h₀ : Evolves s₀ ps.2) : Evolves s₀ (tryOwners b l ps).2.2 := by
  induction l generalizing ps with
  | nil => exact h₀
  | cons o os ih =>
    unfold tryOwners
    split
    · exact ev_triple ‹_› (ev_takeSlot h₀)
    · exact ih (ev_triple ‹_› (ev_takeSlot h₀))

theorem ev_placeContinuing {l} {ps : Plan × State} (h₀ : Evolves s₀ ps.2) : Evolves s₀ (placeContinuing l ps).2 := by
  unfold placeContinuing
  refine ev_foldl _ _ h₀ fun ps x h => ?_
  obtain ⟨b, o, w⟩ := x
  refine ev_prod_ite (ev_prod_ite ?_ fun _ => ev_mk (ev_count _ _ _ _ h)) fun _ => ev_mk (ev_count _ _ _ _ h)
  cases w with
  | inl i => exact ev_onProg h
  | inr k => exact ev_onRst h

theorem ev_placeUrgent {cap ch} {ps : Plan × State} (h₀ : Evolves s₀ ps.2) : Evolves s₀ (placeUrgent cap ch ps).2 := by
  refine ev_foldl _ _ h₀ fun ps o h => ev_foldl _ _ h fun ps b h => ?_
  split
  · split
    · exact ev_mk (ev_count _ _ _ _ (ev_triple ‹_› (ev_takeSlot h)))
    · exact ev_triple ‹_› (ev_takeSlot h)
  · exact h

theorem ev_placeShared {ch} {ps : Plan × State} (h₀ : Evolves s₀ ps.2) : Evolves s₀ (placeShared ch ps).2 := by
  refine ev_foldl _ _ h₀ fun ps b h => ?_
  dsimp only
  split
  · have h₁ := ev_triple ‹_› (ev_tryOwners h)
    exact ev_mk (ev_ite (ev_onTck _ _ h₁) fun _ => h₁)
  · exact ev_triple ‹_› (ev_tryOwners h)

theorem ev_placeBackground {ch} {ps : Plan × State} (h₀ : Evolves s₀ ps.2) : Evolves s₀ (placeBackground ch ps).2 :=
  ev_foldl _ _ h₀ fun _ _ => ev_tryOwners

theorem ev_placeRetries {q l} {ps : Plan × State} (h₀ : Evolves s₀ ps.2) : Evolves s₀ (placeRetries q l ps).2.2 := by
  unfold placeRetries
  induction l using List.reverseRecOn with
  | nil => exact h₀
  | append_singleton l r ih =>
    rw [List.foldl_append]
    generalize List.foldl _ (0, ps) l = x at ih ⊢
    obtain ⟨n, p, s⟩ := x
    simp only [List.foldl_cons, List.foldl_nil]
    split
    · exact ih
    · exact ev_assignRead (ps := (p, s)) ih

theorem ev_planChannel {ch} (h₀ : Evolves s₀ s) : Evolves s₀ (planChannel ch s) := by
  have hreads {l : List MRead} {ps : Plan × State} (h : Evolves s₀ ps.2) :
      Evolves s₀ (l.foldl (fun ps r => assignRead r ps) ps).2 := ev_foldl _ _ h fun _ _ => ev_assignRead
  unfold planChannel
  extract_lets +onlyGivenNames q retries s₁
  have h₁ : Evolves s₀ s₁ := ev_ite h₀ fun h => ev_onMed _ _ h
  clear_value s₁
  split
  have h₂ := ev_triple ‹_› (ev_placeRetries h₁)
  extract_lets +onlyGivenNames ps₁ ps₂ slots cap ps₃ ps₄
  have hps₁ : Evolves s₀ ps₁.2 := ev_count _ _ _ _ (ev_ite (ev_onMed _ _ h₂) fun _ => h₂)
  have hps₂ : Evolves s₀ ps₂.2 := hreads hps₁
  have hps₃ : Evolves s₀ ps₃.2 := ev_placeContinuing hps₂
  have hps₄ : Evolves s₀ ps₄.2 := ev_foldl _ _ hps₃ fun _ _ => ev_tryOwners
  exact hreads (ev_placeBackground (ev_placeShared (ev_placeUrgent hps₄)))

theorem ev_segmentPages (h₀ : Evolves s₀ s) : Evolves s₀ (segmentPages s) := by grind [segmentPages, ev_each, ev_takePage, ev_onProg]

theorem ev_clearRunning (h₀ : Evolves s₀ s) : Evolves s₀ (clearRunning s) := ev_onMed _ _ h₀

theorem ev_stepLevel {key m} (h₀ : Evolves s₀ s) : Evolves s₀ (stepLevel key m s) := ev_onTck _ _ h₀

theorem ev_stepLevels (h₀ : Evolves s₀ s) : Evolves s₀ (stepLevels s) := by
  unfold stepLevels
  extract_lets +onlyGivenNames banks s₁ sp s₂ s₃
  have h₁ : Evolves s₀ s₁ := ev_each _ _ h₀ fun _ _ h => ev_stepLevel (ev_stepLevel h)
  have h₃ : Evolves s₀ s₃ := ev_stepLevel (ev_onMed _ _ h₁)
  clear_value s₃
  refine ev_ite (ev_each _ _ (ev_each _ _ h₃ fun _ _ => ?_) fun _ _ => ?_) fun _ => h₃
  · exact ev_stepLevel
  · exact ev_stepLevel

theorem ev_chooseSources (h₀ : Evolves s₀ s) : Evolves s₀ (chooseSources s) := by grind [chooseSources, ev_each, ev_startReloc]

theorem ev_patrolChannel {ch} (h₀ : Evolves s₀ s) : Evolves s₀ (patrolChannel ch s) := by
  grind [patrolChannel, ev_onMed, ev_each, ev_queueRead]

theorem ev_patrolStep (h₀ : Evolves s₀ s) : Evolves s₀ (patrolStep s) := by grind [patrolStep, ev_each, ev_patrolChannel]

theorem ev_countConditions (h₀ : Evolves s₀ s) : Evolves s₀ (countConditions s) := by
  grind [countConditions, ev_each, ev_event, ev_onTck, ev_onMed]

theorem ev_fixWindows (h₀ : Evolves s₀ s) : Evolves s₀ (fixWindows s) := by grind [fixWindows, ev_countConditions, ev_onTck]

theorem ev_shiftCounts (h₀ : Evolves s₀ s) : Evolves s₀ (shiftCounts s) := ev_onMed _ _ h₀

theorem ev_setHoist {i h} (h₀ : Evolves s₀ s) : Evolves s₀ (setHoist i h s) := ev_onTck _ _ h₀

theorem ev_armHoist {h} (h₀ : Evolves s₀ s) : Evolves s₀ (armHoist h s) := by grind [armHoist, ev_onTck, ev_setHoist]

theorem ev_takeHoistCancel {id} (h₀ : Evolves s₀ s) : Evolves s₀ (takeHoistCancel id s) := by
  grind [takeHoistCancel, ev_onTck, ev_event, ev_setHoist]

theorem ev_newPeriod {code} (h₀ : Evolves s₀ s) : Evolves s₀ (newPeriod code s) := by
  grind [newPeriod, ev_onTck, ev_onMed, ev_each, ev_setWpt]

theorem ev_hoistEffect {h} (h₀ : Evolves s₀ s) : Evolves s₀ (hoistEffect h s) := by
  grind [hoistEffect, ev_takeSnapshot, ev_each, ev_stopEg, ev_stopIn, ev_switchList, ev_startEg, ev_startIn, ev_onMed, ev_event, ev_msix,
    ev_emit, ev_newPeriod]

theorem ev_launchHoist {i h} (h₀ : Evolves s₀ s) : Evolves s₀ (launchHoist i h s) := by
  grind [launchHoist, ev_setHoist, ev_onTck, ev_count, ev_hoistEffect, ev_postDone]

theorem ev_freezeHoists (h₀ : Evolves s₀ s) : Evolves s₀ (freezeHoists s) := by grind [freezeHoists, ev_each, ev_event, ev_onTck]

theorem ev_launchHoists (h₀ : Evolves s₀ s) : Evolves s₀ (launchHoists s) := by
  grind [launchHoists, ev_each, ev_onPwr, ev_setHoist, ev_launchHoist]

theorem ev_ckptStep (h₀ : Evolves s₀ s) : Evolves s₀ (ckptStep s) := by
  unfold ckptStep
  refine ev_onMed _ _ (ev_foldl _ _ h₀ fun a h hs => ?_)
  obtain ⟨out, s⟩ := a
  dsimp only
  split
  · refine ev_prod_ite (ev_prod_ite ?_ fun _ => ev_mk (ev_snoopLine hs)) fun _ => hs
    refine ev_mk ?_
    split
    · exact ev_ite hs fun _ => ev_cleanLine hs
    · exact hs
  · exact ev_prod_ite hs fun _ => ev_mk (ev_event _ _ _ _ hs)

theorem ev_applySettings (h₀ : Evolves s₀ s) : Evolves s₀ (applySettings s) := by
  unfold applySettings
  extract_lets +onlyGivenNames f s₁ s₂ s₃ s₄ s₅ s₆ s₇
  have h₁ : Evolves s₀ s₁ := h₀.trans' ⟨id, rfl, rfl, Nat.le_refl _, Nat.le_refl _, Nat.le_refl _, rfl, List.suffix_rfl⟩
  have h₂ : Evolves s₀ s₂ := ev_ite h₁ fun h => ev_each _ _ h fun _ _ => ev_checkWorn
  have h₅ : Evolves s₀ s₅ := ev_onStm _ _ (ev_onDir _ _ (ev_onMed _ _ h₂)) fun h => by dsimp only; exact wf_tall _ h
  have h₇ : Evolves s₀ s₇ := ev_onPwr _ _ (ev_onErr _ _ h₅)
  exact ev_onThm _ _ h₇ fun h => by dsimp only; exact wf_tall _ h

theorem ev_stepAdmit {m} (h₀ : Evolves s₀ s) : Evolves s₀ (stepAdmit m s) := by grind [stepAdmit, ev_onPlinth, ev_onPwr]

theorem ev_latchPtm {m} (h₀ : Evolves s₀ s) : Evolves s₀ (latchPtm m s) := by grind [latchPtm, ev_onHst]

theorem ev_turnCourse {len} (h₀ : Evolves s₀ s) : Evolves s₀ (turnCourse len s) := by
  grind [turnCourse, ev_countConditions, ev_timePasses, ev_shiftCounts, ev_clearRunning, ev_onTck]

theorem ev_planCourse (h₀ : Evolves s₀ s) : Evolves s₀ (planCourse s) := by
  unfold planCourse
  refine ev_ite ?_ fun _ => h₀
  extract_lets +onlyGivenNames s₁ s₂ s₃
  have h₁ : Evolves s₀ s₁ := ev_stepLevels (ev_queueRepoint h₀)
  have h₂ : Evolves s₀ s₂ := ev_ite h₁ fun h => ev_patrolStep (ev_chooseSources h)
  have h₃ : Evolves s₀ s₃ := ev_relevelReads (ev_segmentPages h₂)
  exact ev_onTck _ _ (ev_each _ _ h₃ fun _ _ => ev_planChannel)

end Sys2Proof.Machine
end

section
/-!
SUPPORT. The operations evolve, continued (O3, O5). The cipher engine, attestation and the life cycle.
-/

namespace Sys2Proof.Machine
open Sys2Proof

variable {s₀ s : State}

theorem ev_freeLock (h₀ : Evolves s₀ s) : Evolves s₀ (freeLock s) := ev_onCph _ _ h₀ fun _ => ⟨rfl, rfl⟩

theorem ev_lockRead {cls} (h₀ : Evolves s₀ s) : Evolves s₀ (lockRead cls s).2 := by grind [lockRead, ev_free, ev_onCph]

theorem ev_releaseLock {ticket} (h₀ : Evolves s₀ s) : Evolves s₀ (releaseLock ticket s) := by grind [releaseLock, ev_freeLock]

theorem ev_cphCommand {cls ticket op key subj} (h₀ : Evolves s₀ s) : Evolves s₀ (cphCommand cls ticket op key subj s) := by
  unfold cphCommand
  refine ev_ite (ev_ite (ev_ite ?_ fun _ => ?_) fun _ => h₀) fun _ => ?_
  · exact ev_onCph _ _ h₀ fun ⟨inp, _⟩ => ⟨inp, rfl⟩
  · exact ev_onCph _ _ h₀ fun h => h
  · exact ev_onCph _ _ h₀ fun h => h

theorem ev_reserveNonces (h₀ : Evolves s₀ s) : Evolves s₀ (reserveNonces s) := by grind [reserveNonces, ev_append, ev_onFlash]

theorem ev_takeNonce (h₀ : Evolves s₀ s) : Evolves s₀ (takeNonce s) := by grind [takeNonce, ev_onCph, ev_reserveNonces]

theorem ev_cipherFault {op} (h₀ : Evolves s₀ s) : Evolves s₀ (cipherFault op s) := by
  unfold cipherFault
  exact ev_event _ _ _ _ (ev_onCph _ _ h₀ fun ⟨inp, _⟩ => ⟨inp, rfl⟩)

theorem ev_cipherRelease {r} (h₀ : Evolves s₀ s) : Evolves s₀ (cipherRelease r s) := by
  unfold cipherRelease
  extract_lets +onlyGivenNames aad text done s₁
  have h₁ : Evolves s₀ s₁ := ev_count _ _ _ _ (ev_count _ _ _ _ h₀)
  have hdone {f : Cph → Cph} (hf : ∀ c, Memory.wf 0 c.inp = true ∧ Memory.wf 0 c.out = true →
      Memory.wf 0 (f c).inp = true ∧ Memory.wf 0 (f c).out = true) : Evolves s₀ (done f s₁) :=
    ev_onCph _ _ h₁ (hf { s₁.cph with st := 2, run := none })
  clear_value done s₁
  have hout {l : List Byte} : Memory.wf 0 (Memory.writeN 0 [] 0 l) = true := wf_writeN 0 l rfl
  refine ev_ite (ev_ite (ev_ite (ev_ite ?_ fun _ => ?_) fun _ => ?_) fun _ => ?_) fun _ => ?_
  · exact hdone fun _ h => h
  · exact hdone fun _ h => ⟨h.1, by dsimp only; exact hout⟩
  · split
    · exact hdone fun _ h => h
    · exact ev_onCph _ _ h₁ fun h => h
  · split
    refine ev_ite (ev_onCph _ _ h₁ fun ⟨inp, _⟩ => ⟨inp, rfl⟩) fun _ => hdone fun _ h => ⟨h.1, by dsimp only; exact hout⟩
  · extract_lets +onlyGivenNames n
    split
    exact ev_takeNonce (hdone fun _ h => ⟨h.1, by dsimp only; exact hout⟩)

theorem ev_onImp {f} (h₀ : Evolves s₀ s) : Evolves s₀ (onImp f s) := ev_onCph _ _ h₀ fun h => h

theorem ev_endImport {m status} (h₀ : Evolves s₀ s) : Evolves s₀ (endImport m status s) := by
  grind [endImport, ev_finish, ev_freeLock, ev_onCph]

theorem ev_impReads {n} (h₀ : Evolves s₀ s) : Evolves s₀ (impReads n s) := by
  induction n generalizing s with
  | zero => exact h₀
  | succ n ih =>
    unfold impReads
    split
    · exact h₀
    · exact ev_ite h₀ fun _ => ih (ev_internalRead (ev_onImp h₀))

theorem ev_impPrograms (h₀ : Evolves s₀ s) : Evolves s₀ (impPrograms s) := by grind [impPrograms, ev_each, ev_onMed, ev_onImp]

theorem ev_impDecrypt {m} (h₀ : Evolves s₀ s) : Evolves s₀ (impDecrypt m s) := by grind [impDecrypt, ev_onImp, ev_count, ev_impPrograms]

theorem ev_impCommit {m} (h₀ : Evolves s₀ s) : Evolves s₀ (impCommit m s) := by
  grind [impCommit, ev_endImport, ev_onImp, ev_snoopLine, ev_finishEvict, ev_onLine, ev_setMap, ev_enter]

theorem ev_importStep (h₀ : Evolves s₀ s) : Evolves s₀ (importStep s) := by
  grind [importStep, ev_onImp, ev_impReads, ev_endImport, ev_impPrograms, ev_impCommit]

theorem ev_startImport {c src dst len iv slot} (h₀ : Evolves s₀ s) : Evolves s₀ (startImport c src dst len iv slot s) := by
  grind [startImport, ev_finish, ev_lockRead, ev_onCph, ev_startJob]

theorem ev_startAttest {c kind nonce} (h₀ : Evolves s₀ s) : Evolves s₀ (startAttest c kind nonce s) := by
  grind [startAttest, ev_onHst, ev_openWindow]

theorem ev_attestReady (h₀ : Evolves s₀ s) : Evolves s₀ (attestReady s) := by grind [attestReady, ev_finish, ev_fillWindow, ev_onHst]

end Sys2Proof.Machine
end

section
/-!
SUPPORT. The operations evolve, continued (O3, O5). Links and the group.
-/

namespace Sys2Proof.Machine
open Sys2Proof

variable {s₀ s : State}

theorem ev_recomputeRoutes (h₀ : Evolves s₀ s) : Evolves s₀ (recomputeRoutes s) := by grind [recomputeRoutes, ev_each, ev_onGrp]

theorem ev_sendGroup {lt d fields} (h₀ : Evolves s₀ s) : Evolves s₀ (sendGroup lt d fields s) := by grind [sendGroup, ev_emit]

theorem ev_electLeader (h₀ : Evolves s₀ s) : Evolves s₀ (electLeader s) := ev_onGrp _ _ h₀ rfl

theorem ev_sendAlign {except src t} (h₀ : Evolves s₀ s) : Evolves s₀ (sendAlign except src t s) := by grind [sendAlign, ev_each, ev_emit]

theorem ev_leaderAlign (h₀ : Evolves s₀ s) : Evolves s₀ (leaderAlign s) := by grind [leaderAlign, ev_sendAlign]

theorem ev_sendHello {d} (h₀ : Evolves s₀ s) : Evolves s₀ (sendHello d s) := by grind [sendHello, ev_sendGroup]

theorem ev_endGroupHoist {g status} (h₀ : Evolves s₀ s) : Evolves s₀ (endGroupHoist g status s) := by
  grind [endGroupHoist, ev_onTck, ev_takeHoistCancel, ev_each, ev_sendGroup, ev_finish]

theorem ev_checkGroupHoists (h₀ : Evolves s₀ s) : Evolves s₀ (checkGroupHoists s) := by grind [checkGroupHoists, ev_each, ev_endGroupHoist]

theorem ev_resendOn {o} (h₀ : Evolves s₀ s) : Evolves s₀ (resendOn o s) := by
  unfold resendOn
  split
  · split
    · exact ev_emit _ _ h₀
    · exact h₀
  · split
    · split
      · exact ev_emit _ _ h₀
      · exact h₀
    · exact h₀
  · split
    · split
      · exact ev_emit _ _ h₀
      · exact h₀
    · exact h₀
  · exact ev_emit _ _ h₀

theorem ev_endHold {i again} (h₀ : Evolves s₀ s) : Evolves s₀ (endHold i again s) := by grind [endHold, ev_each, ev_resendOn, ev_onLink]

theorem ev_linkResumed {i fseq} (h₀ : Evolves s₀ s) : Evolves s₀ (linkResumed i fseq s) := by grind [linkResumed, ev_onLink, ev_endHold]

theorem ev_loseOne {m} (h₀ : Evolves s₀ s) : Evolves s₀ (loseOne m s) := by
  unfold loseOne
  refine ev_ite ?_ fun _ => h₀
  extract_lets +onlyGivenNames s₁ s₂ s₃ s₄ s₅ s₆ s₇
  have h₂ : Evolves s₀ s₂ := ev_recomputeRoutes (ev_electLeader (ev_event _ _ _ _ (ev_onGrp _ _ h₀ rfl)))
  have h₃ : Evolves s₀ s₃ := ev_each _ _ h₂ fun _ _ => ev_endHold
  have h₄ : Evolves s₀ s₄ := ev_onOrd _ _ h₃
  have h₅ : Evolves s₀ s₅ := ev_each _ _ h₄ fun _ _ => ev_fwdAnswer
  have h₆ : Evolves s₀ s₆ := ev_each _ _ h₅ fun _ _ => ev_loseAgent
  have h₇ : Evolves s₀ s₇ := ev_each _ _ h₆ fun _ _ => ev_sendGroup
  exact ev_checkGroupHoists h₇

theorem ev_loseUnreachable (h₀ : Evolves s₀ s) : Evolves s₀ (loseUnreachable s) := by grind [loseUnreachable, ev_each, ev_loseOne]

theorem ev_loseMember {m} (h₀ : Evolves s₀ s) : Evolves s₀ (loseMember m s) := by grind [loseMember, ev_loseUnreachable, ev_loseOne]

theorem ev_dropPort {src} (h₀ : Evolves s₀ s) : Evolves s₀ (dropPort src s) := by grind [dropPort, ev_each, ev_endSample, ev_onDir]

theorem ev_answerSnoops {i l} (h₀ : Evolves s₀ s) : Evolves s₀ (answerSnoops i l s) := by grind [answerSnoops, ev_each, ev_emit]

theorem ev_reroute {i st l p k} (h₀ : Evolves s₀ s) : Evolves s₀ (reroute i st l p k s) := by
  unfold reroute
  extract_lets +onlyGivenNames used msgs s₁ s₂ s₃
  have h₂ : Evolves s₀ s₂ := ev_recomputeRoutes (ev_onGrp _ _ (ev_onLink _ _ _ h₀) rfl)
  have h₃ : Evolves s₀ s₃ := ev_loseUnreachable (ev_emit _ _ h₂)
  clear_value s₃
  split
  · exact ev_linkResumed h₃
  · exact h₃

theorem ev_leaveLink {i cause reason st} (h₀ : Evolves s₀ s) : Evolves s₀ (leaveLink i cause reason st s) := by
  unfold leaveLink
  extract_lets +onlyGivenNames k
  refine ev_ite ?_ fun _ => ev_onLink _ _ _ h₀
  extract_lets +onlyGivenNames s₁
  have h₁ : Evolves s₀ s₁ := ev_event _ _ _ _ h₀
  clear_value s₁
  refine ev_ite ?_ fun _ => ev_loseAgent (ev_answerSnoops (ev_drainWhere (ev_dropPort (ev_onLink _ _ _ h₁))))
  extract_lets +onlyGivenNames s₂
  have h₂ : Evolves s₀ s₂ := ev_drainWhere (ev_onLink _ _ _ h₁)
  clear_value s₂
  split
  · exact ev_onLink _ _ _ (ev_dropPort h₂)
  · refine ev_ite ?_ fun h => ev_loseMember h
    split
    · exact ev_reroute h₂
    · exact ev_loseUnreachable (ev_recomputeRoutes (ev_onLink _ _ _ (ev_dropPort h₂)))

theorem ev_sendDown {i cause reason} (h₀ : Evolves s₀ s) : Evolves s₀ (sendDown i cause reason s) := by
  grind [sendDown, ev_sendFlit, ev_leaveLink, ev_onLink]

theorem ev_closeLink {i} (h₀ : Evolves s₀ s) : Evolves s₀ (closeLink i s) := by grind [closeLink, ev_sendDown]

theorem ev_startDetect {i} (h₀ : Evolves s₀ s) : Evolves s₀ (startDetect i s) := by grind [startDetect, ev_onLink]

theorem ev_sendSets {i} (h₀ : Evolves s₀ s) : Evolves s₀ (sendSets i s) := by grind [sendSets, ev_each, ev_push]

theorem ev_enterRecovery {i} (h₀ : Evolves s₀ s) : Evolves s₀ (enterRecovery i s) := by
  grind [enterRecovery, ev_onLink, ev_leaveLink, ev_sendSets]

theorem ev_replayFlits {i} (h₀ : Evolves s₀ s) : Evolves s₀ (replayFlits i s) := by
  grind [replayFlits, ev_each, ev_push, ev_onLink, ev_sendIdle, ev_count]

theorem ev_activate {i} (h₀ : Evolves s₀ s) : Evolves s₀ (activate i s) := by
  grind [activate, ev_onLink, ev_releaseHeld, ev_recomputeRoutes, ev_each, ev_sendHello]

theorem ev_configFlits {i} (h₀ : Evolves s₀ s) : Evolves s₀ (configFlits i s) := by grind [configFlits, ev_onLink, ev_emit]

theorem ev_startPolling {i} (h₀ : Evolves s₀ s) : Evolves s₀ (startPolling i s) := by grind [startPolling, ev_sendSets, ev_onLink]

theorem ev_startEqualize {i w half} (h₀ : Evolves s₀ s) : Evolves s₀ (startEqualize i w half s) := by
  grind [startEqualize, ev_free, ev_sendSets, ev_onLink]

theorem ev_equalizeFails {i} (h₀ : Evolves s₀ s) : Evolves s₀ (equalizeFails i s) := ev_onLink _ _ _ h₀

theorem ev_equalizeLane {i t low} (h₀ : Evolves s₀ s) : Evolves s₀ (equalizeLane i t low s) := by
  grind [equalizeLane, ev_onLink, ev_push, ev_sendSets, ev_equalizeFails, ev_free]

theorem ev_takeSet {i v low} (h₀ : Evolves s₀ s) : Evolves s₀ (takeSet i v low s) := by
  grind [takeSet, ev_onLink, ev_startEqualize, ev_equalizeLane, ev_configFlits, ev_activate, ev_replayFlits]

theorem ev_authFail {i} (h₀ : Evolves s₀ s) : Evolves s₀ (authFail i s) := by
  unfold authFail
  extract_lets +onlyGivenNames s₁ s₂
  have h₁ : Evolves s₀ s₁ := ev_event _ _ _ _ h₀
  clear_value s₁
  have h₂ : Evolves s₀ s₂ := ev_ite (ev_event _ _ _ _ h₁) fun _ => h₁
  exact ev_leaveLink (ev_onLink _ _ _ h₂)

theorem ev_stateTimeout {i} (h₀ : Evolves s₀ s) : Evolves s₀ (stateTimeout i s) := by
  grind [stateTimeout, ev_onLink, ev_equalizeFails, ev_authFail, ev_leaveLink]

theorem ev_takeCredits {i q sc w p d} (h₀ : Evolves s₀ s) : Evolves s₀ (takeCredits i q sc w p d s) := by
  grind [takeCredits, ev_onLink, ev_activate, ev_free, ev_emit]

theorem ev_takeOffer {l o} (h₀ : Evolves s₀ s) : Evolves s₀ (takeOffer l o s) := by grind [takeOffer, ev_authFail, ev_emit, ev_onLink]

theorem ev_takeWrap {l wrapped sig} (h₀ : Evolves s₀ s) : Evolves s₀ (takeWrap l wrapped sig s) := by
  grind [takeWrap, ev_onGrp, ev_onLink, ev_emit, ev_authFail]

theorem ev_takeDone {l epoch} (h₀ : Evolves s₀ s) : Evolves s₀ (takeDone l epoch s) := by
  grind [takeDone, ev_authFail, ev_activate, ev_onLink]

theorem ev_checkFormed (h₀ : Evolves s₀ s) : Evolves s₀ (checkFormed s) := by grind [checkFormed, ev_onGrp, ev_leaderAlign]

theorem ev_formEnds (h₀ : Evolves s₀ s) : Evolves s₀ (formEnds s) := by
  grind [formEnds, ev_onGrp, ev_each, ev_loseMember, ev_electLeader, ev_leaderAlign]

theorem ev_readmitMembers {mask} (h₀ : Evolves s₀ s) : Evolves s₀ (readmitMembers mask s) := by
  grind [readmitMembers, ev_each, ev_onGrp, ev_recomputeRoutes, ev_electLeader, ev_sendAlign]

theorem ev_takeHello {src size il part} (h₀ : Evolves s₀ s) : Evolves s₀ (takeHello src size il part s) := by
  grind [takeHello, ev_event, ev_recomputeRoutes, ev_onGrp, ev_sendGroup, ev_readmitMembers, ev_sendHello, ev_checkFormed, ev_electLeader]

theorem ev_askReadmit {mask} (h₀ : Evolves s₀ s) : Evolves s₀ (askReadmit mask s) := by
  grind [askReadmit, ev_onGrp, ev_each, ev_sendGroup, ev_readmitMembers]

theorem ev_takeMemberState {present lost waiting} (h₀ : Evolves s₀ s) : Evolves s₀ (takeMemberState present lost waiting s) := by
  grind [takeMemberState, ev_electLeader, ev_onGrp, ev_each, ev_loseMember]

theorem id_cntRealign (g : Grp) (n : Nat) : { g with cntRealign := n }.id = g.id := rfl

theorem ev_takeAlign {l src t} (h₀ : Evolves s₀ s) : Evolves s₀ (takeAlign l src t s) := by
  unfold takeAlign
  extract_lets +onlyGivenNames c
  clear_value c
  refine ev_ite ?_ fun _ => ev_sendAlign h₀
  extract_lets +onlyGivenNames s₁ s₂ s₃
  have h₁ : Evolves s₀ s₁ := ev_onTck _ _ h₀
  clear_value s₁
  have h₂ : Evolves s₀ s₂ := ev_ite h₁ fun h => ev_onGrp _ _ (ev_event _ _ _ _ h) (id_cntRealign _ _)
  clear_value s₂
  have h₃ : Evolves s₀ s₃ := ev_ite h₂ fun h => ev_each _ _ h fun _ _ h => ev_event _ _ _ _ (ev_setHoist h)
  exact ev_sendAlign h₃

theorem ev_reservedMessage {a} (h₀ : Evolves s₀ s) : Evolves s₀ (reservedMessage a s) := by grind [reservedMessage, ev_event, ev_onDir]

theorem ev_passOn {h m c} (h₀ : Evolves s₀ s) : Evolves s₀ (passOn h m c s) := by grind [passOn, ev_onGrp, ev_emit]

theorem ev_received {i cls} (h₀ : Evolves s₀ s) : Evolves s₀ (received i cls s) := ev_onLink _ _ _ h₀

theorem ev_snoopAnswered {m htid} (h₀ : Evolves s₀ s) : Evolves s₀ (snoopAnswered m htid s) := by grind [snoopAnswered, ev_onLink]

theorem ev_passOnW {h m c} (h₀ : Evolves s₀ s) : Evolves s₀ (passOnW h m c s) := by grind [passOnW, ev_emit, ev_takeId, ev_onDir, ev_passOn]

theorem ev_messageEffect {c} (h₀ : Evolves s₀ s) : Evolves s₀ (messageEffect c s) := by
  unfold messageEffect
  split
  · split
    · exact ev_takeWb h₀
    · exact ev_passOnW h₀
    · exact h₀
  · split
    · exact ev_takeEvict h₀
    · exact ev_passOnW h₀
    · exact h₀
  · split
    · exact ev_passOn h₀
    · exact ev_takeAck h₀
  · split
    · exact ev_takeResp h₀
    · exact ev_passOn (ev_snoopAnswered h₀)
    · exact h₀
  · split
    · exact ev_takeResp h₀
    · exact ev_passOn (ev_snoopAnswered h₀)
    · exact h₀
  · split
    · split
      · exact ev_passOn (ev_count _ _ _ _ h₀)
      · exact ev_arrive (ev_count _ _ _ _ h₀)
      · exact ev_arrive (ev_count _ _ _ _ h₀)
    · exact h₀

theorem ev_takeMessage {c} (h₀ : Evolves s₀ s) : Evolves s₀ (takeMessage c s) := by grind [takeMessage, ev_messageEffect, ev_received]

theorem ev_deliverAnswer {l h pay} (h₀ : Evolves s₀ s) : Evolves s₀ (deliverAnswer l h pay s) := by
  grind [deliverAnswer, ev_emit, ev_onLink, ev_onDir, ev_fwdAnswer, ev_reservedMessage]

theorem ev_creditBroken {i a} (h₀ : Evolves s₀ s) : Evolves s₀ (creditBroken i a s) := by
  rw [show creditBroken = _ by delta creditBroken; rfl]
  extract_lets +onlyGivenNames s₁
  have h₁ : Evolves s₀ s₁ := ev_event _ _ _ _ h₀
  clear_value s₁
  split
  · exact ev_ite (ev_onLink _ _ _ h₁) fun _ => ev_leaveLink (ev_onLink _ _ _ h₁)
  · exact ev_onLink _ _ _ h₁

theorem ev_takeSlots {i slots} (h₀ : Evolves s₀ s) : Evolves s₀ (takeSlots i slots s) := by
  unfold takeSlots
  split
  · exact h₀
  · extract_lets +onlyGivenNames h a
    refine ev_ite (ev_ite ?_ fun _ => ?_) fun _ => ev_creditBroken h₀
    · split
      · exact ev_takeMessage h₀
      · exact ev_ite (ev_reservedMessage (ev_received h₀)) fun _ => ev_deliverAnswer (ev_received h₀)
    · extract_lets +onlyGivenNames s₁
      have h₁ : Evolves s₀ s₁ := ev_received h₀
      clear_value s₁
      split
      · exact ev_count _ _ _ _ (ev_emit _ _ (ev_onGrp _ _ h₁ rfl))
      · exact h₁

theorem ev_takeMsgs {i n} (h₀ : Evolves s₀ s) : Evolves s₀ (takeMsgs i n s) := by
  induction n generalizing s with
  | nil => exact h₀
  | cons x rest ih =>
    unfold takeMsgs
    extract_lets +onlyGivenNames k cur
    refine ih ?_
    clear_value cur
    cases cur with
    | nil => exact h₀
    | cons hd l => exact ev_ite (ev_onLink _ _ _ h₀) fun _ => ev_takeSlots (ev_onLink _ _ _ h₀)

theorem ev_takeLinkDown {i reason} (h₀ : Evolves s₀ s) : Evolves s₀ (takeLinkDown i reason s) := by
  grind [takeLinkDown, ev_leaveLink, ev_sendIdle]

theorem ev_reservedLt {i} (h₀ : Evolves s₀ s) : Evolves s₀ (reservedLt i s) := by grind [reservedLt, ev_event]

theorem ev_takeHoistArm {src tag e} (h₀ : Evolves s₀ s) : Evolves s₀ (takeHoistArm src tag e s) := by
  grind [takeHoistArm, ev_armHoist, ev_onTck, ev_sendGroup, ev_freezeHoists]

theorem ev_takeHoistReply {src tag status} (h₀ : Evolves s₀ s) : Evolves s₀ (takeHoistReply src tag status s) := by
  grind [takeHoistReply, ev_endGroupHoist, ev_checkGroupHoists, ev_onTck]

theorem ev_takeReadmit {mask} (h₀ : Evolves s₀ s) : Evolves s₀ (takeReadmit mask s) := by grind [takeReadmit, ev_readmitMembers]

theorem ev_takeLctl {i slots} (h₀ : Evolves s₀ s) : Evolves s₀ (takeLctl i slots s) := by
  unfold takeLctl
  extract_lets +onlyGivenNames v b lt cop
  refine ev_ite (ev_ite (ev_ite (ev_ite (ev_ite (ev_ite (ev_reservedLt h₀) fun _ => ?_) fun _ => ev_takeDone h₀)
    fun _ => ev_takeWrap h₀) fun _ => ev_takeOffer h₀) fun _ => ev_takeLinkDown h₀) fun _ => ev_takeCredits h₀
  extract_lets +onlyGivenNames src d way s₁
  have h₁ : Evolves s₀ s₁ := ev_ite h₀ fun h => ev_each _ _ h fun _ _ h => ev_emit _ _ (ev_onGrp _ _ h rfl)
  clear_value s₁
  refine ev_ite (ev_ite ?_ fun _ => h₀) fun _ => ?_
  · exact ev_ite (ev_ite (ev_ite (ev_ite (ev_ite (ev_ite (ev_ite (ev_takeReadmit h₁) fun _ => ev_takeMemberState h₁)
      fun _ => ev_linkResumed h₁) fun _ => ev_takeHoistCancel h₁) fun _ => ev_takeHoistReply h₁) fun _ => ev_takeHoistArm h₁)
      fun _ => ev_takeAlign h₁) fun _ => ev_takeHello h₁
  · split
    · exact ev_emit _ _ (ev_onGrp _ _ h₀ rfl)
    · exact h₀

theorem ev_takeLctls {i n} (h₀ : Evolves s₀ s) : Evolves s₀ (takeLctls i n s) := by
  induction n generalizing s with
  | nil => exact h₀
  | cons x rest ih =>
    unfold takeLctls
    extract_lets +onlyGivenNames k cur
    refine ih ?_
    clear_value cur
    cases cur with
    | nil => exact h₀
    | cons hd l => exact ev_ite (ev_onLink _ _ _ h₀) fun _ => ev_takeLctl (ev_onLink _ _ _ h₀)

theorem ev_takeAckNak {i ack nak} (h₀ : Evolves s₀ s) : Evolves s₀ (takeAckNak i ack nak s) := by
  grind [takeAckNak, ev_onLink, ev_replayFlits, ev_enterRecovery]

theorem ev_creditField {i v} (h₀ : Evolves s₀ s) : Evolves s₀ (creditField i v s) := ev_onLink _ _ _ h₀

theorem ev_returnCredits {i} (h₀ : Evolves s₀ s) : Evolves s₀ (returnCredits i s) := by grind [returnCredits, ev_sendRaw, ev_onLink]

theorem ev_closingFlit {i ty fseq ack nak} (h₀ : Evolves s₀ s) : Evolves s₀ (closingFlit i ty fseq ack nak s) := by
  grind [closingFlit, ev_sendIdle, ev_onLink, ev_takeAckNak, ev_startDetect]

theorem ev_resetAgent {p} (h₀ : Evolves s₀ s) : Evolves s₀ (resetAgent p s) := by
  grind [resetAgent, ev_sendFlit, ev_onLink, ev_leaveLink, ev_onPlinth]

theorem ev_stretchEnds {p} (h₀ : Evolves s₀ s) : Evolves s₀ (stretchEnds p s) := by
  grind [stretchEnds, ev_onLink, ev_onPlinth, ev_startDetect]

theorem ev_takeFlit {i f fixed good} (h₀ : Evolves s₀ s) : Evolves s₀ (takeFlit i f fixed good s) := by
  unfold takeFlit
  extract_lets +onlyGivenNames k v ty fseq ack nak
  refine ev_ite (ev_ite ?_ fun _ => h₀) fun _ => ev_ite h₀ fun h => ev_closingFlit h
  extract_lets +onlyGivenNames s₁ s₂
  have h₁ : Evolves s₀ s₁ := ev_count _ _ _ _ h₀
  have h₂ : Evolves s₀ s₂ := ev_ite h₁ fun h => ev_count _ _ _ _ (ev_onLink _ _ _ h)
  clear_value s₂
  refine ev_ite (ev_ite (ev_ite ?_ fun h => h₂) fun _ => ev_takeAckNak h₂) fun _ => ?_
  · split
    · exact ev_authFail (ev_onLink _ _ _ h₂)
    · extract_lets +onlyGivenNames s₃ s₄ tagged s₅ s₆ x
      have h₄ : Evolves s₀ s₄ := ev_takeAckNak (ev_creditField (ev_onLink _ _ _ h₂))
      clear_value s₄
      have h₅ : Evolves s₀ s₅ := ev_ite (ev_takeLctls h₄) fun _ => ev_takeMsgs h₄
      have h₆ : Evolves s₀ s₆ := ev_releaseHeld _ _ h₅
      clear_value s₆
      exact ev_ite h₆ fun h => ev_sendIdle _ _ _ h
  · exact ev_ite (ev_sendIdle _ _ _ (ev_onLink _ _ _ (ev_onLink _ _ _ h₂))) fun _ => ev_onLink _ _ _ h₂

theorem ev_receiveFlit {i wire} (h₀ : Evolves s₀ s) : Evolves s₀ (receiveFlit i wire s) := by grind [receiveFlit, ev_takeFlit, ev_onLink]

end Sys2Proof.Machine
end

section
/-!
SUPPORT. The operations evolve, continued (O3, O5). Errors, self-tests and the flash.
-/

namespace Sys2Proof.Machine
open Sys2Proof

variable {s₀ s : State}

theorem ev_openSector {n} (h₀ : Evolves s₀ s) : Evolves s₀ (openSector n s) := by grind [openSector, ev_onPart, ev_onFlash]

theorem ev_compact {n} (h₀ : Evolves s₀ s) : Evolves s₀ (compact n s) := by grind [compact, ev_onPart, ev_onFlash, ev_onEvr]

theorem ev_eventsDurable {n} (h₀ : Evolves s₀ s) : Evolves s₀ (eventsDurable n s) := by grind [eventsDurable, ev_onFlash, ev_onEvr]

theorem ev_applyRecord {n r} (h₀ : Evolves s₀ s) : Evolves s₀ (applyRecord n r s) := by grind [applyRecord, ev_onFlash]

theorem ev_recordDurable {n r} (h₀ : Evolves s₀ s) : Evolves s₀ (recordDurable n r s) := by
  grind [recordDurable, ev_openSector, ev_onPart, ev_eventsDurable, ev_applyRecord, ev_compact]

theorem ev_retireSector {dev} (h₀ : Evolves s₀ s) : Evolves s₀ (retireSector dev s).2 := by
  grind [retireSector, ev_onMemErr, ev_onFlash, ev_trap, ev_event, ev_onLdg]

theorem ev_appendDone {n dev ok} (h₀ : Evolves s₀ s) : Evolves s₀ (appendDone n dev ok s) := by
  grind [appendDone, ev_onFlash, ev_recordDurable, ev_retireSector]

theorem ev_eraseDone {dev sector ok} (h₀ : Evolves s₀ s) : Evolves s₀ (eraseDone dev sector ok s) := by
  grind [eraseDone, ev_retireSector, ev_onFlash, ev_each, ev_onPart]

theorem ev_recordCycles {v} (h₀ : Evolves s₀ s) : Evolves s₀ (recordCycles v s) := ev_append _ _ _ _ h₀

theorem ev_recordSeconds (h₀ : Evolves s₀ s) : Evolves s₀ (recordSeconds s) := by grind [recordSeconds, ev_append]

theorem ev_recordFloor {v} (h₀ : Evolves s₀ s) : Evolves s₀ (recordFloor v s) := ev_append _ _ _ _ h₀

theorem ev_recordC {c hours} (h₀ : Evolves s₀ s) : Evolves s₀ (recordC c hours s) := ev_append _ _ _ _ h₀

theorem ev_recordLc {st trans owner} (h₀ : Evolves s₀ s) : Evolves s₀ (recordLc st trans owner s) := ev_append _ _ _ _ h₀

theorem ev_recordRepair {m loc} (h₀ : Evolves s₀ s) : Evolves s₀ (recordRepair m loc s) := by grind [recordRepair, ev_append, ev_onFlash]

theorem ev_onTest {m loc f} (h₀ : Evolves s₀ s) : Evolves s₀ (onTest m loc f s) := ev_onErr _ _ h₀

theorem ev_dropTest {m loc} (h₀ : Evolves s₀ s) : Evolves s₀ (dropTest m loc s) := ev_onErr _ _ h₀

theorem ev_tryTest {t} (h₀ : Evolves s₀ s) : Evolves s₀ (tryTest t s) := by grind [tryTest, ev_event, ev_dropTest, ev_onTest, ev_queueRead]

theorem ev_senseDone {loc good} (h₀ : Evolves s₀ s) : Evolves s₀ (senseDone loc good s) := by grind [senseDone, ev_onTest, ev_queueRead]

theorem ev_sparesOut {m} (h₀ : Evolves s₀ s) : Evolves s₀ (sparesOut m s) := by grind [sparesOut, ev_trap, ev_onMemErr]

theorem ev_retireLoc {m loc} (h₀ : Evolves s₀ s) : Evolves s₀ (retireLoc m loc s) := by
  unfold retireLoc
  extract_lets +onlyGivenNames s₁ s₂ use
  have h₂ : Evolves s₀ s₂ := ev_trap _ _ (ev_logError _ _ _ _ (ev_onMemErr _ _ _ h₀))
  have huse {s : State} (h : Evolves s₀ s) : Evolves s₀ (use s) := ev_recordRepair (ev_onMemErr _ _ _ h)
  clear_value use s₂
  refine ev_ite (ev_ite (ev_ite (ev_ite (ev_ite (ev_ite (ev_sparesOut h₂) fun _ => huse h₂) fun _ => ev_failBlock h₂) fun _ => ?_)
    fun _ => ?_) fun _ => ev_onWay (huse h₂)) fun _ => ev_ite ?_ fun _ => huse h₂
  · exact ev_onStm _ _ (huse h₂) fun h => h
  · extract_lets +onlyGivenNames s₃
    have h₃ : Evolves s₀ s₃ := ev_onDir _ _ (huse h₂)
    clear_value s₃
    split
    · exact ev_order (ev_takeId h₃)
    · exact h₃
  · extract_lets +onlyGivenNames s₃
    have h₃ : Evolves s₀ s₃ := ev_sparesOut h₂
    clear_value s₃
    split
    · exact ev_onWay (ev_recordRepair (ev_onMemErr _ _ _ h₃))
    · exact h₃

theorem ev_recoverLine {loc} (h₀ : Evolves s₀ s) : Evolves s₀ (recoverLine loc s) := by grind [recoverLine, ev_event, ev_fillData]

theorem ev_endTest {t good} (h₀ : Evolves s₀ s) : Evolves s₀ (endTest t good s) := by
  rw [show endTest = _ by delta endTest; rfl]
  extract_lets +onlyGivenNames o s₁
  have h₁ : Evolves s₀ s₁ := ev_dropTest h₀
  clear_value s₁
  have h₂ {f g} : Evolves s₀ (onMemErr t.mem f (onErr g s₁)) := ev_onMemErr _ _ _ (ev_onErr _ _ h₁)
  dsimp only
  split
  · refine ev_finish (ev_fillWindow (ev_free _ (ev_free _ ?_)))
    exact ev_ite (ev_ite h₁ fun _ => ev_retireLoc h₁) fun _ => ev_ite h₂ fun h => ev_recoverLine h
  · exact ev_ite (ev_ite h₁ fun _ => ev_retireLoc h₁) fun _ => ev_ite h₂ fun h => ev_recoverLine h

theorem ev_endLap {m} (h₀ : Evolves s₀ s) : Evolves s₀ (endLap m s) := by grind [endLap, ev_onMemErr, ev_onErr]

theorem ev_foundError {m loc} (h₀ : Evolves s₀ s) : Evolves s₀ (foundError m loc s) := by
  grind [foundError, ev_poisonRoute, ev_onPageLine, ev_combDone, ev_fatal, ev_startTest, ev_onMemErr]

theorem ev_countCorrected {m} (h₀ : Evolves s₀ s) : Evolves s₀ (countCorrected m s) := by grind [countCorrected, ev_free, ev_count]

theorem ev_scrubbed {m loc f} (h₀ : Evolves s₀ s) : Evolves s₀ (scrubbed m loc f s) := by
  unfold scrubbed
  refine ev_ite ?_ fun h => ev_endLap h
  split
  · exact h₀
  · exact ev_countCorrected (ev_corrected _ _ _ h₀)
  · exact ev_foundError h₀
  · split
    · exact ev_onSec _ _ h₀ fun h => h
    · exact h₀

theorem ev_onSlot {i} {f : List Host.Cell → List Host.Cell} (h₀ : Evolves s₀ s)
    (hf : ∀ m, Memory.wf 0xFF m = true → Memory.wf 0xFF (f m) = true) : Evolves s₀ (onSlot i f s) := by
  refine ev_onFlash _ _ h₀ fun ⟨slotA, slotB⟩ => ?_
  split
  · exact ⟨hf _ slotA, slotB⟩
  · exact ⟨slotA, hf _ slotB⟩

theorem ev_startImageOp {op slot off} (h₀ : Evolves s₀ s) : Evolves s₀ (startImageOp op slot off s) := by grind [startImageOp, ev_onLdg]

theorem ev_endImageOp {ok} (h₀ : Evolves s₀ s) : Evolves s₀ (endImageOp ok s) := by
  unfold endImageOp
  refine ev_ite ?_ fun _ => h₀
  extract_lets +onlyGivenNames l s₁
  have h₁ : Evolves s₀ s₁ := ev_onLdg _ _ h₀ fun h => h
  clear_value s₁
  refine ev_ite ?_ fun _ => ev_ite ?_ fun _ => ?_
  · split
    exact ev_retireSector (ev_onSlot (ev_pair ‹_› (ev_free _ h₁)) fun _ => wf_writeN _ _)
  · exact ev_onSlot h₁ fun _ => wf_writeN _ _
  · exact ev_onSlot h₁ fun _ _ => rfl

end Sys2Proof.Machine
end

section
/-!
SUPPORT. The operations evolve, continued (O3, O5). The supply: shutdown, reset and gating.
-/

namespace Sys2Proof.Machine
open Sys2Proof

variable {s₀ s : State}

theorem ev_saveSlots {n} (h₀ : Evolves s₀ s) : Evolves s₀ (saveSlots n s) := by
  induction n generalizing s with
  | zero => exact h₀
  | succ n ih => exact ev_ite (ih (ev_recordDurable h₀)) fun _ => h₀

theorem ev_saveEvents (h₀ : Evolves s₀ s) : Evolves s₀ (saveEvents s) := by grind [saveEvents, ev_saveSlots, ev_onFlash]

theorem ev_tornImage (h₀ : Evolves s₀ s) : Evolves s₀ (tornImage s) := by
  unfold tornImage
  refine ev_ite ?_ fun _ => h₀
  split
  exact ev_onSlot (ev_pair ‹_› (ev_free _ h₀)) fun _ => wf_writeN _ _

theorem ev_clearVolatile (h₀ : Evolves s₀ s) : Evolves s₀ (clearVolatile s) :=
  h₀.trans' ⟨fun ⟨⟨_, _, _, _, slots⟩, _⟩ => ⟨⟨rfl, rfl, rfl, rfl, slots⟩, rfl, rfl, rfl, rfl, rfl, rfl, rfl⟩,
    rfl, rfl, Nat.le_refl _, Nat.le_refl _, Nat.le_refl _, rfl, List.suffix_rfl⟩

theorem ev_moduleReset (h₀ : Evolves s₀ s) : Evolves s₀ (moduleReset s) := by
  grind [moduleReset, ev_onPlinth, ev_clearVolatile, ev_tornImage, ev_saveEvents]

theorem ev_resolveAppends (h₀ : Evolves s₀ s) : Evolves s₀ (resolveAppends s) := by
  grind [resolveAppends, ev_each, ev_recordDurable, ev_onFlash]

theorem ev_controllerLost (h₀ : Evolves s₀ s) : Evolves s₀ (controllerLost s) := by
  grind [controllerLost, ev_clearVolatile, ev_tornImage, ev_resolveAppends]

theorem ev_controllerOff (h₀ : Evolves s₀ s) : Evolves s₀ (controllerOff s) := by
  grind [controllerOff, ev_controllerLost, ev_onPlinth, ev_onFlash]

theorem ev_markLossy {b} (h₀ : Evolves s₀ s) : Evolves s₀ (markLossy b s) := ev_onMedium _ _ h₀

theorem ev_setRail {r st mv} (h₀ : Evolves s₀ s) : Evolves s₀ (setRail r st mv s) := ev_onPlinth _ _ h₀

theorem ev_allRails {st} (h₀ : Evolves s₀ s) : Evolves s₀ (allRails st s) := ev_onPlinth _ _ h₀

theorem ev_railsDown {cause} (h₀ : Evolves s₀ s) : Evolves s₀ (railsDown cause s) := by
  grind [railsDown, ev_onPlinth, ev_each, ev_leaveLink]

theorem ev_latch {rail} (h₀ : Evolves s₀ s) : Evolves s₀ (latch rail s) := ev_onPlinth _ _ h₀

theorem ev_disableRail {r} (h₀ : Evolves s₀ s) : Evolves s₀ (disableRail r s) := by grind [disableRail, ev_setRail, ev_controllerOff]

theorem ev_downLinks {cause reason} (h₀ : Evolves s₀ s) : Evolves s₀ (downLinks cause reason s) := by
  grind [downLinks, ev_each, ev_sendDown]

theorem ev_layDump {d closed banks} (h₀ : Evolves s₀ s) : Evolves s₀ (layDump d closed banks s) := by grind [layDump, ev_each, ev_onMedium]

theorem ev_dumpLaid (h₀ : Evolves s₀ s) : Evolves s₀ (dumpLaid s) := ev_onMedium _ _ h₀

theorem ev_linkUp {up : Bool} (h₀ : Evolves s₀ s) : Evolves s₀ (onHst (fun h => { h with linkUp := up }) s) :=
  ev_onHst _ _ h₀ fun h => h

theorem ev_commit (h₀ : Evolves s₀ s) : Evolves s₀ (commit s) := by
  unfold commit
  extract_lets +onlyGivenNames s₁ s₂ dumps items₁ items₂ s₃ s₄ s₅
  have h₁ : Evolves s₀ s₁ := ev_updPorts (ev_onPlinth _ _ h₀)
  have h₂ : Evolves s₀ s₂ := ev_each _ _ h₁ fun _ _ => ev_event _ _ _ _
  clear_value items₂ s₂
  have h₃ : Evolves s₀ s₃ := ev_ite h₂ fun h => ev_onPwr _ _ (ev_onMedium _ _ h)
  clear_value s₃
  have h₄ : Evolves s₀ s₄ := ev_onPlinth _ _ h₃
  clear_value s₄
  have h₅ : Evolves s₀ s₅ := ev_linkUp (ev_downLinks h₄)
  clear_value s₅
  exact ev_onMed _ _ (ev_onTck _ _ h₅)

theorem ev_cutDump (h₀ : Evolves s₀ s) : Evolves s₀ (cutDump s) := by grind [cutDump, ev_free, ev_onMedium, ev_dumpLaid, ev_layDump]

theorem ev_dumpDone {us} (h₀ : Evolves s₀ s) : Evolves s₀ (dumpDone us s) := by
  grind [dumpDone, ev_onMedium, ev_dumpLaid, ev_layDump, ev_supplyLog, ev_saveEvents, ev_latch, ev_railsDown]

theorem ev_askStop {c} (h₀ : Evolves s₀ s) : Evolves s₀ (askStop c s) := by grind [askStop, ev_finish, ev_onHst, ev_onPwr]

theorem ev_beginWake (h₀ : Evolves s₀ s) : Evolves s₀ (beginWake s) := by grind [beginWake, ev_onClk, ev_onPwr]

theorem ev_askRun {c} (h₀ : Evolves s₀ s) : Evolves s₀ (askRun c s) := by grind [askRun, ev_finish, ev_onHst, ev_beginWake]

theorem ev_stopEntry (h₀ : Evolves s₀ s) : Evolves s₀ (stopEntry s) := by
  grind [stopEntry, ev_onPwr, ev_onOrd, ev_onHst, ev_each, ev_stopEg, ev_stopIn]

theorem ev_recordLapsed (h₀ : Evolves s₀ s) : Evolves s₀ (recordLapsed s) := by grind [recordLapsed, ev_onPwr, ev_each, ev_event]

theorem ev_wakeEnds (h₀ : Evolves s₀ s) : Evolves s₀ (wakeEnds s) := by
  grind [wakeEnds, ev_onPwr, ev_onClk, ev_onHst, ev_recordLapsed, ev_each, ev_finish]

theorem ev_wakeNow (h₀ : Evolves s₀ s) : Evolves s₀ (wakeNow s) := by
  grind [wakeNow, ev_onClk, ev_onOrd, ev_onHst, ev_onPwr, ev_recordLapsed]

theorem ev_cleanAll (h₀ : Evolves s₀ s) : Evolves s₀ (cleanAll s) := by grind [cleanAll, ev_each, ev_cleanLine]

theorem ev_entryStep (h₀ : Evolves s₀ s) : Evolves s₀ (entryStep s) := by
  grind [entryStep, ev_onPwr, ev_emptyFifos, ev_drainWhere, ev_cleanAll, ev_startCkpt]

theorem ev_stopDone {us} (h₀ : Evolves s₀ s) : Evolves s₀ (stopDone us s) := by
  unfold stopDone
  refine ev_ite ?_ fun _ => h₀
  extract_lets +onlyGivenNames s₁ s₂ s₃ s₄
  have h₃ : Evolves s₀ s₃ := ev_recordSeconds (ev_onClk _ _ (ev_onOrd _ _ (ev_onPwr _ _ h₀)))
  have h₄ : Evolves s₀ s₄ := ev_each _ _ (ev_onHst _ _ h₃ fun h => h) fun _ _ => ev_finish
  exact ev_ite (ev_beginWake h₄) fun _ => h₄

theorem ev_abortCommands (h₀ : Evolves s₀ s) : Evolves s₀ (abortCommands s) := by
  unfold abortCommands
  extract_lets +onlyGivenNames s₁ s₂ s₃
  have h₁ : Evolves s₀ s₁ := by
    refine ev_each _ _ h₀ fun j s h => ev_each _ _ (ev_onCopy _ _ _ h) fun i s h => ?_
    split
    · exact ev_finish h
    · exact h
  clear_value s₁
  have h₂ : Evolves s₀ s₂ := by
    unfold s₂
    split
    · exact ev_ite h₁ fun h => ev_endImport h
    · exact h₁
  have h₃ : Evolves s₀ s₃ := ev_each _ _ h₂ fun _ _ => ev_onRun
  exact ev_each _ _ h₃ fun _ _ h => ev_ite h fun h => ev_endJob h

theorem ev_beginDrain (h₀ : Evolves s₀ s) : Evolves s₀ (beginDrain s) := by
  unfold beginDrain
  extract_lets +onlyGivenNames s₁ s₂ s₃
  have h₃ : Evolves s₀ s₃ := ev_abortCommands (ev_onOrd _ _ (ev_onPwr _ _ (ev_wakeNow h₀)))
  clear_value s₃
  exact ev_ite h₃ fun h => ev_downLinks (ev_onPlinth _ _ h)

theorem ev_drainStep (h₀ : Evolves s₀ s) : Evolves s₀ (drainStep s) := by
  grind [drainStep, ev_onPwr, ev_moduleReset, ev_beginDrain, ev_emptyFifos, ev_drainWhere, ev_cleanAll, ev_startCkpt, ev_enter,
    ev_closeOpen]

theorem ev_drainDone (h₀ : Evolves s₀ s) : Evolves s₀ (drainDone s) := by
  unfold drainDone
  refine ev_ite ?_ fun _ => h₀
  split
  · exact ev_moduleReset h₀
  · exact ev_onPlinth _ _ (ev_railsDown (ev_downLinks (ev_saveEvents (ev_recordSeconds (ev_supplyLog _ _ _ _ _ h₀)))))
  · split
    · exact ev_ite (ev_onSec _ _ (ev_recordLc h₀) fun h => h) fun _ => h₀
    · exact h₀
  · exact h₀

theorem ev_requestReset (h₀ : Evolves s₀ s) : Evolves s₀ (requestReset s) := by grind [requestReset, ev_moduleReset, ev_onPwr]

theorem ev_lcRecorded (h₀ : Evolves s₀ s) : Evolves s₀ (lcRecorded s) := by
  unfold lcRecorded
  split
  · exact h₀
  · rename_i hdue
    have hle : s.fuses.transitions ≤ s.flash.lcTrans := by omega
    exact ev_onSec _ _ (ev_onFlash _ _ (h₀.trans' ⟨id, rfl, rfl, hle, Nat.le_refl _, Nat.le_refl _, rfl, List.suffix_rfl⟩) fun h => h)
      fun h => h

theorem ev_newMediaKey (h₀ : Evolves s₀ s) : Evolves s₀ (newMediaKey s) := by grind [newMediaKey, ev_onMedium, ev_free]

theorem ev_keyErased {dev} (h₀ : Evolves s₀ s) : Evolves s₀ (keyErased dev s) := by
  grind [keyErased, ev_onFlash, ev_moduleReset, ev_downLinks, ev_onPlinth, ev_newMediaKey]

theorem ev_warn {cause} (h₀ : Evolves s₀ s) : Evolves s₀ (warn cause s) := by
  unfold warn
  exact ev_warnStreams (ev_onPwr _ _ (ev_onHst _ _ (ev_onPlinth _ _ (ev_wakeNow h₀)) fun h => h))

theorem ev_quiesce (h₀ : Evolves s₀ s) : Evolves s₀ (quiesce s) := by grind [quiesce, ev_drainWhere, ev_onOrd]

theorem ev_tripped (h₀ : Evolves s₀ s) : Evolves s₀ (tripped s) := by
  grind [tripped, ev_onPlinth, ev_onPwr, ev_railsDown, ev_warn, ev_quiesce, ev_commit]

theorem ev_warningEnds (h₀ : Evolves s₀ s) : Evolves s₀ (warningEnds s) := by grind [warningEnds, ev_quiesce, ev_onPlinth]

theorem ev_inputRises {vin} (h₀ : Evolves s₀ s) : Evolves s₀ (inputRises vin s) := by grind [inputRises, ev_onPlinth]

theorem ev_cancelShutdown (h₀ : Evolves s₀ s) : Evolves s₀ (cancelShutdown s) := by
  unfold cancelShutdown
  refine ev_ite ?_ fun _ => h₀
  extract_lets +onlyGivenNames s₁ s₂ s₃ s₄
  have h₃ : Evolves s₀ s₃ := ev_onPwr _ _ (ev_onOrd _ _ (ev_onHst _ _ (ev_onPlinth _ _ h₀) fun h => h))
  have h₄ : Evolves s₀ s₄ := ev_each _ _ (ev_onHst _ _ h₃ fun h => h) fun _ _ => ev_finish
  exact ev_supplyLog _ _ _ _ _ (ev_unwarnStreams h₄)

theorem ev_railFails {rail mv kind} (h₀ : Evolves s₀ s) : Evolves s₀ (railFails rail mv kind s) := by
  unfold railFails
  extract_lets +onlyGivenNames s₁ fail
  have h₁ : Evolves s₀ s₁ := ev_ite h₀ fun h => ev_setRail h
  have hfail {s : State} (h : Evolves s₀ s) : Evolves s₀ (fail s) := ev_latch (ev_supplyLog _ _ _ _ _ h)
  clear_value fail s₁
  split
  · exact ev_railsDown (hfail h₁)
  · exact ev_ite (ev_railsDown (ev_saveEvents (hfail (ev_markLossy (ev_cutDump h₁))))) fun _ => h₁
  · exact h₁
  · exact h₁
  · refine ev_ite ?_ fun _ => ev_railsDown (hfail h₁)
    extract_lets +onlyGivenNames s₂ c s₃
    have h₃ : Evolves s₀ s₃ := ev_commit (ev_onPlinth _ _ (ev_onHst _ _ (ev_wakeNow h₁) fun h => h))
    clear_value s₃
    exact ev_ite (ev_railsDown (ev_saveEvents (hfail (ev_markLossy h₃)))) fun _ => h₃

theorem ev_onRequest (h₀ : Evolves s₀ s) : Evolves s₀ (onRequest s) := by grind [onRequest, ev_onPlinth]

theorem ev_offRequest (h₀ : Evolves s₀ s) : Evolves s₀ (offRequest s) := by grind [offRequest, ev_onPlinth, ev_railsDown, ev_onPwr]

theorem ev_clearLatch (h₀ : Evolves s₀ s) : Evolves s₀ (clearLatch s) := by grind [clearLatch, ev_onPlinth]

theorem ev_forceOff (h₀ : Evolves s₀ s) : Evolves s₀ (forceOff s) := by
  grind [forceOff, ev_onPlinth, ev_markLossy, ev_cutDump, ev_supplyLog, ev_railsDown]

theorem ev_hardReset (h₀ : Evolves s₀ s) : Evolves s₀ (hardReset s) := by
  grind [hardReset, ev_markLossy, ev_cutDump, ev_onPlinth, ev_controllerLost, ev_supplyLog]

theorem ev_thermalStop {n} (h₀ : Evolves s₀ s) : Evolves s₀ (thermalStop n s) := by
  grind [thermalStop, ev_event, ev_onThm, ev_warn, ev_onPwr, ev_quiesce]

theorem ev_thermalTrip {n temp} (h₀ : Evolves s₀ s) : Evolves s₀ (thermalTrip n temp s) := by
  grind [thermalTrip, ev_markLossy, ev_cutDump, ev_controllerOff, ev_allRails, ev_onPlinth]

theorem ev_gateUnit {u} (h₀ : Evolves s₀ s) : Evolves s₀ (gateUnit u s) := by
  unfold gateUnit
  extract_lets +onlyGivenNames s₁
  have h₁ : Evolves s₀ s₁ := ev_onClk _ _ h₀
  clear_value s₁
  refine ev_ite (ev_ite (ev_ite (ev_ite (ev_ite h₁ fun _ => ?_) fun _ => ?_) fun _ => ?_) fun _ => ev_onPort _ _ _ (ev_lanesDown h₁))
    fun _ => ev_leaveLink h₁
  · exact h₁.trans' ⟨id, rfl, rfl, Nat.le_refl _, Nat.le_refl _, Nat.le_refl _, rfl, List.suffix_rfl⟩
  · refine ev_each _ _ h₁ fun j s h => ?_
    split
    · exact ev_finish (ev_onCopy _ _ _ h)
    · exact h
  · split
    · exact ev_ite (ev_freeLock h₁) fun _ => ev_endImport h₁
    · exact ev_ite (ev_freeLock h₁) fun _ => h₁

theorem ev_ungateUnit {u} (h₀ : Evolves s₀ s) : Evolves s₀ (ungateUnit u s) := by grind [ungateUnit, ev_onClk, ev_startDetect, ev_onPort]

theorem ev_writeGate {v} (h₀ : Evolves s₀ s) : Evolves s₀ (writeGate v s) := by grind [writeGate, ev_onClk, ev_each, ev_gateUnit]

theorem ev_measured {c vbank method} (h₀ : Evolves s₀ s) : Evolves s₀ (measured c vbank method s) := by
  grind [measured, ev_event, ev_onPwr, ev_onPlinth, ev_onCch, ev_recordC]

end Sys2Proof.Machine
end

section
/-!
SUPPORT. The operations evolve, continued (O3, O5). Register reads.
-/

namespace Sys2Proof.Machine
open Sys2Proof

variable {s₀ s : State}

theorem ev_wakeFor {off} (h₀ : Evolves s₀ s) : Evolves s₀ (wakeFor off s) := by grind [wakeFor, ev_free, ev_onGlb, ev_onClk, ev_readTrims]

theorem ev_regRead {cls off size} (h₀ : Evolves s₀ s) : Evolves s₀ (regRead cls off size s).2 := by
  grind [regRead, ev_onClk, ev_wakeFor, ev_lockRead]

end Sys2Proof.Machine
end

section
/-!
SUPPORT. The operations evolve, continued (O3, O5). Register writes.
-/

namespace Sys2Proof.Machine
open Sys2Proof

variable {s₀ s : State}

theorem ev_clampIf {b off} (h₀ : Evolves s₀ s) : Evolves s₀ (clampIf b off s) := by grind [clampIf, ev_event]

/-- Writing an entry keeps the offsets of the expert registers rising. -/
theorem keysRise_tset {α : Type} [DecidableEq α] (d : α) {t : Table α} {i : Nat} {v : α} (h : keysRise t = true) :
    keysRise (tset d t i v) = true ∧ ∀ k, k < i → (∀ p ∈ t, k < p.1) → ∀ p ∈ tset d t i v, k < p.1 := by
  induction t with
  | nil =>
    refine ⟨?_, ?_⟩ <;> unfold tset <;> split <;> simp_all [keysRise]
  | cons a t ih =>
    obtain ⟨k, w⟩ := a
    obtain ⟨hk, ht⟩ := keysRise_cons.mp h
    obtain ⟨ih₁, ih₂⟩ := ih ht
    unfold tset
    split
    · refine ⟨?_, ?_⟩
      · split
        · exact h
        · exact keysRise_cons.mpr ⟨fun p hp => by
            rcases List.mem_cons.mp hp with rfl | hp
            · assumption
            · exact Nat.lt_trans ‹i < k› (hk p hp), h⟩
      · intro l hl hlt p hp
        split at hp
        · exact hlt p hp
        · rcases List.mem_cons.mp hp with rfl | hp
          · exact hl
          · exact hlt p hp
    · split
      · subst_vars
        refine ⟨?_, ?_⟩
        · split
          · exact ht
          · exact keysRise_cons.mpr ⟨hk, ht⟩
        · intro l hl hlt p hp
          split at hp
          · exact hlt p (List.mem_cons_of_mem _ hp)
          · rcases List.mem_cons.mp hp with rfl | hp
            · exact hl
            · exact hlt p (List.mem_cons_of_mem _ hp)
      · refine ⟨keysRise_cons.mpr ⟨ih₂ k (by omega) hk, ih₁⟩, ?_⟩
        intro l hl hlt p hp
        rcases List.mem_cons.mp hp with rfl | hp
        · exact hlt (k, w) List.mem_cons_self
        · exact ih₂ l hl (fun q hq => hlt q (List.mem_cons_of_mem _ hq)) p hp

/-- Only the table of expert registers has changed, and their offsets still rise. -/
theorem ev_expert {t : Table (BitVec 32)} (h₀ : Evolves s₀ s) (ht : keysRise s.expert = true → keysRise t = true) :
    Evolves s₀ { s with expert := t } :=
  h₀.trans' ⟨fun ⟨m, l, p, q, c, n, e, k⟩ => ⟨m, l, p, q, c, n, ht e, k⟩, rfl, rfl, Nat.le_refl _, Nat.le_refl _, Nat.le_refl _, rfl,
    List.suffix_rfl⟩

theorem ev_setExpert {off v} (h₀ : Evolves s₀ s) : Evolves s₀ (setExpert off v s) := by
  unfold setExpert
  extract_lets +onlyGivenNames w s₁
  exact ev_expert (ev_clampIf h₀) fun h => (keysRise_tset _ h).1

theorem keysRise_foldl_tset {α β : Type} [DecidableEq α] (d : β → α) (i : β → Nat) (v : β → α) {l : List β} {t : Table α}
    (h : keysRise t = true) : keysRise (l.foldl (fun t p => tset (d p) t (i p) (v p)) t) = true := by
  induction l generalizing t with
  | nil => exact h
  | cons p l ih => exact ih (keysRise_tset _ h).1

theorem ev_expertClr (h₀ : Evolves s₀ s) : Evolves s₀ (expertClr s) := by
  unfold expertClr
  exact ev_ite (ev_expert h₀ fun _ => keysRise_foldl_tset _ _ _ rfl) fun _ => h₀

theorem ev_flushIn {p} (h₀ : Evolves s₀ s) : Evolves s₀ (flushIn p s) := by grind [flushIn, ev_commitPort, ev_updStop, ev_onPort]

theorem ev_flushEg {p} (h₀ : Evolves s₀ s) : Evolves s₀ (flushEg p s) := by grind [flushEg, ev_prefetchPort, ev_onPort]

theorem ev_setWm {p lo hi} (h₀ : Evolves s₀ s) : Evolves s₀ (setWm p lo hi s) := by grind [setWm, ev_clampIf, ev_onPort]

theorem ev_writeEntry {p k e} (h₀ : Evolves s₀ s) : Evolves s₀ (writeEntry p k e s) := by grind [writeEntry, ev_onPort, ev_prefetchPort]

theorem ev_enableStm {p on} (h₀ : Evolves s₀ s) : Evolves s₀ (enableStm p on s) := by grind [enableStm, ev_onPort, ev_lanesDown]

theorem ev_enableLink {i on} (h₀ : Evolves s₀ s) : Evolves s₀ (enableLink i on s) := by
  grind [enableLink, ev_onLink, ev_startDetect, ev_closeLink]

theorem ev_writeLink {i w} (h₀ : Evolves s₀ s) : Evolves s₀ (writeLink i w s) := by
  grind [writeLink, ev_enableLink, ev_enterRecovery, ev_resetAgent]

theorem ev_enableQueue {q} (h₀ : Evolves s₀ s) : Evolves s₀ (enableQueue q s) := by grind [enableQueue, ev_onQueue]

theorem ev_dropCopies {q} (h₀ : Evolves s₀ s) : Evolves s₀ (dropCopies q s) := by grind [dropCopies, ev_each, ev_onCopy]

theorem ev_disableQueue {q} (h₀ : Evolves s₀ s) : Evolves s₀ (disableQueue q s) := by
  grind [disableQueue, ev_dropCopies, ev_onQueue, ev_muteQueue]

theorem ev_writeQCfg {q w} (h₀ : Evolves s₀ s) : Evolves s₀ (writeQCfg q w s) := by
  grind [writeQCfg, ev_onQueue, ev_clampIf, ev_enableQueue, ev_disableQueue]

theorem ev_queueError {q cause} (h₀ : Evolves s₀ s) : Evolves s₀ (queueError q cause s) := ev_onQueue _ _ _ h₀

theorem ev_sqDoorbell {q v} (h₀ : Evolves s₀ s) : Evolves s₀ (sqDoorbell q v s) := by grind [sqDoorbell, ev_queueError, ev_onQueue]

theorem ev_cqDoorbell {q v} (h₀ : Evolves s₀ s) : Evolves s₀ (cqDoorbell q v s) := by
  grind [cqDoorbell, ev_queueError, ev_checkFenced, ev_writeCqes, ev_onQueue]

theorem ev_writeMsix {i v} (h₀ : Evolves s₀ s) : Evolves s₀ (writeMsix i v s) := by grind [writeMsix, ev_onHst, ev_push]

theorem ev_resumeCopy {j} (h₀ : Evolves s₀ s) : Evolves s₀ (resumeCopy j s) := ev_onCopy _ _ _ h₀

theorem ev_discardCopy {j} (h₀ : Evolves s₀ s) : Evolves s₀ (discardCopy j s) := by grind [discardCopy, ev_each, ev_finish, ev_onCopy]

theorem ev_clearUnit {u} (h₀ : Evolves s₀ s) : Evolves s₀ (clearUnit u s) := ev_onUnit _ _ _ h₀

theorem ev_clearCounters (h₀ : Evolves s₀ s) : Evolves s₀ (clearCounters s) := ev_onPmc _ _ h₀

theorem ev_freezeCounters {b} (h₀ : Evolves s₀ s) : Evolves s₀ (freezeCounters b s) := ev_onPmc _ _ h₀

theorem ev_writeSample {w} (h₀ : Evolves s₀ s) : Evolves s₀ (writeSample w s) := by grind [writeSample, ev_clampIf, ev_onPmc, ev_free]

theorem ev_writeImg {w} (h₀ : Evolves s₀ s) : Evolves s₀ (writeImg w s) := by grind [writeImg, ev_clampIf, ev_onLdg, ev_startImageOp]

theorem ev_writeGlb {o w} (h₀ : Evolves s₀ s) : Evolves s₀ (writeGlb o w s) := by grind [writeGlb, ev_expertClr, ev_requestReset, ev_onGlb]

theorem ev_writeTck {o w} (h₀ : Evolves s₀ s) : Evolves s₀ (writeTck o w s) := by grind [writeTck, ev_onTck]

theorem ev_writeMed {o w} (h₀ : Evolves s₀ s) : Evolves s₀ (writeMed o w s) := by grind [writeMed, ev_onMed]

theorem ev_writeDir {o w} (h₀ : Evolves s₀ s) : Evolves s₀ (writeDir o w s) := by grind [writeDir, ev_onDir, ev_writeLink]

theorem ev_writeStmPort {i o w} (h₀ : Evolves s₀ s) : Evolves s₀ (writeStmPort i o w s) := by
  grind [writeStmPort, ev_flushIn, ev_setWm, ev_onPort, ev_setWpt, ev_flushEg, ev_armPort, ev_enableStm, ev_writeEntry]

theorem ev_writeStm {o w} (h₀ : Evolves s₀ s) : Evolves s₀ (writeStm o w s) := by grind [writeStm, ev_clampIf, ev_onStm, ev_writeStmPort]

theorem ev_writeGrp {o w} (h₀ : Evolves s₀ s) : Evolves s₀ (writeGrp o w s) := by grind [writeGrp, ev_onGrp, ev_askReadmit, ev_writeLink]

theorem ev_writeHst {o w} (h₀ : Evolves s₀ s) : Evolves s₀ (writeHst o w s) := by
  grind [writeHst, ev_onHst, ev_discardCopy, ev_resumeCopy, ev_onQueue, ev_writeQCfg, ev_sqDoorbell, ev_cqDoorbell, ev_writeMsix]

/-- Writing bytes keeps a byte memory in its canonical form. -/
theorem wf_writeBytes {m : List Host.Cell} {o : Nat} {w : SlotWr} (h : Memory.wf 0 m = true) : Memory.wf 0 (writeBytes m o w) = true := by
  unfold writeBytes
  dsimp only
  split <;> split <;> simp only [wf_writeN, h]

theorem ev_writeCph {o w} (h₀ : Evolves s₀ s) : Evolves s₀ (writeCph o w s) := by
  unfold writeCph
  split
  · exact ev_ite h₀ fun _ => ev_releaseLock h₀
  split
  · exact ev_ite h₀ fun _ => ev_cphCommand h₀
  split
  · exact ev_clampIf (ev_onCph _ _ h₀ fun h => h)
  split
  · exact ev_onCph _ _ h₀ fun h => h
  split
  · exact ev_onCph _ _ h₀ fun h => h
  split
  · exact ev_onCph _ _ h₀ fun h => h
  split
  · exact ev_onCph _ _ h₀ fun h => h
  split
  · exact ev_onCph _ _ h₀ fun h => ⟨wf_writeBytes h.1, h.2⟩
  · exact h₀

theorem ev_setPfw {off v} (h₀ : Evolves s₀ s) : Evolves s₀ (setPfw off v s) := by grind [setPfw, ev_clampIf, ev_onPwr]

theorem ev_writePwr {o w} (h₀ : Evolves s₀ s) : Evolves s₀ (writePwr o w s) := by grind [writePwr, ev_clampIf, ev_onPwr, ev_setPfw]

theorem ev_writeClk {o w} (h₀ : Evolves s₀ s) : Evolves s₀ (writeClk o w s) := by grind [writeClk, ev_onClk, ev_writeGate]

theorem ev_writeThm {o w} (h₀ : Evolves s₀ s) : Evolves s₀ (writeThm o w s) := by grind [writeThm, ev_onThm, ev_onPlinth]

theorem ev_writeErr {o w} (h₀ : Evolves s₀ s) : Evolves s₀ (writeErr o w s) := by grind [writeErr, ev_onErr, ev_onPlinth]

theorem ev_writePmc {o w} (h₀ : Evolves s₀ s) : Evolves s₀ (writePmc o w s) := by
  grind [writePmc, ev_freezeCounters, ev_onPmc, ev_clearCounters, ev_writeSample, ev_clearUnit, ev_onUnit]

theorem ev_writeEvr {o w} (h₀ : Evolves s₀ s) : Evolves s₀ (writeEvr o w s) := by grind [writeEvr, ev_onEvr, ev_clampIf]

theorem ev_writeLdg {o w} (h₀ : Evolves s₀ s) : Evolves s₀ (writeLdg o w s) := by
  unfold writeLdg
  exact ev_ite (ev_ite (ev_ite (ev_ite h₀ fun _ => ev_onLdg _ _ h₀ wf_writeBytes) fun _ => ev_writeImg h₀)
    fun _ => ev_onLdg _ _ h₀ fun h => h) fun _ => ev_onLdg _ _ h₀ fun h => h

theorem ev_writeSec {o w} (h₀ : Evolves s₀ s) : Evolves s₀ (writeSec o w s) := by grind [writeSec, ev_onOrd]

theorem ev_writeSlot {w} (h₀ : Evolves s₀ s) : Evolves s₀ (writeSlot w s) := by
  unfold writeSlot
  exact ev_ite (ev_ite (ev_ite (ev_ite (ev_ite (ev_ite (ev_ite (ev_ite (ev_ite (ev_ite (ev_ite (ev_ite (ev_ite (ev_ite (ev_ite (ev_ite
    (ev_ite (ev_ite h₀ fun _ => ev_writeLdg h₀) fun _ => ev_writeEvr h₀) fun _ => ev_writePmc h₀) fun _ => ev_writeErr h₀)
    fun _ => ev_writeThm h₀) fun _ => ev_writeClk h₀) fun _ => ev_writePwr h₀)
    fun _ => ev_ite (ev_writeSec h₀) fun _ => ev_writeCph h₀) fun _ => ev_writeHst h₀) fun _ => ev_writeGrp h₀)
    fun _ => ev_writeStm h₀) fun _ => ev_writeDir h₀) fun _ => ev_ite h₀ fun _ => ev_onCch _ _ h₀)
    fun _ => ev_ite h₀ fun _ => ev_onDrf _ _ h₀) fun _ => ev_writeMed h₀) fun _ => ev_writeTck h₀) fun _ => ev_writeGlb h₀)
    fun _ => ev_ite h₀ fun _ => ev_setExpert h₀

theorem ev_regWrite {cls off size v} (h₀ : Evolves s₀ s) : Evolves s₀ (regWrite cls off size v s) := by
  grind [regWrite, ev_onClk, ev_wakeFor, ev_writeSlot]

theorem ev_hostWrites {off} {f : State → State} (h₀ : Evolves s₀ s) (hf : ∀ s, Evolves s₀ s → Evolves s₀ (f s)) :
    Evolves s₀ (hostWrites off f s) := by
  unfold hostWrites
  exact ev_ite (ev_ite (hf _ h₀) fun _ => ev_onClk _ _ h₀) fun _ => h₀

end Sys2Proof.Machine
end

section
/-!
SUPPORT. The operations evolve, continued (O3, O5). Start-up and recovery.
-/

namespace Sys2Proof.Machine
open Sys2Proof

variable {s₀ s : State}

theorem ev_applyEntryOf {off v} (h₀ : Evolves s₀ s) : Evolves s₀ (applyEntryOf off v s) := by
  unfold applyEntryOf
  extract_lets +onlyGivenNames near
  have hnear {w : Nat} {t : State} (h : Evolves s₀ t) : Evolves s₀ (near w t) := ev_clampIf h
  clear_value near
  refine ev_ite (ev_ite (ev_ite (ev_ite (ev_ite (ev_ite (ev_ite (ev_ite (ev_ite (ev_ite (ev_ite (ev_ite (ev_ite ?_
    fun _ => ev_onErr _ _ h₀) fun _ => ev_onClk _ _ h₀) fun _ => ev_setPfw h₀) fun _ => hnear (ev_onPwr _ _ h₀))
    fun _ => ev_clampIf (ev_onGrp _ _ h₀ rfl)) fun _ => hnear (ev_onStm _ _ h₀ fun h => h)) fun _ => ev_onClk _ _ h₀)
    fun _ => ev_onPwr _ _ h₀) fun _ => ev_onDir _ _ h₀) fun _ => ev_onMed _ _ h₀) fun _ => hnear (ev_onTck _ _ h₀))
    fun _ => ev_clampIf (ev_onTck _ _ h₀)) fun _ => ev_setExpert h₀
  split
  · exact ev_onOrd _ _ (ev_clampIf h₀)
  split
  · exact ev_setWpt h₀
  · exact ev_onPort _ _ _ h₀
  split
  · exact ev_onOrd _ _ h₀
  split
  · exact ev_onLink _ _ _ h₀
  · exact ev_onLink _ _ _ h₀
  · exact h₀

theorem ev_releaseWrites (h₀ : Evolves s₀ s) : Evolves s₀ (releaseWrites s) := by
  grind [releaseWrites, ev_each, ev_emit, ev_regWrite, ev_onGlb]

theorem ev_hostOpens (h₀ : Evolves s₀ s) : Evolves s₀ (hostOpens s) := by grind [hostOpens, ev_onClk, ev_onHst]

theorem ev_applyImage {slot} (h₀ : Evolves s₀ s) : Evolves s₀ (applyImage slot s) := by
  unfold applyImage
  extract_lets +onlyGivenNames m es keys s₁ s₂ s₃ s₄ s₅ s₆
  have h₁ : Evolves s₀ s₁ := ev_onGlb _ _ h₀
  clear_value s₁
  have h₂ : Evolves s₀ s₂ := ev_each _ _ h₁ fun _ _ => ev_applyEntryOf
  have h₃ : Evolves s₀ s₃ := ev_each _ _ h₂ fun _ _ => ev_onPort _ _ _
  have h₄ : Evolves s₀ s₄ := ev_each _ _ h₃ fun _ _ => ev_applyEntryOf
  clear_value s₄
  have h₆ : Evolves s₀ s₆ := ev_onOrd _ _ (ev_onClk _ _ h₄)
  clear_value s₆
  exact ev_releaseWrites (ev_applySettings (ev_hostOpens (ev_onGlb _ _ h₆)))

theorem ev_failStart {cause unit} (h₀ : Evolves s₀ s) : Evolves s₀ (failStart cause unit s) := by
  grind [failStart, ev_onTck, ev_onGlb, ev_event, ev_releaseWrites, ev_hostOpens]

theorem ev_wakeStep (h₀ : Evolves s₀ s) : Evolves s₀ (wakeStep s) := by grind [wakeStep, ev_failStart, ev_onGlb]

theorem ev_applyRepairs (h₀ : Evolves s₀ s) : Evolves s₀ (applyRepairs s) := by
  grind [applyRepairs, ev_each, ev_onMemErr, ev_onWay, ev_onDir, ev_onStm]

theorem ev_finishLc (h₀ : Evolves s₀ s) : Evolves s₀ (finishLc s) := by
  unfold finishLc
  extract_lets +onlyGivenNames fuses s₁ s₂ old s₃
  have h₁ : Evolves s₀ s₁ := h₀.trans'
    ⟨id, rfl, rfl, Nat.le_max_left _ _, Nat.le_refl _, Nat.le_refl _, rfl, List.suffix_rfl⟩
  clear_value s₁
  have h₂ : Evolves s₀ s₂ := ev_onFlash _ _ h₁ fun h => h
  clear_value old s₂
  have h₃ : Evolves s₀ s₃ := ev_ite h₂ fun h => ev_newMediaKey h
  exact ev_onGlb _ _ h₃

theorem ev_chooseImage (h₀ : Evolves s₀ s) : Evolves s₀ (chooseImage s) := by
  grind [chooseImage, ev_applyImage, ev_onGlb, ev_event, ev_failStart]

theorem ev_bootSteps (h₀ : Evolves s₀ s) : Evolves s₀ (bootSteps s) := by
  unfold bootSteps
  refine ev_ite ?_ fun _ => h₀
  split
  extract_lets +onlyGivenNames s₁ s₂
  have hfree := ev_pair ‹_› (ev_free _ h₀)
  have h₂ : Evolves s₀ s₂ := ev_onGlb _ _ (ev_onSec _ _ (ev_onCch _ _ (ev_onClk _ _ hfree)) fun h => h)
  clear_value s₂
  refine ev_ite (ev_ite ?_ fun _ => ev_failStart h₂) fun _ => ev_failStart h₂
  extract_lets +onlyGivenNames s₃ s₄ s₅
  have h₃ : Evolves s₀ s₃ := ev_reserveNonces (ev_onFlash _ _ (ev_onCph _ _ h₂ fun h => h) fun h => h)
  clear_value s₃
  have h₄ : Evolves s₀ s₄ := ev_onPwr _ _ (ev_applyRepairs (ev_finishLc h₃))
  clear_value s₄
  have h₅ : Evolves s₀ s₅ := ev_ite h₄ fun h => ev_onPlinth _ _ (ev_onThm _ _ (ev_event _ _ _ _ h) fun h => h)
  clear_value s₅
  refine ev_ite ?_ fun _ => ev_failStart (ev_onMedium _ _ h₅)
  exact ev_chooseImage (ev_ite h₅ fun h => ev_onSec _ _ h fun h => h)

theorem ev_readNow {r} (h₀ : Evolves s₀ s) : Evolves s₀ (readNow r s) := by grind [readNow, ev_loadMap, ev_onMed]

theorem ev_programNow {p} (h₀ : Evolves s₀ s) : Evolves s₀ (programNow p s) := by
  unfold programNow
  split
  · exact h₀
  · split
    · exact ev_pair ‹_› (ev_firstPiece h₀)
    · have h₁ := ev_pair ‹_› (ev_firstPiece h₀)
      split
      · split
        · exact ev_progVerified h₁
        · exact h₁
      · exact h₁

theorem ev_mediaRun {n} (h₀ : Evolves s₀ s) : Evolves s₀ (mediaRun n s) := by
  induction n generalizing s with
  | zero => exact h₀
  | succ n ih =>
    unfold mediaRun
    refine ev_ite ?_ fun _ => h₀
    have h₁ {t : State} (h : Evolves s₀ t) : Evolves s₀ (each t.med.reads readNow t) := ev_each _ _ h fun _ _ => ev_readNow
    exact ih (ev_each _ _ (h₁ (ev_mediaStep (ev_onMed _ _ h₀))) fun _ _ => ev_programNow)

theorem ev_putEntry {kind id e} (h₀ : Evolves s₀ s) : Evolves s₀ (putEntry kind id e s) := by
  grind [putEntry, ev_touchMap, ev_onMed, ev_setDir]

theorem ev_againReloc {b act} (h₀ : Evolves s₀ s) : Evolves s₀ (againReloc b act s) := by grind [againReloc, ev_onMed]

theorem ev_againReset {b} (h₀ : Evolves s₀ s) : Evolves s₀ (againReset b s) := by grind [againReset, ev_onMed]

theorem ev_offer {ck kind id e seq later} {p : Table Nat × State} (h₀ : Evolves s₀ p.2) :
    Evolves s₀ (offer ck kind id e seq later p).2 := by
  unfold offer
  exact ev_prod_ite h₀ fun h => ev_mk (ev_putEntry h)

theorem ev_replay {ck r} {p : Table Nat × State} (h₀ : Evolves s₀ p.2) : Evolves s₀ (replay ck p r).2 := by
  unfold replay
  extract_lets +onlyGivenNames s blkTo
  have hs : Evolves s₀ s := h₀
  have hblkTo {b f} : Evolves s₀ (blkTo b f).2 := ev_mk (ev_onBlk hs)
  clear_value blkTo s
  split
  · exact ev_offer h₀
  · split
    · exact ev_prod_ite h₀ ev_offer
    · exact h₀
  · exact ev_foldl _ _ (ev_mk (ev_onMed _ _ hs)) fun _ _ => ev_offer
  · exact hblkTo
  · exact ev_prod_ite (ev_mk (ev_againReloc (ev_onBlk hs))) fun _ => h₀
  · exact ev_mk (ev_againReset (ev_onBlk hs))
  · exact ev_mk (ev_onMed _ _ (ev_onBlk hs))
  · have h₁ {b f g} : Evolves s₀ (onMed g (onBlk b f s)) := ev_onMed _ _ (ev_onBlk hs)
    exact ev_prod_ite (ev_mk (ev_onMed _ _ h₁)) fun _ => ev_mk (ev_onMed _ _ h₁)
  · exact h₀

theorem ev_scanPages {ck} {p : Table Nat × State} (h₀ : Evolves s₀ p.2) : Evolves s₀ (scanPages ck p).2 := by
  unfold scanPages
  refine ev_foldl _ _ h₀ fun p x h => ?_
  split
  · exact ev_prod_ite h ev_offer
  · exact h

theorem ev_settleCohorts (h₀ : Evolves s₀ s) : Evolves s₀ (settleCohorts s) := by grind [settleCohorts, ev_each, ev_onBlk, ev_onPkg]

theorem ev_settleStreams {recs} (h₀ : Evolves s₀ s) : Evolves s₀ (settleStreams recs s) := by grind [settleStreams, ev_each, ev_onStream]

theorem ev_settleBanks (h₀ : Evolves s₀ s) : Evolves s₀ (settleBanks s) := by grind [settleBanks, ev_onMedium, ev_onMed]

theorem ev_loadCkpt {ck} (h₀ : Evolves s₀ s) : Evolves s₀ (loadCkpt ck s) := by
  grind [loadCkpt, ev_onDrf, ev_onMed, ev_each, ev_againReloc, ev_againReset]

theorem ev_countOrphans (h₀ : Evolves s₀ s) : Evolves s₀ (countOrphans s) := by grind [countOrphans, ev_onMed]

theorem ev_rebuild {ck} (h₀ : Evolves s₀ s) : Evolves s₀ (rebuild ck s) := by
  unfold rebuild
  extract_lets +onlyGivenNames recs s₁ s₂ s₃
  have h₁ : Evolves s₀ s₁ := ev_foldl _ _ (ev_scanPages (ev_mk (ev_loadCkpt h₀))) fun _ _ => ev_replay
  clear_value recs s₁
  have h₂ : Evolves s₀ s₂ := ev_onMed _ _ h₁
  have h₃ : Evolves s₀ s₃ := ev_ite h₂ fun h => ev_closeOpen h
  exact ev_settleBanks (ev_settleCohorts (ev_settleStreams (ev_countOrphans h₃)))

theorem ev_resetDumpBlocks (h₀ : Evolves s₀ s) : Evolves s₀ (resetDumpBlocks s) := by
  grind [resetDumpBlocks, ev_each, ev_retire, ev_enter, ev_onMed, ev_onBlk, ev_onMedium]

theorem ev_eraseAll (h₀ : Evolves s₀ s) : Evolves s₀ (eraseAll s) := by
  unfold eraseAll
  extract_lets +onlyGivenNames s₁ s₂ s₃ s₄ s₅
  have h₁ : Evolves s₀ s₁ := ev_onMed _ _ h₀
  have h₂ : Evolves s₀ s₂ := ev_each _ _ h₁ fun b s h =>
    ev_ite (ev_ite h fun h => ev_onBlk h) fun _ => ev_onMed _ _ (ev_onBlk (ev_enter h))
  have h₃ : Evolves s₀ s₃ := ev_onMed _ _ h₂
  clear_value s₃
  have h₅ : Evolves s₀ s₅ := ev_mediaRun (ev_startCkpt (ev_resetDumpBlocks h₃))
  exact ev_onMedium _ _ h₅

theorem ev_restorePage {u d} (h₀ : Evolves s₀ s) : Evolves s₀ (restorePage u d s) := by grind [restorePage, ev_writeFlag, ev_stageWrite]

theorem ev_restoreItems {l} (h₀ : Evolves s₀ s) : Evolves s₀ (restoreItems l s) := by
  unfold restoreItems
  extract_lets +onlyGivenNames staged lines gather run s₁ s₂ rest s₃
  have hrun {t : State} (h : Evolves s₀ t) : Evolves s₀ (run t) := ev_mediaRun h
  clear_value run
  have h₁ : Evolves s₀ s₁ := hrun (ev_each _ _ h₀ fun _ _ => ev_restorePage)
  have h₂ : Evolves s₀ s₂ := hrun (ev_each _ _ h₁ fun _ _ => ev_restorePage)
  have h₃ : Evolves s₀ s₃ := by
    refine hrun (ev_each _ _ h₂ fun u s h => ?_)
    split
    · exact ev_restorePage h
    · exact h
  exact hrun (ev_each _ _ h₃ fun _ _ => ev_writeFlag)

theorem ev_restoreDump {ck d us} (h₀ : Evolves s₀ s) : Evolves s₀ (restoreDump ck d us s) := by
  unfold restoreDump
  extract_lets +onlyGivenNames s₁ s₂ s₃ s₄ s₅
  have h₃ : Evolves s₀ s₃ := ev_mediaRun (ev_startCkpt (ev_restoreItems h₀))
  clear_value s₃
  have h₅ : Evolves s₀ s₅ := ev_onGlb _ _ (ev_onPwr _ _ h₃)
  clear_value s₅
  refine ev_ite ?_ fun _ => h₅
  extract_lets +onlyGivenNames s₆ s₇ s₈
  have h₈ : Evolves s₀ s₈ := ev_resetDumpBlocks (ev_mediaRun (ev_enter h₅))
  exact ev_onMedium _ _ (ev_mediaRun h₈)

theorem ev_advanceBy {i u} (h₀ : Evolves s₀ s) : Evolves s₀ (advanceBy i u s) := ev_onPkg h₀

theorem ev_bestBin (h₀ : Evolves s₀ s) : Evolves s₀ (bestBin s).2 := by
  unfold bestBin
  split
  exact ev_mk (ev_pair ‹_› (ev_foldl _ _ h₀ fun p b h => ev_mk (ev_free _ h)))

theorem ev_measureCohort {i c} {p : List (Nat × Option Nat) × State} (h₀ : Evolves s₀ p.2) :
    Evolves s₀ (measureCohort i p c).2 := by
  unfold measureCohort
  extract_lets +onlyGivenNames s a
  have hs : Evolves s₀ s := h₀
  clear_value a s
  split
  exact ev_mk (ev_pair ‹_› (ev_foldl _ _ (ev_mk hs) fun p b h => ev_mk (ev_bestBin h)))

theorem ev_foldl_triple {α β γ : Type} (l : List α) (f : β × γ × State → α → β × γ × State) {p : β × γ × State}
    (h₀ : Evolves s₀ p.2.2) (hf : ∀ p x, Evolves s₀ p.2.2 → Evolves s₀ (f p x).2.2) : Evolves s₀ (l.foldl f p).2.2 := by
  induction l generalizing p with
  | nil => exact h₀
  | cons x l ih => exact ih (hf p x h₀)

theorem ev_measurePkg {i} (h₀ : Evolves s₀ s) : Evolves s₀ (measurePkg i s).2.2 := by
  unfold measurePkg
  split
  have h₁ := ev_pair ‹_› (ev_foldl _ _ h₀ fun _ _ => ev_measureCohort)
  extract_lets +onlyGivenNames los u
  split
  · dsimp only
    exact ev_event _ _ _ _ h₁
  · exact h₁

theorem ev_recalibrate {off} (h₀ : Evolves s₀ s) : Evolves s₀ (recalibrate off s) := by
  unfold recalibrate
  extract_lets +onlyGivenNames bound
  refine ev_ite ?_ fun _ => ev_onDrf _ _ (ev_each _ _ h₀ fun _ _ => ev_advanceBy)
  split
  rename_i us spread s' heq
  have h₁ : Evolves s₀ s' := by
    refine ev_pair (p := (spread, s')) rfl (ev_triple heq ?_)
    refine ev_foldl_triple _ _ h₀ fun x i h => ?_
    exact ev_measurePkg h
  extract_lets +onlyGivenNames cap top s₂
  have h₂ : Evolves s₀ s₂ := ev_onDrf _ _ h₁
  exact ev_each _ _ h₂ fun _ _ => ev_advanceBy

theorem ev_pinMaps (h₀ : Evolves s₀ s) : Evolves s₀ (pinMaps s) := by
  unfold pinMaps
  extract_lets +onlyGivenNames l s₁
  have h₁ : Evolves s₀ s₁ := by
    refine ev_each _ _ h₀ fun n s h => ?_
    extract_lets +onlyGivenNames r z
    refine ev_ite ?_ fun _ => h
    refine ev_each _ _ h fun i s h => ?_
    extract_lets +onlyGivenNames old s₂
    have h₂ : Evolves s₀ s₂ := ev_loadMap h
    clear_value old s₂
    split
    · exact ev_ite h₂ fun h => ev_touchMap h
    · exact h₂
  clear_value s₁
  split
  · exact ev_onMed _ _ (ev_event _ _ _ _ h₁)
  · exact h₁

theorem ev_setKind {k} (h₀ : Evolves s₀ s) : Evolves s₀ (setKind k s) := by grind [setKind, ev_onGlb, ev_event]

theorem ev_recovery {older off us} (h₀ : Evolves s₀ s) : Evolves s₀ (recovery older off us s) := by
  unfold recovery
  split
  · exact ev_failStart h₀
  · refine ev_onGlb _ _ (ev_pinMaps (ev_recalibrate ?_))
    refine ev_ite (ev_ite ?_ fun _ => ?_) fun _ => ev_setKind (ev_eraseAll (ev_rebuild (ev_onMedium _ _ h₀)))
    · extract_lets +onlyGivenNames left s₂ s₃
      have h₃ : Evolves s₀ s₃ := ev_setKind (ev_rebuild (ev_onMedium _ _ h₀))
      clear_value left s₃
      exact ev_ite h₃ fun h => ev_mediaRun (ev_resetDumpBlocks h)
    · split
      · exact ev_restoreDump (ev_setKind (ev_onGlb _ _ (ev_rebuild h₀)))
      · exact h₀

theorem ev_dramReady {b off us} (h₀ : Evolves s₀ s) : Evolves s₀ (dramReady b off us s) := by
  unfold dramReady
  refine ev_ite ?_ fun _ => h₀
  extract_lets +onlyGivenNames step rest
  have hstep {n t} (h : Evolves s₀ t) : Evolves s₀ (step n t) := ev_onGlb _ _ h
  clear_value step
  have hrest {t} (h : Evolves s₀ t) : Evolves s₀ (rest t) := by
    unfold rest
    extract_lets +onlyGivenNames s₁ s₂ s₃ s₄
    have h₂ : Evolves s₀ s₂ := ev_onSec _ _ (ev_onClk _ _ h) fun h => h
    clear_value s₂
    have h₃ : Evolves s₀ s₃ := hstep (ev_readTrims (ev_onTck _ _ h₂))
    clear_value s₃
    have h₄ : Evolves s₀ s₄ := ev_ite h₃ fun h => ev_recordCycles h
    exact ev_ite (ev_recovery h₄) fun _ => ev_failStart h₄
  clear_value rest
  split
  · exact ev_ite (ev_failStart h₀) fun _ => hrest h₀
  · exact ev_ite (ev_failStart (hstep (ev_onClk _ _ h₀))) fun _ => hrest h₀
  · exact hrest h₀

theorem ev_startRails {vin} (h₀ : Evolves s₀ s) : Evolves s₀ (startRails vin s) := by
  grind [startRails, ev_setRail, ev_allRails, ev_onGlb, ev_onPlinth]

theorem ev_powerUp {vin} (h₀ : Evolves s₀ s) : Evolves s₀ (powerUp vin s) := by grind [powerUp, ev_startRails]

theorem ev_autoRestart (h₀ : Evolves s₀ s) : Evolves s₀ (autoRestart s) := by grind [autoRestart, ev_startRails]

theorem ev_railGood {rail mv} (h₀ : Evolves s₀ s) : Evolves s₀ (railGood rail mv s) := by
  grind [railGood, ev_setRail, ev_onPlinth, ev_onGlb, ev_supplyLog]

theorem ev_railStart {rail mv} (h₀ : Evolves s₀ s) : Evolves s₀ (railStart rail mv s) := by
  grind [railStart, ev_railsDown, ev_latch, ev_supplyLog, ev_setRail]

theorem ev_refStable {cycles} (h₀ : Evolves s₀ s) : Evolves s₀ (refStable cycles s) := by
  grind [refStable, ev_onClk, ev_onPlinth, ev_onGlb, ev_bootSteps]

theorem ev_clockTimeout (h₀ : Evolves s₀ s) : Evolves s₀ (clockTimeout s) := by
  unfold clockTimeout
  refine ev_ite ?_ fun _ => h₀
  extract_lets +onlyGivenNames s₁
  have h₁ : Evolves s₀ s₁ := ev_event _ _ _ _ (ev_onGlb _ _ h₀)
  clear_value s₁
  exact ev_railsDown (ev_latch (ev_supplyLog _ _ _ _ _ (ev_saveEvents h₁)))

theorem ev_startTooHot {n} (h₀ : Evolves s₀ s) : Evolves s₀ (startTooHot n s) := by
  grind [startTooHot, ev_railsDown, ev_saveEvents, ev_event, ev_onGlb]

theorem ev_bankCharged {c vbank} (h₀ : Evolves s₀ s) : Evolves s₀ (bankCharged c vbank s) := by grind [bankCharged, ev_onGlb, ev_measured]

theorem ev_beginGroup (h₀ : Evolves s₀ s) : Evolves s₀ (beginGroup s) := by grind [beginGroup, ev_event, ev_onGrp]

theorem ev_memoryReady {readyUs} (h₀ : Evolves s₀ s) : Evolves s₀ (memoryReady readyUs s) := by
  unfold memoryReady
  refine ev_ite ?_ fun _ => h₀
  extract_lets +onlyGivenNames s₁ s₂ s₃ s₄ s₅ s₆ s₇
  have h₁ : Evolves s₀ s₁ := ev_onHst _ _ (ev_onGlb _ _ h₀) fun h => h
  clear_value s₁
  have h₅ : Evolves s₀ s₅ := ev_onErr _ _ (ev_onMed _ _ (ev_onMedium _ _ (ev_onPlinth _ _ h₁)))
  clear_value s₅
  have h₆ : Evolves s₀ s₆ := ev_beginGroup (ev_each _ _ h₅ fun _ _ => ev_startDetect)
  have h₇ : Evolves s₀ s₇ := ev_each _ _ h₆ fun _ _ => ev_onPort _ _ _
  exact ev_ite h₇ fun h => ev_recordFloor h

end Sys2Proof.Machine
end

section
/-!
SUPPORT. The operations evolve, continued (O3, O5). The accesses of the host and of the debug port.
-/

namespace Sys2Proof.Machine
open Sys2Proof

variable {s₀ s : State}

theorem ev_streamWrite {p o v} (h₀ : Evolves s₀ s) : Evolves s₀ (streamWrite p o v s) := by
  unfold streamWrite
  exact ev_hostWrites h₀ fun _ => ev_writeStmPort

theorem ev_scratchRead {off len} (h₀ : Evolves s₀ s) : Evolves s₀ (scratchRead off len s).2 := by grind [scratchRead, ev_onErr]

theorem ev_scratchWrite {off data} (h₀ : Evolves s₀ s) : Evolves s₀ (scratchWrite off data s) := by
  unfold scratchWrite
  exact ev_onHst _ _ h₀ fun ⟨scratch, queues, copies⟩ => ⟨wf_writeN _ _ scratch, queues, copies⟩

theorem ev_barEffect {c} (h₀ : Evolves s₀ s) : Evolves s₀ (barEffect c s) := by
  unfold barEffect
  split
  · refine ev_ite ?_ fun _ => ev_emit _ _ (ev_hostErr h₀)
    split
    exact ev_emit _ _ (ev_pair ‹_› (ev_scratchRead h₀))
  · exact ev_ite (ev_scratchWrite h₀) fun _ => ev_hostErr h₀
  · exact ev_regWrite h₀
  · split
    exact ev_emit _ _ (ev_pair ‹_› (ev_regRead h₀))
  · exact ev_hostWrites h₀ fun _ => ev_sqDoorbell
  · exact ev_hostWrites h₀ fun _ => ev_cqDoorbell
  · exact ev_hostWrites h₀ fun _ => ev_enableQueue
  · exact ev_hostWrites h₀ fun _ => ev_disableQueue
  · exact ev_hostWrites h₀ fun _ => ev_resumeCopy
  · exact ev_hostWrites h₀ fun _ => ev_discardCopy
  · exact ev_streamWrite h₀
  · exact ev_streamWrite h₀
  · exact ev_hostWrites h₀ fun _ => ev_flushEg
  · exact ev_streamWrite h₀
  · exact ev_hostWrites h₀ fun _ => ev_enableLink
  · exact ev_hostWrites h₀ fun _ => ev_resetAgent
  · exact ev_hostWrites h₀ fun _ => ev_enterRecovery
  · exact ev_hostWrites h₀ fun _ => ev_askReadmit
  · exact ev_hostWrites h₀ fun _ => ev_writeImg
  · exact ev_hostWrites h₀ fun _ => ev_writeImg
  · exact ev_hostWrites h₀ fun _ => ev_freezeCounters
  · exact ev_hostWrites h₀ fun _ => ev_freezeCounters
  · exact ev_hostWrites h₀ fun _ => ev_clearCounters
  · exact ev_hostWrites h₀ fun _ => ev_clearUnit
  · exact ev_hostWrites h₀ fun _ => ev_expertClr
  · exact ev_hostWrites h₀ fun _ h => ev_ite (ev_requestReset h) fun _ => h
  · exact ev_hostWrites h₀ fun _ => ev_writeGate
  · exact h₀

theorem ev_tlpIn (h₀ : Evolves s₀ s) : Evolves s₀ (tlpIn s) := by grind [tlpIn, ev_count]

theorem ev_holdBar {c} (h₀ : Evolves s₀ s) : Evolves s₀ (holdBar c s) := by grind [holdBar, ev_onDir]

theorem ev_hostBar {c} (h₀ : Evolves s₀ s) : Evolves s₀ (hostBar c s) := by grind [hostBar, ev_holdBar, ev_tlpIn, ev_barEffect]

theorem ev_barStep (h₀ : Evolves s₀ s) : Evolves s₀ (barStep s) := by grind [barStep, ev_each, ev_barEffect, ev_dropHeld]

theorem ev_debugWrite {off size v} (h₀ : Evolves s₀ s) : Evolves s₀ (debugWrite off size v s) := by
  grind [debugWrite, ev_emit, ev_onGlb, ev_regWrite]

theorem ev_debugAccess {a} (h₀ : Evolves s₀ s) : Evolves s₀ (debugAccess a s) := by
  unfold debugAccess
  split
  · refine ev_ite ?_ fun _ => ev_emit _ _ h₀
    split
    exact ev_emit _ _ (ev_pair ‹_› (ev_regRead h₀))
  · exact ev_debugWrite h₀
  · exact ev_ite (ev_each _ _ h₀ fun _ _ => ev_internalRead) fun _ => ev_emit _ _ h₀
  · exact ev_ite (ev_each _ _ h₀ fun _ _ => ev_arrive) fun _ => ev_emit _ _ h₀
  · refine ev_ite ?_ fun _ => ev_emit _ _ h₀
    split
    exact ev_emit _ _ (ev_pair ‹_› (ev_scratchRead h₀))
  · exact ev_ite (ev_emit _ _ (ev_scratchWrite h₀)) fun _ => ev_emit _ _ h₀

theorem ev_debugTake {a} (h₀ : Evolves s₀ s) : Evolves s₀ (debugTake a s) := by grind [debugTake, ev_debugAccess, ev_onGlb]

theorem ev_debugStep (h₀ : Evolves s₀ s) : Evolves s₀ (debugStep s) := by grind [debugStep, ev_debugAccess, ev_onGlb]

end Sys2Proof.Machine
end

section
/-!
SUPPORT. The operations evolve, continued (O3, O5). The engines.
-/

namespace Sys2Proof.Machine
open Sys2Proof

variable {s₀ s : State}

theorem ev_engineRound (h₀ : Evolves s₀ s) : Evolves s₀ (engineRound s) := by
  unfold engineRound
  refine ev_ite ?_ fun _ => h₀
  extract_lets +onlyGivenNames s₁ s₂ s₃ s₄ s₅ s₆ s₇
  have h₁ : Evolves s₀ s₁ := ev_debugStep (ev_barStep (ev_homeStep (ev_holdStep (ev_reencStep (ev_wakeStep h₀)))))
  clear_value s₁
  have h₂ : Evolves s₀ s₂ := ev_fillStep (ev_mediaStep h₁)
  clear_value s₂
  have h₃ : Evolves s₀ s₃ := ev_ckptStep (ev_each _ _ h₂ fun _ _ => ev_jobStep)
  clear_value s₃
  have h₄ : Evolves s₀ s₄ := ev_each _ _ h₃ fun _ _ => ev_copyStep
  clear_value s₄
  have h₆ : Evolves s₀ s₆ := ev_each _ _ (ev_applyStep h₄) fun _ _ => ev_prefetchPort
  clear_value s₆
  have h₇ : Evolves s₀ s₇ := ev_importStep (ev_fenceStep h₆)
  clear_value s₇
  exact ev_entryStep (ev_drainStep h₇)

theorem ev_rounds {n} (h₀ : Evolves s₀ s) : Evolves s₀ (rounds n s) := by
  induction n generalizing s with
  | zero => exact h₀
  | succ n ih => exact ev_ite (ih (ev_engineRound h₀)) fun _ => h₀

theorem ev_settle (h₀ : Evolves s₀ s) : Evolves s₀ (settle s) := by
  unfold settle
  have h₁ : Evolves s₀ (rounds settleFuel (awayStep s)) := ev_rounds (ev_awayStep h₀)
  exact ev_each _ _ (ev_updPorts (ev_holdStep (ev_strictStep (ev_cleanerStep h₁)))) fun _ _ => ev_returnCredits

end Sys2Proof.Machine
end

section
/-!
SUPPORT. The operations evolve, continued (O3, O5). The commands of the host.
-/

namespace Sys2Proof.Machine
open Sys2Proof

variable {s₀ s : State}

theorem ev_cutHost (h₀ : Evolves s₀ s) : Evolves s₀ (cutHost s) := by grind [cutHost, ev_dropPort, ev_drainWhere, ev_onDir, ev_onOrd]

theorem ev_resetQueue {q} (h₀ : Evolves s₀ s) : Evolves s₀ (resetQueue q s) := by
  grind [resetQueue, ev_onQueue, ev_muteQueue, ev_dropCopies]

theorem ev_resetHost (h₀ : Evolves s₀ s) : Evolves s₀ (resetHost s) := by grind [resetHost, ev_each, ev_resetQueue, ev_cutHost, ev_onHst]

theorem ev_cfgWrite {r v} (h₀ : Evolves s₀ s) : Evolves s₀ (cfgWrite r v s) := by
  unfold cfgWrite
  split
  · extract_lets +onlyGivenNames m q s₁
    have h₁ : Evolves s₀ s₁ := ev_onHst _ _ h₀ fun h => h
    clear_value s₁
    split
    · exact ev_resetHost h₁
    · exact h₁
  · exact ev_ite h₀ fun _ => ev_onHst _ _ h₀ fun h => h
  · exact h₀

theorem ev_hostRequest {c} (h₀ : Evolves s₀ s) : Evolves s₀ (hostRequest c s) := by grind [hostRequest, ev_arrive, ev_tlpIn]

theorem ev_takeEntry {q e} (h₀ : Evolves s₀ s) : Evolves s₀ (takeEntry q e s) := by
  grind [takeEntry, ev_count, ev_onQueue, ev_checkFenced, ev_postDone, ev_cmdDenied]

end Sys2Proof.Machine
end

section
/-!
SUPPORT. The operations evolve, continued (O3, O5). The commands of the cipher engine.
-/

namespace Sys2Proof.Machine
open Sys2Proof

variable {s₀ s : State}

theorem ev_cphWrite {cls o v} {f : State → State} (h₀ : Evolves s₀ s) (hf : ∀ s, Evolves s₀ s → Evolves s₀ (f s)) :
    Evolves s₀ (cphWrite cls o v f s) := by
  cases cls with
  | host => exact ev_hostBar h₀
  | debug => exact ev_ite h₀ fun _ => ev_debugWrite h₀
  | firmware => exact ev_ite h₀ fun _ => hf _ h₀

end Sys2Proof.Machine
end

section
/-!
SUPPORT. The operations evolve, continued (O3, O5). The commands of the course.
-/

namespace Sys2Proof.Machine
open Sys2Proof

variable {s₀ s : State}

theorem ev_snapCommands (h₀ : Evolves s₀ s) : Evolves s₀ (snapCommands s) := by
  grind [snapCommands, ev_each, ev_takeSnapshot, ev_finish, ev_onHst]

theorem ev_stopStreams (h₀ : Evolves s₀ s) : Evolves s₀ (stopStreams s) := by grind [stopStreams, ev_each, ev_stopEg, ev_stopIn, ev_onPort]

theorem ev_beginCourse {len m} (h₀ : Evolves s₀ s) : Evolves s₀ (beginCourse len m s) := by
  unfold beginCourse
  extract_lets +onlyGivenNames s₁ r s₂ s₃ s₄ s₅ s₆ s₇ s₈
  have h₁ : Evolves s₀ s₁ := ev_count _ _ _ _ (ev_turnCourse h₀)
  clear_value r s₁
  have h₂ : Evolves s₀ s₂ := ev_onThm _ _ (ev_applySettings (ev_applySample h₁)) fun h => h
  clear_value s₂
  have h₃ : Evolves s₀ s₃ := ev_ite h₂ fun h => ev_onThm _ _ h fun h => h
  clear_value s₃
  have h₅ : Evolves s₀ s₅ := ev_stopEntry (ev_wakeEnds (ev_onPwr _ _ h₃))
  clear_value s₅
  have h₆ : Evolves s₀ s₆ := ev_freezeHoists (ev_launchHoists (ev_stopStreams (ev_snapCommands h₅)))
  clear_value s₆
  have h₇ : Evolves s₀ s₇ := ev_latchPtm (ev_stepAdmit h₆)
  clear_value s₇
  have h₈ : Evolves s₀ s₈ := ev_each _ _ (ev_scheduleComb h₇) fun _ _ => ev_commitPort
  exact ev_planCourse h₈

theorem ev_acceptEdge {interval returns} (h₀ : Evolves s₀ s) : Evolves s₀ (acceptEdge interval returns s) := ev_onTck _ _ h₀

theorem ev_ignoreEdge (h₀ : Evolves s₀ s) : Evolves s₀ (ignoreEdge s) := ev_onTck _ _ h₀

theorem ev_ownStart (h₀ : Evolves s₀ s) : Evolves s₀ (ownStart s) := ev_onTck _ _ h₀

theorem ev_enterFlywheel (h₀ : Evolves s₀ s) : Evolves s₀ (enterFlywheel s) := by grind [enterFlywheel, ev_event, ev_onTck]

theorem ev_missTick (h₀ : Evolves s₀ s) : Evolves s₀ (missTick s) := by grind [missTick, ev_onTck, ev_ownStart, ev_enterFlywheel]

end Sys2Proof.Machine
end

section
/-!
SUPPORT. The operations evolve, continued (O3, O5). The commands of the sensors.
-/

namespace Sys2Proof.Machine
open Sys2Proof

variable {s₀ s : State}

theorem ev_breakSensor {n} (h₀ : Evolves s₀ s) : Evolves s₀ (breakSensor n s) := by grind [breakSensor, ev_event, ev_onThm, ev_onSensor]

theorem ev_inletSample {q} (h₀ : Evolves s₀ s) : Evolves s₀ (inletSample q s) := by grind [inletSample, ev_onThm, ev_event]

theorem ev_timeHot (h₀ : Evolves s₀ s) : Evolves s₀ (timeHot s) := by grind [timeHot, ev_onThm]

theorem ev_coolTrip {n q} (h₀ : Evolves s₀ s) : Evolves s₀ (coolTrip n q s) := by grind [coolTrip, ev_onPlinth]

theorem ev_sampleSensor {n r} (h₀ : Evolves s₀ s) : Evolves s₀ (sampleSensor n r s) := by
  unfold sampleSensor
  split
  · exact ev_timeHot (ev_breakSensor h₀)
  · extract_lets +onlyGivenNames s₁
    have h₁ : Evolves s₀ s₁ := ev_onSensor _ _ _ h₀
    clear_value s₁
    exact ev_timeHot (ev_ite h₁ fun h => ev_breakSensor h)
  · extract_lets +onlyGivenNames s₁
    have h₁ : Evolves s₀ s₁ := ev_onSensor _ _ _ (ev_coolTrip h₀)
    clear_value s₁
    exact ev_ite (ev_ite (ev_timeHot (ev_onSensor _ _ _ h₁)) fun _ => ev_inletSample h₁) fun _ => ev_timeHot (ev_breakSensor h₁)

theorem ev_samplePackage {i r} (h₀ : Evolves s₀ s) : Evolves s₀ (samplePackage i r s) := by grind [samplePackage, ev_sampleSensor, ev_onDrf]

end Sys2Proof.Machine
end

section
/-!
SUPPORT. The operations evolve, continued (O3, O5). The commands of the medium.
-/

namespace Sys2Proof.Machine
open Sys2Proof

variable {s₀ s : State}

theorem ev_dropRead {i} (h₀ : Evolves s₀ s) : Evolves s₀ (dropRead i s) := ev_onMed _ _ h₀

theorem ev_noteRead {r} (h₀ : Evolves s₀ s) : Evolves s₀ (noteRead r s) := by grind [noteRead, ev_onDir]

theorem ev_readGood {r} (h₀ : Evolves s₀ s) : Evolves s₀ (readGood r s) := by
  grind [readGood, ev_fillData, ev_fillPoison, ev_loadMap, ev_copyRead, ev_senseDone]

theorem ev_readBad {r} (h₀ : Evolves s₀ s) : Evolves s₀ (readBad r s) := by
  grind [readBad, ev_poisonRoute, ev_fillPoison, ev_loseMap, ev_copyLost, ev_senseDone]

theorem ev_pageCorrected {r bits ahead} (h₀ : Evolves s₀ s) : Evolves s₀ (pageCorrected r bits ahead s) := by
  grind [pageCorrected, ev_onDrf, ev_heavyRead, ev_driftAhead, ev_readGood, ev_dropRead, ev_noteRead]

theorem ev_pageFailed {r} (h₀ : Evolves s₀ s) : Evolves s₀ (pageFailed r s) := by
  grind [pageFailed, ev_count, ev_heavyRead, ev_onDrf, ev_onMed, ev_readBad, ev_dropRead, ev_noteRead]

end Sys2Proof.Machine
end

section
/-!
SUPPORT. The operations evolve, continued (O3, O5). The commands of the supply.
-/

namespace Sys2Proof.Machine
open Sys2Proof

variable {s₀ s : State}

theorem ev_seeVin {vin} (h₀ : Evolves s₀ s) : Evolves s₀ (seeVin vin s) := ev_onPlinth _ _ h₀

theorem ev_chargeAgain (h₀ : Evolves s₀ s) : Evolves s₀ (chargeAgain s) := by grind [chargeAgain, ev_onPlinth]

end Sys2Proof.Machine
end

section
/-!
SUPPORT. The operations evolve, continued (O3, O5). The commands of the queues.
-/

namespace Sys2Proof.Machine
open Sys2Proof

variable {s₀ s : State}

theorem ev_rangeJob {c op lock addr len} (h₀ : Evolves s₀ s) : Evolves s₀ (rangeJob c op lock addr len s) := by
  unfold rangeJob
  exact ev_startJob h₀

theorem ev_setJob {c op grp first count} (h₀ : Evolves s₀ s) : Evolves s₀ (setJob c op grp first count s) := by
  grind [setJob, ev_startJob, ev_finish]

theorem ev_submitHoist {c e} (h₀ : Evolves s₀ s) : Evolves s₀ (submitHoist c e s) := by
  grind [submitHoist, ev_finish, ev_armHoist, ev_onTck, ev_each, ev_sendGroup]

theorem ev_cancelHoist {c id} (h₀ : Evolves s₀ s) : Evolves s₀ (cancelHoist c id s) := by
  grind [cancelHoist, ev_finish, ev_setHoist, ev_each, ev_sendGroup]

theorem ev_abortFetched (h₀ : Evolves s₀ s) : Evolves s₀ (abortFetched s) := by grind [abortFetched, ev_each, ev_postDone, ev_onQueue]

theorem ev_lifecycle {c dst off len} (h₀ : Evolves s₀ s) : Evolves s₀ (lifecycle c dst off len s) := by
  grind [lifecycle, ev_finish, ev_onPwr, ev_abortFetched, ev_onHst]

theorem ev_hostTest {c m loc} (h₀ : Evolves s₀ s) : Evolves s₀ (hostTest c m loc s) := by
  grind [hostTest, ev_openWindow, ev_finish, ev_fillWindow, ev_onTest, ev_tryTest, ev_onErr]

end Sys2Proof.Machine
end

section
/-!
SUPPORT. The operations evolve, continued (O3, O5). The commands of the stream ports.
-/

namespace Sys2Proof.Machine
open Sys2Proof

variable {s₀ s : State}

theorem ev_acceptRecord {p r} (h₀ : Evolves s₀ s) : Evolves s₀ (acceptRecord p r s) := by
  grind [acceptRecord, ev_count, ev_updStop, ev_onPort]

end Sys2Proof.Machine
end

section
/-!
PROOF. Every command yields a state that has evolved from the one it found, and so does a step (O3, O5).
-/

namespace Sys2Proof.Machine
open Sys2Proof

variable {s₀ s t : State}

/-- The outcome is a next state, and it has evolved from `s₀`. -/
def Yields (s₀ : State) (o : Host.Outcome State Fault Refusal) : Prop := ∃ t, o = .next t ∧ Evolves s₀ t

theorem yields_done (h₀ : Evolves s₀ s) (ht : Evolves s₀ t) : Yields s₀ (done s t) :=
  ⟨_, rfl, ht.mem, h₀.pending, ht.fuses, ht.trans, ht.now, ht.fv, ht.grp, ht.out⟩

theorem yields_settled (h₀ : Evolves s₀ s) (ht : Evolves s₀ t) : Yields s₀ (settled s t) := yields_done h₀ (ev_settle ht)

theorem yields_ite {c : Prop} [Decidable c] {o p : Host.Outcome State Fault Refusal} (ho : Yields s₀ o) (hp : Yields s₀ p) :
    Yields s₀ (if c then o else p) := by
  split
  · exact ho
  · exact hp

theorem yields_execPerstN (h₀ : Evolves s₀ s) : Yields s₀ (execPerstN s) := by
  grind [execPerstN, yields_settled, ev_onHst, ev_resetHost, yields_done]

theorem yields_execFunctionLevelReset (h₀ : Evolves s₀ s) : Yields s₀ (execFunctionLevelReset s) := by
  grind [execFunctionLevelReset, yields_settled, ev_resetHost, yields_done]

theorem yields_execPcieLinkDown (h₀ : Evolves s₀ s) : Yields s₀ (execPcieLinkDown s) := by
  grind [execPcieLinkDown, yields_settled, ev_onHst, ev_cutHost, yields_done]

theorem yields_execPclkLoss (h₀ : Evolves s₀ s) : Yields s₀ (execPclkLoss s) := by
  grind [execPclkLoss, yields_settled, ev_onClk, ev_onHst, ev_resetHost, yields_done]

theorem yields_execPcieRefReturn (h₀ : Evolves s₀ s) : Yields s₀ (execPcieRefReturn s) := by
  grind [execPcieRefReturn, yields_settled, ev_onClk, ev_onHst, yields_done]

theorem yields_execD3hotTransition {toD3} (h₀ : Evolves s₀ s) : Yields s₀ (execD3hotTransition toD3 s) := by
  grind [execD3hotTransition, yields_done, ev_onHst]

theorem yields_execConfigurationRequest {write r v tag} (h₀ : Evolves s₀ s) : Yields s₀ (execConfigurationRequest write r v tag s) := by
  grind [execConfigurationRequest, yields_done, ev_push, yields_settled, ev_emit, ev_cfgWrite, ev_tlpIn, ev_free]

theorem yields_execBar0BadAccess {write} (h₀ : Evolves s₀ s) : Yields s₀ (execBar0BadAccess write s) := by
  grind [execBar0BadAccess, yields_done, ev_emit, ev_tlpIn]

theorem yields_execRegisterWrite {off size v} (h₀ : Evolves s₀ s) : Yields s₀ (execRegisterWrite off size v s) := by
  grind [execRegisterWrite, yields_done, yields_settled, ev_hostBar, ev_emit, ev_tlpIn]

theorem yields_execAtomicUnsupported {bar4 off tag} (h₀ : Evolves s₀ s) : Yields s₀ (execAtomicUnsupported bar4 off tag s) := by
  grind [execAtomicUnsupported, yields_done, ev_emit, ev_hostErr, ev_tlpIn]

theorem yields_execBar2Read {addr len tag} (h₀ : Evolves s₀ s) : Yields s₀ (execBar2Read addr len tag s) := by
  grind [execBar2Read, yields_settled, ev_hostRequest, yields_done]

theorem yields_execBar2Write {addr data relaxed poisoned} (h₀ : Evolves s₀ s) : Yields s₀ (execBar2Write addr data relaxed poisoned s) := by
  grind [execBar2Write, yields_done, ev_tlpIn, yields_settled, ev_hostRequest]

theorem yields_execBar2Atomic {addr op size operand compare poisoned tag} (h₀ : Evolves s₀ s) :
    Yields s₀ (execBar2Atomic addr op size operand compare poisoned tag s) := by
  grind [execBar2Atomic, yields_settled, ev_hostRequest, yields_done]

theorem yields_execBar4Read {off len tag} (h₀ : Evolves s₀ s) : Yields s₀ (execBar4Read off len tag s) := by
  grind [execBar4Read, yields_done, ev_hostBar]

theorem yields_execBar4Write {off data} (h₀ : Evolves s₀ s) : Yields s₀ (execBar4Write off data s) := by
  grind [execBar4Write, yields_done, ev_hostBar]

theorem yields_execHostFenceRead (h₀ : Evolves s₀ s) : Yields s₀ (execHostFenceRead s) := by
  grind [execHostFenceRead, ev_drainWhere, ev_tlpIn, yields_settled, ev_onOrd, yields_done]

theorem yields_execHostFenceTimeout (h₀ : Evolves s₀ s) : Yields s₀ (execHostFenceTimeout s) := by
  grind [execHostFenceTimeout, yields_done, ev_emit, ev_onOrd]

theorem yields_execDebugAccess {a} (h₀ : Evolves s₀ s) : Yields s₀ (execDebugAccess a s) := by
  grind [execDebugAccess, yields_settled, ev_debugTake, yields_done]

theorem yields_execTapInstruction {bypassOrIdcode} (h₀ : Evolves s₀ s) : Yields s₀ (execTapInstruction bypassOrIdcode s) := by
  grind [execTapInstruction, yields_done, yields_settled, ev_bootSteps, ev_onPlinth]

theorem yields_execDapEnChange {low} (h₀ : Evolves s₀ s) : Yields s₀ (execDapEnChange low s) := by
  unfold execDapEnChange
  exact yields_ite (yields_done h₀ h₀)
    (yields_done h₀ (h₀.trans' ⟨id, rfl, rfl, Nat.le_refl _, Nat.le_refl _, Nat.le_refl _, rfl, List.suffix_rfl⟩))

theorem yields_execSqTailDoorbell {q v} (h₀ : Evolves s₀ s) : Yields s₀ (execSqTailDoorbell q v s) := by
  grind [execSqTailDoorbell, yields_done, ev_hostBar]

theorem yields_execCqHeadDoorbell {q v} (h₀ : Evolves s₀ s) : Yields s₀ (execCqHeadDoorbell q v s) := by
  grind [execCqHeadDoorbell, yields_done, ev_hostBar]

theorem yields_execQueueEnable {q} (h₀ : Evolves s₀ s) : Yields s₀ (execQueueEnable q s) := by
  grind [execQueueEnable, yields_done, ev_hostBar]

theorem yields_execQueueDisable {q} (h₀ : Evolves s₀ s) : Yields s₀ (execQueueDisable q s) := by
  grind [execQueueDisable, yields_done, ev_hostBar]

theorem yields_execSqEntryFetched {q f} (h₀ : Evolves s₀ s) : Yields s₀ (execSqEntryFetched q f s) := by
  grind [execSqEntryFetched, ev_emit, ev_onHst, yields_done, ev_queueError, ev_takeEntry]

theorem yields_execInterruptGap {q} (h₀ : Evolves s₀ s) : Yields s₀ (execInterruptGap q s) := by
  grind [execInterruptGap, yields_done, ev_queueInt, ev_onQueue]

theorem yields_execCphLockRead {cls} (h₀ : Evolves s₀ s) : Yields s₀ (execCphLockRead cls s) := by
  cases cls with
  | host => exact yields_done h₀ (ev_hostBar h₀)
  | debug => exact yields_ite (yields_done h₀ (ev_debugAccess h₀)) (yields_done h₀ h₀)
  | firmware => exact yields_ite (yields_done h₀ (ev_lockRead h₀)) (yields_done h₀ h₀)

theorem yields_execCphRelease {cls ticket} (h₀ : Evolves s₀ s) : Yields s₀ (execCphRelease cls ticket s) := by
  grind [execCphRelease, yields_done, ev_cphWrite, ev_releaseLock]

theorem yields_cphCmd {cls ticket op key subj} (h₀ : Evolves s₀ s) : Yields s₀ (cphCmd cls ticket op key subj s) := by
  grind [cphCmd, yields_done, ev_cphWrite, ev_cphCommand]

theorem yields_execEncrypt {cls ticket keySlot} (h₀ : Evolves s₀ s) : Yields s₀ (execEncrypt cls ticket keySlot s) := by
  grind [execEncrypt, yields_cphCmd]

theorem yields_execDecrypt {cls ticket keySlot} (h₀ : Evolves s₀ s) : Yields s₀ (execDecrypt cls ticket keySlot s) := by
  grind [execDecrypt, yields_cphCmd]

theorem yields_execUnwrap {cls ticket keySlot subjSlot} (h₀ : Evolves s₀ s) : Yields s₀ (execUnwrap cls ticket keySlot subjSlot s) := by
  grind [execUnwrap, yields_cphCmd]

theorem yields_execWrap {cls ticket keySlot subjSlot} (h₀ : Evolves s₀ s) : Yields s₀ (execWrap cls ticket keySlot subjSlot s) := by
  grind [execWrap, yields_cphCmd]

theorem yields_execClear {cls ticket subjSlot} (h₀ : Evolves s₀ s) : Yields s₀ (execClear cls ticket subjSlot s) := by
  grind [execClear, yields_cphCmd]

theorem yields_execCipherOpDone {agree} (h₀ : Evolves s₀ s) : Yields s₀ (execCipherOpDone agree s) := by
  grind [execCipherOpDone, yields_done, ev_cipherRelease, ev_cipherFault, yields_settled, ev_impDecrypt, ev_endImport]

theorem yields_execCipherLockTimeout (h₀ : Evolves s₀ s) : Yields s₀ (execCipherLockTimeout s) := by
  grind [execCipherLockTimeout, yields_done, ev_event, ev_freeLock]

theorem yields_execCourseStart {interval m} (h₀ : Evolves s₀ s) : Yields s₀ (execCourseStart interval m s) := by
  grind [execCourseStart, yields_done, yields_settled, ev_beginCourse, ev_ownStart, ev_ignoreEdge, ev_acceptEdge]

theorem yields_execEarlyEdge (h₀ : Evolves s₀ s) : Yields s₀ (execEarlyEdge s) := by grind [execEarlyEdge, yields_done, ev_ignoreEdge]

theorem yields_execMissedTick {m} (h₀ : Evolves s₀ s) : Yields s₀ (execMissedTick m s) := by
  grind [execMissedTick, yields_settled, ev_beginCourse, ev_missTick, yields_done]

theorem yields_execFlywheelCourseEnd {m} (h₀ : Evolves s₀ s) : Yields s₀ (execFlywheelCourseEnd m s) := by
  grind [execFlywheelCourseEnd, ev_onTck, ev_ownStart, yields_settled, ev_beginCourse, yields_done]

theorem yields_execFlywheelClear (h₀ : Evolves s₀ s) : Yields s₀ (execFlywheelClear s) := by
  grind [execFlywheelClear, yields_done, ev_onTck]

theorem yields_execFlywheelInputEdge {gap since} (h₀ : Evolves s₀ s) : Yields s₀ (execFlywheelInputEdge gap since s) := by
  grind [execFlywheelInputEdge, yields_done, ev_onTck]

theorem yields_execPeriodAverage (h₀ : Evolves s₀ s) : Yields s₀ (execPeriodAverage s) := by
  grind [execPeriodAverage, yields_done, ev_onTck]

theorem yields_execProgramWindowFix (h₀ : Evolves s₀ s) : Yields s₀ (execProgramWindowFix s) := by
  grind [execProgramWindowFix, yields_done, ev_fixWindows]

theorem yields_execGuardInterval (h₀ : Evolves s₀ s) : Yields s₀ (execGuardInterval s) := by
  grind [execGuardInterval, yields_done, ev_onThm, ev_onTck, ev_fixWindows]

theorem yields_execEscalationFall {act loc} (h₀ : Evolves s₀ s) : Yields s₀ (execEscalationFall act loc s) := by
  grind [execEscalationFall, yields_done, ev_onTck]

theorem yields_execProgramAbandon {prog} (h₀ : Evolves s₀ s) : Yields s₀ (execProgramAbandon prog s) := by
  grind [execProgramAbandon, yields_settled, ev_progAbandon, yields_done]

theorem yields_waitingTest {first m loc} (h₀ : Evolves s₀ s) : Yields s₀ (waitingTest first m loc s) := by
  grind [waitingTest, yields_settled, ev_tryTest, yields_done]

theorem yields_execSelfTestAuto {memory location} (h₀ : Evolves s₀ s) : Yields s₀ (execSelfTestAuto memory location s) := by
  grind [execSelfTestAuto, yields_waitingTest]

theorem yields_execSelfTestRetry {memory location} (h₀ : Evolves s₀ s) : Yields s₀ (execSelfTestRetry memory location s) := by
  grind [execSelfTestRetry, yields_waitingTest]

theorem yields_execSelfTestDone {memory location good} (h₀ : Evolves s₀ s) : Yields s₀ (execSelfTestDone memory location good s) := by
  grind [execSelfTestDone, yields_settled, ev_endTest, yields_done]

theorem yields_execScrubCorrection {memory location found} (h₀ : Evolves s₀ s) :
    Yields s₀ (execScrubCorrection memory location found s) := by
  grind [execScrubCorrection, yields_settled, ev_scrubbed, yields_done]

theorem yields_execCornerstoneAppendDone {part dev ok} (h₀ : Evolves s₀ s) : Yields s₀ (execCornerstoneAppendDone part dev ok s) := by
  grind [execCornerstoneAppendDone, yields_done, ev_lcRecorded, ev_appendDone]

theorem yields_execCornerstoneEraseDone {dev sector ok} (h₀ : Evolves s₀ s) : Yields s₀ (execCornerstoneEraseDone dev sector ok s) := by
  grind [execCornerstoneEraseDone, yields_done, ev_keyErased, ev_retireSector, ev_eraseDone]

theorem yields_execEraseSlot {slot} (h₀ : Evolves s₀ s) : Yields s₀ (execEraseSlot slot s) := by
  grind [execEraseSlot, yields_done, ev_hostBar]

theorem yields_execProgram {slot offset} (h₀ : Evolves s₀ s) : Yields s₀ (execProgram slot offset s) := by
  grind [execProgram, yields_done, ev_hostBar]

theorem yields_execImageOpDone {ok} (h₀ : Evolves s₀ s) : Yields s₀ (execImageOpDone ok s) := by
  grind [execImageOpDone, yields_done, ev_endImageOp]

theorem yields_execOperatingSecondsRecord (h₀ : Evolves s₀ s) : Yields s₀ (execOperatingSecondsRecord s) := by
  grind [execOperatingSecondsRecord, yields_done, ev_onFlash, ev_recordSeconds, ev_onPwr]

theorem yields_message {m c} (h₀ : Evolves s₀ s) : Yields s₀ (message m c s) := by
  grind [message, yields_done, yields_settled, ev_creditBroken, ev_takeMessage]

theorem yields_copingMessage {m c} (h₀ : Evolves s₀ s) : Yields s₀ (copingMessage m c s) := by
  grind [copingMessage, yields_done, ev_reservedMessage, yields_settled, ev_creditBroken, ev_takeMessage]

theorem yields_execRdShared {m} (h₀ : Evolves s₀ s) : Yields s₀ (execRdShared m s) := by grind [execRdShared, yields_message]

theorem yields_execRdUnique {m} (h₀ : Evolves s₀ s) : Yields s₀ (execRdUnique m s) := by grind [execRdUnique, yields_message]

theorem yields_execUpgrade {m} (h₀ : Evolves s₀ s) : Yields s₀ (execUpgrade m s) := by grind [execUpgrade, yields_message]

theorem yields_execRdOnce {m} (h₀ : Evolves s₀ s) : Yields s₀ (execRdOnce m s) := by grind [execRdOnce, yields_message]

theorem yields_execWrNc {m mask data poison} (h₀ : Evolves s₀ s) : Yields s₀ (execWrNc m mask data poison s) := by
  grind [execWrNc, yields_message]

theorem yields_execOrderBarrier {m arg} (h₀ : Evolves s₀ s) : Yields s₀ (execOrderBarrier m arg s) := by
  grind [execOrderBarrier, yields_message]

theorem yields_execComplBarrier {m arg} (h₀ : Evolves s₀ s) : Yields s₀ (execComplBarrier m arg s) := by
  grind [execComplBarrier, yields_message]

theorem yields_execWbDirty {m data poison} (h₀ : Evolves s₀ s) : Yields s₀ (execWbDirty m data poison s) := by
  grind [execWbDirty, yields_message]

theorem yields_execEvictClean {m given} (h₀ : Evolves s₀ s) : Yields s₀ (execEvictClean m given s) := by
  grind [execEvictClean, yields_message]

theorem yields_execAck {m htid} (h₀ : Evolves s₀ s) : Yields s₀ (execAck m htid s) := by grind [execAck, yields_message]

theorem yields_execSnpResp {m htid st evicted} (h₀ : Evolves s₀ s) : Yields s₀ (execSnpResp m htid st evicted s) := by
  grind [execSnpResp, yields_message]

theorem yields_execSnpData {m htid st data poison} (h₀ : Evolves s₀ s) : Yields s₀ (execSnpData m htid st data poison s) := by
  grind [execSnpData, yields_message]

theorem yields_execAtomic {m op size offset payload} (h₀ : Evolves s₀ s) : Yields s₀ (execAtomic m op size offset payload s) := by
  grind [execAtomic, yields_copingMessage]

theorem yields_execAccum {m words} (h₀ : Evolves s₀ s) : Yields s₀ (execAccum m words s) := by grind [execAccum, yields_copingMessage]

theorem yields_execReservedOpcodeMessage {m} (h₀ : Evolves s₀ s) : Yields s₀ (execReservedOpcodeMessage m s) := by
  grind [execReservedOpcodeMessage, yields_done, ev_reservedMessage]

theorem yields_execReadNotice {m} (h₀ : Evolves s₀ s) : Yields s₀ (execReadNotice m s) := by
  grind [execReadNotice, yields_settled, ev_onDir, yields_done]

theorem yields_execGatherMaxAge {entry} (h₀ : Evolves s₀ s) : Yields s₀ (execGatherMaxAge entry s) := by
  grind [execGatherMaxAge, yields_settled, ev_drainEntry, yields_done]

theorem yields_groupMessage {l src} {f : State → State} (h₀ : Evolves s₀ s) (hf : ∀ s, Evolves s₀ s → Evolves s₀ (f s)) :
    Yields s₀ (groupMessage l src f s) := yields_ite (yields_settled h₀ (hf _ h₀)) (yields_done h₀ h₀)

theorem yields_execGroupHello {l src size interleave _tickSource part _tck} (h₀ : Evolves s₀ s) :
    Yields s₀ (execGroupHello l src size interleave _tickSource part _tck s) := by
  grind [execGroupHello, yields_settled, ev_takeHello, yields_done]

theorem yields_execFormWait (h₀ : Evolves s₀ s) : Yields s₀ (execFormWait s) := by
  grind [execFormWait, yields_settled, ev_formEnds, yields_done]

theorem yields_execTickAlignSend (h₀ : Evolves s₀ s) : Yields s₀ (execTickAlignSend s) := by
  grind [execTickAlignSend, yields_done, ev_sendAlign]

theorem yields_execTickAlign {l src t} (h₀ : Evolves s₀ s) : Yields s₀ (execTickAlign l src t s) := by
  unfold execTickAlign
  exact yields_groupMessage h₀ fun _ => ev_takeAlign

theorem yields_execHoistArm {l src tag entry} (h₀ : Evolves s₀ s) : Yields s₀ (execHoistArm l src tag entry s) := by
  unfold execHoistArm
  exact yields_groupMessage h₀ fun _ => ev_takeHoistArm

theorem yields_execHoistReply {l src tag status} (h₀ : Evolves s₀ s) : Yields s₀ (execHoistReply l src tag status s) := by
  unfold execHoistReply
  exact yields_groupMessage h₀ fun _ => ev_takeHoistReply

theorem yields_execGroupHoistTimeout {tag} (h₀ : Evolves s₀ s) : Yields s₀ (execGroupHoistTimeout tag s) := by
  grind [execGroupHoistTimeout, yields_settled, ev_endGroupHoist, yields_done]

theorem yields_execGroupHoistCancel {l src hoistId} (h₀ : Evolves s₀ s) : Yields s₀ (execGroupHoistCancel l src hoistId s) := by
  unfold execGroupHoistCancel
  exact yields_groupMessage h₀ fun _ => ev_takeHoistCancel

theorem yields_execLinkResume {l src port fseq} (h₀ : Evolves s₀ s) : Yields s₀ (execLinkResume l src port fseq s) := by
  unfold execLinkResume
  exact yields_ite (yields_groupMessage h₀ fun _ => ev_linkResumed) (yields_done h₀ h₀)

theorem yields_execMemberState {l src present lost waiting} (h₀ : Evolves s₀ s) :
    Yields s₀ (execMemberState l src present lost waiting s) := by
  unfold execMemberState
  exact yields_groupMessage h₀ fun _ => ev_takeMemberState

theorem yields_execReadmit {l src mask} (h₀ : Evolves s₀ s) : Yields s₀ (execReadmit l src mask s) := by
  unfold execReadmit
  exact yields_groupMessage h₀ fun _ => ev_takeReadmit

theorem yields_execReadmitWrite {mask} (h₀ : Evolves s₀ s) : Yields s₀ (execReadmitWrite mask s) := by
  grind [execReadmitWrite, yields_done, yields_settled, ev_hostBar]

theorem yields_onPortHere {p} {f : Nat → State → State} (h₀ : Evolves s₀ s) (hf : ∀ i s, Evolves s₀ s → Evolves s₀ (f i s)) :
    Yields s₀ (onPortHere p f s) := yields_ite (yields_settled h₀ (hf _ _ h₀)) (yields_done h₀ h₀)

theorem yields_execFlitReceived {p wire} (h₀ : Evolves s₀ s) : Yields s₀ (execFlitReceived p wire s) := by
  unfold execFlitReceived
  exact yields_onPortHere h₀ fun _ _ => ev_receiveFlit

theorem yields_execNakRepeat {p} (h₀ : Evolves s₀ s) : Yields s₀ (execNakRepeat p s) := by grind [execNakRepeat, yields_done, ev_sendIdle]

theorem yields_execLinkStateTimeout {p} (h₀ : Evolves s₀ s) : Yields s₀ (execLinkStateTimeout p s) := by
  unfold execLinkStateTimeout
  exact yields_onPortHere h₀ fun _ _ => ev_stateTimeout

theorem yields_execDetectRetry {p} (h₀ : Evolves s₀ s) : Yields s₀ (execDetectRetry p s) := by
  grind [execDetectRetry, yields_done, ev_onLink]

theorem yields_execTrainingSet {p set low} (h₀ : Evolves s₀ s) : Yields s₀ (execTrainingSet p set low s) := by
  unfold execTrainingSet
  exact yields_onPortHere h₀ fun _ _ => ev_takeSet

theorem yields_execLinkTrainFail {p} (h₀ : Evolves s₀ s) : Yields s₀ (execLinkTrainFail p s) := by
  grind [execLinkTrainFail, yields_done, ev_event]

theorem yields_execCreditInit {p q sc w pc d} (h₀ : Evolves s₀ s) : Yields s₀ (execCreditInit p q sc w pc d s) := by
  unfold execCreditInit
  exact yields_onPortHere h₀ fun _ _ => ev_takeCredits

theorem yields_execLinkDown {p reason} (h₀ : Evolves s₀ s) : Yields s₀ (execLinkDown p reason s) := by
  unfold execLinkDown
  exact yields_onPortHere h₀ fun _ _ => ev_takeLinkDown

theorem yields_execKeyOffer {l o} (h₀ : Evolves s₀ s) : Yields s₀ (execKeyOffer l o s) := by
  unfold execKeyOffer
  exact yields_onPortHere h₀ fun _ _ => ev_takeOffer

theorem yields_execKeyWrap {l wrapped sig} (h₀ : Evolves s₀ s) : Yields s₀ (execKeyWrap l wrapped sig s) := by
  unfold execKeyWrap
  exact yields_onPortHere h₀ fun _ _ => ev_takeWrap

theorem yields_execKeyDone {l epoch} (h₀ : Evolves s₀ s) : Yields s₀ (execKeyDone l epoch s) := by
  unfold execKeyDone
  exact yields_onPortHere h₀ fun _ _ => ev_takeDone

theorem yields_execReservedLtype {p ltype} (h₀ : Evolves s₀ s) : Yields s₀ (execReservedLtype p ltype s) := by
  grind [execReservedLtype, yields_done, ev_reservedLt]

theorem yields_execPortEnable {p on} (h₀ : Evolves s₀ s) : Yields s₀ (execPortEnable p on s) := by
  unfold execPortEnable
  exact yields_onPortHere h₀ fun _ _ => ev_hostBar

theorem yields_execAgentReset {p} (h₀ : Evolves s₀ s) : Yields s₀ (execAgentReset p s) := by
  unfold execAgentReset
  exact yields_onPortHere h₀ fun _ _ => ev_hostBar

theorem yields_execRetrain {p} (h₀ : Evolves s₀ s) : Yields s₀ (execRetrain p s) := by
  unfold execRetrain
  exact yields_onPortHere h₀ fun _ _ => ev_hostBar

theorem yields_execAgentResetStretchEnd {p} (h₀ : Evolves s₀ s) : Yields s₀ (execAgentResetStretchEnd p s) := by
  unfold execAgentResetStretchEnd
  exact yields_onPortHere h₀ fun _ _ => ev_stretchEnds

theorem yields_execReceiverDetected {p} (h₀ : Evolves s₀ s) : Yields s₀ (execReceiverDetected p s) := by
  grind [execReceiverDetected, yields_done, ev_startPolling]

theorem yields_execSensorSample {n r} (h₀ : Evolves s₀ s) : Yields s₀ (execSensorSample n r s) := by
  unfold execSensorSample
  refine yields_ite (yields_done h₀ (ev_sampleSensor h₀)) ?_
  split
  · exact yields_done h₀ (ev_coolTrip h₀)
  · exact yields_done h₀ h₀

theorem yields_execPackageSample {rs} (h₀ : Evolves s₀ s) : Yields s₀ (execPackageSample rs s) := by
  grind [execPackageSample, yields_done, ev_each, ev_samplePackage]

theorem yields_execStartupThermalTimeout {n} (h₀ : Evolves s₀ s) : Yields s₀ (execStartupThermalTimeout n s) := by
  grind [execStartupThermalTimeout, yields_done, ev_startTooHot]

theorem yields_execThermalStop {n} (h₀ : Evolves s₀ s) : Yields s₀ (execThermalStop n s) := by
  grind [execThermalStop, yields_settled, ev_thermalStop, yields_done]

theorem yields_execThermalTrip {n temp} (h₀ : Evolves s₀ s) : Yields s₀ (execThermalTrip n temp s) := by
  grind [execThermalTrip, yields_done, ev_thermalTrip]

theorem yields_execMediaReadDone {read d} (h₀ : Evolves s₀ s) : Yields s₀ (execMediaReadDone read d s) := by
  grind [execMediaReadDone, yields_done, ev_count, yields_settled, ev_pageCorrected, ev_pageFailed]

theorem yields_execPulseGroupDone {prog ok} (h₀ : Evolves s₀ s) : Yields s₀ (execPulseGroupDone prog ok s) := by
  unfold execPulseGroupDone
  split
  · exact yields_done h₀ h₀
  · refine yields_ite (yields_done h₀ h₀) ?_
    extract_lets +onlyGivenNames s₁
    have h₁ : Evolves s₀ s₁ := ev_fixWindows h₀
    refine yields_ite (yields_done h₀ (ev_onProg h₁)) ?_
    extract_lets +onlyGivenNames s₂ q
    have h₂ : Evolves s₀ s₂ := ev_count _ _ _ _ h₁
    split
    · exact yields_ite (yields_done h₀ (ev_onProg h₂)) (yields_settled h₀ (ev_ite (ev_progFailed h₂) fun _ => ev_progVerified h₂))
    · exact yields_done h₀ h₀

theorem yields_execResetStripDone {block ok} (h₀ : Evolves s₀ s) : Yields s₀ (execResetStripDone block ok s) := by
  grind [execResetStripDone, yields_done, ev_fixWindows, ev_onRst, ev_count, yields_settled, ev_resetVerified, ev_resetFailed]

theorem yields_execJournalPageTimeout (h₀ : Evolves s₀ s) : Yields s₀ (execJournalPageTimeout s) := by
  grind [execJournalPageTimeout, yields_settled, ev_journalTimeout]

theorem yields_execCheckpointPeriodic (h₀ : Evolves s₀ s) : Yields s₀ (execCheckpointPeriodic s) := by
  grind [execCheckpointPeriodic, yields_settled, ev_startCkpt, yields_done]

theorem yields_execStagingCopyDone {line} (h₀ : Evolves s₀ s) : Yields s₀ (execStagingCopyDone line s) := by
  grind [execStagingCopyDone, yields_settled, ev_lineLeaves]

theorem yields_execFreeze (h₀ : Evolves s₀ s) : Yields s₀ (execFreeze s) := by grind [execFreeze, yields_done, ev_hostBar]

theorem yields_execFreezeRelease (h₀ : Evolves s₀ s) : Yields s₀ (execFreezeRelease s) := by
  grind [execFreezeRelease, yields_done, ev_hostBar]

theorem yields_execPmcClear (h₀ : Evolves s₀ s) : Yields s₀ (execPmcClear s) := by grind [execPmcClear, yields_done, ev_hostBar]

theorem yields_execUnitClear {u} (h₀ : Evolves s₀ s) : Yields s₀ (execUnitClear u s) := by grind [execUnitClear, yields_done, ev_hostBar]

theorem yields_execPmcOverflow {u i} (h₀ : Evolves s₀ s) : Yields s₀ (execPmcOverflow u i s) := by
  grind [execPmcOverflow, yields_done, ev_pmcCarry, ev_onUnit]

theorem yields_execEventSlotTimer (h₀ : Evolves s₀ s) : Yields s₀ (execEventSlotTimer s) := by
  grind [execEventSlotTimer, yields_done, ev_appendSlot]

theorem yields_execEventLateRecord {code} (h₀ : Evolves s₀ s) : Yields s₀ (execEventLateRecord code s) := by
  grind [execEventLateRecord, yields_done, ev_recordEvent, ev_onEvr]

theorem yields_execExpertClr (h₀ : Evolves s₀ s) : Yields s₀ (execExpertClr s) := by grind [execExpertClr, yields_done, ev_hostBar]

theorem yields_execPowerUp {vin} (h₀ : Evolves s₀ s) : Yields s₀ (execPowerUp vin s) := by grind [execPowerUp, yields_done, ev_powerUp]

theorem yields_execRailGood {rail mv} (h₀ : Evolves s₀ s) : Yields s₀ (execRailGood rail mv s) := by
  grind [execRailGood, yields_done, ev_railGood]

theorem yields_execRailStart {rail mv} (h₀ : Evolves s₀ s) : Yields s₀ (execRailStart rail mv s) := by
  grind [execRailStart, yields_done, ev_railStart]

theorem yields_execRefStable {cycles} (h₀ : Evolves s₀ s) : Yields s₀ (execRefStable cycles s) := by
  grind [execRefStable, yields_done, ev_refStable]

theorem yields_execClockTimeout (h₀ : Evolves s₀ s) : Yields s₀ (execClockTimeout s) := by
  grind [execClockTimeout, yields_done, ev_clockTimeout]

theorem yields_execDramTrained {b offTime us} (h₀ : Evolves s₀ s) : Yields s₀ (execDramTrained b offTime us s) := by
  grind [execDramTrained, yields_settled, ev_dramReady]

theorem yields_execHoldupCharged {c vbank} (h₀ : Evolves s₀ s) : Yields s₀ (execHoldupCharged c vbank s) := by
  grind [execHoldupCharged, yields_done, ev_bankCharged]

theorem yields_execMemoryReady {readyUs} (h₀ : Evolves s₀ s) : Yields s₀ (execMemoryReady readyUs s) := by
  grind [execMemoryReady, yields_settled, ev_memoryReady]

theorem yields_execInputTrip {kind vin} (h₀ : Evolves s₀ s) : Yields s₀ (execInputTrip kind vin s) := by
  grind [execInputTrip, yields_settled, ev_tripped, ev_seeVin, yields_done]

theorem yields_execWarningIntervalEnd (h₀ : Evolves s₀ s) : Yields s₀ (execWarningIntervalEnd s) := by
  grind [execWarningIntervalEnd, yields_settled, ev_warningEnds]

theorem yields_execCommitPoint (h₀ : Evolves s₀ s) : Yields s₀ (execCommitPoint s) := by
  grind [execCommitPoint, yields_settled, ev_commit, yields_done]

theorem yields_execDumpComplete {us} (h₀ : Evolves s₀ s) : Yields s₀ (execDumpComplete us s) := by
  grind [execDumpComplete, yields_done, ev_dumpDone]

theorem yields_execRailDisable {rail} (h₀ : Evolves s₀ s) : Yields s₀ (execRailDisable rail s) := by
  grind [execRailDisable, yields_done, ev_disableRail]

theorem yields_execInputRise {vin} (h₀ : Evolves s₀ s) : Yields s₀ (execInputRise vin s) := by
  grind [execInputRise, yields_done, ev_inputRises]

theorem yields_execInputGood (h₀ : Evolves s₀ s) : Yields s₀ (execInputGood s) := by
  grind [execInputGood, yields_settled, ev_cancelShutdown]

theorem yields_execAutoRestart (h₀ : Evolves s₀ s) : Yields s₀ (execAutoRestart s) := by
  grind [execAutoRestart, yields_done, ev_autoRestart]

theorem yields_execOverVoltage {vin} (h₀ : Evolves s₀ s) : Yields s₀ (execOverVoltage vin s) := by
  grind [execOverVoltage, ev_onPlinth, yields_settled, ev_tripped, yields_done]

theorem yields_execOverVoltageEnd {vin} (h₀ : Evolves s₀ s) : Yields s₀ (execOverVoltageEnd vin s) := by
  grind [execOverVoltageEnd, yields_done, ev_inputRises, ev_onPlinth]

theorem yields_execInputHigh {vin} (h₀ : Evolves s₀ s) : Yields s₀ (execInputHigh vin s) := by
  grind [execInputHigh, ev_onPlinth, yields_done, ev_event]

theorem yields_execInputHighEnd {vin} (h₀ : Evolves s₀ s) : Yields s₀ (execInputHighEnd vin s) := by
  grind [execInputHighEnd, yields_done, ev_onPlinth]

theorem yields_execInputLimit (h₀ : Evolves s₀ s) : Yields s₀ (execInputLimit s) := by
  grind [execInputLimit, ev_onPwr, yields_done, ev_event, ev_onPlinth]

theorem yields_execInputLimitClear (h₀ : Evolves s₀ s) : Yields s₀ (execInputLimitClear s) := by
  grind [execInputLimitClear, yields_done, ev_chargeAgain, ev_onPwr]

theorem yields_execRailRun {rail mv} (h₀ : Evolves s₀ s) : Yields s₀ (execRailRun rail mv s) := by
  grind [execRailRun, yields_settled, ev_railFails, yields_done]

theorem yields_execClockFail (h₀ : Evolves s₀ s) : Yields s₀ (execClockFail s) := by
  grind [execClockFail, yields_settled, ev_railFails, yields_done]

theorem yields_execHoldupMeasure (h₀ : Evolves s₀ s) : Yields s₀ (execHoldupMeasure s) := by
  grind [execHoldupMeasure, yields_done, ev_onPlinth, ev_onPwr]

theorem yields_execHoldupMeasureDone {c vbank} (h₀ : Evolves s₀ s) : Yields s₀ (execHoldupMeasureDone c vbank s) := by
  grind [execHoldupMeasureDone, yields_settled, ev_chargeAgain, ev_measured, yields_done]

theorem yields_execDirtyLimitRecompute {vbank} (h₀ : Evolves s₀ s) : Yields s₀ (execDirtyLimitRecompute vbank s) := by
  grind [execDirtyLimitRecompute, yields_settled, ev_onPlinth, ev_onCch, yields_done]

theorem yields_execPbShortPress (h₀ : Evolves s₀ s) : Yields s₀ (execPbShortPress s) := by
  grind [execPbShortPress, yields_done, ev_clearLatch, ev_onRequest, ev_requestReset]

theorem yields_execPbHoldOff (h₀ : Evolves s₀ s) : Yields s₀ (execPbHoldOff s) := by
  grind [execPbHoldOff, yields_settled, ev_offRequest, yields_done]

theorem yields_execForcedOff (h₀ : Evolves s₀ s) : Yields s₀ (execForcedOff s) := by grind [execForcedOff, yields_done, ev_forceOff]

theorem yields_execMrRelease (h₀ : Evolves s₀ s) : Yields s₀ (execMrRelease s) := by grind [execMrRelease, yields_settled, ev_requestReset]

theorem yields_execHardReset (h₀ : Evolves s₀ s) : Yields s₀ (execHardReset s) := by grind [execHardReset, yields_done, ev_hardReset]

theorem yields_execGlbResetKey (h₀ : Evolves s₀ s) : Yields s₀ (execGlbResetKey s) := by grind [execGlbResetKey, yields_settled, ev_hostBar]

theorem yields_execDrainComplete (h₀ : Evolves s₀ s) : Yields s₀ (execDrainComplete s) := by
  grind [execDrainComplete, yields_done, ev_drainDone]

theorem yields_execPlinthDomainLoss (h₀ : Evolves s₀ s) : Yields s₀ (execPlinthDomainLoss s) := by
  unfold execPlinthDomainLoss
  extract_lets +onlyGivenNames s₁ t
  have h₁ : Evolves s₀ s₁ := ev_ite h₀ fun _ => ev_markLossy (ev_cutDump h₀)
  have ht : Evolves s₀ t := ev_controllerOff (ev_allRails h₁)
  exact yields_done h₀ (ht.trans' ⟨id, rfl, rfl, Nat.le_refl _, Nat.le_refl _, Nat.le_refl _, rfl, List.suffix_rfl⟩)

theorem yields_execClkGateWrite {v} (h₀ : Evolves s₀ s) : Yields s₀ (execClkGateWrite v s) := by
  grind [execClkGateWrite, yields_settled, ev_hostBar]

theorem yields_execUnitUngated {u} (h₀ : Evolves s₀ s) : Yields s₀ (execUnitUngated u s) := by
  grind [execUnitUngated, yields_done, ev_ungateUnit]

theorem yields_execNop {c} (h₀ : Evolves s₀ s) : Yields s₀ (execNop c s) := by grind [execNop, yields_done, ev_startCmd, ev_finish]

theorem yields_execCachePreload {c addr len lock} (h₀ : Evolves s₀ s) : Yields s₀ (execCachePreload c addr len lock s) := by
  grind [execCachePreload, yields_settled, ev_startCmd, ev_rangeJob]

theorem yields_execCacheUnlock {c addr len} (h₀ : Evolves s₀ s) : Yields s₀ (execCacheUnlock c addr len s) := by
  grind [execCacheUnlock, yields_settled, ev_startCmd, ev_finish, ev_unlockRange]

theorem yields_execCacheMaintClean {c addr len} (h₀ : Evolves s₀ s) : Yields s₀ (execCacheMaintClean c addr len s) := by
  grind [execCacheMaintClean, yields_settled, ev_startCmd, ev_rangeJob]

theorem yields_execCacheMaintFlush {c addr len} (h₀ : Evolves s₀ s) : Yields s₀ (execCacheMaintFlush c addr len s) := by
  grind [execCacheMaintFlush, yields_settled, ev_startCmd, ev_rangeJob]

theorem yields_execCacheMaintInvalidate {c addr len} (h₀ : Evolves s₀ s) : Yields s₀ (execCacheMaintInvalidate c addr len s) := by
  grind [execCacheMaintInvalidate, yields_settled, ev_startCmd, ev_rangeJob]

theorem yields_execCacheMaintSetClean {c grp first count} (h₀ : Evolves s₀ s) : Yields s₀ (execCacheMaintSetClean c grp first count s) := by
  grind [execCacheMaintSetClean, yields_settled, ev_startCmd, ev_setJob]

theorem yields_execCacheMaintSetFlush {c grp first count} (h₀ : Evolves s₀ s) : Yields s₀ (execCacheMaintSetFlush c grp first count s) := by
  grind [execCacheMaintSetFlush, yields_settled, ev_startCmd, ev_setJob]

theorem yields_execCacheMaintSetInvalidate {c grp first count} (h₀ : Evolves s₀ s) :
    Yields s₀ (execCacheMaintSetInvalidate c grp first count s) := by
  grind [execCacheMaintSetInvalidate, yields_settled, ev_startCmd, ev_setJob]

theorem yields_execCopy {c src dst len channel poisonOk} (h₀ : Evolves s₀ s) : Yields s₀ (execCopy c src dst len channel poisonOk s) := by
  grind [execCopy, yields_settled, ev_startCopy]

theorem yields_execResume {j} (h₀ : Evolves s₀ s) : Yields s₀ (execResume j s) := by
  grind [execResume, yields_settled, ev_hostBar, yields_done]

theorem yields_execDiscard {j} (h₀ : Evolves s₀ s) : Yields s₀ (execDiscard j s) := by
  grind [execDiscard, yields_settled, ev_hostBar, yields_done]

theorem yields_execHoistSubmit {c entry} (h₀ : Evolves s₀ s) : Yields s₀ (execHoistSubmit c entry s) := by
  grind [execHoistSubmit, yields_done, ev_startCmd, ev_submitHoist]

theorem yields_execHoistCancel {c hoistId} (h₀ : Evolves s₀ s) : Yields s₀ (execHoistCancel c hoistId s) := by
  grind [execHoistCancel, yields_done, ev_startCmd, ev_cancelHoist]

theorem yields_execSnapshot {c} (h₀ : Evolves s₀ s) : Yields s₀ (execSnapshot c s) := by
  grind [execSnapshot, yields_done, ev_startCmd, ev_onHst]

theorem yields_execSealedImport {c src dst len iv slot} (h₀ : Evolves s₀ s) : Yields s₀ (execSealedImport c src dst len iv slot s) := by
  grind [execSealedImport, yields_settled, ev_startCmd, ev_startImport]

theorem yields_execAttestCert {c nonce} (h₀ : Evolves s₀ s) : Yields s₀ (execAttestCert c nonce s) := by
  grind [execAttestCert, yields_done, ev_startCmd, ev_startAttest]

theorem yields_execAttestIdentity {c nonce} (h₀ : Evolves s₀ s) : Yields s₀ (execAttestIdentity c nonce s) := by
  grind [execAttestIdentity, yields_done, ev_startCmd, ev_startAttest]

theorem yields_execAttestConfig {c nonce} (h₀ : Evolves s₀ s) : Yields s₀ (execAttestConfig c nonce s) := by
  grind [execAttestConfig, yields_done, ev_startCmd, ev_startAttest]

theorem yields_execAttestGroup {c nonce} (h₀ : Evolves s₀ s) : Yields s₀ (execAttestGroup c nonce s) := by
  grind [execAttestGroup, yields_done, ev_startCmd, ev_startAttest]

theorem yields_execAttestDone (h₀ : Evolves s₀ s) : Yields s₀ (execAttestDone s) := by grind [execAttestDone, yields_done, ev_attestReady]

theorem yields_execLifecycleOwned {c off len} (h₀ : Evolves s₀ s) : Yields s₀ (execLifecycleOwned c off len s) := by
  grind [execLifecycleOwned, yields_settled, ev_startCmd, ev_lifecycle]

theorem yields_execLifecycleSealed {c off len} (h₀ : Evolves s₀ s) : Yields s₀ (execLifecycleSealed c off len s) := by
  grind [execLifecycleSealed, yields_settled, ev_startCmd, ev_lifecycle]

theorem yields_execLifecycleReturn {c off len} (h₀ : Evolves s₀ s) : Yields s₀ (execLifecycleReturn c off len s) := by
  grind [execLifecycleReturn, yields_settled, ev_startCmd, ev_lifecycle]

theorem yields_execLifecycleEnd {c off len} (h₀ : Evolves s₀ s) : Yields s₀ (execLifecycleEnd c off len s) := by
  grind [execLifecycleEnd, yields_settled, ev_startCmd, ev_lifecycle]

theorem yields_execSelfTest {c memory location} (h₀ : Evolves s₀ s) : Yields s₀ (execSelfTest c memory location s) := by
  grind [execSelfTest, yields_settled, ev_startCmd, ev_hostTest]

theorem yields_execStop {c} (h₀ : Evolves s₀ s) : Yields s₀ (execStop c s) := by grind [execStop, yields_settled, ev_startCmd, ev_askStop]

theorem yields_execRun {c} (h₀ : Evolves s₀ s) : Yields s₀ (execRun c s) := by grind [execRun, yields_settled, ev_startCmd, ev_askRun]

theorem yields_execStopEntryComplete {entryUs} (h₀ : Evolves s₀ s) : Yields s₀ (execStopEntryComplete entryUs s) := by
  grind [execStopEntryComplete, yields_settled, ev_stopDone]

theorem yields_smbusRead {pec d} (h₀ : Evolves s₀ s) : Yields s₀ (smbusRead pec d s) := by grind [smbusRead, yields_done, ev_emit]

theorem yields_smbusWrite {pec} {f : State → State} (h₀ : Evolves s₀ s) (hf : ∀ s, Evolves s₀ s → Evolves s₀ (f s)) :
    Yields s₀ (smbusWrite pec f s) := yields_ite (yields_settled h₀ (hf _ (ev_emit _ _ h₀))) (yields_done h₀ h₀)

theorem yields_execStatus {pec} (h₀ : Evolves s₀ s) : Yields s₀ (execStatus pec s) := by grind [execStatus, yields_smbusRead]

theorem yields_execVin {pec} (h₀ : Evolves s₀ s) : Yields s₀ (execVin pec s) := by grind [execVin, yields_smbusRead]

theorem yields_execTempMax {pec} (h₀ : Evolves s₀ s) : Yields s₀ (execTempMax pec s) := by grind [execTempMax, ev_free, yields_smbusRead]

theorem yields_execInlet {pec} (h₀ : Evolves s₀ s) : Yields s₀ (execInlet pec s) := by grind [execInlet, yields_smbusRead]

theorem yields_execTripLast {pec} (h₀ : Evolves s₀ s) : Yields s₀ (execTripLast pec s) := by grind [execTripLast, yields_smbusRead]

theorem yields_execFatalLast {pec} (h₀ : Evolves s₀ s) : Yields s₀ (execFatalLast pec s) := by grind [execFatalLast, yields_smbusRead]

theorem yields_execIdent {pec} (h₀ : Evolves s₀ s) : Yields s₀ (execIdent pec s) := by grind [execIdent, yields_smbusRead]

theorem yields_execHoldup {pec} (h₀ : Evolves s₀ s) : Yields s₀ (execHoldup pec s) := by grind [execHoldup, yields_smbusRead]

theorem yields_execLogLast {pec} (h₀ : Evolves s₀ s) : Yields s₀ (execLogLast pec s) := by grind [execLogLast, yields_smbusRead]

theorem yields_execPowerOn {pec} (h₀ : Evolves s₀ s) : Yields s₀ (execPowerOn pec s) := by
  unfold execPowerOn
  exact yields_smbusWrite h₀ fun _ => ev_onRequest

theorem yields_execPowerOff {pec} (h₀ : Evolves s₀ s) : Yields s₀ (execPowerOff pec s) := by
  unfold execPowerOff
  exact yields_smbusWrite h₀ fun _ => ev_offRequest

theorem yields_execClearLatch {pec} (h₀ : Evolves s₀ s) : Yields s₀ (execClearLatch pec s) := by
  unfold execClearLatch
  exact yields_smbusWrite h₀ fun _ => ev_clearLatch

theorem yields_execAlertResponse {pec} (h₀ : Evolves s₀ s) : Yields s₀ (execAlertResponse pec s) := by
  grind [execAlertResponse, yields_done, ev_emit]

theorem yields_execSmbusUnknownCommand {code data} (h₀ : Evolves s₀ s) : Yields s₀ (execSmbusUnknownCommand code data s) := by
  grind [execSmbusUnknownCommand, yields_done, ev_emit]

theorem yields_execStreamRecord {p wire early} (h₀ : Evolves s₀ s) : Yields s₀ (execStreamRecord p wire early s) := by
  grind [execStreamRecord, yields_done, ev_receivePair, ev_onPort, ev_judgeLanes, ev_dropRecord, ev_acceptRecord]

theorem yields_execStreamFramingError {p h0 h1 wire} (h₀ : Evolves s₀ s) : Yields s₀ (execStreamFramingError p h0 h1 wire s) := by
  grind [execStreamFramingError, yields_done, ev_receivePair, ev_judgeLanes, ev_onPort]

theorem yields_execStreamCheckWord {p wire} (h₀ : Evolves s₀ s) : Yields s₀ (execStreamCheckWord p wire s) := by
  unfold execStreamCheckWord
  refine yields_ite (yields_done h₀ h₀) ?_
  split
  rename_i w u hread
  have hu : Evolves s₀ u := ev_pair hread (ev_receivePair h₀)
  clear hread
  refine yields_ite (yields_done h₀ (ev_judgeLanes hu)) (yields_ite (yields_done h₀ hu) ?_)
  extract_lets +onlyGivenNames t
  have ht : Evolves s₀ t := ev_onPort _ _ _ hu
  clear_value t
  exact yields_ite (yields_done h₀ ht) (yields_done h₀ (ev_event _ _ _ _ (ev_onPort _ _ _ ht)))

theorem yields_execStreamAlignWord {p wire} (h₀ : Evolves s₀ s) : Yields s₀ (execStreamAlignWord p wire s) := by
  grind [execStreamAlignWord, yields_done, ev_receivePair, ev_judgeLanes, ev_onPort]

theorem yields_execCombineRecord {p} (h₀ : Evolves s₀ s) : Yields s₀ (execCombineRecord p s) := by
  grind [execCombineRecord, yields_settled, ev_updStop, ev_combineOne, yields_done]

theorem yields_execStmStopNHoldExpiry {p} (h₀ : Evolves s₀ s) : Yields s₀ (execStmStopNHoldExpiry p s) := by
  grind [execStmStopNHoldExpiry, yields_done, ev_updStop, ev_onPort]

theorem yields_execEgressWordPositions {p} (h₀ : Evolves s₀ s) : Yields s₀ (execEgressWordPositions p s) := by
  grind [execEgressWordPositions, yields_settled, ev_sendCourse, yields_done]

theorem yields_execPlaybackReadData {p req} (h₀ : Evolves s₀ s) : Yields s₀ (execPlaybackReadData p req s) := by
  grind [execPlaybackReadData, yields_settled, ev_placeRead, yields_done]

theorem yields_execArm {p v} (h₀ : Evolves s₀ s) : Yields s₀ (execArm p v s) := by grind [execArm, yields_settled, ev_hostBar, yields_done]

theorem yields_execIngressFlush {p} (h₀ : Evolves s₀ s) : Yields s₀ (execIngressFlush p s) := by
  grind [execIngressFlush, yields_done, ev_hostBar]

theorem yields_execEgressFlush {p} (h₀ : Evolves s₀ s) : Yields s₀ (execEgressFlush p s) := by
  grind [execEgressFlush, yields_settled, ev_hostBar, yields_done]

theorem yields_execPlaylistEntryWrite {p list entry high v} (h₀ : Evolves s₀ s) :
    Yields s₀ (execPlaylistEntryWrite p list entry high v s) := by
  grind [execPlaylistEntryWrite, yields_settled, ev_hostBar, yields_done]

theorem yields_execStreamLanesDown {p} (h₀ : Evolves s₀ s) : Yields s₀ (execStreamLanesDown p s) := by
  grind [execStreamLanesDown, yields_done, ev_loseLanes]

theorem yields_execStreamLanesUp {p} (h₀ : Evolves s₀ s) : Yields s₀ (execStreamLanesUp p s) := by
  grind [execStreamLanesUp, yields_done, ev_lanesUp]

/-- Every command yields a state that has evolved from the one it found. -/
theorem exec_yields (c : Instr) (s : State) : Yields s (exec c s) :=
  have h := Evolves.refl s
  match c with
  | .courseStart .. => yields_execCourseStart h
  | .earlyEdge => yields_execEarlyEdge h
  | .missedTick .. => yields_execMissedTick h
  | .flywheelCourseEnd .. => yields_execFlywheelCourseEnd h
  | .flywheelClear => yields_execFlywheelClear h
  | .periodAverage => yields_execPeriodAverage h
  | .programWindowFix => yields_execProgramWindowFix h
  | .guardInterval => yields_execGuardInterval h
  | .escalationFall .. => yields_execEscalationFall h
  | .programAbandon .. => yields_execProgramAbandon h
  | .mediaReadDone .. => yields_execMediaReadDone h
  | .pulseGroupDone .. => yields_execPulseGroupDone h
  | .resetStripDone .. => yields_execResetStripDone h
  | .journalPageTimeout => yields_execJournalPageTimeout h
  | .checkpointPeriodic => yields_execCheckpointPeriodic h
  | .packageSample .. => yields_execPackageSample h
  | .stagingCopyDone .. => yields_execStagingCopyDone h
  | .rdShared .. => yields_execRdShared h
  | .rdUnique .. => yields_execRdUnique h
  | .upgrade .. => yields_execUpgrade h
  | .rdOnce .. => yields_execRdOnce h
  | .wrNc .. => yields_execWrNc h
  | .orderBarrier .. => yields_execOrderBarrier h
  | .complBarrier .. => yields_execComplBarrier h
  | .wbDirty .. => yields_execWbDirty h
  | .evictClean .. => yields_execEvictClean h
  | .ack .. => yields_execAck h
  | .snpResp .. => yields_execSnpResp h
  | .snpData .. => yields_execSnpData h
  | .atomic .. => yields_execAtomic h
  | .accum .. => yields_execAccum h
  | .reservedOpcodeMessage .. => yields_execReservedOpcodeMessage h
  | .readNotice .. => yields_execReadNotice h
  | .gatherMaxAge .. => yields_execGatherMaxAge h
  | .hostFenceRead => yields_execHostFenceRead h
  | .hostFenceTimeout => yields_execHostFenceTimeout h
  | .perstN => yields_execPerstN h
  | .functionLevelReset => yields_execFunctionLevelReset h
  | .d3hotTransition .. => yields_execD3hotTransition h
  | .streamRecord .. => yields_execStreamRecord h
  | .streamFramingError .. => yields_execStreamFramingError h
  | .streamCheckWord .. => yields_execStreamCheckWord h
  | .streamAlignWord .. => yields_execStreamAlignWord h
  | .combineRecord .. => yields_execCombineRecord h
  | .stmStopNHoldExpiry .. => yields_execStmStopNHoldExpiry h
  | .egressWordPositions .. => yields_execEgressWordPositions h
  | .playbackReadData .. => yields_execPlaybackReadData h
  | .arm .. => yields_execArm h
  | .ingressFlush .. => yields_execIngressFlush h
  | .egressFlush .. => yields_execEgressFlush h
  | .playlistEntryWrite .. => yields_execPlaylistEntryWrite h
  | .streamLanesDown .. => yields_execStreamLanesDown h
  | .streamLanesUp .. => yields_execStreamLanesUp h
  | .flitReceived .. => yields_execFlitReceived h
  | .nakRepeat .. => yields_execNakRepeat h
  | .linkStateTimeout .. => yields_execLinkStateTimeout h
  | .detectRetry .. => yields_execDetectRetry h
  | .trainingSet .. => yields_execTrainingSet h
  | .linkTrainFail .. => yields_execLinkTrainFail h
  | .creditInit .. => yields_execCreditInit h
  | .linkDown .. => yields_execLinkDown h
  | .keyOffer .. => yields_execKeyOffer h
  | .keyWrap .. => yields_execKeyWrap h
  | .keyDone .. => yields_execKeyDone h
  | .reservedLtype .. => yields_execReservedLtype h
  | .portEnable .. => yields_execPortEnable h
  | .agentReset .. => yields_execAgentReset h
  | .retrain .. => yields_execRetrain h
  | .groupHello l src size interleave tickSource part tck =>
    @yields_execGroupHello s s l src size interleave tickSource part tck h
  | .formWait => yields_execFormWait h
  | .tickAlignSend => yields_execTickAlignSend h
  | .tickAlign .. => yields_execTickAlign h
  | .hoistArm .. => yields_execHoistArm h
  | .hoistReply .. => yields_execHoistReply h
  | .groupHoistTimeout .. => yields_execGroupHoistTimeout h
  | .groupHoistCancel .. => yields_execGroupHoistCancel h
  | .linkResume .. => yields_execLinkResume h
  | .memberState .. => yields_execMemberState h
  | .readmit .. => yields_execReadmit h
  | .readmitWrite .. => yields_execReadmitWrite h
  | .configurationRequest .. => yields_execConfigurationRequest h
  | .bar0BadAccess .. => yields_execBar0BadAccess h
  | .registerWrite .. => yields_execRegisterWrite h
  | .bar2Read .. => yields_execBar2Read h
  | .bar2Write .. => yields_execBar2Write h
  | .bar2Atomic .. => yields_execBar2Atomic h
  | .atomicUnsupported .. => yields_execAtomicUnsupported h
  | .bar4Read .. => yields_execBar4Read h
  | .bar4Write .. => yields_execBar4Write h
  | .debugAccess .. => yields_execDebugAccess h
  | .tapInstruction .. => yields_execTapInstruction h
  | .sqTailDoorbell .. => yields_execSqTailDoorbell h
  | .cqHeadDoorbell .. => yields_execCqHeadDoorbell h
  | .sqEntryFetched .. => yields_execSqEntryFetched h
  | .interruptGap .. => yields_execInterruptGap h
  | .queueEnable .. => yields_execQueueEnable h
  | .queueDisable .. => yields_execQueueDisable h
  | .nop .. => yields_execNop h
  | .cachePreload .. => yields_execCachePreload h
  | .cacheUnlock .. => yields_execCacheUnlock h
  | .cacheMaintClean .. => yields_execCacheMaintClean h
  | .cacheMaintFlush .. => yields_execCacheMaintFlush h
  | .cacheMaintInvalidate .. => yields_execCacheMaintInvalidate h
  | .cacheMaintSetClean .. => yields_execCacheMaintSetClean h
  | .cacheMaintSetFlush .. => yields_execCacheMaintSetFlush h
  | .cacheMaintSetInvalidate .. => yields_execCacheMaintSetInvalidate h
  | .copy .. => yields_execCopy h
  | .resume .. => yields_execResume h
  | .discard .. => yields_execDiscard h
  | .hoistSubmit .. => yields_execHoistSubmit h
  | .hoistCancel .. => yields_execHoistCancel h
  | .snapshot .. => yields_execSnapshot h
  | .sealedImport .. => yields_execSealedImport h
  | .attestCert .. => yields_execAttestCert h
  | .attestIdentity .. => yields_execAttestIdentity h
  | .attestConfig .. => yields_execAttestConfig h
  | .attestGroup .. => yields_execAttestGroup h
  | .lifecycleOwned .. => yields_execLifecycleOwned h
  | .lifecycleSealed .. => yields_execLifecycleSealed h
  | .lifecycleReturn .. => yields_execLifecycleReturn h
  | .lifecycleEnd .. => yields_execLifecycleEnd h
  | .selfTest .. => yields_execSelfTest h
  | .stop .. => yields_execStop h
  | .run .. => yields_execRun h
  | .stopEntryComplete .. => yields_execStopEntryComplete h
  | .cphLockRead .. => yields_execCphLockRead h
  | .cphRelease .. => yields_execCphRelease h
  | .encrypt .. => yields_execEncrypt h
  | .decrypt .. => yields_execDecrypt h
  | .unwrap .. => yields_execUnwrap h
  | .wrap .. => yields_execWrap h
  | .clear .. => yields_execClear h
  | .cipherOpDone .. => yields_execCipherOpDone h
  | .cipherLockTimeout => yields_execCipherLockTimeout h
  | .powerUp .. => yields_execPowerUp h
  | .railGood .. => yields_execRailGood h
  | .railStart .. => yields_execRailStart h
  | .refStable .. => yields_execRefStable h
  | .clockTimeout => yields_execClockTimeout h
  | .dramTrained .. => yields_execDramTrained h
  | .startupThermalTimeout .. => yields_execStartupThermalTimeout h
  | .holdupCharged .. => yields_execHoldupCharged h
  | .memoryReady .. => yields_execMemoryReady h
  | .inputTrip .. => yields_execInputTrip h
  | .warningIntervalEnd => yields_execWarningIntervalEnd h
  | .commitPoint => yields_execCommitPoint h
  | .dumpComplete .. => yields_execDumpComplete h
  | .railDisable .. => yields_execRailDisable h
  | .inputRise .. => yields_execInputRise h
  | .inputGood => yields_execInputGood h
  | .autoRestart => yields_execAutoRestart h
  | .overVoltage .. => yields_execOverVoltage h
  | .overVoltageEnd .. => yields_execOverVoltageEnd h
  | .inputHigh .. => yields_execInputHigh h
  | .inputLimit => yields_execInputLimit h
  | .inputLimitClear => yields_execInputLimitClear h
  | .railRun .. => yields_execRailRun h
  | .clockFail => yields_execClockFail h
  | .pclkLoss => yields_execPclkLoss h
  | .holdupMeasure => yields_execHoldupMeasure h
  | .holdupMeasureDone .. => yields_execHoldupMeasureDone h
  | .dirtyLimitRecompute .. => yields_execDirtyLimitRecompute h
  | .pbShortPress => yields_execPbShortPress h
  | .pbHoldOff => yields_execPbHoldOff h
  | .forcedOff => yields_execForcedOff h
  | .mrRelease => yields_execMrRelease h
  | .hardReset => yields_execHardReset h
  | .glbResetKey => yields_execGlbResetKey h
  | .drainComplete => yields_execDrainComplete h
  | .clkGateWrite .. => yields_execClkGateWrite h
  | .unitUngated .. => yields_execUnitUngated h
  | .thermalStop .. => yields_execThermalStop h
  | .thermalTrip .. => yields_execThermalTrip h
  | .selfTestAuto .. => yields_execSelfTestAuto h
  | .selfTestRetry .. => yields_execSelfTestRetry h
  | .selfTestDone .. => yields_execSelfTestDone h
  | .scrubCorrection .. => yields_execScrubCorrection h
  | .cornerstoneAppendDone .. => yields_execCornerstoneAppendDone h
  | .eraseSlot .. => yields_execEraseSlot h
  | .program .. => yields_execProgram h
  | .imageOpDone .. => yields_execImageOpDone h
  | .operatingSecondsRecord => yields_execOperatingSecondsRecord h
  | .freeze => yields_execFreeze h
  | .freezeRelease => yields_execFreezeRelease h
  | .pmcClear => yields_execPmcClear h
  | .unitClear .. => yields_execUnitClear h
  | .pmcOverflow .. => yields_execPmcOverflow h
  | .eventSlotTimer => yields_execEventSlotTimer h
  | .eventLateRecord .. => yields_execEventLateRecord h
  | .expertClr => yields_execExpertClr h
  | .status .. => yields_execStatus h
  | .vin .. => yields_execVin h
  | .tempMax .. => yields_execTempMax h
  | .inlet .. => yields_execInlet h
  | .tripLast .. => yields_execTripLast h
  | .fatalLast .. => yields_execFatalLast h
  | .ident .. => yields_execIdent h
  | .holdup .. => yields_execHoldup h
  | .logLast .. => yields_execLogLast h
  | .powerOn .. => yields_execPowerOn h
  | .powerOff .. => yields_execPowerOff h
  | .clearLatch .. => yields_execClearLatch h
  | .alertResponse .. => yields_execAlertResponse h
  | .smbusUnknownCommand .. => yields_execSmbusUnknownCommand h
  | .sensorSample .. => yields_execSensorSample h
  | .flywheelInputEdge .. => yields_execFlywheelInputEdge h
  | .agentResetStretchEnd .. => yields_execAgentResetStretchEnd h
  | .receiverDetected .. => yields_execReceiverDetected h
  | .pcieLinkDown => yields_execPcieLinkDown h
  | .pcieRefReturn => yields_execPcieRefReturn h
  | .inputHighEnd .. => yields_execInputHighEnd h
  | .plinthDomainLoss => yields_execPlinthDomainLoss h
  | .attestDone => yields_execAttestDone h
  | .cornerstoneEraseDone .. => yields_execCornerstoneEraseDone h
  | .dapEnChange .. => yields_execDapEnChange h

end Sys2Proof.Machine
end

section
/-!
PROOF. What every step keeps (O3, O5), and the canonical forms at reset (O4).
-/

namespace Sys2Proof.Machine
open Sys2Proof

/-! ## One step (O3, O5) -/

/-- The state with another queue, which no part of the canonical forms and no part of the past speaks of. -/
theorem step_evolves {s t : State} (h : step s = .next t) : ∃ p, Evolves { s with pending := p } t := by
  unfold step at h
  split at h
  · cases h
    exact ⟨s.pending, .refl s⟩
  · rename_i c rest _
    obtain ⟨u, hu, hev⟩ := exec_yields c { s with pending := rest }
    cases hu.symm.trans h
    exact ⟨rest, hev⟩

/-- Settles O3: every operation of the model keeps the canonical forms, so a step does. -/
theorem everyStepKeepsTheCanonicalForms : Obligations.EveryStepKeepsTheCanonicalForms := by
  intro s t hs hstep
  obtain ⟨_, h⟩ := step_evolves hstep
  exact h.mem hs

/-- Settles O5: what every operation of the model keeps or only adds to, a step does. -/
theorem everyStepKeepsTheIdentityAndThePast : Obligations.EveryStepKeepsTheIdentityAndThePast := by
  intro s t hstep
  obtain ⟨_, h⟩ := step_evolves hstep
  have hf := h.fuses
  exact ⟨congrArg (·.part) hf, congrArg (·.grade) hf, congrArg (·.stepping) hf, congrArg (·.serial) hf, congrArg (·.fwLevel) hf,
    congrArg (·.rootKey) hf, h.grp, h.trans, h.out, h.now, h.fv⟩

/-- Settles O4: every memory and every table of the reset state is empty. -/
theorem resetHasTheCanonicalForms : Obligations.ResetHasTheCanonicalForms :=
  ⟨⟨rfl, rfl, rfl, rfl, rfl, rfl⟩, rfl, rfl, rfl, rfl, rfl, rfl, rfl⟩

end Sys2Proof.Machine
end

section
/-!
SUPPORT. What the event recorder leaves alone, continued (R516 to R519), and what the count of a TLP does (R210).
-/

namespace Sys2Proof.Machine
open Sys2Proof

section
variable (code src operand : Nat) (s : State)

@[simp] theorem event_glb : (event code src operand s).glb = s.glb := congrArg (·.glb) (besideRecording_event code src operand s)
@[simp] theorem event_plinth : (event code src operand s).plinth = s.plinth := congrArg (·.plinth) (besideRecording_event code src operand s)
@[simp] theorem event_pwr : (event code src operand s).pwr = s.pwr := congrArg (·.pwr) (besideRecording_event code src operand s)
@[simp] theorem event_hst : (event code src operand s).hst = s.hst := congrArg (·.hst) (besideRecording_event code src operand s)
@[simp] theorem event_clk : (event code src operand s).clk = s.clk := congrArg (·.clk) (besideRecording_event code src operand s)
@[simp] theorem event_cph : (event code src operand s).cph = s.cph := congrArg (·.cph) (besideRecording_event code src operand s)
@[simp] theorem event_err : (event code src operand s).err = s.err := congrArg (·.err) (besideRecording_event code src operand s)
@[simp] theorem event_out : (event code src operand s).out = s.out := congrArg (·.out) (besideRecording_event code src operand s)

end

section
variable (s : State)

@[simp] theorem tlpIn_pwr : (tlpIn s).pwr = s.pwr := congrArg (·.pwr) (besideCounting_tlpIn s)
@[simp] theorem tlpIn_cph : (tlpIn s).cph = s.cph := congrArg (·.cph) (besideCounting_tlpIn s)
@[simp] theorem tlpIn_sec : (tlpIn s).sec = s.sec := congrArg (·.sec) (besideCounting_tlpIn s)
@[simp] theorem tlpIn_ldg : (tlpIn s).ldg = s.ldg := congrArg (·.ldg) (besideCounting_tlpIn s)
@[simp] theorem tlpIn_dap : (tlpIn s).dap = s.dap := congrArg (·.dap) (besideCounting_tlpIn s)

end

end Sys2Proof.Machine
end

section
/-!
PROOF. One step (O1), the bands of R467 (O14), the lock of the cipher engine (O45) and the limit that the bank gives (O52).
-/

namespace Sys2Proof.Machine
open Sys2Proof

/-- Settles O1: both are the equation of `step` for the form of the queue. -/
theorem stepRunsTheFrontCommand : Obligations.StepRunsTheFrontCommand := by
  refine ⟨fun c rest s h => ?_, fun s h => ?_⟩ <;> simp only [step, h]

/-! ## Bands (R467) -/

/-- The range of a sample, by its lower edge. -/
theorem lt_bandOf_iff {b : Nat} {q : Int} (hb : b < 5) : b < bandOf q ↔ bandEdge (b + 1) ≤ q := by
  unfold bandOf
  interval_cases b <;> simp only [bandEdge] <;> grind

theorem bandOf_le_five (q : Int) : bandOf q ≤ 5 := by
  unfold bandOf
  grind

/-- A sample is at or above the lower edge of its range. -/
theorem bandEdge_bandOf_le {q : Int} (h : bandOf q ≠ 0) : bandEdge (bandOf q) ≤ q := by
  obtain ⟨b, hb⟩ := Nat.exists_eq_succ_of_ne_zero h
  have hle := bandOf_le_five q
  rw [hb]
  exact (lt_bandOf_iff (by omega)).mp (by omega)

/-- A sample below a band's lower edge lies in a lower range. -/
theorem bandOf_lt_of_lt_edge {b : Nat} {q : Int} (hb : b ≤ 5) (h0 : 1 ≤ b) (h : q < bandEdge b) : bandOf q < b := by
  obtain ⟨k, rfl⟩ := Nat.exists_eq_add_of_le' h0
  have hiff := lt_bandOf_iff (b := k) (q := q) (by omega)
  by_contra hn
  exact absurd (hiff.mp (by omega)) (by omega)

theorem bandOf_eq_zero_of_le (q : Int) (h : q ≤ bandEdge 0 - 8) : bandOf q = 0 := by
  simp only [bandEdge] at h
  exact if_pos (by omega)

/-- Settles O14: a rise is a range above the band's own, and a fall a sample 8 units below its edge, whose range is below it. -/
theorem bandsRiseAtOnceAndFallLate : Obligations.BandsRiseAtOnceAndFallLate := by
  intro b q hb
  have h5 := bandOf_le_five q
  have hup : b < bandOf q ↔ b < 5 ∧ bandEdge (b + 1) ≤ q := by
    by_cases h : b < 5
    · simp only [lt_bandOf_iff h, h, true_and]
    · exact iff_of_false (by omega) (fun k => h k.1)
  have hdown : q ≤ bandEdge b - 8 → (1 ≤ b → bandOf q < b) ∧ (b = 0 → bandOf q = 0) := fun h =>
    ⟨fun h0 => bandOf_lt_of_lt_edge hb h0 (by omega), fun h0 => bandOf_eq_zero_of_le q (h0 ▸ h)⟩
  have hedge := bandEdge_bandOf_le (q := q)
  unfold nextBand
  split
  · rename_i hlt
    refine ⟨h5, ⟨fun _ => hup.mp hlt, fun _ => hlt⟩, ⟨fun h => absurd hlt (by omega), fun h => ?_⟩, fun _ => .inl (hedge (by omega))⟩
    exact absurd ((hdown h.2).1 h.1) (by omega)
  · rename_i hge
    split
    · rename_i hlow
      obtain ⟨hpos, hzero⟩ := hdown hlow
      refine ⟨h5, iff_of_false hge fun h => hge (hup.mpr h), ⟨fun h => ⟨by omega, hlow⟩, fun h => hpos h.1⟩, fun _ => ?_⟩
      by_cases h : bandOf q = 0
      · exact .inr h
      · exact .inl (hedge h)
    · rename_i hhigh
      exact ⟨hb, iff_of_false (by omega) fun h => hge (hup.mpr h), iff_of_false (by omega) fun h => hhigh h.2, fun h => absurd rfl h⟩

/-! ## The lock of the cipher engine (R404) -/

/-- Settles O45: each is the case of `lockRead`, `releaseLock` or `cphCommand` that its hypothesis names; the ticket is a free value below
2^16. -/
theorem theCipherLockHasOneUser : Obligations.TheCipherLockHasOneUser := by
  refine ⟨fun cls s h => ⟨Config.freeValue s.fv % 65536, Nat.mod_lt _ (by decide), if_pos h⟩, fun cls s h => if_neg h,
    fun s h => if_pos ⟨h, rfl⟩, fun ticket s h => if_neg (by rintro ⟨h₁, h₂⟩; exact h.elim h₁ (· h₂)),
    fun cls ticket op key subj s h => if_pos h, fun s => ⟨rfl, rfl, rfl, rfl, rfl, rfl, rfl, rfl⟩⟩

/-! ## The limit of the bank (R430 to R432) -/

/-- The energy of R431 above its 1.5 J at the voltage `m`, in the unit of the model. -/
def spareAt (c m : Nat) : Nat := 36 * c * (m * m - 2560000) - 150000000000

theorem derivedLimit_eq (c v : Nat) : derivedLimit c v = min 8388608 (spareAt c (min v 4500) * 2097152 / 90000000000) := rfl

theorem spareAt_mono {c c' m m' : Nat} (hc : c ≤ c') (hm : m ≤ m') : spareAt c m ≤ spareAt c' m' :=
  Nat.sub_le_sub_right (Nat.mul_le_mul (Nat.mul_le_mul_left _ hc) (Nat.sub_le_sub_right (Nat.mul_le_mul hm hm) _)) _

theorem spareAt_eq_zero {m : Nat} (c : Nat) (h : m ≤ 1600) : spareAt c m = 0 := by
  have hsq : m * m ≤ 2560000 := (Nat.mul_le_mul h h).trans (by norm_num)
  have hnone : 36 * c * (m * m - 2560000) = 0 := mul_eq_zero_of_right _ (Nat.sub_eq_zero_of_le hsq)
  unfold spareAt
  omega

theorem derivedLimit_mono {c c' v v' : Nat} (hc : c ≤ c') (hv : v ≤ v') : derivedLimit c v ≤ derivedLimit c' v' := by
  have h := spareAt_mono hc (show min v 4500 ≤ min v' 4500 by omega)
  rw [derivedLimit_eq, derivedLimit_eq]
  omega

theorem derivedLimit_le (c v : Nat) : derivedLimit c v ≤ 8388608 := by
  rw [derivedLimit_eq]
  omega

theorem derivedLimit_eq_zero {v : Nat} (c : Nat) (h : v ≤ 1600) : derivedLimit c v = 0 := by
  have hnone := spareAt_eq_zero c (show min v 4500 ≤ 1600 by omega)
  rw [derivedLimit_eq, hnone]
  omega

/-- Above 45 V the bank counts as one at 45 V. -/
theorem derivedLimit_of_le {v : Nat} (c : Nat) (h : 4500 ≤ v) : derivedLimit c v = derivedLimit c 4500 := by
  rw [derivedLimit_eq, derivedLimit_eq, Nat.min_eq_right h, Nat.min_self]

/-- Below 4 GiB the limit is the whole part of the quotient of R431. -/
theorem derivedLimit_bounds {c v l : Nat} (hv : v ≤ 4500) (hl : derivedLimit c v = l) (hlt : l < 8388608) :
    l * 90000000000 ≤ spareAt c v * 2097152 ∧ spareAt c v * 2097152 < (l + 1) * 90000000000 := by
  rw [derivedLimit_eq, Nat.min_eq_left hv] at hl
  generalize spareAt c v = e at hl ⊢
  omega

/-- Said of any limit, so that no proof evaluates the one that the bank gives. -/
theorem setLimit_eq (v l : Nat) (s : State) :
    onPlinth (fun p => { p with vbank := v }) (onCch (fun x => { x with limit := l }) s) =
      { s with plinth := { s.plinth with vbank := v }, cch := { s.cch with limit := l } } := rfl

theorem measured_limits (c v method : Nat) (s : State) : (chargeAgain (measured c v method s)).pwr.cMeas = c ∧
    (chargeAgain (measured c v method s)).pwr.degraded = decide (c < 900) ∧ (chargeAgain (measured c v method s)).pwr.measuring = false ∧
    (chargeAgain (measured c v method s)).cch.limit = derivedLimit c v ∧ (chargeAgain (measured c v method s)).plinth.vbank = v ∧
    (chargeAgain (measured c v method s)).pwr.cntMeasure = sat 64 s.pwr.cntMeasure 1 := by
  have hcnt : (if (decide (c < 900) && !s.pwr.degraded) = true then event 0x0A03 0xA c s else s).pwr = s.pwr := by
    split
    · exact event_pwr _ _ _ s
    · rfl
  unfold measured
  dsimp only
  generalize (if (decide (c < 900) && !s.pwr.degraded) = true then event 0x0A03 0xA c s else s) = u at hcnt ⊢
  generalize derivedLimit c v = l
  exact ⟨rfl, rfl, rfl, rfl, rfl, congrArg (fun p : Pwr => sat 64 p.cntMeasure 1) hcnt⟩

/-- Settles O52: the measurement and the recomputation write what they are given, and the limit grows with each of its two numbers. -/
theorem theLimitFollowsTheBank : Obligations.TheLimitFollowsTheBank := by
  refine ⟨fun s hm hst hn hh => takes_of_done (if_pos ⟨hm, hst, hn, hh⟩), fun s h => takes_of_done (if_neg ?_),
    fun s c v h => ⟨_, rfl, engages_of_settled (if_pos h), measured_limits c v 1 s⟩,
    fun s c v h => takes_of_done (if_neg (by simp [h])), fun s v h => engages_of_settled ((if_pos h).trans (congrArg (settled s) (setLimit_eq v _ s))),
    fun s v h => takes_of_done (if_neg (by simp [h])), fun c v => ⟨derivedLimit_le c v, derivedLimit_eq_zero c, derivedLimit_of_le c⟩,
    fun _ _ _ _ => derivedLimit_mono, fun c v l hv hl hlt _ => ?_⟩
  · rintro ⟨hm, hst, hn, hh⟩
    rcases h with h | h | h | h
    · simp [hm] at h
    · exact h hst
    · simp [hn] at h
    · omega
  · exact derivedLimit_bounds hv hl hlt

end Sys2Proof.Machine
end

section
/-!
PROOF. The counters (R507 to R509; O57): a count keeps FREEZE and the canonical form of the table of units, and CLEAR clears each of its
entries.
-/

namespace Sys2Proof.Machine
open Sys2Proof

/-! ## What a count keeps -/

/-- FREEZE stands as it did in `s`, and the table of counter units is in its canonical form if it was in `s`. -/
def KeepsCounters (s t : State) : Prop :=
  t.pmc.freeze = s.pmc.freeze ∧ (Table.wf {} s.pmc.units = true → Table.wf {} t.pmc.units = true)

section
variable {s t : State}

theorem keepsCounters_refl (s : State) : KeepsCounters s s := ⟨rfl, id⟩

theorem keepsCounters_ite {c : Prop} [Decidable c] {u : State} (ht : KeepsCounters s t) (hu : KeepsCounters s u) :
    KeepsCounters s (if c then t else u) := by
  split
  · exact ht
  · exact hu

theorem keepsCounters_onUnit (u : Nat) (f : Pmc1 → Pmc1) (h : KeepsCounters s t) : KeepsCounters s (onUnit u f t) :=
  ⟨h.1, fun hwf => wf_tmod u f (h.2 hwf)⟩

theorem keepsCounters_sendMsix (v : Nat) (h : KeepsCounters s t) : KeepsCounters s (sendMsix v t) := by
  unfold sendMsix
  exact keepsCounters_ite h (keepsCounters_ite ⟨h.1, h.2⟩ ⟨h.1, h.2⟩)

theorem keepsCounters_pmcFlag (u i : Nat) (h : KeepsCounters s t) : KeepsCounters s (pmcFlag u i t) := by
  have hflag := keepsCounters_onUnit u (fun p => { p with ovf := p.ovf ||| (1 <<< i) }) h
  exact keepsCounters_ite (keepsCounters_sendMsix _ ⟨hflag.1, hflag.2⟩) hflag

theorem keepsCounters_pmcCarry (u i : Nat) (h : KeepsCounters s t) : KeepsCounters s (pmcCarry u i t) :=
  have hnext {f} : KeepsCounters s (onUnit u f t) := keepsCounters_onUnit u f h
  keepsCounters_ite (keepsCounters_ite (keepsCounters_pmcFlag u _ hnext) hnext) (keepsCounters_pmcFlag u i h)

theorem keepsCounters_pmcAdd (u code n i : Nat) (h : KeepsCounters s t) : KeepsCounters s (pmcAdd u code n i t) :=
  have hnext {f} : KeepsCounters s (onUnit u f t) := keepsCounters_onUnit u f h
  keepsCounters_ite (keepsCounters_ite (keepsCounters_pmcCarry u i hnext) hnext) h

theorem keepsCounters_count (u code n : Nat) (s : State) : KeepsCounters s (count u code n s) := by
  unfold count
  split
  · exact keepsCounters_refl s
  · exact each_preserves _ _ (fun i t => keepsCounters_pmcAdd u code n i) (keepsCounters_refl s)

end

theorem keepsCounters_tlpIn (s : State) : KeepsCounters s (tlpIn s) := keepsCounters_count _ _ _ s

theorem count_of_frozen (u code n : Nat) {s : State} (h : s.pmc.freeze = true) : count u code n s = s := if_pos (by simp [pmcStopped, h])

/-! ## CLEAR (R509) -/

/-- A unit's counters, overflow bits and shadow after CLEAR. -/
def cleared (x : Pmc1) : Pmc1 := { x with cyc := 0, scyc := 0, pc := [], spc := [], ovf := 0 }

/-- CLEAR writes the canonical form of the table with each unit cleared. -/
theorem clearCounters_units (s : State) : (clearCounters s).pmc.units = tall {} s.pmc.units cleared := by
  change List.filterMap (fun x => if cleared x.2 = {} then none else some (x.1, cleared x.2)) s.pmc.units = _
  unfold tall
  induction s.pmc.units with
  | nil => rfl
  | cons p l ih =>
    by_cases h : cleared p.2 = {}
    · rw [List.filterMap_cons, List.map_cons, List.filter_cons, if_pos h, if_neg (mt of_decide_eq_true (not_not.mpr h)), ← ih]
    · rw [List.filterMap_cons, List.map_cons, List.filter_cons, if_neg h, if_pos (decide_eq_true h), ← ih]

theorem tget_tall {α : Type} [DecidableEq α] {d : α} {f : α → α} {t : Table α} (i : Nat) (hwf : Table.wf d t = true) (hd : f d = d) :
    tget d (tall d t f) i = f (tget d t i) := by
  induction t with
  | nil => exact hd.symm
  | cons p t ih =>
    obtain ⟨k, v⟩ := p
    obtain ⟨hbelow, -, hwf⟩ := wf_cons.mp hwf
    have ih := ih hwf
    by_cases hk : i = k
    · subst hk
      have hnone : tget d t i = d := tget_of_below d hbelow
      by_cases hv : f v = d
      · simp_all [tall, tget]
      · simp [tall, tget, hv]
    · by_cases hv : f v = d
      · simp_all [tall, tget]
      · simp_all [tall, tget]

theorem pmcUnit_clearCounters {s : State} (u : Nat) (hwf : Table.wf {} s.pmc.units = true) :
    pmcUnit (clearCounters s) u = cleared (pmcUnit s u) := by
  rw [pmcUnit, clearCounters_units, tget_tall u hwf rfl]
  rfl

theorem pmcUnit_clearUnit_same {s : State} (u : Nat) (hwf : Table.wf {} s.pmc.units = true) :
    pmcUnit (clearUnit u s) u = cleared (pmcUnit s u) := tget_tmod_same ({} : Pmc1) s.pmc.units u cleared hwf

theorem pmcUnit_clearUnit_other {s : State} {u v : Nat} (h : v ≠ u) : pmcUnit (clearUnit u s) v = pmcUnit s v :=
  tget_tmod_other ({} : Pmc1) s.pmc.units cleared h

/-! ## The commands -/

theorem execPmcOverflow_eq (u i : Nat) (s : State) : execPmcOverflow u i s =
    if isCounterUnit u = true ∧ i < 8 ∧ pmcStopped s = false ∧ chained (pmcUnit s u) i = false ∧ tget 0 (pmcUnit s u).pc i = 2 ^ 32 - 1 then
      done s (pmcCarry u i (onUnit u (fun p => { p with pc := tset 0 p.pc i 0 }) s))
    else done s s := by
  simp only [execPmcOverflow, Bool.and_eq_true, decide_eq_true_eq, Bool.not_eq_true', beq_iff_eq, and_assoc]

/-- Settles O57: each command acts on the counters that the TLP's own count has left, and CLEAR clears every entry of the table. -/
theorem countersFreezeClearAndCarry : Obligations.CountersFreezeClearAndCarry := by
  refine ⟨fun s h => ⟨takes_of_done (congrArg (done s) (hostBar_of_reaches (f := freezeCounters true) (fun _ => rfl) h)),
      takes_of_done (congrArg (done s) (hostBar_of_reaches (f := freezeCounters false) (fun _ => rfl) h)),
      _, rfl, congrArg (done s) (hostBar_of_reaches (fun _ => rfl) h), (keepsCounters_tlpIn s).1, fun hwf u => ?_⟩,
    fun s u h => ?_, fun s u code n h => count_of_frozen u code n h, fun s u hwf => pmcUnit_clearCounters u hwf,
    fun s u hu h => ⟨_, rfl, takes_of_done ((if_pos hu).trans (congrArg (done s) (hostBar_of_reaches (fun _ => rfl) h))), fun hwf => ?_⟩,
    fun s u hu => takes_of_done (if_neg (by simp [hu])), fun s u v h => pmcUnit_clearUnit_other h,
    fun s u i hu hi hstop hch hlast => takes_of_done ((execPmcOverflow_eq u i s).trans (if_pos ⟨hu, hi, hstop, hch, hlast⟩)),
    fun s u i h => takes_of_done ((execPmcOverflow_eq u i s).trans (if_neg ?_))⟩
  · rw [pmcUnit_clearCounters u ((keepsCounters_tlpIn s).2 hwf)]
    exact ⟨rfl, rfl, rfl⟩
  · have hdown (c : Instr) : done s (hostBar c s) = done s s := congrArg (done s) (hostBar_of_down c h)
    refine ⟨takes_of_done (hdown _), takes_of_done (hdown _), takes_of_done (hdown _), takes_of_done ?_⟩
    exact (ite_congr rfl (fun _ => hdown _) fun _ => rfl).trans (ite_self _)
  · rw [pmcUnit_clearUnit_same u ((keepsCounters_tlpIn s).2 hwf)]
    exact ⟨rfl, rfl, rfl⟩
  · rintro ⟨hu, hi, hstop, hch, hlast⟩
    rcases h with h | h | h | h | h
    · simp [hu] at h
    · omega
    · simp [hstop] at h
    · simp [hch] at h
    · exact h hlast

end Sys2Proof.Machine
end

section
/-!
SUPPORT. What the loss of a link, the warning of the streams, the end of a command and the records of the flash leave alone (R292, R298, R434):
everything but traffic. One lemma an operation, in the order of the model's files.
-/

namespace Sys2Proof.Machine
open Sys2Proof

variable {s₀ s t : State}

/-- The state without what the loss of a link, the warning and the records touch: the home and the ordering, streams, links and group, the
queues of the host, the recorders and the outputs. -/
def besideTraffic (s : State) : State := { s with
  tck := { running := s.tck.running }, dir := {}, ord := {}, stm := {}, links := [], grp := {}, sec := { s.sec with cntDenied := 0 }
  hst := { linkUp := s.hst.linkUp, ready := s.hst.ready, pfw := s.hst.pfw, cfgReady := s.hst.cfgReady, lc := s.hst.lc }
  cph := { s.cph with imp := none }, pmc := {}, evr := {}, flash := {}, fv := 0, out := [] }

/-- Nothing but traffic has changed since `s₀`. -/
def Quiet (s₀ s : State) : Prop := besideTraffic s = besideTraffic s₀

theorem Quiet.refl (s : State) : Quiet s s := rfl

theorem quiet_eq (h : besideTraffic t = besideTraffic s) (h₀ : Quiet s₀ s) : Quiet s₀ t := h.trans h₀

theorem quiet_ite {c : Prop} [Decidable c] (ht : Quiet s₀ t) (hs : Quiet s₀ t → Quiet s₀ s) : Quiet s₀ (if c then s else t) := by
  split
  · exact hs ht
  · exact ht

theorem quiet_each {α : Type} (l : List α) (f : α → State → State) (h : Quiet s₀ s) (hf : ∀ x s, Quiet s₀ s → Quiet s₀ (f x s)) :
    Quiet s₀ (each l f s) := each_preserves l f hf h

theorem quiet_foldl {α β : Type} (l : List α) (f : β × State → α → β × State) {p : β × State} (h : Quiet s₀ p.2)
    (hf : ∀ p x, Quiet s₀ p.2 → Quiet s₀ (f p x).2) : Quiet s₀ (l.foldl f p).2 := by
  induction l generalizing p with
  | nil => exact h
  | cons x l ih => exact ih (hf p x h)

theorem quiet_onDir (f : Dir → Dir) (s : State) (h : Quiet s₀ s) : Quiet s₀ (onDir f s) := h
theorem quiet_onOrd (f : Ord → Ord) (s : State) (h : Quiet s₀ s) : Quiet s₀ (onOrd f s) := h
theorem quiet_onStm (f : Stm → Stm) (s : State) (h : Quiet s₀ s) : Quiet s₀ (onStm f s) := h
theorem quiet_onGrp (f : Grp → Grp) (s : State) (h : Quiet s₀ s) : Quiet s₀ (onGrp f s) := h
theorem quiet_onPmc (f : Pmc → Pmc) (s : State) (h : Quiet s₀ s) : Quiet s₀ (onPmc f s) := h
theorem quiet_onEvr (f : Evr → Evr) (s : State) (h : Quiet s₀ s) : Quiet s₀ (onEvr f s) := h
theorem quiet_onFlash (f : Flash → Flash) (s : State) (h : Quiet s₀ s) : Quiet s₀ (onFlash f s) := h
theorem quiet_onLink (i : Nat) (f : Lnk → Lnk) (s : State) (h : Quiet s₀ s) : Quiet s₀ (onLink i f s) := h
theorem quiet_onPort (i : Nat) (f : StmPort → StmPort) (s : State) (h : Quiet s₀ s) : Quiet s₀ (onPort i f s) := h
theorem quiet_onQueue (i : Nat) (f : HQueue → HQueue) (s : State) (h : Quiet s₀ s) : Quiet s₀ (onQueue i f s) := h
theorem quiet_onCopy (i : Nat) (f : CopyCh → CopyCh) (s : State) (h : Quiet s₀ s) : Quiet s₀ (onCopy i f s) := h
theorem quiet_push (o : Out) (s : State) (h : Quiet s₀ s) : Quiet s₀ (push o s) := h
theorem quiet_free (s : State) (h : Quiet s₀ s) : Quiet s₀ (free s).2 := h
theorem quiet_denied (s : State) (h : Quiet s₀ s) : Quiet s₀ (denied s) := h

theorem quiet_onTck (f : Tck → Tck) (s : State) (h : Quiet s₀ s) (hf : (f s.tck).running = s.tck.running) : Quiet s₀ (onTck f s) :=
  quiet_eq (by simp only [besideTraffic, onTck, hf]) h

theorem quiet_event (code src operand : Nat) (s : State) (h : Quiet s₀ s) : Quiet s₀ (event code src operand s) :=
  quiet_eq (congrArg besideTraffic (besideRecording_event code src operand s) :
    besideTraffic (besideRecording _) = besideTraffic (besideRecording _)) h

theorem quiet_sendMsix (v : Nat) (s : State) (h : Quiet s₀ s) : Quiet s₀ (sendMsix v s) :=
  quiet_ite (quiet_ite (quiet_push _ _ h) fun _ => h) fun _ => h

theorem quiet_count (u code n : Nat) (s : State) (h : Quiet s₀ s) : Quiet s₀ (count u code n s) :=
  quiet_eq (count_keeps (fun v s => quiet_sendMsix v s (Quiet.refl s)) (fun _ _ => rfl) u code n s) h

theorem quiet_msix (v : Nat) (s : State) (h : Quiet s₀ s) : Quiet s₀ (msix v s) :=
  quiet_sendMsix v _ (quiet_ite (quiet_count _ _ _ _ h) fun _ => h)

theorem quiet_onPart (n : ℕ) (f : Partition → Partition) (s : State) (h₀ : Quiet s₀ s) : Quiet s₀ (onPart n f s) := h₀

theorem quiet_append (n : ℕ) (key : ℕ) (payload : List Sys2Proof.Byte) (s : State) (h₀ : Quiet s₀ s) :
    Quiet s₀ (append n key payload s) := by
  grind [append, quiet_onFlash]

theorem quiet_sendRaw (i : ℕ) (ty : ℕ) (start : ℕ) (cr : ℕ) (slots : List (BitVec 128)) (msg : Option Out) (s : State) (h₀ : Quiet s₀ s) :
    Quiet s₀ (sendRaw i ty start cr slots msg s) := by
  grind [sendRaw, quiet_count, quiet_push, quiet_onLink]

theorem quiet_sendFlit (i : ℕ) (cls : ℕ) (o : Out) (s : State) (h₀ : Quiet s₀ s) : Quiet s₀ (sendFlit i cls o s) := by
  grind [sendFlit, quiet_onLink, quiet_sendRaw, quiet_push, quiet_count]

theorem quiet_hold (i : ℕ) (cls : ℕ) (o : Out) (s : State) (h₀ : Quiet s₀ s) : Quiet s₀ (hold i cls o s) := h₀

theorem quiet_emit (o : Out) (s : State) (h₀ : Quiet s₀ s) : Quiet s₀ (emit o s) := by
  grind [emit, quiet_push, quiet_count, quiet_onLink, quiet_sendFlit, quiet_hold]

theorem quiet_setDirEnt {k e} (h₀ : Quiet s₀ s) : Quiet s₀ (setDirEnt k e s) := h₀

theorem quiet_record {lg st} (h₀ : Quiet s₀ s) : Quiet s₀ (record lg st s) := by grind [record, quiet_count, quiet_onDir, quiet_setDirEnt]

theorem quiet_onTxn {i f} (h₀ : Quiet s₀ s) : Quiet s₀ (onTxn i f s) := h₀

theorem quiet_dropTxn {i} (h₀ : Quiet s₀ s) : Quiet s₀ (dropTxn i s) := h₀

theorem quiet_onGb {i f} (h₀ : Quiet s₀ s) : Quiet s₀ (onGb i f s) := h₀

theorem quiet_notePeak {b} (h₀ : Quiet s₀ s) : Quiet s₀ (notePeak b s) := by grind [notePeak, quiet_onOrd]

theorem quiet_takeId (h₀ : Quiet s₀ s) : Quiet s₀ (takeId s) := h₀

theorem quiet_order {r} (h₀ : Quiet s₀ s) : Quiet s₀ (order r s) := by grind [order, quiet_count, quiet_onDir]

theorem quiet_passEntry {g} (h₀ : Quiet s₀ s) : Quiet s₀ (passEntry g s) := by grind [passEntry, quiet_order, quiet_onGb, quiet_takeId]

theorem quiet_drainEntry {i} (h₀ : Quiet s₀ s) : Quiet s₀ (drainEntry i s) := by grind [drainEntry, quiet_each, quiet_passEntry]

theorem quiet_drainWhere {p} (h₀ : Quiet s₀ s) : Quiet s₀ (drainWhere p s) := by grind [drainWhere, quiet_each, quiet_drainEntry]

theorem quiet_tagRequest {path id kind rq gaddr} (h₀ : Quiet s₀ s) : Quiet s₀ (tagRequest path id kind rq gaddr s) := by
  grind [tagRequest, quiet_free, quiet_onPmc]

theorem quiet_stageTimes {passed} (h₀ : Quiet s₀ s) : Quiet s₀ (stageTimes passed s).2 := by
  unfold stageTimes
  refine quiet_foldl _ _ h₀ fun a p h => ?_
  dsimp only
  split
  · exact quiet_free _ h
  · exact h

theorem quiet_endSample {id flags info passed} (h₀ : Quiet s₀ s) : Quiet s₀ (endSample id flags info passed s) := by
  grind [endSample, quiet_stageTimes, quiet_onPmc]

theorem quiet_arrive {src c} (h₀ : Quiet s₀ s) : Quiet s₀ (arrive src c s) := by
  unfold arrive
  extract_lets +onlyGivenNames id s₁
  have h₁ : Quiet s₀ s₁ := quiet_onDir _ _ h₀
  clear_value s₁
  split
  · exact h₁
  · exact h₁
  · exact h₁
  · exact quiet_tagRequest h₁
  · exact h₁

theorem quiet_hostErr {kind cause addr bar4} (h₀ : Quiet s₀ s) : Quiet s₀ (hostErr kind cause addr bar4 s) := by
  unfold hostErr
  extract_lets +onlyGivenNames s₁ s₂
  have h₁ : Quiet s₀ s₁ := by
    refine quiet_eq ?_ h₀
    unfold s₁ besideTraffic onHst
    dsimp only
    split <;> rfl
  clear_value s₁
  have h₂ : Quiet s₀ s₂ := by
    unfold s₂
    split
    case h_8 => exact h₁
    all_goals exact quiet_emit _ _ h₁
  exact quiet_count _ _ _ _ (quiet_event _ _ _ _ h₂)

theorem quiet_internalWrite {src parent gaddr d poison} (h₀ : Quiet s₀ s) : Quiet s₀ (internalWrite src parent gaddr d poison s) := by
  grind [internalWrite, quiet_arrive]

theorem quiet_onRun {j f} (h₀ : Quiet s₀ s) : Quiet s₀ (onRun j f s) := h₀

theorem quiet_copyGot {j off d poison} (h₀ : Quiet s₀ s) : Quiet s₀ (copyGot j off d poison s) := by
  grind [copyGot, quiet_onRun, quiet_internalWrite, quiet_count]

theorem quiet_copyRefused {j off write st} (h₀ : Quiet s₀ s) : Quiet s₀ (copyRefused j off write st s) := by
  grind [copyRefused, quiet_onRun]

theorem quiet_streamError {p cause dir tag addr} (h₀ : Quiet s₀ s) : Quiet s₀ (streamError p cause dir tag addr s) := by
  grind [streamError, quiet_onPort, quiet_event]

theorem quiet_onEgRead {p i f} (h₀ : Quiet s₀ s) : Quiet s₀ (onEgRead p i f s) := h₀

theorem quiet_egressGot {p i g d cause} (h₀ : Quiet s₀ s) : Quiet s₀ (egressGot p i g d cause s) := by
  grind [egressGot, quiet_onPort, quiet_onEgRead, quiet_streamError]

theorem quiet_combDone {i cause} (h₀ : Quiet s₀ s) : Quiet s₀ (combDone i cause s) := by
  grind [combDone, quiet_onStm, quiet_count, quiet_each, quiet_streamError, quiet_onPort]

theorem quiet_importGot {g d} (h₀ : Quiet s₀ s) : Quiet s₀ (importGot g d s) := h₀

theorem quiet_hostReadDone {tag} (h₀ : Quiet s₀ s) : Quiet s₀ (hostReadDone tag s) := by
  unfold hostReadDone
  split
  · exact h₀
  · extract_lets +onlyGivenNames first n
    split
    · exact h₀
    · extract_lets +onlyGivenNames s₁ s₂
      have h₂ : Quiet s₀ s₂ := quiet_endSample (quiet_onDir _ _ h₀)
      clear_value s₂
      split
      · exact quiet_emit _ _ (quiet_hostErr h₂)
      · extract_lets +onlyGivenNames bytes ep s₃
        have h₃ : Quiet s₀ s₃ := by
          unfold s₃
          clear_value ep
          cases ep with
          | some i => exact quiet_hostErr h₂
          | none => exact h₂
        exact quiet_emit _ _ h₃

theorem quiet_hostGot {parent d poison} (h₀ : Quiet s₀ s) : Quiet s₀ (hostGot parent d poison s) := by
  grind [hostGot, quiet_hostReadDone, quiet_onDir]

theorem quiet_hostBad {parent cause} (h₀ : Quiet s₀ s) : Quiet s₀ (hostBad parent cause s) := by
  grind [hostBad, quiet_hostReadDone, quiet_onDir]

theorem quiet_close {t} (h₀ : Quiet s₀ s) : Quiet s₀ (close t s) := by grind [close, quiet_dropTxn, quiet_record]

theorem quiet_reserve {src agent gaddr lg rsv d poison} (h₀ : Quiet s₀ s) : Quiet s₀ (reserve src agent gaddr lg rsv d poison s) := by
  grind [reserve, quiet_notePeak, quiet_onOrd, quiet_takeId]

theorem quiet_leaveEnt {a lg} (h₀ : Quiet s₀ s) : Quiet s₀ (leaveEnt a lg s) := by grind [leaveEnt, quiet_setDirEnt]

theorem quiet_leaveRecorded {a lg} (h₀ : Quiet s₀ s) : Quiet s₀ (leaveRecorded a lg s) := by
  grind [leaveRecorded, quiet_leaveEnt, quiet_onTxn, quiet_record]

theorem quiet_loseAgent {a} (h₀ : Quiet s₀ s) : Quiet s₀ (loseAgent a s) := by
  unfold loseAgent
  extract_lets +onlyGivenNames link s₁ s₂ owned s₃ s₄ s₅ s₆ s₇
  have h₂ : Quiet s₀ s₂ := quiet_each _ _ (quiet_onDir _ _ h₀) fun _ _ => quiet_close
  have h₄ : Quiet s₀ s₄ := quiet_onOrd _ _ (quiet_onDir _ _ h₂)
  have h₅ : Quiet s₀ s₅ := quiet_each _ _ h₄ fun _ _ h => quiet_reserve (quiet_leaveRecorded h)
  have h₆ : Quiet s₀ s₆ := by
    refine quiet_each _ _ h₅ fun p s h => ?_
    split
    · split
      · exact quiet_ite (quiet_record h) fun _ => quiet_setDirEnt h
      · exact h
    · exact h
  exact quiet_event _ _ _ _ (quiet_onDir _ _ h₆)

theorem quiet_writeAway {w} (h₀ : Quiet s₀ s) : Quiet s₀ (writeAway w s) := by grind [writeAway, quiet_free, quiet_onOrd]

theorem quiet_fwdAnswer {f st htid grant d} (h₀ : Quiet s₀ s) : Quiet s₀ (fwdAnswer f st htid grant d s) := by
  unfold fwdAnswer
  extract_lets +onlyGivenNames s₁ s₂ flags s₃
  have h₁ : Quiet s₀ s₁ := quiet_onDir _ _ h₀
  clear_value s₁
  have h₂ : Quiet s₀ s₂ := by grind [quiet_writeAway]
  have h₃ : Quiet s₀ s₃ := quiet_endSample h₂
  clear_value s₃
  split
  · grind [quiet_emit]
  · grind [quiet_emit]
  · grind [quiet_emit, quiet_hostErr, quiet_hostGot, quiet_hostBad]
  · grind [quiet_copyGot, quiet_onRun, quiet_copyRefused]
  · grind [quiet_combDone, quiet_egressGot]
  · exact quiet_importGot h₃
  · grind [quiet_emit]

theorem quiet_updStop {p} (h₀ : Quiet s₀ s) : Quiet s₀ (updStop p s) := by grind [updStop, quiet_onPort]

theorem quiet_dropRecord {p cause r} (h₀ : Quiet s₀ s) : Quiet s₀ (dropRecord p cause r s) := by
  grind [dropRecord, quiet_count, quiet_streamError, quiet_onPort]

theorem quiet_applyEntry {i} (h₀ : Quiet s₀ s) : Quiet s₀ (applyEntry i s) := h₀

theorem quiet_beginEntry {i} (h₀ : Quiet s₀ s) : Quiet s₀ (beginEntry i s) := by grind [beginEntry, quiet_onStm, quiet_arrive]

theorem quiet_combineOne {p} (h₀ : Quiet s₀ s) : Quiet s₀ (combineOne p s) := by
  grind [combineOne, quiet_onPort, quiet_dropRecord, quiet_denied, quiet_applyEntry, quiet_count, quiet_onStm, quiet_takeId]

theorem quiet_applyStep (h₀ : Quiet s₀ s) : Quiet s₀ (applyStep s) := by grind [applyStep, quiet_each, quiet_applyEntry, quiet_beginEntry]

theorem quiet_commitPort {p} (h₀ : Quiet s₀ s) : Quiet s₀ (commitPort p s) := by grind [commitPort, quiet_onPort]

theorem quiet_lanesDown {p st} (h₀ : Quiet s₀ s) : Quiet s₀ (lanesDown p st s) := h₀

theorem quiet_emptyFifos (h₀ : Quiet s₀ s) : Quiet s₀ (emptyFifos s) := by grind [emptyFifos, quiet_each, quiet_combineOne]

theorem quiet_warnStreams (h₀ : Quiet s₀ s) : Quiet s₀ (warnStreams s) := by
  grind [warnStreams, quiet_each, quiet_updStop, quiet_onPort, quiet_applyStep, quiet_emptyFifos]

theorem quiet_updPorts (h₀ : Quiet s₀ s) : Quiet s₀ (updPorts s) := by grind [updPorts, quiet_each, quiet_commitPort, quiet_updStop]

theorem quiet_queueInt (q : ℕ) (s : State) (h₀ : Quiet s₀ s) : Quiet s₀ (queueInt q s) := by grind [queueInt, quiet_onQueue, quiet_msix]

theorem quiet_writeCqe {q d} (h₀ : Quiet s₀ s) : Quiet s₀ (writeCqe q d s) := by
  grind [writeCqe, quiet_count, quiet_emit, quiet_onQueue, quiet_queueInt]

theorem quiet_writeCqes {q} (h₀ : Quiet s₀ s) : Quiet s₀ (writeCqes q s) := by grind [writeCqes, quiet_each, quiet_writeCqe, quiet_onQueue]

theorem quiet_postDone {q d} (h₀ : Quiet s₀ s) : Quiet s₀ (postDone q d s) := by grind [postDone, quiet_writeCqes, quiet_onQueue]

theorem quiet_cmdDenied {status} (h₀ : Quiet s₀ s) : Quiet s₀ (cmdDenied status s) := by grind [cmdDenied, quiet_denied]

theorem quiet_checkFenced {q} (h₀ : Quiet s₀ s) : Quiet s₀ (checkFenced q s) := by
  grind [checkFenced, quiet_onQueue, quiet_postDone, quiet_cmdDenied]

theorem quiet_finish {c status result} (h₀ : Quiet s₀ s) : Quiet s₀ (finish c status result s) := by
  grind [finish, quiet_onQueue, quiet_checkFenced, quiet_postDone]

theorem quiet_setHoist {i h} (h₀ : Quiet s₀ s) : Quiet s₀ (setHoist i h s) := h₀

theorem quiet_takeHoistCancel {id} (h₀ : Quiet s₀ s) : Quiet s₀ (takeHoistCancel id s) := by
  grind [takeHoistCancel, quiet_onTck, quiet_event, quiet_setHoist]

theorem quiet_recomputeRoutes (h₀ : Quiet s₀ s) : Quiet s₀ (recomputeRoutes s) := by grind [recomputeRoutes, quiet_each, quiet_onGrp]

theorem quiet_sendGroup {lt d fields} (h₀ : Quiet s₀ s) : Quiet s₀ (sendGroup lt d fields s) := by grind [sendGroup, quiet_emit]

theorem quiet_electLeader (h₀ : Quiet s₀ s) : Quiet s₀ (electLeader s) := quiet_onGrp _ _ h₀

theorem quiet_endGroupHoist {g status} (h₀ : Quiet s₀ s) : Quiet s₀ (endGroupHoist g status s) := by
  grind [endGroupHoist, quiet_onTck, quiet_takeHoistCancel, quiet_each, quiet_sendGroup, quiet_finish]

theorem quiet_checkGroupHoists (h₀ : Quiet s₀ s) : Quiet s₀ (checkGroupHoists s) := by
  grind [checkGroupHoists, quiet_each, quiet_endGroupHoist]

theorem quiet_resendOn {o} (h₀ : Quiet s₀ s) : Quiet s₀ (resendOn o s) := by
  unfold resendOn
  split
  · split
    · exact quiet_emit _ _ h₀
    · exact h₀
  · split
    · split
      · exact quiet_emit _ _ h₀
      · exact h₀
    · exact h₀
  · split
    · split
      · exact quiet_emit _ _ h₀
      · exact h₀
    · exact h₀
  · exact quiet_emit _ _ h₀

theorem quiet_endHold {i again} (h₀ : Quiet s₀ s) : Quiet s₀ (endHold i again s) := by
  grind [endHold, quiet_each, quiet_resendOn, quiet_onLink]

theorem quiet_linkResumed {i fseq} (h₀ : Quiet s₀ s) : Quiet s₀ (linkResumed i fseq s) := by
  grind [linkResumed, quiet_onLink, quiet_endHold]

theorem quiet_loseOne {m} (h₀ : Quiet s₀ s) : Quiet s₀ (loseOne m s) := by
  unfold loseOne
  refine quiet_ite ?_ fun _ => h₀
  extract_lets +onlyGivenNames s₁ s₂ s₃ s₄ s₅ s₆ s₇
  have h₂ : Quiet s₀ s₂ := quiet_recomputeRoutes (quiet_electLeader (quiet_event _ _ _ _ (quiet_onGrp _ _ h₀)))
  have h₃ : Quiet s₀ s₃ := quiet_each _ _ h₂ fun _ _ => quiet_endHold
  have h₄ : Quiet s₀ s₄ := quiet_onOrd _ _ h₃
  have h₅ : Quiet s₀ s₅ := quiet_each _ _ h₄ fun _ _ => quiet_fwdAnswer
  have h₆ : Quiet s₀ s₆ := quiet_each _ _ h₅ fun _ _ => quiet_loseAgent
  have h₇ : Quiet s₀ s₇ := quiet_each _ _ h₆ fun _ _ => quiet_sendGroup
  exact quiet_checkGroupHoists h₇

theorem quiet_loseUnreachable (h₀ : Quiet s₀ s) : Quiet s₀ (loseUnreachable s) := by grind [loseUnreachable, quiet_each, quiet_loseOne]

theorem quiet_loseMember {m} (h₀ : Quiet s₀ s) : Quiet s₀ (loseMember m s) := by grind [loseMember, quiet_loseUnreachable, quiet_loseOne]

theorem quiet_dropPort {src} (h₀ : Quiet s₀ s) : Quiet s₀ (dropPort src s) := by grind [dropPort, quiet_each, quiet_endSample, quiet_onDir]

theorem quiet_answerSnoops {i l} (h₀ : Quiet s₀ s) : Quiet s₀ (answerSnoops i l s) := by grind [answerSnoops, quiet_each, quiet_emit]

theorem quiet_reroute {i st l p k} (h₀ : Quiet s₀ s) : Quiet s₀ (reroute i st l p k s) := by
  unfold reroute
  extract_lets +onlyGivenNames used msgs s₁ s₂ s₃
  have h₂ : Quiet s₀ s₂ := quiet_recomputeRoutes (quiet_onGrp _ _ (quiet_onLink _ _ _ h₀))
  have h₃ : Quiet s₀ s₃ := quiet_loseUnreachable (quiet_emit _ _ h₂)
  clear_value s₃
  split
  · exact quiet_linkResumed h₃
  · exact h₃

theorem quiet_leaveLink {i cause reason st} (h₀ : Quiet s₀ s) : Quiet s₀ (leaveLink i cause reason st s) := by
  unfold leaveLink
  extract_lets +onlyGivenNames k
  refine quiet_ite ?_ fun _ => quiet_onLink _ _ _ h₀
  extract_lets +onlyGivenNames s₁
  have h₁ : Quiet s₀ s₁ := quiet_event _ _ _ _ h₀
  clear_value s₁
  refine quiet_ite ?_ fun _ => quiet_loseAgent (quiet_answerSnoops (quiet_drainWhere (quiet_dropPort (quiet_onLink _ _ _ h₁))))
  extract_lets +onlyGivenNames s₂
  have h₂ : Quiet s₀ s₂ := quiet_drainWhere (quiet_onLink _ _ _ h₁)
  clear_value s₂
  split
  · exact quiet_onLink _ _ _ (quiet_dropPort h₂)
  · refine quiet_ite ?_ fun h => quiet_loseMember h
    split
    · exact quiet_reroute h₂
    · exact quiet_loseUnreachable (quiet_recomputeRoutes (quiet_onLink _ _ _ (quiet_dropPort h₂)))

theorem quiet_sendDown {i cause reason} (h₀ : Quiet s₀ s) : Quiet s₀ (sendDown i cause reason s) := by
  grind [sendDown, quiet_sendFlit, quiet_leaveLink, quiet_onLink]

theorem quiet_openSector {n} (h₀ : Quiet s₀ s) : Quiet s₀ (openSector n s) := by grind [openSector, quiet_onPart, quiet_onFlash]

theorem quiet_compact {n} (h₀ : Quiet s₀ s) : Quiet s₀ (compact n s) := by grind [compact, quiet_onPart, quiet_onFlash, quiet_onEvr]

theorem quiet_eventsDurable {n} (h₀ : Quiet s₀ s) : Quiet s₀ (eventsDurable n s) := by grind [eventsDurable, quiet_onFlash, quiet_onEvr]

theorem quiet_applyRecord {n r} (h₀ : Quiet s₀ s) : Quiet s₀ (applyRecord n r s) := by grind [applyRecord, quiet_onFlash]

theorem quiet_recordDurable {n r} (h₀ : Quiet s₀ s) : Quiet s₀ (recordDurable n r s) := by
  grind [recordDurable, quiet_openSector, quiet_onPart, quiet_eventsDurable, quiet_applyRecord, quiet_compact]

theorem quiet_recordSeconds (h₀ : Quiet s₀ s) : Quiet s₀ (recordSeconds s) := by grind [recordSeconds, quiet_append]

theorem quiet_saveSlots {n} (h₀ : Quiet s₀ s) : Quiet s₀ (saveSlots n s) := by
  induction n generalizing s with
  | zero => exact h₀
  | succ n ih => exact quiet_ite (ih (quiet_recordDurable h₀)) fun _ => h₀

theorem quiet_saveEvents (h₀ : Quiet s₀ s) : Quiet s₀ (saveEvents s) := by grind [saveEvents, quiet_saveSlots, quiet_onFlash]

theorem quiet_downLinks {cause reason} (h₀ : Quiet s₀ s) : Quiet s₀ (downLinks cause reason s) := by
  grind [downLinks, quiet_each, quiet_sendDown]

end Sys2Proof.Machine
end

section
/-!
PROOF. Clock gating (R457 to R461; O54): the two folds of `gateAfter` by their bits, and what gating a unit leaves of CLK_GATE.
-/

namespace Sys2Proof.Machine
open Sys2Proof

/-! ## A word that is built bit by bit -/

theorem getLsbD_one_shiftLeft (u k : Nat) : ((1 : BitVec 27) <<< u).getLsbD k = (decide (k < 27) && decide (u = k)) := by
  rw [BitVec.getLsbD_shiftLeft, BitVec.ofNat_eq_ofNat, BitVec.getLsbD_one]
  by_cases h : u = k
  · subst h
    simp
  · have hsub : ¬ (k - u = 0) ∨ k < u := by omega
    rcases hsub with hsub | hsub <;> simp [h, hsub]

/-- The bits that a fold sets are those of the positions that meet its condition. -/
theorem getLsbD_foldl_set (c : Nat → Bool) (l : List Nat) (a : BitVec 27) (k : Nat) :
    (l.foldl (fun a u => if c u then a ||| ((1 : BitVec 27) <<< u) else a) a).getLsbD k =
      (a.getLsbD k || (decide (k < 27) && decide (k ∈ l) && c k)) := by
  induction l generalizing a with
  | nil => simp
  | cons u l ih =>
    have hbit : (if c u then a ||| ((1 : BitVec 27) <<< u) else a).getLsbD k =
        (a.getLsbD k || (decide (k < 27) && decide (u = k) && c k)) := by
      by_cases hu : u = k
      · subst hu
        cases hc : c u
        · simp only [Bool.false_eq_true, if_false, Bool.and_false, Bool.or_false]
        · rw [if_pos rfl, BitVec.getLsbD_or, getLsbD_one_shiftLeft, Bool.and_true]
      · rw [decide_eq_false hu]
        cases hc : c u
        · simp only [Bool.false_eq_true, if_false, Bool.and_false, Bool.false_and, Bool.or_false]
        · rw [if_pos rfl, BitVec.getLsbD_or, getLsbD_one_shiftLeft, decide_eq_false hu, Bool.and_false, Bool.false_and]
    rw [List.foldl_cons, ih, hbit]
    simp only [List.mem_cons, Bool.decide_or, eq_comm (a := k), Bool.and_or_distrib_left, Bool.and_or_distrib_right, Bool.or_assoc]

/-! ## The tree (R459) -/

/-- The bit of a unit after a write of `v` in tree mode. -/
def unitBit (s : State) (v : BitVec 27) (u : Nat) : Bool :=
  if v.getLsbD u = s.clk.gate.getLsbD u then s.clk.gate.getLsbD u
  else if v.getLsbD u then s.clk.gate.getLsbD (parentOf u) || v.getLsbD (parentOf u) else inUse s u

/-- The unit bits after a write of `v` in tree mode, before the parents' bits. -/
def unitBits (s : State) (v : BitVec 27) : BitVec 27 :=
  (upto 24).foldl (fun a u => if unitBit s v u then a ||| ((1 : BitVec 27) <<< u) else a) 0

/-- A parent's bit after a write of `v` in tree mode. -/
def parentBit (s : State) (v : BitVec 27) (p : Nat) : Bool :=
  v.getLsbD p || (s.clk.gate.getLsbD p && (upto 24).any fun u => parentOf u == p && (unitBits s v).getLsbD u)

/-- The word after a write of `v` in tree mode. -/
def treeBits (s : State) (v : BitVec 27) : BitVec 27 :=
  [24, 25, 26].foldl (fun a p => if parentBit s v p then a ||| ((1 : BitVec 27) <<< p) else a) (unitBits s v)

section
variable {s : State} {v : BitVec 27} {u : Nat}

theorem gateAfter_of_flat (h : s.clk.tree = false) : gateAfter s v = (v ||| 0x7000000, false) := if_pos (by simp [h])

theorem gateAfter_of_tree (h : s.clk.tree = true) : gateAfter s v = (treeBits s v, treeBits s v != v) := if_neg (by simp [h])

theorem getLsbD_unitBits (u : Nat) : (unitBits s v).getLsbD u = (decide (u < 24) && unitBit s v u) := by
  have hlt : (decide (u < 27) && decide (u ∈ upto 24)) = decide (u < 24) := by
    rw [← Bool.decide_and, decide_eq_decide, mem_upto]
    omega
  rw [unitBits, getLsbD_foldl_set, hlt]
  simp

theorem getLsbD_treeBits (u : Nat) :
    (treeBits s v).getLsbD u = ((unitBits s v).getLsbD u || (decide (u < 27) && decide (u ∈ [24, 25, 26]) && parentBit s v u)) :=
  getLsbD_foldl_set _ _ _ _

theorem getLsbD_treeBits_unit (h : u < 24) : (treeBits s v).getLsbD u = unitBit s v u := by
  have hu : u ∉ [24, 25, 26] := by simp; omega
  simp [getLsbD_treeBits, hu, getLsbD_unitBits, h]

theorem getLsbD_treeBits_parent (h : 24 ≤ u) (h' : u < 27) : (treeBits s v).getLsbD u = parentBit s v u := by
  have hu : u ∈ [24, 25, 26] := by simp; omega
  rw [getLsbD_treeBits, getLsbD_unitBits, decide_eq_true hu, decide_eq_true h', decide_eq_false (by omega)]
  rfl

/-- What a parent's children are can be read off the word itself. -/
theorem parentBit_eq (p : Nat) : parentBit s v p =
    (v.getLsbD p || (s.clk.gate.getLsbD p && (upto 24).any fun u => parentOf u == p && (treeBits s v).getLsbD u)) := by
  have hchild : ((upto 24).any fun u => parentOf u == p && (unitBits s v).getLsbD u) =
      (upto 24).any fun u => parentOf u == p && (treeBits s v).getLsbD u := by
    rw [Bool.eq_iff_iff, List.any_eq_true, List.any_eq_true]
    refine exists_congr fun u => and_congr_right fun hu => ?_
    rw [getLsbD_treeBits_unit (mem_upto.mp hu), getLsbD_unitBits, decide_eq_true (mem_upto.mp hu), Bool.true_and]
  rw [parentBit, hchild]

end

/-! ## What gating and ungating leave of the word -/

/-- Gating a unit stops its clock and changes none of the word's own bits. -/
theorem gateUnit_word (u : Nat) (s : State) :
    (gateUnit u s).clk.gate = s.clk.gate ∧ (gateUnit u s).clk.refused = s.clk.refused := by
  have hquiet {t : State} (h : Quiet (onClk (fun k => { k with gateSt := k.gateSt &&& ~~~((1 : BitVec 27) <<< u) }) s) t) :
      t.clk.gate = s.clk.gate ∧ t.clk.refused = s.clk.refused :=
    have hclk : t.clk = _ := congrArg (·.clk) h
    ⟨congrArg (·.gate) hclk, congrArg (·.refused) hclk⟩
  have hend (m : Import) {t : State} (h : t.clk.gate = s.clk.gate ∧ t.clk.refused = s.clk.refused) :
      (endImport m 8 t).clk.gate = s.clk.gate ∧ (endImport m 8 t).clk.refused = s.clk.refused := by
    have hclk : (endImport m 8 t).clk = t.clk :=
      (congrArg (·.clk) (quiet_finish (Quiet.refl _))).trans (by split <;> rfl)
    exact hclk ▸ h
  unfold gateUnit
  extract_lets s₁
  have h₁ : Quiet s₁ s₁ := Quiet.refl s₁
  split
  · exact hquiet (quiet_leaveLink h₁)
  split
  · exact hquiet (quiet_onPort _ _ _ (quiet_lanesDown h₁))
  split
  · split
    · split
      · exact hend _ ⟨rfl, rfl⟩
      · exact ⟨rfl, rfl⟩
    · split
      · exact ⟨rfl, rfl⟩
      · exact ⟨rfl, rfl⟩
  split
  · refine hquiet (quiet_each _ _ h₁ fun j t h => ?_)
    split
    · exact quiet_finish (quiet_onCopy _ _ _ h)
    · exact h
  split
  · exact ⟨rfl, rfl⟩
  · exact ⟨rfl, rfl⟩

theorem inUse_tlpIn (s : State) (u : Nat) : inUse (tlpIn s) u = inUse s u := by
  simp only [inUse, link, port, copyCh, tlpIn_links, tlpIn_stm, tlpIn_cph, tlpIn_copies, tlpIn_dap]

theorem gateAfter_tlpIn (s : State) (v : BitVec 27) : gateAfter (tlpIn s) v = gateAfter s v := by
  simp only [gateAfter, tlpIn_clk, inUse_tlpIn]

theorem writeGate_word (v : BitVec 27) (s : State) : (writeGate v s).clk.gate = (gateAfter s v).1 ∧
    (writeGate v s).clk.refused = (s.clk.refused || (gateAfter s v).2) := by
  unfold writeGate
  split
  rename_i heq
  rw [heq]
  exact each_preserves (P := fun t => t.clk.gate = _ ∧ t.clk.refused = _) _ _
    (fun u t h => ⟨(gateUnit_word u t).1.trans h.1, (gateUnit_word u t).2.trans h.2⟩) ⟨rfl, rfl⟩

theorem startDetect_clk (i : Nat) (s : State) : (startDetect i s).clk = s.clk := by
  unfold startDetect
  dsimp only
  split <;> rfl

theorem ungateUnit_clk {u : Nat} {s : State} (hg : s.clk.gate.getLsbD u = true) (hst : s.clk.gateSt.getLsbD u = false) :
    (ungateUnit u s).clk = { s.clk with gateSt := s.clk.gateSt ||| ((1 : BitVec 27) <<< u) } := by
  unfold ungateUnit
  rw [if_neg (by simp [hg, hst])]
  dsimp only
  split
  · exact startDetect_clk u _
  · split <;> rfl

/-- Settles O54: the bits of the word by the folds of `gateAfter`; gating the stopped units and ungating a running one change no other bit. -/
theorem clockGatingFollowsItsTree : Obligations.ClockGatingFollowsItsTree := by
  refine ⟨fun s v h => ⟨_, rfl, engages_of_settled (congrArg (settled s) (hostBar_of_reaches (fun _ => rfl) h)), ?_⟩,
    fun s v h => engages_of_settled (congrArg (settled s) (hostBar_of_down _ h)), fun s v h u hu => ?_, fun s v u h hu => ?_,
    fun s v p h hp hp' => ?_, fun s v h => ?_, fun s v => writeGate_word v s, fun s u hu hg hst => ?_, fun s u h => ?_,
    fun s u hu hg => ?_, fun s u hg => if_pos (by simp [hg])⟩
  · obtain ⟨hgate, hrefused⟩ := writeGate_word (v.setWidth 27) (tlpIn s)
    rw [gateAfter_tlpIn] at hgate hrefused
    exact ⟨hgate, by rw [hrefused, tlpIn_clk]⟩
  · rw [gateAfter_of_flat h]
    refine ⟨?_, rfl⟩
    rw [BitVec.getLsbD_or]
    congr 1
    interval_cases u <;> rfl
  · rw [gateAfter_of_tree h, getLsbD_treeBits_unit hu, unitBit]
    refine ⟨fun hold hnew => ?_, fun hold hnew => ?_, fun heq => ?_⟩
    · rw [hold, hnew, if_neg (by decide), if_neg (by decide)]
    · rw [hold, hnew, if_neg (by decide), if_pos rfl]
    · rw [if_pos heq, heq]
  · rw [gateAfter_of_tree h, getLsbD_treeBits_parent hp hp', parentBit_eq]
  · rw [gateAfter_of_tree h]
    exact bne_iff_ne
  · have hclk := ungateUnit_clk hg hst
    exact ⟨_, rfl, takes_of_done (if_pos hu), congrArg (·.gateSt) hclk, congrArg (·.gate) hclk⟩
  · by_cases hu : u < 27
    · have hsame : ungateUnit u s = s := if_pos (by
        rcases h with h | h | h
        · omega
        · exact .inl (by simp [h])
        · exact .inr h)
      exact takes_of_done ((if_pos hu).trans (congrArg (done s) hsame))
    · exact takes_of_done (if_neg hu)
  · cases hst : s.clk.gateSt.getLsbD u with
    | true =>
      rw [ungateUnit, if_pos (.inr hst)]
      exact hst
    | false =>
      rw [ungateUnit_clk hg hst]
      simp [hu]

end Sys2Proof.Machine
end

section
/-!
PROOF. The side band (R443, R546 to R548; O59): a command is one of `smbusRead` and `smbusWrite`, and both do nothing unless the controller
lives and the PEC holds.
-/

namespace Sys2Proof.Machine
open Sys2Proof

section
variable {s : State}

theorem smbusTaken_eq (h : s.plinth.alive = true) (pec : Bool) : smbusTaken pec s = pec := by simp [smbusTaken, h]

theorem smbusTaken_of_dead (h : s.plinth.alive = false) (pec : Bool) : smbusTaken pec s = false := by simp [smbusTaken, h]

theorem smbusTaken_of_badPec (s : State) : smbusTaken false s = false := rfl

/-- What is taken is answered with the command's bytes. -/
theorem smbusRead_taken {pec : Bool} (d : List Byte) (h : smbusTaken pec s = true) :
    smbusRead pec d s = done s { s with out := .smbus (some d) :: s.out } := congrArg (done s) (if_pos h)

/-- What is not taken has no effect (R547). -/
theorem smbusRead_dropped {pec : Bool} (d : List Byte) (h : smbusTaken pec s = false) : smbusRead pec d s = done s s :=
  congrArg (done s) (if_neg (by simp [h]))

theorem smbusWrite_taken {pec : Bool} (f : State → State) (h : smbusTaken pec s = true) :
    smbusWrite pec f s = settled s (f { s with out := .smbus (some []) :: s.out }) := if_pos h

theorem smbusWrite_dropped {pec : Bool} (f : State → State) (h : smbusTaken pec s = false) : smbusWrite pec f s = done s s :=
  if_neg (by simp [h])

theorem railsOff_eq (s : State) : railsOff s = decide (s.plinth.st = 0) := rfl

theorem execTempMax_off {pec : Bool} (hoff : s.plinth.st = 0) (h : smbusTaken pec s = true) :
    execTempMax pec s = smbusRead pec (leBytes 2 (Config.freeValue s.fv)) { s with fv := s.fv + 1 } :=
  if_pos (by simp [railsOff_eq, hoff, h])

theorem execTempMax_else {pec : Bool} (h : s.plinth.st ≠ 0 ∨ smbusTaken pec s = false) :
    execTempMax pec s = smbusRead pec (leBytes 2 (twos 16 (sensor s (hottest s)).temp)) s :=
  if_neg (by
    simp only [railsOff_eq, Bool.and_eq_true, decide_eq_true_eq, not_and, Bool.not_eq_true]
    exact fun hoff => h.resolve_left (not_not.mpr hoff))

theorem ite_railsOff {α : Type} (a b : α) : (if railsOff s then a else b) = if s.plinth.st = 0 then a else b := by
  simp only [railsOff_eq, decide_eq_true_eq]

theorem heldDeg_eq (s : State) : heldDeg s = if s.plinth.st = 0 then s.plinth.degHeld else s.pwr.degraded := ite_railsOff _ _

theorem heldC_eq (s : State) : heldC s = if s.plinth.st = 0 then s.plinth.cHeld else s.pwr.cMeas := ite_railsOff _ _

/-- A transaction that is not taken changes nothing, whatever its command. -/
theorem takes_of_dropped {pec : Bool} (h : smbusTaken pec s = false) :
    Takes (.status pec) s s ∧ Takes (.vin pec) s s ∧ Takes (.tempMax pec) s s ∧ Takes (.inlet pec) s s ∧ Takes (.tripLast pec) s s ∧
    Takes (.fatalLast pec) s s ∧ Takes (.ident pec) s s ∧ Takes (.holdup pec) s s ∧ Takes (.logLast pec) s s ∧ Takes (.powerOn pec) s s ∧
    Takes (.powerOff pec) s s ∧ Takes (.clearLatch pec) s s ∧ Takes (.alertResponse pec) s s :=
  have hread (d : List Byte) := smbusRead_dropped d h
  have hwrite (f : State → State) := smbusWrite_dropped f h
  ⟨takes_of_done (hread _), takes_of_done (hread _), takes_of_done ((execTempMax_else (.inr h)).trans (hread _)), takes_of_done (hread _),
    takes_of_done (hread _), takes_of_done (hread _), takes_of_done (hread _), takes_of_done (hread _), takes_of_done (hread _),
    takes_of_done (hwrite _), takes_of_done (hwrite _), takes_of_done (hwrite _), takes_of_done (if_pos (by simp [h]))⟩

theorem takes_unknown_idle {code data : Byte} (h : s.plinth.alive = false ∨ smbusBad code data = false) :
    Takes (.smbusUnknownCommand code data) s s := takes_of_done (if_neg (by rcases h with h | h <;> simp [h]))

end

/-- Settles O59: each command is a read or a write of the side band, taken with its PEC while the controller lives. -/
theorem theSideBandAnswers : Obligations.TheSideBandAnswers := by
  refine ⟨fun s h => ?_, fun s b h => ?_, fun s code data h => takes_unknown_idle (.inr h), fun s => takes_of_dropped (smbusTaken_of_badPec s),
    fun s h => if_pos h, fun s hl hst => (if_neg (by simp [hl])).trans (if_pos hst), fun s hl hhot => if_pos (by simp [hl, hhot]),
    fun s _ hhot => if_neg (by simp [hhot]), fun s hl => if_neg (by simp [hl])⟩
  · have htaken := smbusTaken_eq h true
    have hread (d : List Byte) := smbusRead_taken d htaken
    have hwrite (f : State → State) := smbusWrite_taken f htaken
    refine ⟨takes_of_done (hread _), ?_, takes_of_done (hread _), fun hon => takes_of_done ((execTempMax_else (.inl hon)).trans (hread _)),
      fun hoff => ⟨Config.freeValue s.fv, takes_of_done ((execTempMax_off hoff htaken).trans ?_)⟩, ?_, takes_of_done (hread _),
      takes_of_done (hread _), takes_of_done (hread _), ?_, takes_of_done (hread _), engages_of_settled (hwrite _),
      engages_of_settled (hwrite _), engages_of_settled (hwrite _), fun ha => takes_of_done ?_, fun ha => takes_of_done ?_,
      fun code data hbad => takes_of_done (if_pos (by simp [h, hbad]))⟩
    · rw [smbusStatus, heldDeg_eq]
    · exact smbusRead_taken _ (smbusTaken_eq (s := { s with fv := s.fv + 1 }) h true)
    · rw [← ite_railsOff]
      exact takes_of_done (hread _)
    · rw [← heldC_eq, ← heldDeg_eq]
      exact takes_of_done (hread _)
    · exact (if_neg (by simp [htaken])).trans ((if_neg (by simp [ha])).trans rfl)
    · exact (if_neg (by simp [htaken])).trans ((if_pos (by simp [ha])).trans rfl)
  · obtain ⟨h₁, h₂, h₃, h₄, h₅, h₆, h₇, h₈, h₉, h₁₀, h₁₁, h₁₂, h₁₃⟩ := takes_of_dropped (smbusTaken_of_dead h b)
    exact ⟨h₁, h₂, h₃, h₄, h₅, h₆, h₇, h₈, h₉, h₁₀, h₁₁, h₁₂, h₁₃, fun _ _ => takes_unknown_idle (.inl h)⟩

end Sys2Proof.Machine
end

section
/-!
PROOF. The debug port and the TAP (R14, R364, R366, R368, R396, R542; O38).
-/

namespace Sys2Proof.Machine
open Sys2Proof

section
variable {s : State}

theorem emit_debug (d : Option (List Byte)) (s : State) : emit (.debug d) s = { s with out := .debug d :: s.out } := rfl

theorem execDebugAccess_on (a : DebugAcc) (h : debugOn s = true) : execDebugAccess a s = settled s (debugTake a s) := if_pos h

/-- The port takes an access when nothing waits before it and nothing holds it. -/
theorem debugTake_free {a : DebugAcc} (hfirst : s.glb.dbgWait = []) (hnone : debugWaits s a = false) : debugTake a s = debugAccess a s :=
  if_pos (by simp [hfirst, hnone])

theorem debugTake_waits {a : DebugAcc} (h : s.glb.dbgWait ≠ [] ∨ debugWaits s a = true) :
    debugTake a s = onGlb (fun g => { g with dbgWait := g.dbgWait ++ [a] }) s :=
  if_neg (by rcases h with h | h <;> simp [h])

theorem engages_debugAccess {a : DebugAcc} (hon : debugOn s = true) (hfirst : s.glb.dbgWait = []) (hnone : debugWaits s a = false) :
    Engages (.debugAccess a) s (debugAccess a s) :=
  engages_of_settled ((execDebugAccess_on a hon).trans (congrArg (settled s) (debugTake_free hfirst hnone)))

/-! ## Host scratch -/

theorem debugAccess_scratchWrite {off : Nat} {data : List Byte} (hlc : s.flash.lc < 2) (hlen : off + data.length ≤ 2 ^ 22) :
    debugAccess (.scratchWrite off data) s = emit (.debug (some [])) (scratchWrite off data s) :=
  if_neg (by rw [not_or]; exact ⟨Nat.not_le.mpr hlc, Nat.not_lt.mpr hlen⟩)

theorem debugAccess_scratchRead {off len : Nat} (hlc : s.flash.lc < 2) (hlen : off + len ≤ 2 ^ 22) :
    debugAccess (.scratchRead off len) s = emit (.debug (some (Memory.readN 0 s.hst.scratch off len))) (scratchRead off len s).2 :=
  if_neg (by rw [not_or]; exact ⟨Nat.not_le.mpr hlc, Nat.not_lt.mpr hlen⟩)

/-! ## GLB_SCRATCH, the register that every state serves -/

theorem served_scratch (s : State) : served s 0x0000058 = true := by simp [served]

theorem gatedOff_scratch (s : State) : gatedOff s 0x0000058 = false := rfl

/-- A wake on demand reaches no block below MED. -/
theorem wakeFor_of_lt {off : Nat} (s : State) (h : off < 0x0200000) : wakeFor off s = s := if_pos (by omega)

/-- The class of the access makes no difference to GLB_SCRATCH. -/
theorem regWrite_scratch_of (cls : Nat) (v : BitVec 64) (s : State) :
    regWrite cls 0x0000058 8 v s = onGlb (fun g => { g with scratch := v }) s := by
  have hclass : writeSlot (slotWrite cls 0x0000058 8 v s) s = writeSlot (slotWrite 1 0x0000058 8 v s) s := by
    simp [writeSlot, writeGlb, isExpert, slotWrite]
  rw [← regWrite_scratch v s, regWrite_eq, regWrite_eq, wakeFor_of_lt s (by decide), hclass]

theorem regRead_scratch (cls : Nat) (s : State) : regRead cls 0x0000058 8 s = (s.glb.scratch.toNat, s) := by
  have hslot : readSlot s cls 0x0000058 = s.glb.scratch.toNat := by simp [readSlot, readGlb, isExpert]
  have hlt := s.glb.scratch.isLt
  simp only [regRead, served_scratch, gatedOff_scratch, wakeFor_of_lt s (show 0x0000058 < 0x0200000 by decide)]
  simp [hslot, Nat.mod_eq_of_lt hlt]

theorem debugBlock_scratch (s : State) : debugBlock s 0x0000058 = true := by simp [debugBlock]

theorem debugWrite_scratch (v : BitVec 64) (h : 6 ≤ s.glb.step ∨ s.glb.failed = true) :
    debugWrite 0x0000058 8 v s = emit (.debug (some [])) (onGlb (fun g => { g with scratch := v }) s) := by
  have hlate : ¬ (s.glb.step < 6 ∧ (!s.glb.failed) = true) := by
    rcases h with h | h
    · omega
    · simp [h]
  rw [debugWrite, if_neg (by simp [aligned, debugBlock_scratch]), if_neg hlate, regWrite_scratch_of]

theorem debugWrite_held (v : BitVec 64) (h : s.glb.step < 6) (hf : s.glb.failed = false) :
    debugWrite 0x0000058 8 v s = onGlb (fun g => { g with heldWrites := g.heldWrites ++ [(0x0000058, 8, v)] }) s := by
  rw [debugWrite, if_neg (by simp [aligned, debugBlock_scratch]), if_pos ⟨h, by simp [hf]⟩]

theorem debugRead_scratch (s : State) :
    debugAccess (.regRead 0x0000058 8) s = emit (.debug (some (leBytes 8 s.glb.scratch.toNat))) s := by
  rw [debugAccess, if_neg (by simp [aligned, debugBlock_scratch]), regRead_scratch]

/-! ## From SEALED on (R396) -/

theorem debugBlock_of_sealed {off : Nat} (hlc : 2 ≤ s.flash.lc) (hoff : off / 2 ^ 20 ∉ [0, 0x10, 0xA]) : debugBlock s off = false := by
  simp only [List.mem_cons, List.not_mem_nil, or_false, not_or] at hoff
  obtain ⟨h0, h10, hA⟩ := hoff
  simp only [debugBlock, decide_eq_false (Nat.not_lt.mpr hlc), beq_eq_false_iff_ne.mpr h0, beq_eq_false_iff_ne.mpr h10,
    beq_eq_false_iff_ne.mpr hA, Bool.or_false, Bool.false_and]

theorem debugMem_of_sealed (hlc : 2 ≤ s.flash.lc) : debugMem s = false := by simp [debugMem, Nat.not_lt.mpr hlc]

theorem bootSteps_idle (h : s.glb.step ≠ 3 ∨ s.glb.failed = true) : bootSteps s = s :=
  if_pos (by rcases h with h | h <;> simp [h])

end

/-- Settles O38: an access that the port takes has its effect at once, one that it cannot take waits, and from SEALED on it answers with
nothing but GLB, SEC and EVR. -/
theorem theDebugPortIsLimited : Obligations.TheDebugPortIsLimited := by
  refine ⟨fun s a hon hfirst hnone => engages_debugAccess hon hfirst hnone,
    fun s a hon hwait => ⟨_, engages_of_settled ((execDebugAccess_on a hon).trans (congrArg (settled s) (debugTake_waits hwait))), rfl⟩,
    fun s a hon => takes_of_done (if_neg (by simp [hon])), fun s off data hon hfirst hbusy hlc hlen => ?_,
    fun s off len hon hfirst hbusy hlc hlen => ?_, fun s hon hfirst hbusy => ?_, fun s addr len data hlc => ?_,
    fun s off size v hlc hoff => ?_, fun s hst => ⟨takes_of_done ?_, _, rfl, engages_of_settled ?_, fun h => bootSteps_idle h⟩,
    fun s b hst => takes_of_done (if_pos hst), fun s => rfl, fun s hst hclk => takes_of_done (if_neg ?_), fun s h => takes_of_done (if_pos ?_)⟩
  · refine ⟨_, engages_debugAccess hon hfirst (by simp [debugWaits, hbusy]), ?_⟩
    rw [debugAccess_scratchWrite hlc hlen, emit_debug]
    exact ⟨rfl, fun hwf => readN_scratchWrite hwf, fun a h => read_scratchWrite_outside h⟩
  · refine ⟨_, engages_debugAccess hon hfirst (by simp [debugWaits, hbusy]), ?_⟩
    rw [debugAccess_scratchRead hlc hlen]
    rfl
  · have htake {a : DebugAcc} (h : debugWaits s a = debugBusy s) : Engages (.debugAccess a) s (debugAccess a s) :=
      engages_debugAccess hon hfirst (h.trans hbusy)
    refine ⟨fun v h => ⟨_, htake (Bool.or_false _), ?_⟩, fun v h hf => ⟨_, htake (Bool.or_false _), ?_⟩, _, htake (Bool.or_false _), ?_⟩
    · exact congrArg (·.glb.scratch) (debugWrite_scratch v h)
    · have hheld := debugWrite_held v h hf
      exact ⟨congrArg (·.glb.heldWrites) hheld, congrArg (·.glb.scratch) hheld⟩
    · exact congrArg (·.out) (debugRead_scratch s)
  · have hmem := debugMem_of_sealed hlc
    exact ⟨if_pos (by simp [hmem]), if_pos (by simp [hmem]), if_pos (.inl hlc), if_pos (.inl hlc)⟩
  · have hblock := debugBlock_of_sealed hlc hoff
    exact ⟨if_pos (by simp [hblock]), if_pos (by simp [hblock])⟩
  · exact (if_neg hst).trans (if_neg (by decide))
  · exact (if_neg hst).trans (if_pos rfl)
  · rcases hclk with h | h
    · simp [hst, Nat.not_le.mpr h]
    · simp [hst, h]
  · rcases h with h | ⟨h, hclk⟩
    · simp [h]
    · simp [h, hclk]

end Sys2Proof.Machine
end

section
/-!
PROOF. The write of SEC_RIGHTS before the lock (R7, R390; O35) on a region table that is not in its canonical form: `tset` deletes the entry that
becomes the default, and an index that is listed twice then reads as its second entry.
-/

namespace Sys2Proof.Machine
open Sys2Proof

/-- A state before the lock, whose region table lists the region 0 twice. -/
def twoRights : State := { ord := { regions := [(0, { rights := 0x3000001 }), (0, { rights := 0x3000002 })] } }

/-- The write of 0 gives the first entry the default rights, and the region reads as the second one. -/
theorem rights_twoRights : (tget {} (regWrite 1 0xA01000 8 0 twoRights).ord.regions 0).rights = 0x3000002 := by decide

/-- Refutes O35: where the region table lists an index twice, which no hypothesis shuts out, a write of SEC_RIGHTS that leaves the firmware's
classes alone does not give the region the rights that it writes. -/
theorem not_lockedAndUnservedWritesDoNothing : ¬ Obligations.LockedAndUnservedWritesDoNothing := by
  rintro ⟨-, hrights, -⟩
  obtain ⟨t, rfl, hwritten, -⟩ := hrights twoRights 1 0 0 (by decide) rfl rfl rfl
  exact absurd (rights_twoRights.symm.trans hwritten) (by decide)

end Sys2Proof.Machine
end

section
/-!
SUPPORT. What the ways down leave of the module (R434, R443 to R448): the power-down, the warning, the loss of the controller and the quiescing,
each by the fields that it sets and the ones that it keeps.
-/

namespace Sys2Proof.Machine
open Sys2Proof

section
variable {s₀ s : State}

/-! ## What is beside the traffic -/

theorem Quiet.fuses (h : Quiet s₀ s) : s.fuses = s₀.fuses := congrArg (·.fuses) h
theorem Quiet.medium (h : Quiet s₀ s) : s.medium = s₀.medium := congrArg (·.medium) h
theorem Quiet.plinth (h : Quiet s₀ s) : s.plinth = s₀.plinth := congrArg (·.plinth) h
theorem Quiet.glb (h : Quiet s₀ s) : s.glb = s₀.glb := congrArg (·.glb) h
theorem Quiet.med (h : Quiet s₀ s) : s.med = s₀.med := congrArg (·.med) h
theorem Quiet.cch (h : Quiet s₀ s) : s.cch = s₀.cch := congrArg (·.cch) h
theorem Quiet.pwr (h : Quiet s₀ s) : s.pwr = s₀.pwr := congrArg (·.pwr) h
theorem Quiet.clk (h : Quiet s₀ s) : s.clk = s₀.clk := congrArg (·.clk) h
theorem Quiet.thm (h : Quiet s₀ s) : s.thm = s₀.thm := congrArg (·.thm) h
theorem Quiet.err (h : Quiet s₀ s) : s.err = s₀.err := congrArg (·.err) h
theorem Quiet.hst_pfw (h : Quiet s₀ s) : s.hst.pfw = s₀.hst.pfw := congrArg (·.hst.pfw) h
theorem Quiet.running (h : Quiet s₀ s) : s.tck.running = s₀.tck.running := congrArg (·.tck.running) h

/-! ## The rails (R423) -/

theorem tget_foldl_tset {α : Type} [DecidableEq α] (d v : α) (hv : v ≠ d) (l : List Nat) (t : Table α) {r : Nat} (h : r ∈ l ∨ tget d t r = v) :
    tget d (l.foldl (fun t r => tset d t r v) t) r = v := by
  induction l generalizing t with
  | nil => exact h.resolve_left (by simp)
  | cons k l ih =>
    refine ih _ ?_
    by_cases hk : r = k
    · exact .inr (hk ▸ tget_tset_of_ne d t k hv)
    · rcases h with h | h
      · exact .inl ((List.mem_cons.mp h).resolve_left hk)
      · exact .inr ((tget_tset_other d t v hk).trans h)

theorem railSt_allRails_zero {r : Nat} (h : r < 24) (s : State) : railSt (allRails 0 s) r = 0 := by
  rw [railSt, allRails, onPlinth_plinth, tget_foldl_tset (2, 0) (0, 0) (by decide) (upto 24) s.plinth.rails (.inl (mem_upto.mpr h))]

theorem railSt_setRail_same {st mv r : Nat} (h : (st, mv) ≠ (2, 0)) (s : State) : railSt (setRail r st mv s) r = st :=
  congrArg Prod.fst (tget_tset_of_ne (2, 0) s.plinth.rails r h)

theorem railSt_setRail_other {st mv r k : Nat} (h : k ≠ r) (s : State) : railSt (setRail r st mv s) k = railSt s k :=
  congrArg Prod.fst (tget_tset_other (2, 0) s.plinth.rails (st, mv) h)

theorem railSt_congr {s t : State} (h : t.plinth.rails = s.plinth.rails) (r : Nat) : railSt t r = railSt s r :=
  congrArg (fun x => (tget (2, 0) x r).1) h

/-! ## The power-down (R445) -/

theorem quiet_railsDown (c : Nat) (s : State) :
    Quiet { s with plinth := { s.plinth with st := 7, cause := c, charger := false, agtRst := 0xFF } } (railsDown c s) :=
  quiet_each _ _ (Quiet.refl _) fun _ _ h => quiet_ite h quiet_leaveLink

@[simp] theorem railsDown_plinth (c : Nat) (s : State) :
    (railsDown c s).plinth = { s.plinth with st := 7, cause := c, charger := false, agtRst := 0xFF } :=
  (quiet_railsDown c s).plinth

@[simp] theorem railsDown_glb (c : Nat) (s : State) : (railsDown c s).glb = s.glb := (quiet_railsDown c s).glb

@[simp] theorem railsDown_medium (c : Nat) (s : State) : (railsDown c s).medium = s.medium := (quiet_railsDown c s).medium

/-! ## The records of the cornerstone flash -/

@[simp] theorem saveEvents_plinth (s : State) : (saveEvents s).plinth = s.plinth := (quiet_saveEvents (Quiet.refl s)).plinth

@[simp] theorem saveEvents_glb (s : State) : (saveEvents s).glb = s.glb := (quiet_saveEvents (Quiet.refl s)).glb

@[simp] theorem saveEvents_medium (s : State) : (saveEvents s).medium = s.medium := (quiet_saveEvents (Quiet.refl s)).medium

theorem quiet_resolveAppends (h : Quiet s₀ s) : Quiet s₀ (resolveAppends s) :=
  quiet_each _ _ (quiet_onFlash _ _ h) fun _ _ => quiet_recordDurable

theorem quiet_tornImage (h : Quiet s₀ s) : Quiet s₀ (tornImage s) := quiet_ite h fun h => h

/-! ## The controller off (R365) -/

theorem controllerLost_plinth (s : State) : (controllerLost s).plinth = s.plinth :=
  (quiet_tornImage (quiet_resolveAppends (Quiet.refl s))).plinth

@[simp] theorem controllerOff_plinth (s : State) :
    (controllerOff s).plinth = { s.plinth with st := 0, charger := false, agtRst := 0xFF, tapHold := false } := by
  change { (controllerLost s).plinth with st := 0, charger := false, agtRst := 0xFF, tapHold := false } = _
  rw [controllerLost_plinth]

@[simp] theorem railSt_controllerOff (s : State) (r : Nat) : railSt (controllerOff s) r = railSt s r := by rw [railSt, controllerOff_plinth, railSt]

@[simp] theorem controllerOff_glb (s : State) : (controllerOff s).glb = {} := rfl

@[simp] theorem controllerOff_tck (s : State) : (controllerOff s).tck = {} := rfl

@[simp] theorem controllerOff_cch (s : State) : (controllerOff s).cch = {} := rfl

/-! ## The warning (R434) -/

/-- The state without what the wake touches: the clocks, the run state, the holds of the engines, and the record of the hoists that lapsed. -/
def besideWaking (s : State) : State :=
  { s with clk := {}, ord := {}, hst := {}, evr := {}, flash := {}, pwr := { s.pwr with runSt := 0, entry := 0, lapsed := [] } }

theorem besideWaking_congr {t : State} (h : besideRecording t = besideRecording s) : besideWaking t = besideWaking s :=
  (congrArg besideWaking h :)

theorem besideWaking_recordLapsed (s : State) : besideWaking (recordLapsed s) = besideWaking s :=
  each_keeps s.pwr.lapsed _ besideWaking (fun _ _ => besideWaking_congr (besideRecording_event ..)) s

theorem besideWaking_wakeNow (s : State) : besideWaking (wakeNow s) = besideWaking s := by
  have hset (t : State) (k : Clk → Clk) (o : Ord → Ord) (h : Hst → Hst) :
      besideWaking (onClk k (onOrd o (onHst h (onPwr (fun p => { p with runSt := 0, entry := 0 }) t)))) = besideWaking t := by
    simp only [besideWaking, onClk, onOrd, onHst, onPwr]
  unfold wakeNow
  split
  · rfl
  · exact (hset ..).trans (besideWaking_recordLapsed s)

@[simp] theorem wakeNow_plinth (s : State) : (wakeNow s).plinth = s.plinth := congrArg (·.plinth) (besideWaking_wakeNow s)

@[simp] theorem wakeNow_thm (s : State) : (wakeNow s).thm = s.thm := congrArg (·.thm) (besideWaking_wakeNow s)

@[simp] theorem wakeNow_drain (s : State) : (wakeNow s).pwr.drain = s.pwr.drain := congrArg (·.pwr.drain) (besideWaking_wakeNow s)

@[simp] theorem wakeNow_drainSt (s : State) : (wakeNow s).pwr.drainSt = s.pwr.drainSt := congrArg (·.pwr.drainSt) (besideWaking_wakeNow s)

@[simp] theorem wakeNow_cntTrip (s : State) : (wakeNow s).pwr.cntTrip = s.pwr.cntTrip := congrArg (·.pwr.cntTrip) (besideWaking_wakeNow s)

theorem quiet_warn (c : Nat) (s : State) :
    Quiet { wakeNow s with
        plinth := { (wakeNow s).plinth with st := 3, pfw := true, charger := false, cause := c, autoRe := c == 0 }
        hst := { (wakeNow s).hst with pfw := true }
        pwr := { (wakeNow s).pwr with noStart := true } } (warn c s) := quiet_warnStreams (Quiet.refl _)

@[simp] theorem warn_plinth (c : Nat) (s : State) :
    (warn c s).plinth = { s.plinth with st := 3, pfw := true, charger := false, cause := c, autoRe := c == 0 } := by
  rw [show (warn c s).plinth = { (wakeNow s).plinth with st := 3, pfw := true, charger := false, cause := c, autoRe := c == 0 } from
    (quiet_warn c s).plinth, wakeNow_plinth]

@[simp] theorem warn_hst_pfw (c : Nat) (s : State) : (warn c s).hst.pfw = true := (quiet_warn c s).hst_pfw

@[simp] theorem warn_thm (c : Nat) (s : State) : (warn c s).thm = s.thm := ((quiet_warn c s).thm).trans (wakeNow_thm s)

@[simp] theorem warn_drain (c : Nat) (s : State) : (warn c s).pwr.drain = s.pwr.drain :=
  (congrArg (·.drain) (quiet_warn c s).pwr).trans (wakeNow_drain s)

@[simp] theorem warn_drainSt (c : Nat) (s : State) : (warn c s).pwr.drainSt = s.pwr.drainSt :=
  (congrArg (·.drainSt) (quiet_warn c s).pwr).trans (wakeNow_drainSt s)

@[simp] theorem warn_cntTrip (c : Nat) (s : State) : (warn c s).pwr.cntTrip = s.pwr.cntTrip :=
  (congrArg (·.cntTrip) (quiet_warn c s).pwr).trans (wakeNow_cntTrip s)

/-! ## The quiescing (R434) -/

theorem quiet_quiesce (s : State) : Quiet s (quiesce s) := quiet_drainWhere (Quiet.refl s)

@[simp] theorem quiesce_plinth (s : State) : (quiesce s).plinth = s.plinth := (quiet_quiesce s).plinth

@[simp] theorem quiesce_pwr (s : State) : (quiesce s).pwr = s.pwr := (quiet_quiesce s).pwr

@[simp] theorem quiesce_thm (s : State) : (quiesce s).thm = s.thm := (quiet_quiesce s).thm

@[simp] theorem quiesce_hst_pfw (s : State) : (quiesce s).hst.pfw = s.hst.pfw := (quiet_quiesce s).hst_pfw

end

end Sys2Proof.Machine
end

section
/-!
PROOF. Heat stops the module (R382, R474, R476; O15).
-/

namespace Sys2Proof.Machine
open Sys2Proof

section
variable {s : State} {n : Nat}

theorem startTooHot_of_hot (h3 : 3 ≤ s.glb.step) (h8 : s.glb.step < 8) (hf : s.glb.failed = false) (hb : (sensor s n).band = 5)
    (hst : s.plinth.st = 1 ∨ s.plinth.st = 2) :
    startTooHot n s = railsDown 6 (saveEvents (event 0x0903 0 8 { s with glb := { s.glb with failCause := 8 } })) :=
  if_neg (by rcases hst with hst | hst <;> simp [hf, hb, hst] <;> omega)

/-- What the thermal stop leaves, before a drain that is under way gives way (R474). -/
def thermalWarned (n : Nat) (s : State) : State :=
  let e := event 0x0A06 0xB n s
  warn 3 { e with
    thm := { e.thm with stopping := true, timing := false, cntStop := sat 64 e.thm.cntStop 1 }
    pwr := { e.pwr with drain := 0, drainSt := 0 } }

theorem thermalStop_eq (hst : s.plinth.st = 2) (hr : s.glb.memReady = true) (ht : s.thm.timing = true) :
    thermalStop n s = if s.pwr.drain = 0 then thermalWarned n s else quiesce (thermalWarned n s) := by
  refine (if_neg (by simp [hst, hr, ht])).trans ?_
  change (if (event 0x0A06 0xB n s).pwr.drain != 0 then _ else _) = _
  rw [event_pwr]
  by_cases h : s.pwr.drain = 0
  · rw [if_pos h, if_neg (by simp [h])]; rfl
  · rw [if_neg h, if_pos (by simp [h])]; rfl

theorem thermalStop_fields (hst : s.plinth.st = 2) (hr : s.glb.memReady = true) (ht : s.thm.timing = true) {t : State} (he : t = thermalStop n s) :
    t.plinth.st = 3 ∧ t.plinth.cause = 3 ∧ t.plinth.pfw = true ∧ t.plinth.charger = false ∧ t.hst.pfw = true ∧ t.pwr.drain = 0 ∧
      t.thm.stopping = true ∧ t.thm.timing = false ∧ t.thm.cntStop = sat 64 s.thm.cntStop 1 := by
  rw [thermalStop_eq hst hr ht] at he
  subst he
  split <;> simp [thermalWarned]

theorem execThermalStop_hot (h : (sensor s n).hot = true) : exec (.thermalStop n) s = settled s (thermalStop n s) := if_pos h

theorem execThermalTrip_fires (hn : n ≤ 67 ∨ n = 84) (hh : sensorHere s n = true) (temp : Int) :
    exec (.thermalTrip n temp) s = done s (thermalTrip n temp s) := if_pos ⟨hn, hh⟩

/-- The power-cut of the comparator (R476). -/
theorem thermalTrip_fields (hn : n ≤ 67 ∨ n = 84) (hst : s.plinth.st ≠ 0) (temp : Int) {t : State} (he : t = thermalTrip n temp s) :
    t.plinth.st = 0 ∧ t.plinth.pfw = true ∧ t.plinth.agtRst = 0xFF ∧ t.plinth.latched = true ∧ t.plinth.firstRail = 255 ∧
      t.plinth.tripValid = true ∧ t.plinth.tripSensor = n ∧ t.plinth.tripTemp = temp ∧ n ∈ t.plinth.hotComps ∧ t.glb = {} ∧ t.cch = {} ∧
      ∀ r, r < 24 → railSt t r = 0 := by
  rw [show thermalTrip n temp s = _ from if_neg hst] at he
  extract_lets +onlyGivenNames hot u at he
  have hmem : n ∈ hot := List.mem_filter.mpr ⟨mem_upto.mpr (by omega), by simp⟩
  clear_value hot u
  subst he
  refine ⟨?_, rfl, ?_, rfl, rfl, rfl, rfl, rfl, hmem, rfl, rfl, fun r hr => ?_⟩
  · change (controllerOff (allRails 0 u)).plinth.st = 0
    rw [controllerOff_plinth]
  · change (controllerOff (allRails 0 u)).plinth.agtRst = 0xFF
    rw [controllerOff_plinth]
  · exact (railSt_controllerOff (allRails 0 u) r).trans (railSt_allRails_zero hr u)

end

/-- Settles O15, from what the power-down, the warning and the loss of the controller leave. -/
theorem heatStopsTheModule : Obligations.HeatStopsTheModule := by
  unfold Obligations.HeatStopsTheModule
  refine ⟨fun s n h3 h8 hf hb hst => ?_, fun s n hh hst hr ht hd => ?_, fun s n hh hst hr ht => ?_, fun s n hh => ?_, fun s n temp h => ?_,
    fun s n temp hn hh hst => ?_⟩
  · exact ⟨_, rfl, takes_of_done (congrArg (done s) (startTooHot_of_hot h3 h8 hf hb hst)), by simp⟩
  · exact engages_of_settled ((execThermalStop_hot hh).trans (congrArg (settled s) ((thermalStop_eq hst hr ht).trans (if_pos hd))))
  · exact ⟨_, engages_of_settled (execThermalStop_hot hh), thermalStop_fields hst hr ht rfl⟩
  · exact takes_of_done (if_neg (by simp [hh]))
  · by_cases hc : (n ≤ 67 ∨ n = 84) ∧ sensorHere s n = true
    · have hst : s.plinth.st = 0 := by
        rcases h with h | h | h
        · omega
        · simp [hc.2] at h
        · exact h
      exact takes_of_done ((execThermalTrip_fires hc.1 hc.2 temp).trans (congrArg (done s) (if_pos hst)))
    · exact takes_of_done (if_neg hc)
  · exact ⟨_, takes_of_done (execThermalTrip_fires hn hh temp), thermalTrip_fields hn hst temp rfl⟩

end Sys2Proof.Machine
end

section
/-!
PROOF. Requests and resets (R388, R427, R443 to R448, R531; O53).
-/

namespace Sys2Proof.Machine
open Sys2Proof

section
variable {s : State}

/-! ## The records of the supply (R450) -/

/-- The record of the supply that a log entry takes from the state. -/
def supplyRec (kind rail mv data : Nat) (s : State) : SupplyRec :=
  { kind, rail, railMv := mv, vinMv := s.plinth.vin, bank := s.plinth.vbank, cycles := s.flash.powerCycles, opSec := s.flash.opSeconds, data }

@[simp] theorem supplyLog_plinth (kind rail mv data : Nat) (s : State) :
    (supplyLog kind rail mv data s).plinth = { s.plinth with logLast := some (supplyRec kind rail mv data s) } := rfl

@[simp] theorem supplyLog_glb (kind rail mv data : Nat) (s : State) : (supplyLog kind rail mv data s).glb = s.glb := rfl

@[simp] theorem supplyLog_medium (kind rail mv data : Nat) (s : State) : (supplyLog kind rail mv data s).medium = s.medium := rfl

/-! ## What the records leave alone (R494 to R501) -/

theorem besideRecording_applyRecord (n : Nat) (r : FRec) (s : State) : besideRecording (applyRecord n r s) = besideRecording s := by
  unfold applyRecord
  dsimp only
  split_ifs <;> rfl

theorem besideRecording_compact (n : Nat) (s : State) : besideRecording (compact n s) = besideRecording s := by
  unfold compact
  dsimp only
  split <;> rfl

theorem besideRecording_recordDurable (n : Nat) (r : FRec) (s : State) : besideRecording (recordDurable n r s) = besideRecording s := by
  have hopen : besideRecording (if 511 ≤ (part s n).used then openSector n s else s) = besideRecording s := by split <;> rfl
  have hclose (c : Prop) [Decidable c] (t : State) : besideRecording (if c then compact n t else t) = besideRecording t := by
    split
    · exact besideRecording_compact n t
    · rfl
  have happly (k : Nat) (q : FRec) (t : State) : besideRecording (if n = 5 then eventsDurable k t else applyRecord n q t) = besideRecording t := by
    split
    · rfl
    · exact besideRecording_applyRecord n q t
  exact (hclose _ _).trans ((happly _ _ _).trans hopen)

theorem besideRecording_saveSlots (n : Nat) (s : State) : besideRecording (saveSlots n s) = besideRecording s := by
  induction n generalizing s with
  | zero => rfl
  | succ n ih =>
    unfold saveSlots
    split
    · rfl
    · exact (ih _).trans (besideRecording_recordDurable 5 _ s)

theorem besideRecording_saveEvents (s : State) : besideRecording (saveEvents s) = besideRecording s := besideRecording_saveSlots _ _

/-! ## The module reset (R365) -/

@[simp] theorem moduleReset_plinth (s : State) : (moduleReset s).plinth = { s.plinth with agtRst := 0xFF, st := 2 } := by
  change { (tornImage (saveEvents s)).plinth with agtRst := 0xFF, st := 2 } = _
  rw [(quiet_tornImage (quiet_saveEvents (Quiet.refl s))).plinth]

theorem moduleReset_fuses (s : State) : (moduleReset s).fuses = s.fuses := (quiet_tornImage (quiet_saveEvents (Quiet.refl s))).fuses

theorem moduleReset_id (s : State) : (moduleReset s).grp.id = s.grp.id := by
  have htorn (t : State) : (tornImage t).grp = t.grp := by
    unfold tornImage
    split <;> rfl
  have hsave : (saveEvents s).grp = s.grp := congrArg (·.grp) (besideRecording_saveEvents s)
  change (tornImage (saveEvents s)).grp.id = s.grp.id
  rw [htorn, hsave]

theorem moduleReset_medium (s : State) : (moduleReset s).medium = s.medium := (quiet_tornImage (quiet_saveEvents (Quiet.refl s))).medium

/-! ## Requests -/

theorem requestReset_of_run (hst : s.plinth.st = 2) (hr : s.glb.memReady = true) :
    requestReset s = if s.pwr.drain = 0 then { s with pwr := { s.pwr with drain := 1 } } else s := by
  rw [requestReset, if_pos (.inr hst), if_neg (by simp [hr])]
  rfl

theorem requestReset_of_unready (hst : s.plinth.st = 1 ∨ s.plinth.st = 2) (hr : s.glb.memReady = false) : requestReset s = moduleReset s := by
  rw [requestReset, if_pos hst, if_pos (by simp [hr])]

theorem requestReset_of_other (h1 : s.plinth.st ≠ 1) (h2 : s.plinth.st ≠ 2) : requestReset s = s := if_neg (by simp [h1, h2])

theorem onRequest_of_off (hl : s.plinth.latched = false) (hst : s.plinth.st = 0) :
    onRequest s = { s with plinth := { s.plinth with onReq := true } } := by
  rw [onRequest, if_neg (by simp [hl]), if_pos (.inl hst)]
  rfl

theorem onRequest_of_run (hl : s.plinth.latched = false) (hst : s.plinth.st = 2) : onRequest s = s := by
  rw [onRequest, if_neg (by simp [hl]), if_neg (by omega)]

theorem clearLatch_of_cool (hl : s.plinth.latched = true) (hh : s.plinth.hotComps = []) :
    clearLatch s = { s with plinth := { s.plinth with latched := false, latchClr := true } } := if_pos (by simp [hl, hh])

theorem clearLatch_of_hot (hh : s.plinth.hotComps ≠ []) : clearLatch s = s := if_neg (by simp [hh])

theorem press_latched (ha : s.plinth.alive = true) (hl : s.plinth.latched = true) :
    exec .pbShortPress s = done s (if (clearLatch s).plinth.latched then clearLatch s else onRequest (clearLatch s)) :=
  (if_neg (by simp [ha])).trans (if_pos hl)

theorem press_unlatched (ha : s.plinth.alive = true) (hl : s.plinth.latched = false) :
    exec .pbShortPress s = done s (if s.glb.failed then requestReset s else onRequest s) := by
  refine (if_neg (by simp [ha])).trans ((if_neg (by simp [hl])).trans ?_)
  split <;> rfl

/-- A short press of the button (R427). -/
theorem takes_press (ha : s.plinth.alive = true) :
    (s.plinth.latched = true → s.plinth.hotComps = [] → s.plinth.st = 0 →
      Takes .pbShortPress s { s with plinth := { s.plinth with latched := false, latchClr := true, onReq := true } }) ∧
    (s.plinth.latched = true → s.plinth.hotComps ≠ [] → Takes .pbShortPress s s) ∧
    (s.plinth.latched = false → s.glb.failed = false → s.plinth.st = 0 →
      Takes .pbShortPress s { s with plinth := { s.plinth with onReq := true } }) ∧
    (s.plinth.latched = false → s.glb.failed = false → s.plinth.st = 2 → Takes .pbShortPress s s) ∧
    (s.plinth.latched = false → s.glb.failed = true → Takes .pbShortPress s (requestReset s)) := by
  refine ⟨fun hl hh hst => ?_, fun hl hh => ?_, fun hl hf hst => ?_, fun hl hf hst => ?_, fun hl hf => ?_⟩
  · refine takes_of_done ((press_latched ha hl).trans ?_)
    rw [clearLatch_of_cool hl hh]
    exact congrArg (done s) ((if_neg (by simp)).trans (onRequest_of_off rfl hst))
  · refine takes_of_done ((press_latched ha hl).trans ?_)
    rw [clearLatch_of_hot hh, if_pos hl]
  · refine takes_of_done ((press_unlatched ha hl).trans ?_)
    rw [if_neg (by simp [hf]), onRequest_of_off hl hst]
  · refine takes_of_done ((press_unlatched ha hl).trans ?_)
    rw [if_neg (by simp [hf]), onRequest_of_run hl hst]
  · refine takes_of_done ((press_unlatched ha hl).trans ?_)
    rw [if_pos hf]

/-- The off request in a start reverses it (R445, log 56). -/
theorem offRequest_of_start (h : s.plinth.st = 1 ∨ s.plinth.st = 2 ∧ s.glb.memReady = false) :
    offRequest s = onPlinth (fun p => { p with onReq := false, autoRe := false }) (railsDown 6 s) := by
  rcases h with h | ⟨h, hr⟩
  · rw [offRequest, h]
    rfl
  · rw [offRequest, h]
    exact if_pos (by simp [hr])

theorem offRequest_of_run (hst : s.plinth.st = 2) (hr : s.glb.memReady = true) :
    offRequest s = if 2 ≤ s.pwr.drain then s else { s with pwr := { s.pwr with drain := 2 }, plinth := { s.plinth with st := 6 } } := by
  rw [offRequest, hst]
  exact if_neg (by simp [hr])

theorem offRequest_of_other (h : s.plinth.st = 0 ∨ 3 ≤ s.plinth.st) :
    offRequest s = { s with plinth := { s.plinth with onReq := false, autoRe := false } } := by
  unfold offRequest
  split
  · rfl
  · omega
  · omega
  · rfl

theorem engages_pbHoldOff (ha : s.plinth.alive = true) : Engages .pbHoldOff s (offRequest s) := engages_of_settled (if_pos ha)

/-- A long press of the button (R444, R445). -/
theorem engages_hold (ha : s.plinth.alive = true) :
    (s.plinth.st = 2 → s.glb.memReady = true → s.pwr.drain < 2 →
      Engages .pbHoldOff s { s with pwr := { s.pwr with drain := 2 }, plinth := { s.plinth with st := 6 } }) ∧
    (s.plinth.st = 2 → s.glb.memReady = true → 2 ≤ s.pwr.drain → Engages .pbHoldOff s s) ∧
    (s.plinth.st = 1 ∨ s.plinth.st = 2 ∧ s.glb.memReady = false → ∃ t, Engages .pbHoldOff s t ∧ t.plinth.st = 7 ∧ t.plinth.cause = 6 ∧
      t.plinth.onReq = false ∧ t.plinth.autoRe = false) ∧
    (s.plinth.st = 0 ∨ 3 ≤ s.plinth.st →
      Engages .pbHoldOff s { s with plinth := { s.plinth with onReq := false, autoRe := false } }) := by
  have h := engages_pbHoldOff ha
  refine ⟨fun hst hr hd => ?_, fun hst hr hd => ?_, fun hst => ⟨_, h, ?_⟩, fun hst => offRequest_of_other hst ▸ h⟩
  · rwa [offRequest_of_run hst hr, if_neg (by omega)] at h
  · rwa [offRequest_of_run hst hr, if_pos hd] at h
  · rw [offRequest_of_start hst]
    simp

/-- Forced off in Run (R447). -/
theorem forceOff_of_run (hst : s.plinth.st = 2) (hr : s.glb.memReady = true) :
    ∃ u : State, u.medium.lossy = true ∧ u.plinth.onReq = false ∧ forceOff s = supplyLog 6 0xFF 0 0 (railsDown 4 u) := by
  let v : State := onPlinth (fun p => { p with onReq := false, autoRe := false }) s
  have hcut : cutDump v = v := if_pos (by simp [v, hst])
  refine ⟨markLossy true v, by simp [markLossy], rfl, ?_⟩
  rw [forceOff, if_neg (by omega)]
  refine (if_neg (by simp [hst])).trans (congrArg (fun u => supplyLog 6 0xFF 0 0 (railsDown 4 u)) ?_)
  exact (if_pos hr).trans (congrArg (markLossy true) hcut)

theorem takes_forcedOff (ha : s.plinth.alive = true) (hst : s.plinth.st = 2) (hr : s.glb.memReady = true) :
    ∃ t, Takes .forcedOff s t ∧ t.plinth.st = 7 ∧ t.plinth.cause = 4 ∧ t.medium.lossy = true ∧ t.plinth.onReq = false := by
  obtain ⟨u, hlossy, hreq, he⟩ := forceOff_of_run hst hr
  refine ⟨_, takes_of_done ((if_pos ha).trans (congrArg (done s) he)), ?_⟩
  simp [hlossy, hreq]

/-! ## The end of a drain (R388, R444) -/

theorem drainDone_of_off (h5 : s.pwr.drainSt = 5) (hd : s.pwr.drain = 2) :
    drainDone s = onPlinth (fun p => { p with off := true })
      (railsDown 5 (downLinks 1 1 (saveEvents (recordSeconds (supplyLog 5 0xFF 0 0 s))))) := by
  refine (if_neg (by simp [h5])).trans ?_
  rw [hd]
  rfl

theorem drainDone_of_reset (h5 : s.pwr.drainSt = 5) (hd : s.pwr.drain = 1) : drainDone s = moduleReset s := by
  refine (if_neg (by simp [h5])).trans ?_
  rw [hd]
  rfl

theorem drainDone_of_lc {target : Nat} {owner : Option Nat} (h5 : s.pwr.drainSt = 5) (hd : s.pwr.drain = 3) (hl : s.hst.lc = some (target, owner))
    (h0 : s.sec.lcStep = 0) :
    drainDone s = onSec (fun c => { c with lcStep := 3 }) (recordLc target (s.fuses.transitions + 1) owner s) := by
  refine (if_neg (by simp [h5])).trans ?_
  rw [hd, hl]
  exact if_neg (by simp [h0])

/-- The orderly shutdown's drain ends in the power-down (R444). -/
theorem drainDone_off_plinth (h5 : s.pwr.drainSt = 5) (hd : s.pwr.drain = 2) : (drainDone s).plinth.st = 7 ∧ (drainDone s).plinth.cause = 5 ∧
    (drainDone s).plinth.off = true ∧ (drainDone s).plinth.logLast.isSome = true := by
  have hq := (quiet_downLinks (cause := 1) (reason := 1) (quiet_saveEvents (quiet_recordSeconds (Quiet.refl (supplyLog 5 0xFF 0 0 s))))).plinth
  rw [drainDone_of_off h5 hd, onPlinth_plinth, railsDown_plinth, hq, supplyLog_plinth]
  exact ⟨rfl, rfl, rfl, rfl⟩

/-! ## The resets that act at once (R448, R531) -/

theorem controllerLost_logged {u t : State} (he : t = supplyLog 10 0xFF 0 0
      (onPlinth (fun p => { p with agtRst := 0xFF, st := if p.st = 1 then 1 else 2 }) (controllerLost u))) (hst : u.plinth.st ≠ 1) :
    t.plinth.st = 2 ∧ t.plinth.agtRst = 0xFF ∧ t.glb = {} ∧ t.tck = {} ∧ t.cch = {} ∧ t.plinth.logLast.isSome = true := by
  subst he
  refine ⟨?_, rfl, rfl, rfl, rfl, rfl⟩
  change (if (controllerLost u).plinth.st = 1 then 1 else 2) = 2
  rw [controllerLost_plinth, if_neg hst]

/-- What is left of a dump that a reset cuts short does not show in the plinth domain. -/
theorem layDump_plinth (d : Dump) (closed : Bool) (banks : List Nat) (s : State) : (layDump d closed banks s).plinth = s.plinth := by
  refine each_preserves (P := fun t => t.plinth = s.plinth) banks _ (fun b u h => ?_) rfl
  refine each_preserves (P := fun t => t.plinth = s.plinth) _ _ (fun x u h => ?_) h
  exact h

@[simp] theorem cutDump_plinth (s : State) : (cutDump s).plinth = s.plinth := by
  unfold cutDump
  split
  · rfl
  · dsimp only
    split
    · exact layDump_plinth ..
    · rfl

theorem hardReset_fields (h : s.plinth.st = 2 ∨ s.plinth.st = 3) {t : State} (he : t = hardReset s) :
    t.plinth.st = 2 ∧ t.plinth.agtRst = 0xFF ∧ t.glb = {} ∧ t.tck = {} ∧ t.cch = {} ∧ t.plinth.logLast.isSome = true := by
  rw [hardReset, if_neg (by omega)] at he
  refine controllerLost_logged he ?_
  split
  · change (cutDump s).plinth.st ≠ 1
    rw [cutDump_plinth]
    omega
  · omega

theorem plinthDomainLoss_fields (s : State) : ∃ t, Takes .plinthDomainLoss s t ∧ t.plinth.alive = false ∧ t.plinth.st = 0 ∧
    t.plinth.latched = false ∧ t.glb = {} ∧ t.tck = {} ∧ ∀ r, r < 24 → railSt t r = 0 := by
  refine ⟨_, takes_of_done rfl, rfl, rfl, rfl, rfl, rfl, fun r hr => ?_⟩
  exact (railSt_controllerOff (allRails 0 _) r).trans (railSt_allRails_zero hr _)

end

/-- Settles O53, request by request. -/
theorem requestsAndResetsAct : Obligations.RequestsAndResetsAct := by
  unfold Obligations.RequestsAndResetsAct
  refine ⟨fun s ha => takes_press ha, fun s ha => ?_, fun s ha => engages_hold ha, fun s ha hst hr => takes_forcedOff ha hst hr, fun s hst => ?_,
    fun s hst hr hd => ?_, fun s hst hr hd => ?_, fun s hst hr => ?_, fun s h1 h2 => ?_, fun s h => ?_, fun s h => ?_, fun s h5 => ?_, fun s h5 => ?_,
    fun s h => ⟨_, takes_of_done rfl, hardReset_fields h rfl⟩, fun s h => takes_of_done (congrArg (done s) (if_pos h)),
    plinthDomainLoss_fields, fun s => ?_⟩
  · exact ⟨takes_of_done (if_pos (by simp [ha])), takes_of_done (if_neg (by simp [ha])), takes_of_done (if_neg (by simp [ha]))⟩
  · refine takes_of_done (c := .forcedOff) ?_
    rw [show exec .forcedOff s = if s.plinth.alive then done s (forceOff s) else done s s from rfl, show forceOff s = s from if_pos (.inl hst), ite_self]
  · exact engages_of_settled (congrArg (settled s) ((requestReset_of_run hst hr).trans (if_pos hd)))
  · exact engages_of_settled (congrArg (settled s) ((requestReset_of_run hst hr).trans (if_neg hd)))
  · exact engages_of_settled (congrArg (settled s) (requestReset_of_unready hst hr))
  · exact engages_of_settled (congrArg (settled s) (requestReset_of_other h1 h2))
  · have hbar := hostBar_of_reaches (i := .glbResetKey) (f := fun s => if s.glb.failed then s else requestReset s) (fun _ => rfl) h
    refine ⟨fun hf => ⟨_, rfl, engages_of_settled (congrArg (settled s) (hbar.trans (if_neg (by simp [hf])))), fun hst hr hd => ?_, fun hst hr => ?_⟩,
      fun hf => engages_of_settled (congrArg (settled s) (hbar.trans (if_pos (by simp [hf]))))⟩
    · rw [requestReset_of_run (by simp [hst]) (by simp [hr]), if_pos (by simp [hd])]
    · exact requestReset_of_unready (by simp [hst]) (by simp [hr])
  · exact engages_of_settled (congrArg (settled s) (hostBar_of_down _ h))
  · refine ⟨fun hd => ⟨_, rfl, takes_of_done (congrArg (done s) (drainDone_of_reset h5 hd)), rfl, by simp⟩,
      fun hd => ⟨_, takes_of_done rfl, drainDone_off_plinth h5 hd⟩,
      fun target owner hd hl h0 => ⟨_, takes_of_done (congrArg (done s) (drainDone_of_lc h5 hd hl h0)), rfl, ?_, rfl⟩⟩
    simp [recordLc, append]
  · exact takes_of_done (congrArg (done s) (if_pos h5))
  · exact ⟨rfl, rfl, rfl, rfl, rfl, by simp, by simp, moduleReset_fuses s, moduleReset_medium s, moduleReset_id s⟩

end Sys2Proof.Machine
end

section
/-!
PROOF. The supply is watched (R417, R421, R423, R426, R450, R456; O51), and what the commit point leaves (R434 step 4).
-/

namespace Sys2Proof.Machine
open Sys2Proof

section
variable {s : State}

/-! ## The commit point -/

/-- What the commit point takes into the dump, if it takes one. -/
def dumpTaken (dumps : Bool) (items : List DumpItem) (s : State) : State :=
  if dumps then
    onPwr (fun p => { p with cntDump := sat 64 p.cntDump 1 })
      (onMedium (fun m => { m with dump := some { gen := s.med.wseq, items, complete := false } }) s)
  else s

/-- The commit point seals the streams, takes the dump, and takes the ports down. -/
theorem commit_eq (s : State) : ∃ (u x : State) (items : List DumpItem), Quiet (onPlinth (fun p => { p with pfw := true }) s) u ∧
    Quiet (onPlinth (fun p => { p with st := 5, pfw := true, charger := false }) (dumpTaken (u.plinth.cause != 1) items u)) x ∧
    commit s = onMed (fun m => { m with
      progs := m.progs.map fun p => { p with running := false }
      resets := m.resets.map fun r => { r with running := false } })
        (onTck (fun t => { t with running := false }) (onHst (fun h => { h with linkUp := false }) x)) := by
  unfold commit
  extract_lets sealed u dumps all items v w x
  have hsealed : Quiet (onPlinth (fun p => { p with pfw := true }) s) sealed := quiet_updPorts (Quiet.refl _)
  have hu : Quiet (onPlinth (fun p => { p with pfw := true }) s) u := quiet_each _ _ hsealed fun _ _ h => quiet_event _ _ _ _ h
  clear_value items u
  have hv : v = dumpTaken dumps items u := rfl
  have hw : w = onPlinth (fun p => { p with st := 5, pfw := true, charger := false }) v := rfl
  have hx : Quiet w (downLinks 2 2 w) := quiet_downLinks (Quiet.refl w)
  clear_value v w
  subst hw hv
  exact ⟨u, _, items, hu, hx, rfl⟩

theorem dumpTaken_plinth (dumps : Bool) (items : List DumpItem) (s : State) : (dumpTaken dumps items s).plinth = s.plinth := by
  unfold dumpTaken
  split <;> rfl

@[simp] theorem commit_plinth (s : State) : (commit s).plinth = { s.plinth with st := 5, pfw := true, charger := false } := by
  obtain ⟨u, x, items, hu, hx, he⟩ := commit_eq s
  rw [he]
  refine hx.plinth.trans ?_
  rw [onPlinth_plinth, dumpTaken_plinth, hu.plinth]
  rfl

theorem commit_running (s : State) : (commit s).tck.running = false := rfl

theorem commit_linkUp (s : State) : (commit s).hst.linkUp = false := rfl

/-- Where the loss is not that of a rail 0 to 15, the dump is begun and counted. -/
theorem commit_dump (h : s.plinth.cause ≠ 1) : (commit s).pwr.cntDump = sat 64 s.pwr.cntDump 1 ∧
    ∃ d, (commit s).medium.dump = some d ∧ d.gen = s.med.wseq ∧ d.complete = false := by
  obtain ⟨u, x, items, hu, hx, he⟩ := commit_eq s
  have hc : (u.plinth.cause != 1) = true := by
    rw [hu.plinth]
    simpa using h
  rw [hc] at hx
  have hpwr : x.pwr.cntDump = sat 64 u.pwr.cntDump 1 := congrArg Pwr.cntDump hx.pwr
  have hdump : x.medium.dump = some { gen := u.med.wseq, items, complete := false } := congrArg Medium.dump hx.medium
  rw [he]
  refine ⟨hpwr.trans ?_, _, hdump, ?_, rfl⟩
  · rw [hu.pwr, onPlinth_pwr]
  · rw [hu.med, onPlinth_med]

/-! ## A rail or a clock that fails -/

@[simp] theorem latch_plinth (rail : Nat) (s : State) :
    (latch rail s).plinth = { s.plinth with latched := true, firstRail := rail, onReq := false, autoRe := false } := rfl

@[simp] theorem latch_medium (rail : Nat) (s : State) : (latch rail s).medium = s.medium := rfl

@[simp] theorem latch_glb (rail : Nat) (s : State) : (latch rail s).glb = s.glb := rfl

@[simp] theorem markLossy_plinth (b : Bool) (s : State) : (markLossy b s).plinth = s.plinth := rfl

/-- The state once the rail, if it is one, shows its failure. -/
def faulted (rail mv : Nat) (s : State) : State := if rail < 24 then setRail rail 3 mv s else s

section
variable {rail mv kind : Nat}

theorem faulted_plinth (rail mv : Nat) (s : State) : (faulted rail mv s).plinth = { s.plinth with rails := (faulted rail mv s).plinth.rails } := by
  unfold faulted
  split <;> rfl

@[simp] theorem faulted_st (rail mv : Nat) (s : State) : (faulted rail mv s).plinth.st = s.plinth.st :=
  (congrArg (·.st) (faulted_plinth rail mv s) :)

@[simp] theorem faulted_glb (rail mv : Nat) (s : State) : (faulted rail mv s).glb = s.glb := by
  unfold faulted
  split <;> rfl

theorem railSt_faulted (h : rail < 24) (mv : Nat) (s : State) : railSt (faulted rail mv s) rail = 3 := by
  rw [faulted, if_pos h]
  exact railSt_setRail_same (by simp) s

/-- The failure of a rail in a start turns it down (R382, R425). -/
theorem railFails_of_start (h : s.plinth.st = 1) :
    railFails rail mv kind s = railsDown 6 (latch rail (supplyLog kind rail mv 0 (faulted rail mv s))) := by
  have hst := (faulted_st rail mv s).trans h
  unfold railFails
  extract_lets f fail
  have hf : f = faulted rail mv s := rfl
  rw [hf, hst]
  rfl

/-- The state of the commit point that a failure after memory ready goes to. -/
def committedBy (rail mv : Nat) (s : State) : State :=
  commit (onPlinth (fun p => { p with cause := if 16 ≤ rail ∧ rail < 24 then 2 else 1, firstRail := rail, pfw := true, autoRe := false })
    (onHst (fun h => { h with pfw := true }) (wakeNow (faulted rail mv s))))

/-- The failure of a rail or clock in Run (R426, R456). -/
theorem railFails_of_run (h : s.plinth.st = 2) (hr : s.glb.memReady = true) :
    railFails rail mv kind s = if 16 ≤ rail ∧ rail < 24 then committedBy rail mv s
      else railsDown 1 (saveEvents (latch rail (supplyLog kind rail mv 0 (markLossy true (committedBy rail mv s))))) := by
  have hst := (faulted_st rail mv s).trans h
  unfold railFails
  extract_lets f fail w c d
  have hf : f = faulted rail mv s := rfl
  have hd : d = committedBy rail mv s := rfl
  have hc : c = if 16 ≤ rail ∧ rail < 24 then 2 else 1 := rfl
  clear_value c d
  rw [hf, hst]
  refine (if_neg (by simp [hr])).trans ?_
  rw [hd]
  by_cases hpkg : 16 ≤ rail ∧ rail < 24
  · rw [if_pos hpkg] at hc ⊢
    exact if_pos hc
  · rw [if_neg hpkg] at hc ⊢
    exact if_neg (by omega)

@[simp] theorem committedBy_st (rail mv : Nat) (s : State) : (committedBy rail mv s).plinth.st = 5 := by simp [committedBy]

@[simp] theorem committedBy_pfw (rail mv : Nat) (s : State) : (committedBy rail mv s).plinth.pfw = true := by simp [committedBy]

theorem committedBy_rails (rail mv : Nat) (s : State) : (committedBy rail mv s).plinth.rails = (faulted rail mv s).plinth.rails := by
  simp [committedBy]

theorem committedBy_firstRail (rail mv : Nat) (s : State) : (committedBy rail mv s).plinth.firstRail = rail := by simp [committedBy]

theorem committedBy_cause (rail mv : Nat) (s : State) :
    (committedBy rail mv s).plinth.cause = if 16 ≤ rail ∧ rail < 24 then 2 else 1 := by simp [committedBy]

theorem railFails_start_fields (h : s.plinth.st = 1) {t : State} (he : t = railFails rail mv kind s) :
    t.plinth.st = 7 ∧ t.plinth.cause = 6 ∧ t.plinth.latched = true ∧ t.plinth.firstRail = rail := by
  rw [he, railFails_of_start h]
  simp

/-- The power-down after a loss without a dump (R426). -/
theorem lostDown_fields (rail mv kind : Nat) (hpfw : s.plinth.pfw = true) :
    let t := railsDown 1 (saveEvents (latch rail (supplyLog kind rail mv 0 (markLossy true s))))
    t.plinth.st = 7 ∧ t.plinth.cause = 1 ∧ t.plinth.pfw = true ∧ t.plinth.latched = true ∧ t.plinth.firstRail = rail ∧
      t.medium.lossy = true := by
  simp [markLossy, hpfw]

theorem ite_lostDown_rails {c : Prop} [Decidable c] (rail mv kind : Nat) (s : State) :
    (if c then s else railsDown 1 (saveEvents (latch rail (supplyLog kind rail mv 0 (markLossy true s))))).plinth.rails = s.plinth.rails := by
  split <;> simp

/-- No dump and no warning follow where the rail is no package rail (R426, R456). -/
theorem railFails_other_fields (h : s.plinth.st = 2) (hr : s.glb.memReady = true) (hrail : rail < 16 ∨ 24 ≤ rail) {t : State}
    (he : t = railFails rail mv kind s) : t.plinth.st = 7 ∧ t.plinth.cause = 1 ∧ t.plinth.pfw = true ∧ t.plinth.latched = true ∧
      t.plinth.firstRail = rail ∧ t.medium.lossy = true := by
  rw [he, railFails_of_run h hr, if_neg (by omega)]
  exact lostDown_fields rail mv kind (committedBy_pfw rail mv s)

theorem railFails_package_fields (h : s.plinth.st = 2) (hr : s.glb.memReady = true) (hlo : 16 ≤ rail) (hhi : rail < 24) {t : State}
    (he : t = railFails rail mv kind s) :
    t.plinth.st = 5 ∧ t.plinth.cause = 2 ∧ t.plinth.firstRail = rail ∧ t.plinth.pfw = true ∧ t.tck.running = false := by
  have hpkg : 16 ≤ rail ∧ rail < 24 := ⟨hlo, hhi⟩
  rw [he, railFails_of_run h hr, if_pos hpkg]
  exact ⟨committedBy_st .., (committedBy_cause ..).trans (if_pos hpkg), committedBy_firstRail .., committedBy_pfw .., rfl⟩

/-- Whatever the state does about it, the rail shows its failure. -/
theorem railFails_rails (rail mv kind : Nat) (s : State) : (railFails rail mv kind s).plinth.rails = (faulted rail mv s).plinth.rails := by
  unfold railFails
  extract_lets f fail
  have hf : f = faulted rail mv s := rfl
  clear_value f
  subst hf
  split
  · simp [fail]
  · split <;> simp [fail]
  · rfl
  · rfl
  · split
    · simp [fail]
    · rename_i d _ _ _ _ _ _
      have hd : d = committedBy rail mv s := rfl
      rw [hd]
      exact (ite_lostDown_rails rail mv kind _).trans (committedBy_rails rail mv s)

end

/-! ## The input -/

theorem execInputLimitClear_fires (h : s.pwr.inputLimit = true) (hc : 64 ≤ s.pwr.limitCourses) :
    exec .inputLimitClear s = done s (chargeAgain { s with pwr := { s.pwr with inputLimit := false } }) := if_pos ⟨h, hc⟩

theorem takes_inputHigh {vin : Nat} (ha : s.plinth.alive = true) (hh : s.plinth.high = false) (hv : 40000 < vin) :
    ∃ t, t = { s with plinth := { s.plinth with high := true, vin } } ∧
      (controllerUp s = true → Takes (.inputHigh vin) s (event 0x0A01 0xA vin t)) ∧
      (controllerUp s = false → Takes (.inputHigh vin) s t) := by
  have hexec : exec (.inputHigh vin) s = _ := if_pos (by simp [ha, hh, hv])
  exact ⟨_, rfl, fun hu => takes_of_done (hexec.trans (congrArg (done s) (if_pos hu))),
    fun hu => takes_of_done (hexec.trans (congrArg (done s) (if_neg (by simp [hu]))))⟩

theorem takes_inputLimit (h : controllerUp s = true) : ∃ t, Takes .inputLimit s t ∧ t = event 0x0A02 0xA s.plinth.vin { s with
      pwr := { s.pwr with limitNext := true, inputLimit := true, limitCourses := 0, cntLimit := sat 64 s.pwr.cntLimit 1 }
      plinth := { s.plinth with charger := false } } ∧
    t.pwr.inputLimit = true ∧ t.plinth.charger = false := by
  refine ⟨_, takes_of_done (if_pos h), rfl, ?_, ?_⟩
  · exact congrArg Pwr.inputLimit (event_pwr ..)
  · exact congrArg Plinth.charger (event_plinth ..)

/-! ## The rails go down (R423) -/

theorem disableRail_of_top {r : Nat} (hst : s.plinth.st = 7) (ht : topRail s = some r) (hh : railHeld s r = false) :
    disableRail r s = if (topRail (setRail r 0 0 s)).isNone then controllerOff (setRail r 0 0 s) else setRail r 0 0 s :=
  if_neg (by simp [hst, ht, hh])

theorem takes_railDisable {r : Nat} (hst : s.plinth.st = 7) (ht : topRail s = some r) (hh : railHeld s r = false) :
    ((topRail (setRail r 0 0 s)).isSome = true → Takes (.railDisable r) s (setRail r 0 0 s)) ∧
    (topRail (setRail r 0 0 s) = none → ∃ t, t = controllerOff (setRail r 0 0 s) ∧ Takes (.railDisable r) s t ∧ t.plinth.st = 0 ∧
      t.glb = {} ∧ t.tck = {} ∧ t.cch = {}) := by
  have hexec : exec (.railDisable r) s = done s (disableRail r s) := rfl
  rw [disableRail_of_top hst ht hh] at hexec
  refine ⟨fun hs => takes_of_done (hexec.trans (congrArg (done s) (if_neg ?_))),
    fun hn => ⟨_, rfl, takes_of_done (hexec.trans (congrArg (done s) (if_pos ?_))), rfl, rfl, rfl, rfl⟩⟩
  · rwa [← Option.not_isSome_iff_eq_none.trans Option.isNone_iff_eq_none.symm, not_not]
  · rw [hn]
    rfl

end

/-- Settles O51, by what each watch of the supply leaves. -/
theorem theSupplyIsWatched : Obligations.TheSupplyIsWatched := by
  unfold Obligations.TheSupplyIsWatched
  refine ⟨fun s vin ha hh hv => takes_inputHigh ha hh hv, fun s vin h => takes_of_done (if_neg ?_),
    fun s vin hh hv => takes_of_done (if_pos (by simp [hh, hv])), fun s vin h => takes_of_done (if_neg ?_), fun s h => takes_inputLimit h,
    fun s h => takes_of_done (if_neg (by simp [h])), fun s h hc => takes_of_done (execInputLimitClear_fires h hc),
    fun s h => takes_of_done (if_neg ?_), fun s rail mv hrail h2 hw => ?_, fun s rail mv h => takes_of_done (if_neg ?_), fun s hr => ?_,
    fun s h => takes_of_done (if_neg (by simp [h])), fun s mv rail kind hst hr hrail => ?_, fun s r hst ht hh => takes_railDisable hst ht hh,
    fun s r h => takes_of_done (congrArg (done s) (if_pos ?_))⟩
  · rcases h with h | h | h <;> simp [h]
  · rcases h with h | h <;> simp [h]
  · rcases h with h | h <;> simp [h]
  · refine ⟨_, rfl, engages_of_settled (if_pos ⟨hrail, h2, hw⟩), (railSt_congr (railFails_rails rail mv 2 s) rail).trans (railSt_faulted hrail mv s),
      fun hst hr => ⟨fun hlo => ?_, fun hlo => railFails_package_fields hst hr hlo hrail rfl⟩, fun hst => railFails_start_fields hst rfl⟩
    obtain ⟨h7, h1, -, hlatched, -, hlossy⟩ := railFails_other_fields (mv := mv) (kind := 2) hst hr (.inl hlo) rfl
    exact ⟨h7, h1, hlatched, hlossy⟩
  · rcases h with h | h | h
    · exact fun hc => absurd hc.1 (by omega)
    · exact fun hc => h hc.2.1
    · exact fun hc => absurd (h.symm.trans hc.2.2) (by decide)
  · refine ⟨_, rfl, engages_of_settled (if_pos hr), fun hst => ?_⟩
    obtain ⟨h7, h1, -, hlatched, hfirst, hlossy⟩ := railFails_other_fields (rail := 255) (mv := 0) (kind := 8) hst hr (.inr (by omega)) rfl
    exact ⟨h7, h1, hlatched, hfirst, hlossy⟩
  · obtain ⟨h7, -, hpfw, hlatched, -, hlossy⟩ := railFails_other_fields (mv := mv) (kind := kind) hst hr hrail rfl
    exact ⟨h7, hpfw, hlatched, hlossy⟩
  · rcases h with h | h | h <;> simp [h]

end Sys2Proof.Machine
end

section
/-!
PROOF. The shutdown (R417, R434, R440, R441; O50): the trip, the warning interval, HOLD, the commit point and the end of the dump.
-/

namespace Sys2Proof.Machine
open Sys2Proof

section
variable {s : State}

/-! ## The trip (R433, R434) -/

/-- The state once the trip is seen. -/
def inputLost (s : State) : State := onPlinth (fun p => { p with down := true }) s

/-- The trip is counted (R451). -/
def tripCounted (s : State) : State := onPwr (fun p => { p with cntTrip := sat 64 p.cntTrip 1 }) (inputLost s)

theorem tripped_of_start (h : s.plinth.st = 1 ∨ s.plinth.st = 2 ∧ s.glb.memReady = false) :
    tripped s = onPlinth (fun p => { p with autoRe := true }) (railsDown 6 (inputLost s)) := by
  unfold tripped
  extract_lets u count
  rcases h with h | ⟨h, hr⟩
  · rw [show u.plinth.st = 1 from h]
    rfl
  · rw [show u.plinth.st = 2 from h]
    exact if_pos (by simp [u, hr])

theorem tripped_of_run (h : s.plinth.st = 2) (hr : s.glb.memReady = true) (hd : s.pwr.drain = 0) : tripped s = warn 0 (tripCounted s) := by
  unfold tripped
  extract_lets u count
  rw [show u.plinth.st = 2 from h]
  exact (if_neg (by simp [u, hr])).trans (if_pos hd)

theorem tripped_of_hold (h : s.plinth.st = 4) : tripped s = commit (tripCounted s) := by
  unfold tripped
  extract_lets u count
  rw [show u.plinth.st = 4 from h]
  rfl

theorem tripped_of_shutdown (h : s.plinth.st = 6) :
    tripped s = quiesce (warn 0 (onPwr (fun p => { p with drainSt := 0 }) (tripCounted s))) := by
  unfold tripped
  extract_lets u count
  rw [show u.plinth.st = 6 from h]
  rfl

/-- Whatever becomes of the module, the input is down until it rises again. -/
theorem tripped_down (s : State) : (tripped s).plinth.down = true := by
  unfold tripped
  extract_lets u count
  split
  · simp [u]
  · split
    · simp [u]
    · split <;> simp [u, count]
  · split <;> simp [u, count]
  · simp [u, count]
  · simp [u, count]
  · rfl

/-- The trip and its end leave the input switch alone. -/
theorem tripped_swOpen (s : State) : (tripped s).plinth.swOpen = s.plinth.swOpen := by
  unfold tripped
  extract_lets u count
  split
  · simp [u]
  · split
    · simp [u]
    · split <;> simp [u, count]
  · split <;> simp [u, count]
  · simp [u, count]
  · simp [u, count]
  · rfl

theorem tripped_run_fields (h : s.plinth.st = 2) (hr : s.glb.memReady = true) (hd : s.pwr.drain = 0) :
    (tripped s).pwr.cntTrip = sat 64 s.pwr.cntTrip 1 ∧ (tripped s).plinth.st = 3 ∧ (tripped s).plinth.pfw = true ∧
    (tripped s).plinth.down = true ∧ (tripped s).plinth.charger = false ∧ (tripped s).plinth.cause = 0 ∧ (tripped s).hst.pfw = true := by
  rw [tripped_of_run h hr hd]
  simp [tripCounted, inputLost]

theorem tripped_start_fields (h : s.plinth.st = 1 ∨ s.plinth.st = 2 ∧ s.glb.memReady = false) :
    (tripped s).plinth.st = 7 ∧ (tripped s).plinth.cause = 6 ∧ (tripped s).plinth.autoRe = true := by
  rw [tripped_of_start h]
  simp

/-! ## The quiescing holds what comes after -/

@[simp] theorem quiesce_draining (s : State) : (quiesce s).ord.draining = true :=
  congrArg (·.ord.draining) (besideDraining_drainWhere _ (onOrd (fun o => { o with draining := true }) s))

theorem tripped_shutdown_fields (h : s.plinth.st = 6) :
    (tripped s).plinth.st = 3 ∧ (tripped s).pwr.drainSt = 0 ∧ (tripped s).ord.draining = true := by
  rw [tripped_of_shutdown h]
  simp

theorem warningEnds_eq (h : s.plinth.st = 3) (hd : s.ord.draining = false) :
    warningEnds s = if s.plinth.down = false ∧ s.plinth.cause = 0 then onPlinth (fun p => { p with st := 4 }) (quiesce s) else quiesce s := by
  refine (if_neg (by simp [h, hd])).trans ?_
  change (if (!(quiesce s).plinth.down) = true ∧ (quiesce s).plinth.cause = 0 then _ else _) = _
  simp only [quiesce_plinth, Bool.not_eq_true']

theorem warningEnds_fields (h : s.plinth.st = 3) (hd : s.ord.draining = false) : (warningEnds s).ord.draining = true ∧
    (warningEnds s).plinth.st = if s.plinth.down = false ∧ s.plinth.cause = 0 then 4 else 3 := by
  rw [warningEnds_eq h hd]
  split <;> simp [h]

/-! ## The end of the dump (R441) -/

@[simp] theorem layDump_medium_dump (d : Dump) (closed : Bool) (banks : List Nat) (s : State) :
    (layDump d closed banks s).medium.dump = s.medium.dump := by
  refine each_preserves (P := fun t => t.medium.dump = s.medium.dump) banks _ (fun b u h => ?_) rfl
  refine each_preserves (P := fun t => t.medium.dump = s.medium.dump) _ _ (fun x u h => ?_) h
  exact h

/-- The dump as its end leaves it: what is held of its items is that they have been laid. -/
def laid (d : Dump) : Dump :=
  { d with items := d.items.map fun x => { x with data := 0, granule := if x.type = 5 then 0 else x.granule, req := 0, mask := 0 } }

theorem dumpLaid_dump (s : State) : (dumpLaid s).medium.dump = s.medium.dump.map laid := rfl

/-- The dump is laid in the banks that have power, and is complete unless a package rail was lost. -/
def dumpClosed (us : Nat) (s : State) : State :=
  let s := onMedium (fun m => { m with dump := m.dump.map fun d => { d with complete := s.plinth.cause != 2, us } }) s
  match s.medium.dump with
  | some d => dumpLaid (layDump d true ((allBanks s).filter fun b => channelPowered s (channelOfBank b)) s)
  | none => s

theorem dumpClosed_plinth (us : Nat) (s : State) : (dumpClosed us s).plinth = s.plinth := by
  unfold dumpClosed
  extract_lets u
  split
  · exact layDump_plinth ..
  · rfl

theorem dumpClosed_dump (us : Nat) (s : State) :
    (dumpClosed us s).medium.dump = s.medium.dump.map fun d => laid { d with complete := s.plinth.cause != 2, us } := by
  unfold dumpClosed
  extract_lets u
  have hu : u.medium.dump = s.medium.dump.map fun d => { d with complete := s.plinth.cause != 2, us } := rfl
  split
  · rw [dumpLaid_dump, layDump_medium_dump, hu, Option.map_map]
    rfl
  · rename_i hnone
    rw [hnone] at hu
    rw [hnone, Option.map_eq_none_iff.mp hu.symm]
    rfl

/-- The log of the end of a dump, by its cause (R450). -/
def dumpLogged (c gen : Nat) (s : State) : State :=
  if c = 3 then supplyLog 9 0xFF 0 gen s
  else if c = 2 then supplyLog 2 s.plinth.firstRail (tget (2, 0) s.plinth.rails s.plinth.firstRail).2 0 s
  else supplyLog 3 0xFF 0 gen s

theorem dumpLogged_plinth (c gen : Nat) (s : State) :
    ∃ r, (dumpLogged c gen s).plinth = { s.plinth with logLast := some r } := by
  unfold dumpLogged
  split_ifs <;> exact ⟨_, rfl⟩

theorem dumpLogged_medium (c gen : Nat) (s : State) : (dumpLogged c gen s).medium = s.medium := by
  unfold dumpLogged
  split_ifs <;> rfl

theorem dumpDone_eq (us : Nat) (h : s.plinth.st = 5) (hc : s.plinth.cause ≠ 1) :
    ∃ gen u, u = saveEvents (dumpLogged s.plinth.cause gen (dumpClosed us s)) ∧
      dumpDone us s = railsDown s.plinth.cause (if s.plinth.cause = 2 then latch u.plinth.firstRail u else u) :=
  ⟨_, _, rfl, if_neg (by simp [h, hc])⟩

theorem dumpDone_fields (us : Nat) (h : s.plinth.st = 5) (hc : s.plinth.cause ≠ 1) {t : State} (he : t = dumpDone us s) : t.plinth.st = 7 ∧
    t.plinth.cause = s.plinth.cause ∧ t.plinth.logLast.isSome = true ∧ t.plinth.latched = (s.plinth.latched || s.plinth.cause == 2) ∧
    t.medium.dump = s.medium.dump.map fun d => laid { d with complete := s.plinth.cause != 2, us } := by
  obtain ⟨gen, u, hu, hdone⟩ := dumpDone_eq us h hc
  obtain ⟨r, hr⟩ := dumpLogged_plinth s.plinth.cause gen (dumpClosed us s)
  have hplinth : u.plinth = { s.plinth with logLast := some r } := by rw [hu, saveEvents_plinth, hr, dumpClosed_plinth]
  have hdump : u.medium.dump = s.medium.dump.map fun d => laid { d with complete := s.plinth.cause != 2, us } := by
    rw [hu, saveEvents_medium, dumpLogged_medium, dumpClosed_dump]
  rw [he, hdone, ← hdump]
  clear hu hdone he
  split_ifs with h2 <;> simp [hplinth, h2]

/-! ## HOLD and its end (R440) -/

section
variable (v q : Nat) (c : Cmd)

theorem sendMsix_links (s : State) : (sendMsix v s).links = s.links := ite_keeps (·.links) rfl (ite_keeps (·.links) rfl rfl)

theorem msix_links (s : State) : (msix v s).links = s.links :=
  (sendMsix_links v _).trans (ite_keeps (·.links) rfl (count_links 8 0x11 1 s))

theorem emit_cqe_links (i addr : Nat) (d : BitVec 128) (s : State) : (emit (.cqe i q addr d) s).links = s.links := by
  rw [show emit (.cqe i q addr d) s = if s.hst.linkUp && wanted (.cqe i q addr d) then push _ (count 8 0x11 1 s) else s from rfl]
  exact ite_keeps (·.links) (count_links 8 0x11 1 s) rfl

theorem writeCqe_links (d : Done) (s : State) : (writeCqe q d s).links = s.links := by
  unfold writeCqe
  extract_lets h sent u
  have hu : u.links = s.links := (count_links 8 0x13 1 _).trans (emit_cqe_links ..)
  clear_value u
  exact ite_keeps (·.links) (ite_keeps (·.links) hu ((msix_links _ _).trans hu)) hu

theorem postDone_links (d : Done) (s : State) : (postDone q d s).links = s.links := by
  refine ite_keeps (·.links) rfl (each_preserves (P := fun t => t.links = s.links) _ _ (fun x t h => ?_) rfl)
  exact ite_keeps (·.links) ((writeCqe_links q x _).trans h) h

theorem checkFenced_links (s : State) : (checkFenced q s).links = s.links := by
  unfold checkFenced
  split
  · rfl
  · refine ite_keeps (·.links) rfl ?_
    extract_lets u
    split
    · exact (postDone_links q _ _).trans (ite_keeps (·.links) rfl rfl)
    · rfl

/-- The end of a command leaves the links alone: its completion goes to the host. -/
theorem finish_links (status result : Nat) (s : State) : (finish c status result s).links = s.links :=
  ite_keeps (·.links) rfl ((checkFenced_links _ _).trans (postDone_links _ _ _))

end

theorem unwarnStreams_keeps {β : Type} (g : State → β) (hg : ∀ t x, g { t with stm := x } = g t) (s : State) :
    g (unwarnStreams s) = g s :=
  each_keeps _ _ g (fun _ _ => (ite_keeps g (hg _ _) ((hg _ _).trans (hg _ _))).trans (hg _ _)) s

/-- What the cancellation sets before the held commands end. -/
def shutdownLifted (s : State) : State :=
  onPwr (fun p => { p with
      noStart := false
      cntCancel := sat 64 p.cntCancel 1
      entry := if s.hst.stops.isEmpty then p.entry else 1 })
    (onOrd (fun o => { o with draining := false }) (onHst (fun h => { h with pfw := false })
      (onPlinth (fun p => { p with
        st := if s.pwr.drain = 2 then 6 else 2, pfw := false, charger := !s.pwr.inputLimit, onReq := false, autoRe := false }) s)))

/-- The commands that waited for the supply end. -/
def runsEnded (s : State) : State := each s.hst.runs (fun c s => finish c 0 0 s) (onHst (fun h => { h with runs := [] }) s)

theorem cancelShutdown_eq (h : s.plinth.st = 4) (hd : s.plinth.down = false) :
    cancelShutdown s = supplyLog 4 0xFF 0 0 (unwarnStreams (runsEnded (shutdownLifted s))) := if_neg (by simp [h, hd])

theorem runsEnded_keeps {β : Type} (g : State → β) (hg : ∀ t, g (besideCompletions { t with hst := { t.hst with runs := [] } }) = g t) (s : State) :
    g (runsEnded s) = g s := by
  have hstep (c : Cmd) (u : State) : besideCompletions { finish c 0 0 u with hst := { (finish c 0 0 u).hst with runs := [] } } =
      besideCompletions { u with hst := { u.hst with runs := [] } } :=
    congrArg (fun t : State => { t with hst := { t.hst with runs := [] } }) (besideCompletions_finish c u 0 0)
  refine (each_keeps _ _ g (fun c u => ?_) _).trans ((hg _).symm.trans (hg s))
  rw [← hg, hstep, hg]

theorem cancelShutdown_fields (h : s.plinth.st = 4) (hd : s.plinth.down = false) {t : State} (he : t = cancelShutdown s) :
    t.plinth.st = (if s.pwr.drain = 2 then 6 else 2) ∧ t.plinth.pfw = false ∧ t.hst.pfw = false ∧ t.ord.draining = false ∧
    t.pwr.cntCancel = sat 64 s.pwr.cntCancel 1 ∧ t.links = s.links := by
  rw [cancelShutdown_eq h hd] at he
  have hlogged (u : State) : (supplyLog 4 0xFF 0 0 u).hst = u.hst ∧ (supplyLog 4 0xFF 0 0 u).ord = u.ord ∧
    (supplyLog 4 0xFF 0 0 u).pwr = u.pwr ∧ (supplyLog 4 0xFF 0 0 u).links = u.links := ⟨rfl, rfl, rfl, rfl⟩
  obtain ⟨hhst, hord, hpwr, hlinks⟩ := hlogged (unwarnStreams (runsEnded (shutdownLifted s)))
  have hplinth : (unwarnStreams (runsEnded (shutdownLifted s))).plinth = (shutdownLifted s).plinth :=
    (unwarnStreams_keeps (·.plinth) (fun _ _ => rfl) _).trans (runsEnded_keeps (·.plinth) (fun _ => rfl) _)
  rw [he, supplyLog_plinth, hhst, hord, hpwr, hlinks, hplinth,
    unwarnStreams_keeps (·.hst) (fun _ _ => rfl), unwarnStreams_keeps (·.ord) (fun _ _ => rfl), unwarnStreams_keeps (·.pwr) (fun _ _ => rfl),
    unwarnStreams_keeps (·.links) (fun _ _ => rfl), runsEnded_keeps (·.hst.pfw) (fun _ => rfl), runsEnded_keeps (·.ord) (fun _ => rfl),
    runsEnded_keeps (·.pwr) (fun _ => rfl)]
  refine ⟨rfl, rfl, rfl, rfl, rfl, ?_⟩
  exact each_keeps (shutdownLifted s).hst.runs _ (·.links) (fun c _ => finish_links c 0 0 _) _

/-! ## The input -/

theorem engages_inputTrip {kind : TripKind} {vin : Nat} (ha : s.plinth.alive = true) (hd : s.plinth.down = false)
    (h : kind = .threshold ∧ vin < s.pwr.trip * 50 ∨ kind = .relative ∧ s.pwr.dropPct ≠ 0) :
    Engages (.inputTrip kind vin) s (tripped { s with plinth := { s.plinth with vin } }) := by
  refine engages_of_settled (if_pos ?_)
  rcases h with ⟨rfl, h⟩ | ⟨rfl, h⟩ <;> simp [ha, hd, tripHolds, h]

theorem takes_inputTrip_idle {kind : TripKind} {vin : Nat} (h : s.plinth.alive = false ∨ s.plinth.down = true ∨
    kind = .threshold ∧ s.pwr.trip * 50 ≤ vin ∨ kind = .relative ∧ s.pwr.dropPct = 0) : Takes (.inputTrip kind vin) s s := by
  refine takes_of_done (if_neg ?_)
  rcases h with h | h | ⟨rfl, h⟩ | ⟨rfl, h⟩
  · simp [h]
  · simp [h]
  · simp [tripHolds, h]
  · simp [tripHolds, h]

theorem overVoltage_fires {vin : Nat} (ha : s.plinth.alive = true) (ho : s.plinth.swOpen = false) (hv : 46000 < vin) :
    exec (.overVoltage vin) s = settled s (if s.plinth.down then { s with plinth := { s.plinth with swOpen := true, vin } }
      else tripped { s with plinth := { s.plinth with swOpen := true, vin } }) := if_pos (by simp [ha, ho, hv])

theorem takes_overVoltageEnd {vin : Nat} (ho : s.plinth.swOpen = true) (hv : vin < 44000) : Takes (.overVoltageEnd vin) s
    { s with plinth := { s.plinth with swOpen := false, vin, down := s.plinth.down && decide (vin < restartMv s) } } :=
  takes_of_done (if_pos (by simp [ho, hv]))

end

/-- Settles O50, by the states of the shutdown. -/
theorem theShutdownRunsItsSteps : Obligations.TheShutdownRunsItsSteps := by
  unfold Obligations.TheShutdownRunsItsSteps
  refine ⟨fun s vin kind ha hd hk => ⟨_, rfl, engages_inputTrip ha hd hk, tripped_down _, fun hst hr hd0 => ?_,
      fun h => tripped_start_fields (s := { s with plinth := { s.plinth with vin } }) h, fun hst => ?_,
      fun hst => tripped_shutdown_fields (s := { s with plinth := { s.plinth with vin } }) hst⟩,
    fun s vin kind h => takes_inputTrip_idle h, fun s hst hr hd => tripped_run_fields hst hr hd,
    fun s hst hd => ⟨_, rfl, engages_of_settled rfl, warningEnds_fields hst hd⟩, fun s h => engages_of_settled (congrArg (settled s) (if_pos h)),
    fun s hst hd => ⟨_, rfl, engages_of_settled (if_pos ⟨hst, hd⟩), by simp, commit_running s, commit_linkUp s, commit_dump⟩,
    fun s h => takes_of_done (if_neg ?_), fun s us hst hc => ?_, fun s us h => takes_of_done (congrArg (done s) (if_pos h)),
    fun s vin ha => takes_of_done (if_pos ha), fun s vin ha => takes_of_done (if_neg (by simp [ha])),
    fun s hst hd => ⟨_, rfl, engages_of_settled rfl, cancelShutdown_fields hst hd rfl⟩,
    fun s h => engages_of_settled (congrArg (settled s) (if_pos h)), fun s vin ha ho hv => ?_, fun s vin h => takes_of_done (if_neg ?_),
    fun s vin ho hv => takes_overVoltageEnd ho hv, fun s vin h => takes_of_done (if_neg ?_)⟩
  · obtain ⟨hcnt, h3, hpfw, -, hcharger, hcause, hhost⟩ := tripped_run_fields (s := { s with plinth := { s.plinth with vin } }) hst hr hd0
    exact ⟨hcnt, h3, hpfw, hcharger, hcause, hhost⟩
  · rw [tripped_of_hold (s := { s with plinth := { s.plinth with vin } }) hst]
    exact ⟨by simp, commit_running _⟩
  · rcases h with h | h <;> simp [h]
  · obtain ⟨h7, hcause, hlog, hlatched, hdump⟩ := dumpDone_fields us hst hc rfl
    refine ⟨_, takes_of_done rfl, h7, hcause, hlog, hlatched, fun hnone => by rw [hdump, hnone]; rfl, fun d hd =>
      ⟨laid { d with complete := s.plinth.cause != 2, us }, by rw [hdump, hd]; rfl, rfl, rfl, rfl, List.length_map _⟩⟩
  · refine ⟨_, rfl, fun hd => ⟨engages_of_settled ((overVoltage_fires ha ho hv).trans (congrArg (settled s) (if_neg (by simp [hd])))),
      tripped_swOpen _, tripped_down _⟩, fun hd => engages_of_settled ((overVoltage_fires ha ho hv).trans (congrArg (settled s) (if_pos hd)))⟩
  · rcases h with h | h | h <;> simp [h]
  · rcases h with h | h <;> simp [h]

end Sys2Proof.Machine
end

section
/-!
PROOF. The start sequence (R360, R382, R423, R425, R427, R442, R455; O48).
-/

namespace Sys2Proof.Machine
open Sys2Proof

section
variable {s : State}

/-! ## The first rail -/

theorem startRails_fields (vin : Nat) {t : State} (he : t = startRails vin s) : t.plinth.st = 1 ∧ t.plinth.vin = vin ∧ t.glb.step = 1 ∧
    t.plinth.agtRst = 0xFF ∧ railSt t 0 = 1 ∧ t.plinth.alive = true ∧ ∀ r, 1 ≤ r → r < 24 → railSt t r = 0 := by
  subst he
  have hrails (r : Nat) : railSt (startRails vin s) r = railSt (setRail 0 1 0 (allRails 0 s)) r :=
    railSt_congr (by simp only [startRails, onPlinth_plinth, onGlb_plinth]) r
  refine ⟨rfl, rfl, rfl, rfl, (hrails 0).trans (railSt_setRail_same (by simp) _), rfl, fun r hr h24 => (hrails r).trans ?_⟩
  exact (railSt_setRail_other (by omega) _).trans (railSt_allRails_zero h24 s)

theorem powerUp_fires {vin : Nat} (hst : s.plinth.st = 0) (hl : s.plinth.latched = false) (hq : s.plinth.onReq = true ∨ s.plinth.alive = false)
    (hv : restartMv s ≤ vin) : powerUp vin s = startRails vin s := if_pos ⟨hst, hl, by simpa using hq, hv⟩

theorem powerUp_idle {vin : Nat} (h : s.plinth.st ≠ 0 ∨ s.plinth.latched = true ∨ (s.plinth.onReq = false ∧ s.plinth.alive = true) ∨
    vin < restartMv s) : powerUp vin s = s := by
  refine if_neg fun ⟨hst, hl, hq, hv⟩ => ?_
  rcases h with h | h | ⟨hq', ha⟩ | h
  · exact h hst
  · simp [h] at hl
  · simp [hq', ha] at hq
  · omega

theorem autoRestart_fires (hst : s.plinth.st = 0) (hl : s.plinth.latched = false) (ha : s.plinth.alive = true)
    (hq : s.plinth.autoRe = true ∨ s.plinth.onReq = true) (hd : s.plinth.down = false) : autoRestart s = startRails s.plinth.vin s :=
  if_pos ⟨hst, hl, ha, hq, hd⟩

theorem autoRestart_idle (h : s.plinth.st ≠ 0 ∨ s.plinth.latched = true ∨ s.plinth.alive = false ∨
    (s.plinth.autoRe = false ∧ s.plinth.onReq = false) ∨ s.plinth.down = true) : autoRestart s = s := by
  refine if_neg fun ⟨hst, hl, ha, hq, hd⟩ => ?_
  rcases h with h | h | h | ⟨hr, ho⟩ | h
  · exact h hst
  · simp [h] at hl
  · simp [h] at ha
  · simp [hr, ho] at hq
  · simp [h] at hd

/-! ## The rails in turn -/

section
variable {rail mv : Nat}

theorem railGood_eq (hst : s.plinth.st = 1) (h1 : railSt s rail = 1) (hw : railInWindow rail mv = true) (hlt : rail < 23) :
    railGood rail mv s = setRail (rail + 1) 1 0 (setRail rail 2 mv s) :=
  (if_neg (by simp [hst, h1, hw])).trans (if_pos hlt)

theorem railGood_last (hst : s.plinth.st = 1) (h1 : railSt s 23 = 1) (hw : railInWindow 23 mv = true) :
    railGood 23 mv s =
      let u := onPlinth (fun p => { p with charger := true }) (onGlb (fun g => { g with step := 2 }) (setRail 23 2 mv s))
      if s.plinth.latchClr then supplyLog 7 0xFF 0 0 (onPlinth (fun p => { p with latchClr := false }) u) else u :=
  if_neg (by simp [hst, h1, hw])

theorem railGood_idle (h : s.plinth.st ≠ 1 ∨ railSt s rail ≠ 1 ∨ railInWindow rail mv = false) : railGood rail mv s = s :=
  if_pos (by simpa using h)

theorem railStart_eq (hst : s.plinth.st = 1) (h1 : railSt s rail = 1) :
    railStart rail mv s = railsDown 6 (latch rail (supplyLog 1 rail mv 0 (setRail rail 3 mv s))) := if_neg (by simp [hst, h1])

theorem takes_railGood (h : rail < 24) : Takes (.railGood rail mv) s (railGood rail mv s) := takes_of_done (congrArg (done s) (if_pos h))

theorem takes_railStart (h : rail < 24) : Takes (.railStart rail mv) s (railStart rail mv s) := takes_of_done (congrArg (done s) (if_pos h))

theorem takes_rails_idle (h : s.plinth.st ≠ 1 ∨ railSt s rail ≠ 1 ∨ 24 ≤ rail) :
    Takes (.railGood rail mv) s s ∧ Takes (.railStart rail mv) s s := by
  by_cases hlt : rail < 24
  · have h : s.plinth.st ≠ 1 ∨ railSt s rail ≠ 1 := h.imp_right fun h => h.resolve_right (by omega)
    have hgood := takes_railGood (s := s) (mv := mv) hlt
    have hstart := takes_railStart (s := s) (mv := mv) hlt
    rw [railGood_idle (h.imp_right .inl)] at hgood
    rw [show railStart rail mv s = s from if_pos h] at hstart
    exact ⟨hgood, hstart⟩
  · exact ⟨takes_of_done (congrArg (done s) (if_neg hlt)), takes_of_done (congrArg (done s) (if_neg hlt))⟩

theorem takes_railGood_next (hlt : rail < 23) (hst : s.plinth.st = 1) (h1 : railSt s rail = 1) (hw : railInWindow rail mv = true) :
    ∃ t, t = setRail (rail + 1) 1 0 (setRail rail 2 mv s) ∧ Takes (.railGood rail mv) s t ∧ railSt t (rail + 1) = 1 ∧
      ∀ r, r ≠ rail → r ≠ rail + 1 → railSt t r = railSt s r := by
  have h := takes_railGood (s := s) (mv := mv) (show rail < 24 by omega)
  rw [railGood_eq hst h1 hw hlt] at h
  exact ⟨_, rfl, h, railSt_setRail_same (by simp) _, fun r hr hr' => (railSt_setRail_other hr' _).trans (railSt_setRail_other hr s)⟩

theorem takes_railGood_last (hst : s.plinth.st = 1) (h1 : railSt s 23 = 1) (hw : railInWindow 23 mv = true) :
    ∃ t u, t = setRail 23 2 mv s ∧
      u = { t with glb := { t.glb with step := 2 }, plinth := { t.plinth with charger := true } } ∧
      (s.plinth.latchClr = false → Takes (.railGood 23 mv) s u) ∧
      (s.plinth.latchClr = true → Takes (.railGood 23 mv) s (supplyLog 7 0xFF 0 0 { u with plinth := { u.plinth with latchClr := false } })) := by
  have h := takes_railGood (s := s) (mv := mv) (show 23 < 24 by omega)
  rw [railGood_last hst h1 hw] at h
  refine ⟨_, _, rfl, rfl, fun hc => ?_, fun hc => ?_⟩
  · rwa [hc] at h
  · rwa [hc] at h

theorem takes_railStart_fails (hlt : rail < 24) (hst : s.plinth.st = 1) (h1 : railSt s rail = 1) :
    ∃ t, t = railsDown 6 (latch rail (supplyLog 1 rail mv 0 (setRail rail 3 mv s))) ∧ Takes (.railStart rail mv) s t ∧
      t.plinth.st = 7 ∧ t.plinth.cause = 6 ∧ t.plinth.latched = true ∧ t.plinth.firstRail = rail ∧ railSt t rail = 3 ∧
      t.plinth.logLast.isSome = true := by
  have h := takes_railStart (s := s) (mv := mv) hlt
  rw [railStart_eq hst h1] at h
  refine ⟨_, rfl, h, by simp, by simp, by simp, by simp, ?_, by simp⟩
  refine (railSt_congr (s := setRail rail 3 mv s) ?_ rail).trans (railSt_setRail_same (by simp) s)
  simp

end

/-! ## The clocks -/

theorem refStable_eq (cycles : Nat) (h2 : s.glb.step = 2) (hst : s.plinth.st = 1 ∨ s.plinth.st = 2) (hf : s.glb.failed = false) :
    refStable cycles s = bootSteps { s with
      clk := { s.clk with refCnt := cycles, refStable := true, locked := true }
      glb := { s.glb with identity := true, step := 3 }
      plinth := { s.plinth with idSeen := true } } := if_neg (by simp [h2, hf]; omega)

theorem bootSteps_held (h : s.plinth.tapHold = true) : bootSteps s = s := if_pos (.inr (.inr h))

theorem refStable_idle (cycles : Nat) (h : s.glb.step ≠ 2 ∨ (s.plinth.st ≠ 1 ∧ s.plinth.st ≠ 2) ∨ s.glb.failed = true) : refStable cycles s = s :=
  if_pos (by simpa using h)

theorem clockTimeout_eq (h2 : s.glb.step = 2) (hst : s.plinth.st = 1 ∨ s.plinth.st = 2) :
    clockTimeout s = railsDown 6 (latch 255 (supplyLog 8 0xFF 0 0
      (saveEvents (event 0x0903 0 3 { s with glb := { s.glb with failCause := 3 } })))) := if_neg (by simp [h2]; omega)

theorem clockTimeout_idle (h : s.glb.step ≠ 2 ∨ (s.plinth.st ≠ 1 ∧ s.plinth.st ≠ 2)) : clockTimeout s = s := if_pos (by simpa using h)

end

/-- Settles O48, along the sequence. -/
theorem theStartSequenceRuns : Obligations.TheStartSequenceRuns := by
  unfold Obligations.TheStartSequenceRuns
  refine ⟨fun s vin hst hl hq hv => ?_, fun s vin h => takes_of_done (congrArg (done s) (powerUp_idle h)),
    fun s rail mv hlt hst h1 hw => takes_railGood_next hlt hst h1 hw, fun s mv hst h1 hw => takes_railGood_last hst h1 hw,
    fun s rail mv hlt hst h1 => takes_railStart_fails hlt hst h1, fun s rail mv h => takes_rails_idle h, fun s rail mv hw => ?_,
    fun s cycles h2 hst hf => ⟨_, takes_of_done (congrArg (done s) (refStable_eq cycles h2 hst hf)), rfl, fun h => bootSteps_held h⟩,
    fun s cycles h => takes_of_done (congrArg (done s) (refStable_idle cycles h)), fun s h2 hst => ?_,
    fun s h => takes_of_done (congrArg (done s) (clockTimeout_idle h)), fun s hst hl ha hq hd => ?_,
    fun s h => takes_of_done (congrArg (done s) (autoRestart_idle (h.imp_right .inr))),
    fun s hl => ⟨fun vin => takes_of_done (congrArg (done s) (powerUp_idle (.inr (.inl hl)))),
      takes_of_done (congrArg (done s) (autoRestart_idle (.inr (.inl hl))))⟩⟩
  · obtain ⟨h1, hvin, hstep, hrst, hrail, ha, hoff⟩ := startRails_fields vin rfl
    exact ⟨_, takes_of_done (congrArg (done s) (powerUp_fires hst hl hq hv)), h1, hvin, hstep, hrst, hrail, ha, hoff⟩
  · refine takes_of_done (congrArg (done s) ?_)
    rw [railGood_idle (.inr (.inr hw)), ite_self]
  · exact ⟨_, rfl, takes_of_done (congrArg (done s) (clockTimeout_eq h2 hst)), by simp, by simp, by simp, by simp, by simp⟩
  · obtain ⟨h1, -, hstep, -, hrail, -, hoff⟩ := startRails_fields s.plinth.vin rfl
    exact ⟨_, rfl, takes_of_done (congrArg (done s) (autoRestart_fires hst hl ha hq hd)), h1, hstep, hrail, hoff⟩

end Sys2Proof.Machine
end

section
/-!
PROOF. The flash takes records and images (R494 to R505, R554; O56).
-/

namespace Sys2Proof.Machine
open Sys2Proof

section
variable {s : State}

/-! ## Records (R496, R501) -/

theorem appendDone_first {n : Nat} {a : Append} (ha : (s.flash.appends.find? fun a => a.part == n) = some a) (h0 : a.phase = 0)
    (hok : s.flash.ok1 = true) : appendDone n 0 true s = { s with flash := { s.flash with
      appends := s.flash.appends.map fun x => if x = a then { a with r := { a.r with dev0 := true }, phase := 1 } else x } } := by
  rw [appendDone, ha]
  exact (if_neg (by simp [h0])).trans ((if_pos rfl).trans (if_pos ⟨rfl, hok⟩))

theorem appendDone_last {n : Nat} {a : Append} (ha : (s.flash.appends.find? fun a => a.part == n) = some a) (h1 : a.phase = 1) :
    appendDone n 1 true s = recordDurable n { a.r with dev1 := true } { s with flash := { s.flash with appends := s.flash.appends.erase a } } := by
  rw [appendDone, ha]
  exact (if_neg (by simp [h1])).trans ((if_pos rfl).trans (if_neg (by simp)))

theorem takes_operatingSeconds (hst : s.plinth.st ≠ 0) (h3 : 3 ≤ s.glb.step) :
    ∃ t, Takes .operatingSecondsRecord s t ∧ t.flash.opSeconds = s.flash.opSeconds + 360 ∧ t.flash.parts = s.flash.parts :=
  ⟨_, takes_of_done (if_neg (by omega)), rfl, rfl⟩

/-! ## Images (R503, R505) -/

section
variable {op slot k : Nat}

/-- What a start of an operation leaves, once the slot and the offset are shown: nothing happens during another (log 74), and the slot of the
image in force is refused (R503). -/
theorem startImageOp_fields {u : State} (hl : u.ldg = { s.ldg with slot, offset := k }) (hg : u.glb = s.glb) {t : State}
    (he : t = startImageOp op slot k u) : t.flash = u.flash ∧ t.ldg.slot = slot ∧ t.ldg.offset = k ∧
      (s.ldg.busy = true → t.ldg = { s.ldg with slot, offset := k }) ∧
      (s.ldg.busy = false → s.glb.imageApplied = true → s.glb.slot = slot → t.ldg.busy = false ∧ t.ldg.status = 2) ∧
      (s.ldg.busy = false → (s.glb.imageApplied = false ∨ s.glb.slot ≠ slot) →
        t.ldg.busy = true ∧ t.ldg.op = op ∧ t.ldg.opSlot = slot ∧ t.ldg.opOff = k ∧ t.ldg.status = 0) := by
  have hbusy : u.ldg.busy = s.ldg.busy := by rw [hl]
  rw [startImageOp, hbusy, hg] at he
  split_ifs at he with hb ha
  · simp [he, hl, hb]
  · have hb : s.ldg.busy = false := by simpa using hb
    simp [he, hl, hb, ha]
  · have hb : s.ldg.busy = false := by simpa using hb
    refine he ▸ ⟨rfl, rfl, rfl, by simp [hb], fun _ h hs => absurd ⟨h, hs⟩ ha, fun _ _ => ⟨rfl, rfl, rfl, rfl, rfl⟩⟩

end

@[simp] theorem event_ldg (code src operand : Nat) (s : State) : (event code src operand s).ldg = s.ldg :=
  congrArg (·.ldg) (besideRecording_event code src operand s)

@[simp] theorem trap_ldg (bit : Nat) (s : State) : (trap bit s).ldg = s.ldg := congrArg (·.ldg) (besideTrap_trap bit s)

theorem clampIf_ldg (b : Bool) (off : Nat) (s : State) : (clampIf b off s).ldg = s.ldg := by
  unfold clampIf
  split
  · exact event_ldg ..
  · rfl

theorem clampIf_glb (b : Bool) (off : Nat) (s : State) : (clampIf b off s).glb = s.glb := by
  unfold clampIf
  split
  · exact event_glb ..
  · rfl

theorem clampIf_false (off : Nat) (s : State) : clampIf false off s = s := rfl

/-- The write of ERASE: the low half of the register alone. -/
theorem writeImg_erase {slot : Nat} (hs : slot < 2) (s : State) :
    writeImg { off := offImg, m := slot % 2 * 4 + 1, a := slot % 2 * 4 + 1, lo := true, hi := false, cls := 1 } s =
      startImageOp 1 slot s.ldg.offset (onLdg (fun l => { l with offset := s.ldg.offset, slot }) s) := by
  have hop : bits (slot % 2 * 4 + 1) 0 2 = 1 := by simp only [bits]; omega
  have hslot : bits (slot % 2 * 4 + 1) 2 1 = slot := by simp only [bits]; omega
  simp only [writeImg, hop, hslot]
  rfl

/-- The nearest multiple of 256 below 4 MiB (R505, R554). -/
def nearestOffset (offset : Nat) : Nat := min ((offset + 128) / 256 * 256) (4 * 2 ^ 20 - 256)

theorem nearestOffset_of_page {offset : Nat} (h : offset % 256 = 0) (hlt : offset < 4 * 2 ^ 20) : nearestOffset offset = offset := by
  simp only [nearestOffset]
  omega

/-- The write of PROGRAM, with its offset. -/
theorem writeImg_program {slot : Nat} (hs : slot < 2) (offset : Nat) (s : State) :
    writeImg (slotOf offImg (BitVec.ofNat 64 (offset % 2 ^ 32 * 2 ^ 32 + slot % 2 * 4 + 2))) s =
      startImageOp 2 slot (nearestOffset (offset % 2 ^ 32)) (clampIf (nearestOffset (offset % 2 ^ 32) != offset % 2 ^ 32) offImg
        (onLdg (fun l => { l with offset := nearestOffset (offset % 2 ^ 32), slot }) s)) := by
  have hm : (BitVec.ofNat 64 (offset % 2 ^ 32 * 2 ^ 32 + slot % 2 * 4 + 2)).toNat = offset % 2 ^ 32 * 2 ^ 32 + slot % 2 * 4 + 2 := by
    rw [BitVec.toNat_ofNat]
    omega
  have hop : bits (offset % 2 ^ 32 * 2 ^ 32 + slot % 2 * 4 + 2) 0 2 = 2 := by simp only [bits]; omega
  have hslot : bits (offset % 2 ^ 32 * 2 ^ 32 + slot % 2 * 4 + 2) 2 1 = slot := by simp only [bits]; omega
  have hoff : bits (offset % 2 ^ 32 * 2 ^ 32 + slot % 2 * 4 + 2) 32 32 = offset % 2 ^ 32 := by simp only [bits]; omega
  simp only [writeImg, slotOf, hm, hop, hslot, hoff]
  rfl

theorem takes_eraseSlot {slot : Nat} (hs : slot < 2) (h : HostReaches s 0x1100040) : Takes (.eraseSlot slot) s
    (startImageOp 1 slot (tlpIn s).ldg.offset (onLdg (fun l => { l with offset := (tlpIn s).ldg.offset, slot }) (tlpIn s))) :=
  takes_of_done (congrArg (done s) ((hostBar_of_reaches (fun _ => rfl) h).trans (writeImg_erase hs (tlpIn s))))

theorem takes_program {slot : Nat} (hs : slot < 2) (offset : Nat) (h : HostReaches s 0x1100040) : Takes (.program slot offset) s
    (startImageOp 2 slot (nearestOffset (offset % 2 ^ 32)) (clampIf (nearestOffset (offset % 2 ^ 32) != offset % 2 ^ 32) offImg
      (onLdg (fun l => { l with offset := nearestOffset (offset % 2 ^ 32), slot }) (tlpIn s)))) :=
  takes_of_done (congrArg (done s) ((hostBar_of_reaches (fun _ => rfl) h).trans (writeImg_program hs offset (tlpIn s))))

/-! ## The end of an image operation -/

theorem retireSector_ldg (dev : Nat) (s : State) : ∃ d, (retireSector dev s).2.ldg = { s.ldg with degraded := d } := by
  unfold retireSector
  extract_lets u v
  split
  · exact ⟨s.ldg.degraded, rfl⟩
  · exact ⟨true, by rw [trap_ldg, event_ldg]; rfl⟩

theorem endImageOp_ok (hb : s.ldg.busy = true) : endImageOp true s =
    onSlot s.ldg.opSlot (fun m => if s.ldg.op = 1 then [] else Memory.writeN 0xFF m s.ldg.opOff (Memory.readN 0 s.ldg.buf 0 256))
      (onLdg (fun l => { l with busy := false, op := 0, status := 0, busy0 := false, busy1 := false }) s) := by
  refine (if_neg (by simp [hb])).trans ((if_pos rfl).trans ?_)
  split <;> rfl

theorem endImageOp_ldg (ok : Bool) (hb : s.ldg.busy = true) :
    (endImageOp ok s).ldg.busy = false ∧ (endImageOp ok s).ldg.status = if ok then 0 else 1 := by
  cases ok
  · have hend : endImageOp false s = _ := if_neg (by simp [hb])
    obtain ⟨d, hd⟩ := retireSector_ldg s.ldg.opSlot (onSlot s.ldg.opSlot
      (fun m => Memory.writeN 0xFF m (if s.ldg.op = 1 then 0 else s.ldg.opOff) (leBytes 256 (free s).1))
      (free (onLdg (fun l => { l with busy := false, op := 0, status := 1, busy0 := false, busy1 := false }) s)).2)
    rw [show (endImageOp false s).ldg = _ from (congrArg (·.ldg) hend).trans hd]
    exact ⟨rfl, rfl⟩
  · rw [endImageOp_ok hb]
    exact ⟨rfl, rfl⟩

theorem endImageOp_flash (hb : s.ldg.busy = true) :
    (s.ldg.op = 1 → (endImageOp true s).flash = if s.ldg.opSlot = 0 then { s.flash with slotA := [] } else { s.flash with slotB := [] }) ∧
    (s.ldg.op = 2 → (endImageOp true s).flash =
      let page := Memory.readN 0 s.ldg.buf 0 256
      if s.ldg.opSlot = 0 then { s.flash with slotA := Memory.writeN 0xFF s.flash.slotA s.ldg.opOff page }
      else { s.flash with slotB := Memory.writeN 0xFF s.flash.slotB s.ldg.opOff page }) := by
  rw [endImageOp_ok hb]
  refine ⟨fun h => ?_, fun h => ?_⟩ <;> simp [h, onSlot]

end

/-- Settles O56: the records, and the operations on the image slots. -/
theorem theFlashTakesRecordsAndImages : Obligations.TheFlashTakesRecordsAndImages := by
  unfold Obligations.TheFlashTakesRecordsAndImages
  refine ⟨fun s part dev ok hst => takes_of_done (if_neg hst), fun s n a ha h0 hok => appendDone_first ha h0 hok,
    fun s n a ha h1 => appendDone_last ha h1, fun s dev sector hst hs => takes_of_done ((if_neg hst).trans (if_neg hs)),
    fun s dev hst => takes_of_done ((if_neg hst).trans (if_pos rfl)), fun s hst h3 => takes_operatingSeconds hst h3,
    fun s part dev sector ok hst => ⟨takes_of_done (if_pos hst), takes_of_done (if_pos hst)⟩, fun s h => takes_of_done (if_pos h),
    fun s slot hs h => ?_, fun s slot offset hs h256 hlt h => ?_, fun s slot offset hs h => ?_,
    fun s slot offset h => ⟨takes_of_done (congrArg (done s) (hostBar_of_down _ h)), takes_of_done (congrArg (done s) (hostBar_of_down _ h))⟩,
    fun s ok hb => ?_, fun s ok hb => takes_of_done (congrArg (done s) (if_pos (by simp [hb])))⟩
  · obtain ⟨hflash, hslot, hoff, hbusy, hrefused, hstarts⟩ := startImageOp_fields (s := s) (op := 1) (slot := slot) (k := (tlpIn s).ldg.offset)
      (u := onLdg (fun l => { l with offset := (tlpIn s).ldg.offset, slot }) (tlpIn s)) (by simp) (by simp) rfl
    refine ⟨_, takes_eraseSlot hs h, hflash.trans (tlpIn_flash s), hslot, hoff.trans (by simp), fun hb => ?_, hrefused, fun hb hn => ?_⟩
    · exact (hbusy hb).trans (by simp)
    · obtain ⟨h1, h2, h3, -, h5⟩ := hstarts hb hn
      exact ⟨h1, h2, h3, h5⟩
  · have hk : nearestOffset (offset % 2 ^ 32) = offset := by rw [Nat.mod_eq_of_lt (by omega), nearestOffset_of_page h256 hlt]
    have hu : offset % 2 ^ 32 = offset := Nat.mod_eq_of_lt (by omega)
    have ht := takes_program hs offset h
    rw [hk, hu, bne_self_eq_false, clampIf_false] at ht
    obtain ⟨hflash, hrest⟩ := startImageOp_fields (s := s) (op := 2) (slot := slot) (k := offset)
      (u := onLdg (fun l => { l with offset, slot }) (tlpIn s)) (by simp) (by simp) rfl
    exact ⟨_, ht, hflash.trans (tlpIn_flash s), hrest⟩
  · obtain ⟨-, hslot, hoff, -⟩ := startImageOp_fields (s := s) (op := 2) (slot := slot) (k := nearestOffset (offset % 2 ^ 32))
      (u := clampIf (nearestOffset (offset % 2 ^ 32) != offset % 2 ^ 32) offImg
        (onLdg (fun l => { l with offset := nearestOffset (offset % 2 ^ 32), slot }) (tlpIn s)))
      (by rw [clampIf_ldg]; simp) (by rw [clampIf_glb]; simp) rfl
    exact ⟨_, takes_program hs offset h, hslot, hoff⟩
  · obtain ⟨hidle, hstatus⟩ := endImageOp_ldg ok hb
    obtain ⟨herased, hprogrammed⟩ := endImageOp_flash hb
    exact ⟨_, rfl, takes_of_done rfl, hidle, hstatus, fun hok h1 => hok ▸ herased h1, fun hok h2 => hok ▸ hprogrammed h2⟩

end Sys2Proof.Machine
end

section
/-!
PROOF. Errors are tested and scrubbed (R481, R482, R486, R488, R490; O55).
-/

namespace Sys2Proof.Machine
open Sys2Proof

section
variable {s : State} {m loc : Nat} {t : STest}

/-! ## The test of a location -/

theorem testOf_congr {u : State} (h : u.err.tests = s.err.tests) (m loc : Nat) : testOf u m loc = testOf s m loc :=
  congrArg (List.find? fun t : STest => t.mem == m && t.loc == loc) h

theorem mem_loc_of_testOf (h : testOf s m loc = some t) : t.mem = m ∧ t.loc = loc := by simpa using List.find?_some h

theorem testOf_map {u : State} (f : STest → STest) (hf : ∀ x, (f x).mem = x.mem ∧ (f x).loc = x.loc)
    (hu : u.err.tests = s.err.tests.map fun x => if x.mem = m ∧ x.loc = loc then f x else x) (h : testOf s m loc = some t) :
    testOf u m loc = some (f t) := by
  have hsame : (fun x : STest => x.mem == m && x.loc == loc) ∘ (fun x => if x.mem = m ∧ x.loc = loc then f x else x) =
      fun x => x.mem == m && x.loc == loc := by
    funext x
    by_cases hx : x.mem = m ∧ x.loc = loc
    · simp [hx, hf]
    · simp [hx]
  rw [testOf, hu, List.find?_map, hsame]
  obtain ⟨hm, hl⟩ := mem_loc_of_testOf h
  rw [testOf] at h
  simp [h, hm, hl]

theorem testOf_dropTest (m loc : Nat) (s : State) : testOf (dropTest m loc s) m loc = none := by
  refine List.find?_eq_none.mpr fun x hx => ?_
  simpa [imp_iff_not_or] using (List.mem_filter.mp hx).2

theorem tryTest_running (ht : testOf s m loc = some t) (hbusy : testBusy s m loc = false) (hroom : m = 7 → mediaRoom s = true) :
    testOf (tryTest t s) m loc = some { t with running := true } := by
  obtain ⟨rfl, rfl⟩ := mem_loc_of_testOf ht
  exact testOf_map (fun t => { t with running := true }) (fun _ => ⟨rfl, rfl⟩) (tests_tryTest hbusy hroom) ht

theorem tryTest_again (hbusy : testBusy s t.mem t.loc = true) (h : t.tries < 99) :
    tryTest t s = onTest t.mem t.loc (fun t => { t with tries := t.tries + 1 }) s := by
  rw [tryTest, if_pos (by simp [hbusy]), if_neg (by omega)]

theorem tryTest_dropped (hbusy : testBusy s t.mem t.loc = true) (h : 99 ≤ t.tries) :
    tryTest t s = event 0x0B02 0 t.loc (dropTest t.mem t.loc s) := by
  rw [tryTest, if_pos (by simp [hbusy]), if_pos (by omega)]

/-- A test that waits is tried once more, and dropped at the hundredth attempt (R486). -/
theorem tryTest_fields (ht : testOf s m loc = some t) {u : State} (hu : u = tryTest t s) :
    (testBusy s m loc = false → (m = 7 → mediaRoom s = true) → testOf u m loc = some { t with running := true }) ∧
    (testBusy s m loc = true → t.tries < 99 → u.med = s.med ∧ testOf u m loc = some { t with tries := t.tries + 1 }) ∧
    (testBusy s m loc = true → 99 ≤ t.tries → testOf u m loc = none) := by
  subst hu
  obtain ⟨hm, hl⟩ := mem_loc_of_testOf ht
  refine ⟨tryTest_running ht, fun hbusy h => ?_, fun hbusy h => ?_⟩
  · rw [← hm, ← hl] at hbusy ht ⊢
    rw [tryTest_again hbusy h]
    exact ⟨rfl, testOf_map (fun t => { t with tries := t.tries + 1 }) (fun _ => ⟨rfl, rfl⟩) rfl ht⟩
  · rw [← hm, ← hl] at hbusy ⊢
    rw [tryTest_dropped hbusy h, testOf_congr (congrArg Err.tests (event_err ..))]
    exact testOf_dropTest ..

theorem waitingTest_of (first : Bool) (ht : testOf s m loc = some t) :
    waitingTest first m loc s = if !t.running && (t.tries == 0) == first then settled s (tryTest t s) else done s s := by
  rw [waitingTest, ht]

theorem waitingTest_idle (first : Bool) (h : (testOf s m loc).all (fun t => t.running) = true) : waitingTest first m loc s = done s s := by
  unfold waitingTest
  split
  · next t ht =>
    rw [ht] at h
    exact if_neg (by simpa using fun hr => absurd h (by simp [hr]))
  · rfl

/-! ## The end of a test (R488) -/

theorem outcome_bad (h : t.mem ≠ 7) : outcome s t false = 2 := by simp [outcome, h]

theorem outcome_clean (h : t.mem ≠ 7) (hl : (t.mem, t.loc) ∉ s.err.errLocs) : outcome s t true = 0 := by simp [outcome, h, hl]

/-- What the end of a test does about its outcome. -/
def outcomeActed (t : STest) (o : Nat) (s : State) : State :=
  if o = 1 then
    let s := onMemErr t.mem (fun m => { m with transient := sat 64 m.transient 1 })
      (onErr (fun e => { e with upsets := (t.mem, t.loc, s.flash.opSeconds) :: e.upsets }) s)
    if t.mem = 7 then recoverLine t.loc s else s
  else if o = 2 then retireLoc t.mem t.loc s else s

/-- The answer to the command that asked for the test. -/
def testAnswered (t : STest) (o : Nat) (s : State) : State :=
  match t.cmd with
  | some c => finish c 0 o (fillWindow c (leBytes ((free s).1 % 4089) (free (free s).2).1) (free (free s).2).2)
  | none => s

theorem endTest_eq (t : STest) (good : Bool) (s : State) :
    endTest t good s = testAnswered t (outcome s t good) (outcomeActed t (outcome s t good) (dropTest t.mem t.loc s)) := rfl

theorem testAnswered_err (t : STest) (o : Nat) (s : State) : (testAnswered t o s).err = s.err := by
  unfold testAnswered
  split
  · exact (finish_err ..).trans rfl
  · rfl

theorem tests_outcomeActed {o : Nat} (h7 : t.mem ≠ 7) (h2 : o ≠ 2) (s : State) : (outcomeActed t o s).err.tests = s.err.tests := by
  unfold outcomeActed
  extract_lets u
  rw [if_neg h7, if_neg h2]
  split <;> rfl

theorem testOf_endTest {good : Bool} (h7 : t.mem ≠ 7) (h2 : outcome s t good ≠ 2) : testOf (endTest t good s) t.mem t.loc = none := by
  rw [endTest_eq, testOf_congr (congrArg Err.tests (testAnswered_err ..)), testOf_congr (tests_outcomeActed h7 h2 _)]
  exact testOf_dropTest ..

/-! ## A lasting fault (R490) -/

/-- The state shows that a location has been lost. -/
def ShowsLoss (s : State) : Prop := s.err.status ||| 2 = s.err.status

theorem showsLoss_congr {u : State} (h : u.err.status = s.err.status) (hs : ShowsLoss s) : ShowsLoss u := by
  rw [ShowsLoss, h]
  exact hs

theorem trap_status (bit : Nat) (s : State) : (trap bit s).err.status = s.err.status ||| (1 <<< bit) :=
  ite_keeps (·.err.status) (congrArg (·.err.status) (besideCompletions_msix ..)) rfl

theorem showsLoss_trap (bit : Nat) (h : ShowsLoss s) : ShowsLoss (trap bit s) := by
  rw [ShowsLoss] at h
  rw [ShowsLoss, trap_status, BitVec.or_assoc, BitVec.or_comm _ 2, ← BitVec.or_assoc, h]

theorem showsLoss_trap_one (s : State) : ShowsLoss (trap 1 s) := by
  rw [ShowsLoss, trap_status, BitVec.or_assoc]
  rfl

theorem showsLoss_sparesOut (k : Nat) (h : ShowsLoss s) : ShowsLoss (sparesOut k s) := by
  unfold sparesOut
  split
  · exact h
  · exact showsLoss_trap 3 (showsLoss_congr rfl h)

theorem order_err (r : Req) (s : State) : (order r s).err = s.err := congrArg (·.err) (besideCompletions_count 2 0x10 1 _)

/-- Every way to take a location out of use leaves the loss shown. -/
theorem showsLoss_retireLoc (h7 : m ≠ 7) (s : State) : ShowsLoss (retireLoc m loc s) := by
  unfold retireLoc
  extract_lets u v use
  have hv : ShowsLoss v := showsLoss_trap_one _
  have huse {x : State} (h : ShowsLoss x) : ShowsLoss (use x) := showsLoss_congr rfl h
  clear_value v
  split
  · split
    · exact huse hv
    · have hspares : ShowsLoss (sparesOut 0 v) := showsLoss_sparesOut 0 hv
      split
      · exact showsLoss_congr rfl hspares
      · exact hspares
  · split
    · exact showsLoss_congr rfl (huse hv)
    · split
      · split
        · exact showsLoss_congr (congrArg Err.status (order_err ..)) (huse hv)
        · exact showsLoss_congr rfl (huse hv)
      · split
        · exact showsLoss_congr rfl (huse hv)
        · split
          · exact huse hv
          · exact showsLoss_sparesOut m hv

theorem showsLoss_endTest (h7 : t.mem ≠ 7) (s : State) : ShowsLoss (endTest t false s) := by
  rw [endTest_eq, outcome_bad h7]
  exact showsLoss_congr (congrArg Err.status (testAnswered_err ..)) (showsLoss_retireLoc h7 _)

theorem selfTestDone_ends {good : Bool} (ht : testOf s m loc = some t) (hr : t.running = true) (hm : m ≠ 7 ∨ 3 ≤ t.senses) :
    exec (.selfTestDone m loc good) s = settled s (endTest t good s) := by
  change (match testOf s m loc with | some t => _ | none => _) = _
  rw [ht]
  exact if_pos (by simpa [hr] using hm)

theorem takes_selfTestDone_idle {good : Bool}
    (h : (testOf s m loc).all (fun t => !t.running || (m == 7 && decide (t.senses < 3))) = true) : Takes (.selfTestDone m loc good) s s := by
  refine takes_of_done (c := .selfTestDone m loc good) ?_
  change execSelfTestDone m loc good s = done s s
  unfold execSelfTestDone
  split
  · next t ht =>
    rw [ht] at h
    refine if_neg fun hc => ?_
    simp only [Option.all_some, Bool.or_eq_true, Bool.not_eq_true', Bool.and_eq_true, beq_iff_eq, decide_eq_true_eq] at h
    simp only [Bool.and_eq_true, Bool.or_eq_true, bne_iff_ne, decide_eq_true_eq] at hc
    rcases h with h | h
    · simp [h] at hc
    · omega
  · rfl

/-! ## The scrubbers (R481, R482) -/

/-- A test of the location stands, and its error is recorded. -/
def TestAsked (m loc : Nat) (s : State) : Prop :=
  (s.err.tests.any fun x => x.mem == m && x.loc == loc) = true ∧ (m, loc) ∈ s.err.errLocs

theorem testAsked_congr {u : State} (ht : u.err.tests = s.err.tests) (he : u.err.errLocs = s.err.errLocs) (h : TestAsked m loc s) :
    TestAsked m loc u := by
  rw [TestAsked, ht, he]
  exact h

theorem testAsked_startTest (m loc : Nat) (s : State) : TestAsked m loc (startTest m loc s) := by
  refine ⟨?_, ?_⟩
  · change (if (s.err.tests.any fun t => t.mem == m && t.loc == loc) = true then s.err.tests
      else s.err.tests ++ [{ mem := m, loc, cmd := none, after := true }]).any _ = true
    split
    · assumption
    · simp
  · change (m, loc) ∈ if (m, loc) ∈ s.err.errLocs then s.err.errLocs else (m, loc) :: s.err.errLocs
    split
    · assumption
    · exact List.mem_cons_self

theorem testAsked_trap (bit : Nat) (h : TestAsked m loc s) : TestAsked m loc (trap bit s) :=
  testAsked_congr (ite_keeps (·.err.tests) (congrArg (·.err.tests) (besideCompletions_msix ..)) rfl)
    (ite_keeps (·.err.errLocs) (congrArg (·.err.errLocs) (besideCompletions_msix ..)) rfl) h

theorem testAsked_corrected (m loc : Nat) (s : State) : TestAsked m loc (corrected m loc s) := by
  unfold corrected
  extract_lets day now x recent limit above fall u
  have hu : TestAsked m loc u := testAsked_startTest m loc _
  clear_value u
  split
  · exact testAsked_trap 0 hu
  · exact hu

theorem countCorrected_err (m : Nat) (s : State) : (countCorrected m s).err = s.err := by
  unfold countCorrected
  split
  · exact congrArg (·.err) (besideCompletions_count ..)
  · exact congrArg (·.err) (besideCompletions_count ..)

theorem scrubbed_clean (h : loc ≠ lastLoc s m) : scrubbed m loc .clean s = s := if_neg h

theorem testAsked_scrubbed (m loc : Nat) (s : State) : TestAsked m loc (scrubbed m loc .corrected s) := by
  have hcounted : TestAsked m loc (countCorrected m (corrected m loc s)) :=
    testAsked_congr (congrArg Err.tests (countCorrected_err ..)) (congrArg Err.errLocs (countCorrected_err ..)) (testAsked_corrected m loc s)
  unfold scrubbed
  extract_lets u
  change TestAsked m loc u at hcounted
  clear_value u
  split
  · exact testAsked_congr rfl rfl hcounted
  · exact hcounted

end

/-- Settles O55: what waits, runs and ends of a test, and what a scrubber finds. -/
theorem errorsAreTestedAndScrubbed : Obligations.ErrorsAreTestedAndScrubbed := by
  unfold Obligations.ErrorsAreTestedAndScrubbed
  refine ⟨fun s m loc t ht hr => ?_, fun s m loc h => ⟨takes_of_done (waitingTest_idle true h), takes_of_done (waitingTest_idle false h)⟩,
    fun s t hb => ⟨tryTest_again hb, tryTest_dropped hb⟩, fun s m loc good t ht hr hm => ?_, fun s m loc good h => takes_selfTestDone_idle h,
    fun s m loc f hr hrun hm hl => ?_, fun s m loc f h => takes_of_done (if_neg ?_), fun s m loc => testAsked_corrected m loc s,
    fun s t h7 => outcome_bad h7, fun s t h7 hl => outcome_clean h7 hl⟩
  · refine ⟨fun h0 => ⟨⟨_, engages_of_settled ((waitingTest_of true ht).trans (if_pos (by simp [hr, h0]))), rfl, tryTest_fields ht rfl⟩,
      takes_of_done ((waitingTest_of false ht).trans (if_neg (by simp [h0])))⟩,
      fun h0 => ⟨⟨_, engages_of_settled ((waitingTest_of false ht).trans (if_pos (by simp [hr, h0]))), rfl, tryTest_fields ht rfl⟩,
      takes_of_done ((waitingTest_of true ht).trans (if_neg (by simp [h0])))⟩⟩
  · obtain ⟨rfl, rfl⟩ := mem_loc_of_testOf ht
    exact ⟨_, rfl, engages_of_settled (selfTestDone_ends ht hr hm), testOf_endTest, fun h7 hg => hg ▸ showsLoss_endTest h7 s⟩
  · refine ⟨_, rfl, engages_of_settled (if_pos ⟨hr, hrun, hm, hl⟩), fun hf h => ?_, fun hf => ?_⟩
    · rw [hf, scrubbed_clean h]
    · rw [hf]
      exact testAsked_scrubbed m loc s
  · rintro ⟨hr, hrun, hm, hl⟩
    rcases h with h | h | h | h
    · simp [h] at hr
    · exact hrun h
    · omega
    · simp [h] at hl

end Sys2Proof.Machine
end

section
/-!
PROOF. The operations of the engine end (R408, R409, R411; O47).
-/

namespace Sys2Proof.Machine
open Sys2Proof

section
variable {s : State} {r : CphOp}

/-! ## A fault (R408) -/

theorem cipherFault_cph (op : Nat) (s : State) : (cipherFault op s).cph = { s.cph with
    st := 4
    run := none
    out := []
    faults := s.now :: s.cph.faults.filter fun t => decide (s.now < t + sec)
    disabled := s.cph.disabled || decide (3 ≤ (s.now :: s.cph.faults.filter fun t => decide (s.now < t + sec)).length) } := event_cph ..

/-- The third fault within a second disables the engine; no result, key slot or nonce comes of any. -/
theorem cipherFault_fields (op : Nat) (s : State) : (cipherFault op s).cph.st = 4 ∧ (cipherFault op s).cph.run = none ∧
    (cipherFault op s).cph.out = [] ∧ (cipherFault op s).cph.slots = s.cph.slots ∧ (cipherFault op s).cph.nonceCtr = s.cph.nonceCtr ∧
    (cipherFault op s).cph.disabled =
      (s.cph.disabled || decide (2 ≤ (s.cph.faults.filter fun t => decide (s.now < t + sec)).length)) := by
  rw [cipherFault_cph]
  refine ⟨rfl, rfl, rfl, rfl, rfl, ?_⟩
  simp only [List.length_cons, Nat.add_le_add_iff_right, show 3 = 2 + 1 from rfl]

/-! ## A result (R409) -/

/-- The state with the operation counted. -/
def cipherCounted (r : CphOp) (s : State) : State := count 7 0x11 ((r.aad.length + r.text.length + 63) / 64) (count 7 0x10 1 s)

@[simp] theorem cipherCounted_cph (r : CphOp) (s : State) : (cipherCounted r s).cph = s.cph :=
  (congrArg (·.cph) (besideCompletions_count 7 0x11 _ _)).trans (congrArg (·.cph) (besideCompletions_count 7 0x10 1 s))

theorem slotKey_cipherCounted (r : CphOp) (s : State) (i : Nat) : slotKey (cipherCounted r s) i = slotKey s i := by
  have hsec : (cipherCounted r s).sec.transport = s.sec.transport :=
    (congrArg (·.sec.transport) (besideCompletions_count 7 0x11 _ _)).trans (congrArg (·.sec.transport) (besideCompletions_count 7 0x10 1 s))
  rw [slotKey, slotKey, hsec, cipherCounted_cph]

theorem takeNonce_cph (s : State) : (takeNonce s).cph = { s.cph with nonceCtr := s.cph.nonceCtr + 1 } := ite_keeps (·.cph) rfl rfl

/-- An encryption consumes a nonce. -/
theorem cipherRelease_seal (h : r.op = 1) : (cipherRelease r s).cph.st = 2 ∧ (cipherRelease r s).cph.run = none ∧
    (cipherRelease r s).cph.nonceCtr = s.cph.nonceCtr + 1 := by
  have hseal : cipherRelease r s = takeNonce _ := if_pos h
  rw [hseal, takeNonce_cph]
  refine ⟨rfl, rfl, ?_⟩
  change (cipherCounted r s).cph.nonceCtr + 1 = s.cph.nonceCtr + 1
  rw [cipherCounted_cph]

theorem cipherRelease_open (h : r.op = 2) : cipherRelease r s =
    let x := Config.gcmOpen (slotKey (cipherCounted r s) r.keySlot) r.iv r.aad r.text
    if x.2 = r.tag then onCph (fun c => { c with st := 2, run := none, out := Memory.writeN 0 [] 0 (x.1.take 65536) }) (cipherCounted r s)
    else onCph (fun c => { c with st := 3, run := none, out := [] }) (cipherCounted r s) :=
  (if_neg (by omega)).trans (if_pos h)

/-- A decryption gives its plaintext where the tag verifies, and nothing else does. -/
theorem cipherRelease_open_fields (h : r.op = 2) : (cipherRelease r s).cph.run = none ∧
    (cipherRelease r s).cph.st = (if (Config.gcmOpen (slotKey s r.keySlot) r.iv r.aad r.text).2 = r.tag then 2 else 3) ∧
    ((Config.gcmOpen (slotKey s r.keySlot) r.iv r.aad r.text).2 ≠ r.tag → (cipherRelease r s).cph.out = []) := by
  rw [cipherRelease_open h, slotKey_cipherCounted]
  dsimp only
  generalize Config.gcmOpen (slotKey s r.keySlot) r.iv r.aad r.text = x
  by_cases hx : x.2 = r.tag
  · rw [if_pos hx, if_pos hx]
    exact ⟨rfl, rfl, fun hne => absurd hx hne⟩
  · rw [if_neg hx, if_neg hx]
    exact ⟨rfl, rfl, fun _ => rfl⟩

/-- Whatever the operation, its end leaves none in the engine. -/
theorem cipherRelease_run (r : CphOp) (s : State) : (cipherRelease r s).cph.run = none := by
  by_cases h1 : r.op = 1
  · exact (cipherRelease_seal h1).2.1
  · by_cases h2 : r.op = 2
    · exact (cipherRelease_open_fields h2).1
    · have hrest : cipherRelease r s = _ := (if_neg h1).trans (if_neg h2)
      rw [hrest]
      refine ite_keeps (·.cph.run) ?_ (ite_keeps (·.cph.run) rfl rfl)
      split <;> rfl

theorem cipherOpDone_runs (hr : s.cph.run = some r) (h : r.op ≠ 1 ∨ r.nonce < s.flash.nonceReserved) (agree : Bool) :
    exec (.cipherOpDone agree) s = if agree then done s (cipherRelease r s) else done s (cipherFault r.op s) := by
  change execCipherOpDone agree s = _
  rw [execCipherOpDone, hr]
  exact if_neg (by omega)

theorem cipherOpDone_waits (hr : s.cph.run = some r) (h1 : r.op = 1) (h : s.flash.nonceReserved ≤ r.nonce) (agree : Bool) :
    Takes (.cipherOpDone agree) s s := by
  refine takes_of_done (c := .cipherOpDone agree) ?_
  change execCipherOpDone agree s = _
  rw [execCipherOpDone, hr]
  exact if_pos ⟨h1, h⟩

theorem takes_cipherOpDone_run (hr : s.cph.run = some r) (h : r.op ≠ 1 ∨ r.nonce < s.flash.nonceReserved) :
    (∃ t, t = cipherRelease r s ∧ Takes (.cipherOpDone true) s t ∧ t.cph.run = none ∧
      (r.op = 1 → t.cph.st = 2 ∧ t.cph.nonceCtr = s.cph.nonceCtr + 1) ∧
      (r.op = 2 → t.cph.st = if (Config.gcmOpen (slotKey s r.keySlot) r.iv r.aad r.text).2 = r.tag then 2 else 3)) ∧
    (∃ t, t = cipherFault r.op s ∧ Takes (.cipherOpDone false) s t ∧ t.cph.run = none ∧ t.cph.st = 4 ∧ t.cph.out = [] ∧
      t.cph.slots = s.cph.slots ∧ t.cph.nonceCtr = s.cph.nonceCtr) := by
  refine ⟨⟨_, rfl, takes_of_done (cipherOpDone_runs hr h true), cipherRelease_run r s, fun h1 => ?_, fun h2 => ?_⟩, ?_⟩
  · obtain ⟨hst, -, hctr⟩ := cipherRelease_seal (s := s) h1
    exact ⟨hst, hctr⟩
  · exact (cipherRelease_open_fields h2).2.1
  · obtain ⟨hst, hrun, hout, hslots, hctr, -⟩ := cipherFault_fields r.op s
    exact ⟨_, rfl, takes_of_done (cipherOpDone_runs hr h false), hrun, hst, hout, hslots, hctr⟩

/-! ## A sealed import (R411) -/

section
variable {m : Import}

theorem cipherOpDone_import (hr : s.cph.run = none) (hm : s.cph.imp = some m) (hp : m.phase = 2) (agree : Bool) :
    exec (.cipherOpDone agree) s = if agree then settled s (impDecrypt m s) else settled s (endImport m 0x000C (cipherFault 2 s)) := by
  change execCipherOpDone agree s = _
  rw [execCipherOpDone, hr, hm]
  exact if_neg (by simp [hp])

theorem cipherOpDone_idle (hr : s.cph.run = none) (hm : ∀ m, s.cph.imp = some m → m.phase ≠ 2) (agree : Bool) :
    Takes (.cipherOpDone agree) s s := by
  refine takes_of_done (c := .cipherOpDone agree) ?_
  change execCipherOpDone agree s = _
  rw [execCipherOpDone, hr]
  cases hi : s.cph.imp with
  | none => rfl
  | some m => exact if_pos (hm m hi)

/-- The import is at the programming of its pages. -/
def Programs (c : Cmd) (s : State) : Prop := ∃ x, s.cph.imp = some x ∧ x.phase = 3 ∧ x.cmd = c

theorem programs_onImp {c : Cmd} {f : Import → Import} (hf : ∀ x, (f x).phase = x.phase ∧ (f x).cmd = x.cmd) (h : Programs c s) :
    Programs c (onImp f s) := by
  obtain ⟨x, hx, hp, hc⟩ := h
  exact ⟨f x, congrArg (Option.map f) hx, (hf x).1.trans hp, (hf x).2.trans hc⟩

theorem programs_congr {c : Cmd} {t : State} (ht : t.cph.imp = s.cph.imp) (h : Programs c s) : Programs c t := by
  rw [Programs, ht]
  exact h

theorem programs_impPrograms {c : Cmd} (h : Programs c s) : Programs c (impPrograms s) := by
  unfold impPrograms
  split
  · exact h
  · refine each_preserves (P := Programs c) _ _ (fun x u hu => ?_) (programs_onImp ?_ h)
    · exact programs_congr rfl hu
    · exact fun _ => ⟨rfl, rfl⟩

theorem programs_impDecrypt (hm : s.cph.imp = some m) : Programs m.cmd (impDecrypt m s) := by
  unfold impDecrypt
  extract_lets bytes aad whole
  obtain ⟨pt, tag⟩ := Config.gcmOpen (slotKey s m.slot) m.iv aad (bytes.take m.len)
  dsimp -zeta only
  extract_lets v w
  have hv : Programs m.cmd v := ⟨_, congrArg (Option.map _) hm, rfl, rfl⟩
  have hw : Programs m.cmd w := programs_congr
    ((congrArg (·.cph.imp) (besideCompletions_count 7 0x11 _ _)).trans (congrArg (·.cph.imp) (besideCompletions_count 7 0x10 1 v))) hv
  clear_value w
  split
  · refine programs_impPrograms (programs_onImp ?_ hw)
    exact fun _ => ⟨rfl, rfl⟩
  · exact hw

theorem endImport_cph (m : Import) (status : Nat) (s : State) :
    (endImport m status s).cph.imp = none ∧ (s.cph.holder = 3 → (endImport m status s).cph.holder = 0) := by
  have hfinish (result : Nat) (u : State) : (finish m.cmd status result u).cph = u.cph :=
    congrArg (·.cph) (besideCompletions_finish m.cmd u status result)
  rw [endImport, hfinish]
  split
  · exact ⟨rfl, fun _ => rfl⟩
  · next hne => exact ⟨rfl, fun h => absurd h hne⟩

theorem takes_cipherOpDone_import (hr : s.cph.run = none) (hm : s.cph.imp = some m) (hp : m.phase = 2) :
    (∃ t, t = impDecrypt m s ∧ Engages (.cipherOpDone true) s t ∧ ∃ x, t.cph.imp = some x ∧ x.phase = 3 ∧ x.cmd = m.cmd) ∧
    (∃ t, t = endImport m 0x000C (cipherFault 2 s) ∧ Engages (.cipherOpDone false) s t ∧ t.cph.imp = none ∧
      (s.cph.holder = 3 → t.cph.holder = 0)) := by
  obtain ⟨hnone, hfree⟩ := endImport_cph m 0x000C (cipherFault 2 s)
  refine ⟨⟨_, rfl, engages_of_settled (cipherOpDone_import hr hm hp true), programs_impDecrypt hm⟩,
    _, rfl, engages_of_settled (cipherOpDone_import hr hm hp false), hnone, fun h => hfree ?_⟩
  rw [cipherFault_cph]
  exact h

end

/-! ## The start of an operation -/

section
variable {cls ticket op key subj : Nat}

theorem cphCommand_starts (hh : s.cph.holder = cls) (ht : s.cph.ticket = ticket) (hr : s.cph.run = none)
    (hc : cphCause s cls op key subj = 0) : ∃ n g, cphCommand cls ticket op key subj s = onCph (fun c => { c with
      st := 1
      cause := 0
      out := []
      nonce := n
      tag := g
      run := some { op, keySlot := key, subj, cls, nonce := c.nonceCtr, iv := c.nonce, tag := c.tag
                    aad := Memory.readN 0 c.inp 0 c.aadLen, text := Memory.readN 0 c.inp c.aadLen c.textLen } }) s :=
  ⟨_, _, (if_neg (by simp [hh, ht])).trans ((if_neg (by simp [hr])).trans (if_neg (by simp [hc])))⟩

theorem cphCommand_refused (hh : s.cph.holder = cls) (ht : s.cph.ticket = ticket) (hr : s.cph.run = none)
    (hc : cphCause s cls op key subj ≠ 0) :
    cphCommand cls ticket op key subj s = { s with cph := { s.cph with st := 5, cause := cphCause s cls op key subj } } :=
  (if_neg (by simp [hh, ht])).trans ((if_neg (by simp [hr])).trans (if_pos hc))

end

end

/-- Settles O47: the release and the fault of an operation, and of a sealed import. -/
theorem cipherOperationsEnd : Obligations.CipherOperationsEnd := by
  unfold Obligations.CipherOperationsEnd
  refine ⟨fun s r hr h => takes_cipherOpDone_run hr h, fun s r b hr h1 h => cipherOpDone_waits hr h1 h b,
    fun s m hr hm hp => takes_cipherOpDone_import hr hm hp, fun s b hr hm => cipherOpDone_idle hr hm b, fun s op => cipherFault_fields op s,
    fun s r h2 hne => ?_, fun s r h1 => ?_, fun cls ticket op key subj s hh ht hr hc => ?_,
    fun cls ticket op key subj s hh ht hr hc => cphCommand_refused hh ht hr hc⟩
  · obtain ⟨hrun, hst, hout⟩ := cipherRelease_open_fields (s := s) h2
    exact ⟨hst.trans (if_neg hne), hout hne, hrun⟩
  · obtain ⟨hst, -, hctr⟩ := cipherRelease_seal (s := s) h1
    exact ⟨hst, hctr⟩
  · obtain ⟨n, g, he⟩ := cphCommand_starts hh ht hr hc
    rw [he]
    exact ⟨rfl, rfl, rfl⟩

end Sys2Proof.Machine
end

section
/-!
PROOF. The commands of the engine from each of its users (R404 to R406; O46).
-/

namespace Sys2Proof.Machine
open Sys2Proof

section
variable {s : State}

/-! ## Registers that wake no domain -/

theorem wakeFor_of_ge {off : Nat} (s : State) (h : 0x0500000 ≤ off) : wakeFor off s = s := if_pos (by omega)

theorem regWrite_of_open {off : Nat} (cls size : Nat) (v : BitVec 64) (hs : served s off = true) (hg : gatedOff s off = false)
    (hw : 0x0500000 ≤ off) : regWrite cls off size v s = writeSlot (slotWrite cls off size v s) s := by
  rw [regWrite_eq, if_neg (by simp [hs]), if_neg (by simp [hg]), wakeFor_of_ge s hw, if_neg (by simp)]

theorem regRead_lock (cls : Nat) (hs : served s 0x0A80000 = true) (hg : gatedOff s 0x0A80000 = false) :
    regRead cls 0x0A80000 8 s = ((lockRead cls s).1 % 2 ^ 64, (lockRead cls s).2) := by
  rw [regRead, if_neg (by simp [hs]), if_neg (by simp [hg])]
  dsimp only
  rw [wakeFor_of_ge s (by decide), if_neg (by simp), if_pos rfl]
  simp

theorem served_cph {off : Nat} (h : off / 2 ^ 20 = 0xA) (h8 : 0x80000 ≤ off % 2 ^ 20) (s : State) : served s off = !s.glb.failed := by
  have hlt : ¬ off % 2 ^ 20 < 0x80000 := by omega
  simp only [served, h, decide_eq_false hlt]
  simp

theorem gatedOff_cph {off : Nat} (h : gateOf off = some 20) (s : State) : gatedOff s off = !clocked s 20 := by rw [gatedOff, h]

/-! ## The two registers of the engine's commands -/

theorem slotWrite_a {off : Nat} (cls : Nat) (v : BitVec 64) (h : off % 8 = 0) (s : State) : (slotWrite cls off 8 v s).a = v.toNat := by
  simp [slotWrite, h, Nat.mod_eq_of_lt v.isLt]

theorem writeSlot_release {w : SlotWr} (hoff : w.off = 0x0A80008) (hlo : w.lo = true) (s : State) :
    writeSlot w s = releaseLock (bits w.a 0 16) s := by simp [writeSlot, writeCph, isExpert, hoff, hlo]

theorem writeSlot_command {w : SlotWr} (hoff : w.off = 0x0A80010) (hlo : w.lo = true) (s : State) :
    writeSlot w s = cphCommand w.cls (bits w.a 48 16) (bits w.a 0 4) (bits w.a 4 4) (bits w.a 8 4) s := by
  simp [writeSlot, writeCph, isExpert, hoff, hlo]

theorem regWrite_release (cls : Nat) (ticket : BitVec 16) (hs : served s 0x0A80008 = true) (hg : gatedOff s 0x0A80008 = false) :
    regWrite cls 0x0A80008 8 (ticket.setWidth 64) s = releaseLock ticket.toNat s := by
  have hlt := ticket.isLt
  have hticket : bits (ticket.setWidth 64).toNat 0 16 = ticket.toNat := by
    simp only [bits, BitVec.toNat_setWidth]
    omega
  rw [regWrite_of_open cls 8 _ hs hg (by decide), writeSlot_release rfl rfl, slotWrite_a cls _ rfl, hticket]

/-- The word of an operation (R416). -/
def cphWord (ticket : BitVec 16) (op key subj : Nat) : BitVec 64 :=
  BitVec.ofNat 64 (ticket.toNat * 2 ^ 48 + subj % 16 * 256 + key % 16 * 16 + op)

theorem toNat_cphWord (ticket : BitVec 16) {op key subj : Nat} (hop : op < 16) (hk : key < 16) (hj : subj < 16) :
    (cphWord ticket op key subj).toNat = ticket.toNat * 2 ^ 48 + subj * 256 + key * 16 + op := by
  have hlt := ticket.isLt
  rw [cphWord, BitVec.toNat_ofNat, Nat.mod_eq_of_lt hk, Nat.mod_eq_of_lt hj]
  omega

theorem regWrite_command (cls : Nat) (ticket : BitVec 16) {op key subj : Nat} (hop : op < 16) (hk : key < 16) (hj : subj < 16)
    (hs : served s 0x0A80010 = true) (hg : gatedOff s 0x0A80010 = false) :
    regWrite cls 0x0A80010 8 (cphWord ticket op key subj) s = cphCommand cls ticket.toNat op key subj s := by
  have hlt := ticket.isLt
  have ht : bits (ticket.toNat * 2 ^ 48 + subj * 256 + key * 16 + op) 48 16 = ticket.toNat := by simp only [bits]; omega
  have ho : bits (ticket.toNat * 2 ^ 48 + subj * 256 + key * 16 + op) 0 4 = op := by simp only [bits]; omega
  have hkey : bits (ticket.toNat * 2 ^ 48 + subj * 256 + key * 16 + op) 4 4 = key := by simp only [bits]; omega
  have hsubj : bits (ticket.toNat * 2 ^ 48 + subj * 256 + key * 16 + op) 8 4 = subj := by simp only [bits]; omega
  rw [regWrite_of_open cls 8 _ hs hg (by decide), writeSlot_command rfl rfl, slotWrite_a cls _ rfl, toNat_cphWord ticket hop hk hj, ht, ho, hkey,
    hsubj]
  rfl

/-! ## What each command does to the engine -/

theorem cipherTakes_cphCommand (cls ticket op key subj : Nat) (s : State) :
    CipherTakes cls ticket op key subj s (cphCommand cls ticket op key subj s) := by
  refine ⟨rfl, fun h => by rw [cphCommand, if_pos h, onCph_cph], fun hh ht hr => ⟨fun hc => ?_, fun hc => ?_⟩⟩
  · obtain ⟨n, g, he⟩ := cphCommand_starts hh ht hr hc
    rw [he]
    exact ⟨rfl, rfl, rfl⟩
  · rw [cphCommand_refused hh ht hr hc]

theorem lockRead_free (cls : Nat) (h : s.cph.holder = 0) : (lockRead cls s).1 = 2 ^ 31 + cls * 2 ^ 28 + (lockRead cls s).2.cph.ticket := by
  rw [lockRead, if_pos h]
  rfl

theorem lockRead_held (cls : Nat) (h : s.cph.holder ≠ 0) : lockRead cls s = (s.cph.holder * 2 ^ 28, s) := if_neg h

/-- What an operation does from a user whose writes reach the engine as `hwrite` says. -/
theorem cipher_commands {w : CphClass} {cls : Nat} {ticket : BitVec 16} {u : State} (e : State → State)
    (hwrite : ∀ op key subj, op < 16 → key < 16 → subj < 16 → cphWrite w 0x10 (cphWord ticket op key subj) (cphCommand 3 ticket.toNat op (key % 16) (subj % 16)) s =
      e (cphCommand cls ticket.toNat op key subj u)) (key subj : Nat) (hk : key < 16) (hj : subj < 16) :
    (∃ t, CipherTakes cls ticket.toNat 1 key 0 u t ∧ Takes (.encrypt w ticket key) s (e t)) ∧
    (∃ t, CipherTakes cls ticket.toNat 2 key 0 u t ∧ Takes (.decrypt w ticket key) s (e t)) ∧
    (∃ t, CipherTakes cls ticket.toNat 3 key subj u t ∧ Takes (.unwrap w ticket key subj) s (e t)) ∧
    (∃ t, CipherTakes cls ticket.toNat 4 key subj u t ∧ Takes (.wrap w ticket key subj) s (e t)) ∧
    (∃ t, CipherTakes cls ticket.toNat 5 0 subj u t ∧ Takes (.clear w ticket subj) s (e t)) :=
  ⟨⟨_, cipherTakes_cphCommand .., takes_of_done (congrArg (done s) (hwrite 1 key 0 (by decide) hk (by decide)))⟩,
    ⟨_, cipherTakes_cphCommand .., takes_of_done (congrArg (done s) (hwrite 2 key 0 (by decide) hk (by decide)))⟩,
    ⟨_, cipherTakes_cphCommand .., takes_of_done (congrArg (done s) (hwrite 3 key subj (by decide) hk hj))⟩,
    ⟨_, cipherTakes_cphCommand .., takes_of_done (congrArg (done s) (hwrite 4 key subj (by decide) hk hj))⟩,
    ⟨_, cipherTakes_cphCommand .., takes_of_done (congrArg (done s) (hwrite 5 0 subj (by decide) (by decide) hj))⟩⟩

/-! ## The host -/

theorem hostBar_regWrite {off : Nat} (v : BitVec 64) (h : HostReaches s off) :
    hostBar (.registerWrite off 8 v) s = regWrite 1 off 8 v (tlpIn s) ∧ served (tlpIn s) off = true ∧ gatedOff (tlpIn s) off = false := by
  obtain ⟨hup, hs, hg, hw⟩ := h
  exact ⟨hostBar_of_free _ hup hw, (served_tlpIn s off).trans hs, (gatedOff_tlpIn s off).trans hg⟩

theorem takes_lockRead_host (h : HostReaches s 0x0A80000) :
    ∃ v t, lockRead 1 (tlpIn s) = (v, t) ∧ Takes (.cphLockRead .host) s (emit (.reg 0x0A80000 (BitVec.ofNat 64 v)) t) ∧
      (s.cph.holder = 0 → t.cph.holder = 1 ∧ v = 2 ^ 31 + 2 ^ 28 + t.cph.ticket) ∧
      (s.cph.holder ≠ 0 → t.cph = s.cph ∧ v = s.cph.holder * 2 ^ 28) := by
  obtain ⟨hup, hs, hg, hw⟩ := h
  have hread := regRead_lock 1 ((served_tlpIn s _).trans hs) ((gatedOff_tlpIn s _).trans hg)
  have hcph : (tlpIn s).cph = s.cph := tlpIn_cph s
  have hbar : hostBar (.cphLockRead .host) s =
      emit (.reg 0x0A80000 (BitVec.ofNat 64 (regRead 1 0x0A80000 8 (tlpIn s)).1)) (regRead 1 0x0A80000 8 (tlpIn s)).2 := hostBar_of_free _ hup hw
  have hval : BitVec.ofNat 64 ((lockRead 1 (tlpIn s)).1 % 2 ^ 64) = BitVec.ofNat 64 (lockRead 1 (tlpIn s)).1 := by
    apply BitVec.eq_of_toNat_eq
    simp
  rw [hread, hval] at hbar
  refine ⟨(lockRead 1 (tlpIn s)).1, (lockRead 1 (tlpIn s)).2, rfl, takes_of_done (congrArg (done s) hbar), fun h0 => ?_, fun h0 => ?_⟩
  · rw [← hcph] at h0
    exact ⟨lockRead_holder 1 h0, (lockRead_free 1 h0).trans (by rw [Nat.one_mul])⟩
  · rw [← hcph] at h0
    rw [lockRead_held 1 h0]
    exact ⟨hcph, by rw [hcph]⟩

/-! ## The debug port -/

section
variable (hlc : s.flash.lc < 2) (hs : served s 0x0A80000 = true) (hclk : clocked s 20 = true)
include hlc hs hclk

theorem takes_lockRead_debug (hon : debugOn s = true) : ∃ t, t = debugAccess (.regRead 0x0A80000 8) s ∧ Takes (.cphLockRead .debug) s t ∧
    (s.cph.holder = 0 → t.cph.holder = 2) ∧ (s.cph.holder ≠ 0 → t.cph = s.cph) := by
  have hg : gatedOff s 0x0A80000 = false := by rw [gatedOff_cph rfl, hclk]; rfl
  have haccess : debugAccess (.regRead 0x0A80000 8) s =
      emit (.debug (some (leBytes 8 ((lockRead 2 s).1 % 2 ^ 64)))) (lockRead 2 s).2 := by
    rw [debugAccess, if_neg (by simp [aligned, debugBlock, hlc]), regRead_lock 2 hs hg]
  refine ⟨_, rfl, takes_of_done (if_pos hon), fun h0 => ?_, fun h0 => ?_⟩
  · rw [haccess, emit_debug]
    exact lockRead_holder 2 h0
  · rw [haccess, emit_debug, lockRead_held 2 h0]

theorem debugWrite_cph {off : Nat} (v : BitVec 64) (h6 : 6 ≤ s.glb.step) (hgate : gateOf off = some 20) (hoff : off / 2 ^ 20 = 0xA)
    (h8 : 0x80000 ≤ off % 2 ^ 20) (hal : off % 8 = 0) : debugWrite off 8 v s = emit (.debug (some [])) (regWrite 2 off 8 v s) ∧
      served s off = true ∧ gatedOff s off = false := by
  refine ⟨?_, ?_, ?_⟩
  · have hlt : off < 2 ^ 25 := by omega
    rw [debugWrite, if_neg (by simp [aligned, debugBlock, hlc, hal]; omega), if_neg (by omega)]
  · rw [served_cph hoff h8, ← served_cph (off := 0x0A80000) rfl (by decide), hs]
  · rw [gatedOff_cph hgate, hclk]
    rfl

end

end

/-- Settles O46: the host's registers, the debug port's writes, and the firmware's own use. -/
theorem cipherCommandsReachTheEngine : Obligations.CipherCommandsReachTheEngine := by
  unfold Obligations.CipherCommandsReachTheEngine
  refine ⟨fun s h => takes_lockRead_host h, fun s hon hlc hs hclk => takes_lockRead_debug hlc hs hclk hon, fun s hclk => ?_,
    fun s ticket hrel hcmd => ⟨?_, fun key subj => cipher_commands id (fun op key subj hop hk hj => ?_) key subj⟩,
    fun s ticket hon hlc h6 hs hclk => ⟨?_, fun key subj => cipher_commands _ (fun op key subj hop hk hj => ?_) key subj⟩,
    fun s ticket hclk himp => ⟨?_, fun key subj => cipher_commands id (fun op key subj hop hk hj => ?_) key subj⟩,
    fun s ticket key subj himp => ?_, fun s w ticket key subj h => ?_, fun s hh hr hi => ?_, fun s h => takes_of_done (if_neg ?_)⟩
  · refine ⟨_, rfl, takes_of_done (if_pos hclk), fun h0 => lockRead_holder 3 h0, fun h0 => by rw [lockRead_held 3 h0]⟩
  · obtain ⟨hbar, hs, hg⟩ := hostBar_regWrite (ticket.setWidth 64) hrel
    exact takes_of_done (congrArg (done s) (hbar.trans (regWrite_release 1 ticket hs hg)))
  · obtain ⟨hbar, hs, hg⟩ := hostBar_regWrite (cphWord ticket op key subj) hcmd
    exact hbar.trans (regWrite_command 1 ticket hop hk hj hs hg)
  · obtain ⟨hwrite, hs', hg⟩ := debugWrite_cph hlc hs hclk (ticket.setWidth 64) h6 (off := 0x0A80008) rfl rfl (by decide) rfl
    exact takes_of_done (congrArg (done s) ((if_pos hon).trans (hwrite.trans (congrArg _ (regWrite_release 2 ticket hs' hg)))))
  · obtain ⟨hwrite, hs', hg⟩ := debugWrite_cph hlc hs hclk (cphWord ticket op key subj) h6 (off := 0x0A80010) rfl rfl (by decide) rfl
    exact (if_pos hon).trans (hwrite.trans (congrArg _ (regWrite_command 2 ticket hop hk hj hs' hg)))
  · exact takes_of_done (congrArg (done s) (if_pos (by simp [hclk, himp])))
  · rw [Nat.mod_eq_of_lt hk, Nat.mod_eq_of_lt hj]
    exact if_pos (by simp [hclk, himp])
  · have hidle (o : Nat) (v : BitVec 64) (f : State → State) : cphWrite .firmware o v f s = s := if_neg (by simp [Option.isSome_iff_ne_none.mp himp])
    exact ⟨takes_of_done (congrArg (done s) (hidle ..)), takes_of_done (congrArg (done s) (hidle ..)), takes_of_done (congrArg (done s) (hidle ..)),
      takes_of_done (congrArg (done s) (hidle ..)), takes_of_done (congrArg (done s) (hidle ..)), takes_of_done (congrArg (done s) (hidle ..))⟩
  · have hidle (o : Nat) (v : BitVec 64) (f : State → State) : cphWrite w o v f s = s := by
      rcases h with ⟨rfl, h⟩ | ⟨rfl, h⟩ | ⟨rfl, h⟩
      · exact hostBar_of_down _ h
      · exact if_neg (by simp [h])
      · exact if_neg (by simp [h])
    refine ⟨?_, takes_of_done (congrArg (done s) (hidle ..)), takes_of_done (congrArg (done s) (hidle ..)), takes_of_done (congrArg (done s) (hidle ..)),
      takes_of_done (congrArg (done s) (hidle ..)), takes_of_done (congrArg (done s) (hidle ..)), takes_of_done (congrArg (done s) (hidle ..))⟩
    rcases h with ⟨rfl, h⟩ | ⟨rfl, h⟩ | ⟨rfl, h⟩
    · exact takes_of_done (congrArg (done s) (hostBar_of_down _ h))
    · exact takes_of_done (if_neg (by simp [h]))
    · exact takes_of_done (if_neg (by simp [h]))
  · exact ⟨_, rfl, takes_of_done (if_pos ⟨hh, by simp [hr], by simp [hi]⟩), congrArg Cph.holder (event_cph ..)⟩
  · rintro ⟨hh, hr, hi⟩
    rcases h with h | h | h
    · exact hh h
    · simp [Option.isSome_iff_ne_none.mp h] at hr
    · simp [Option.isSome_iff_ne_none.mp h] at hi

end Sys2Proof.Machine
end

section
/-!
SUPPORT. What recovery leaves alone (R360, R378): the courses and the clocks. One lemma an operation, in the order of the model's files.
-/

namespace Sys2Proof.Machine
open Sys2Proof

variable {s₀ s t : State}

/-- What the courses and the clocks stand at. -/
def timing (s : State) : Tck × Clk := (s.tck, s.clk)

/-- The courses and the clocks stand as in `s₀`. -/
def Paced (s₀ s : State) : Prop := timing s = timing s₀

theorem Paced.refl (s : State) : Paced s s := rfl

theorem Paced.tck (h : Paced s₀ s) : s.tck = s₀.tck := congrArg Prod.fst h

theorem Paced.clk (h : Paced s₀ s) : s.clk = s₀.clk := congrArg Prod.snd h

theorem paced_eq (h : timing t = timing s) (h₀ : Paced s₀ s) : Paced s₀ t := h.trans h₀

theorem paced_mk {α : Type} {v : α} (h : Paced s₀ s) : Paced s₀ (v, s).2 := h

theorem paced_pair {α : Type} {p : α × State} {v : α} (h : p = (v, s)) (h₀ : Paced s₀ p.2) : Paced s₀ s := by
  subst h
  exact h₀

theorem paced_triple {α β : Type} {p : α × β × State} {v : α} {q : β × State} (h : p = (v, q)) (h₀ : Paced s₀ p.2.2) : Paced s₀ q.2 := by
  subst h
  exact h₀

theorem paced_ite {c : Prop} [Decidable c] (ht : Paced s₀ t) (hs : Paced s₀ t → Paced s₀ s) : Paced s₀ (if c then s else t) := by
  split
  · exact hs ht
  · exact ht

theorem paced_prod_ite {α : Type} {c : Prop} [Decidable c] {p q : α × State} (hq : Paced s₀ q.2) (hp : Paced s₀ q.2 → Paced s₀ p.2) :
    Paced s₀ (if c then p else q).2 := by
  split
  · exact hp hq
  · exact hq

theorem paced_each {α : Type} (l : List α) (f : α → State → State) (h : Paced s₀ s) (hf : ∀ x s, Paced s₀ s → Paced s₀ (f x s)) :
    Paced s₀ (each l f s) := each_preserves l f hf h

theorem paced_foldl {α β : Type} (l : List α) (f : β × State → α → β × State) {p : β × State} (h : Paced s₀ p.2)
    (hf : ∀ p x, Paced s₀ p.2 → Paced s₀ (f p x).2) : Paced s₀ (l.foldl f p).2 := by
  induction l generalizing p with
  | nil => exact h
  | cons x l ih => exact ih (hf p x h)

theorem paced_onGlb (f : Glb → Glb) (s : State) (h : Paced s₀ s) : Paced s₀ (onGlb f s) := h
theorem paced_onMed (f : Med → Med) (s : State) (h : Paced s₀ s) : Paced s₀ (onMed f s) := h
theorem paced_onMedium (f : Medium → Medium) (s : State) (h : Paced s₀ s) : Paced s₀ (onMedium f s) := h
theorem paced_onDrf (f : Drf → Drf) (s : State) (h : Paced s₀ s) : Paced s₀ (onDrf f s) := h
theorem paced_onCph (f : Cph → Cph) (s : State) (h : Paced s₀ s) : Paced s₀ (onCph f s) := h
theorem paced_onPwr (f : Pwr → Pwr) (s : State) (h : Paced s₀ s) : Paced s₀ (onPwr f s) := h
theorem paced_onMemErr (m : Nat) (f : MemErr → MemErr) (s : State) (h : Paced s₀ s) : Paced s₀ (onMemErr m f s) := h
theorem paced_free (s : State) (h : Paced s₀ s) : Paced s₀ (free s).2 := h

theorem paced_event (code src operand : Nat) (s : State) (h : Paced s₀ s) : Paced s₀ (event code src operand s) :=
  paced_eq (by rw [timing, event_tck, event_clk, timing]) h

theorem paced_count (u code n : Nat) (s : State) (h : Paced s₀ s) : Paced s₀ (count u code n s) :=
  paced_eq (congrArg timing (besideCounting_count u code n s) : timing (besideCounting _) = timing (besideCounting _)) h

theorem paced_trap (bit : Nat) (s : State) (h : Paced s₀ s) : Paced s₀ (trap bit s) :=
  paced_eq (congrArg timing (besideTrap_trap bit s) : timing (besideTrap _) = timing (besideTrap _)) h

theorem paced_onBlk {b f} (h₀ : Paced s₀ s) : Paced s₀ (onBlk b f s) := by grind [onBlk, paced_onMed]

theorem paced_onPkg {i f} (h₀ : Paced s₀ s) : Paced s₀ (onPkg i f s) := paced_onDrf _ _ h₀

theorem paced_takeCohort {b} (h₀ : Paced s₀ s) : Paced s₀ (takeCohort b s) := by grind [takeCohort, paced_onBlk, paced_onPkg]

theorem paced_leaveCohort {b} (h₀ : Paced s₀ s) : Paced s₀ (leaveCohort b s) := by grind [leaveCohort, paced_onBlk, paced_onPkg]

theorem paced_enter {r urgent} (h₀ : Paced s₀ s) : Paced s₀ (enter r urgent s) := by grind [enter, paced_onMed]

theorem paced_enterWaiting (h₀ : Paced s₀ s) : Paced s₀ (enterWaiting s) :=
  paced_each s.med.jwait (fun x => enter x.1 x.2) (paced_onMed _ _ h₀) fun _ _ => paced_enter

theorem paced_touchMap {m d} (h₀ : Paced s₀ s) : Paced s₀ (touchMap m d s) := paced_onMed _ _ h₀

theorem paced_addValid {b} (h₀ : Paced s₀ s) : Paced s₀ (addValid b s) := paced_onBlk h₀

theorem paced_dropValid {b} (h₀ : Paced s₀ s) : Paced s₀ (dropValid b s) := paced_onBlk h₀

theorem paced_setMap {u e} (h₀ : Paced s₀ s) : Paced s₀ (setMap u e s) := by
  grind [setMap, paced_dropValid, paced_addValid, paced_touchMap, paced_onMed]

theorem paced_setDir {m e} (h₀ : Paced s₀ s) : Paced s₀ (setDir m e s) := by grind [setDir, paced_dropValid, paced_addValid, paced_onMed]

theorem paced_onStream {bank k f} (h₀ : Paced s₀ s) : Paced s₀ (onStream bank k f s) := paced_onMed _ _ h₀

theorem paced_openBlock {bank k} (h₀ : Paced s₀ s) :
    Paced s₀ (openBlock bank k s).2 := by grind [openBlock, paced_enter, paced_onMed, paced_onBlk]

theorem paced_ensureNext {bank k} (h₀ : Paced s₀ s) :
    Paced s₀ (ensureNext bank k s) := by grind [ensureNext, paced_openBlock, paced_onStream]

theorem paced_ensureCur {bank k} (h₀ : Paced s₀ s) : Paced s₀ (ensureCur bank k s) := by grind [ensureCur, paced_onStream, paced_openBlock]

theorem paced_takePage {bank k} (h₀ : Paced s₀ s) : Paced s₀ (takePage bank k s).2 := by
  grind [takePage, paced_ensureCur, paced_onBlk, paced_ensureNext, paced_onStream]

theorem paced_closeOpen {keep} (h₀ : Paced s₀ s) : Paced s₀ (closeOpen keep s) := by grind [closeOpen, paced_onMed, paced_each, paced_onBlk]

theorem paced_closeBlock {b} (h₀ : Paced s₀ s) : Paced s₀ (closeBlock b s) := by grind [closeBlock, paced_onMed, paced_onBlk]

theorem paced_displacePiece {bank} (h₀ : Paced s₀ s) : Paced s₀ (displacePiece bank s) := by
  grind [displacePiece, paced_each, paced_leaveCohort, paced_count, paced_onMed]

theorem paced_putRead {i inRead} (h₀ : Paced s₀ s) : Paced s₀ (putRead i inRead s) := by grind [putRead, paced_onMed]

theorem paced_placeLate {i} (h₀ : Paced s₀ s) : Paced s₀ (placeLate i s) := by
  unfold placeLate
  split
  · exact h₀
  · extract_lets +onlyGivenNames b taken
    have hdrawn : Paced s₀ (if taken then (1, s) else free s).2 := paced_prod_ite (paced_free s h₀) fun _ => h₀
    generalize (if taken then (1, s) else free s) = drawn at hdrawn ⊢
    obtain ⟨v, t⟩ := drawn
    grind [paced_putRead, paced_displacePiece, paced_onMed]

theorem paced_queueRead {why ppn cls level arrived} (h₀ : Paced s₀ s) : Paced s₀ (queueRead why ppn cls level arrived s) := by
  grind [queueRead, paced_onMed, paced_count, paced_placeLate]

theorem paced_promoteRead {i cls arrived} (h₀ : Paced s₀ s) : Paced s₀ (promoteRead i cls arrived s) := by
  grind [promoteRead, paced_onMed, paced_count, paced_placeLate]

theorem paced_loadMap {m pinned} (h₀ : Paced s₀ s) : Paced s₀ (loadMap m pinned s) := paced_onMed _ _ h₀

theorem paced_roomForMap (h₀ : Paced s₀ s) : Paced s₀ (roomForMap s).2 := by grind [roomForMap, paced_onMed]

theorem paced_needMap {m cls level arrived} (h₀ : Paced s₀ s) : Paced s₀ (needMap m cls level arrived s) := by
  grind [needMap, paced_promoteRead, paced_roomForMap, paced_loadMap, paced_queueRead]

theorem paced_writeFlag {u e wb} (h₀ : Paced s₀ s) :
    Paced s₀ (writeFlag u e wb s) := by grind [writeFlag, paced_onMed, paced_enter, paced_setMap]

theorem paced_stageWrite {u bank d} (h₀ : Paced s₀ s) : Paced s₀ (stageWrite u bank d s) := paced_onMed _ _ h₀

theorem paced_placeAfresh {g} (h₀ : Paced s₀ s) : Paced s₀ (placeAfresh g s) := by grind [placeAfresh, paced_onMed]

theorem paced_stageProgram {g} (h₀ : Paced s₀ s) : Paced s₀ (stageProgram g s) := by grind [stageProgram, paced_needMap, paced_onMed]

theorem paced_settlePend {u} (h₀ : Paced s₀ s) : Paced s₀ (settlePend u s) := by grind [settlePend, paced_setMap, paced_onMed]

theorem paced_checkWorn {k} (h₀ : Paced s₀ s) : Paced s₀ (checkWorn k s) := by
  unfold checkWorn
  extract_lets op s₁
  have h₁ : Paced s₀ s₁ := paced_ite h₀ fun h => paced_event _ _ _ _ (paced_onMedium _ _ (paced_onMed _ _ h))
  clear_value s₁
  exact paced_ite h₁ fun h => paced_trap _ _ (paced_onMedium _ _ (paced_onMed _ _ h))

theorem paced_retire {b cause} (h₀ : Paced s₀ s) : Paced s₀ (retire b cause s) := by
  rw [show retire = _ by delta retire; rfl]
  extract_lets +onlyGivenNames k s₁ s₂ s₃ s₄ own rest spare
  have h₄ : Paced s₀ s₄ := paced_event _ _ _ _ (paced_onMed _ _ (paced_onBlk (paced_enter h₀)))
  clear_value spare s₄
  cases spare with
  | some x => exact paced_onBlk (paced_enter h₄)
  | none =>
    extract_lets s₅ s₆
    have h₅ : Paced s₀ s₅ := paced_ite (paced_event _ _ _ _ (paced_onMed _ _ h₄)) fun _ => h₄
    clear_value s₅
    have h₆ : Paced s₀ s₆ := paced_ite (paced_trap _ _ (paced_onMemErr _ _ _ h₅)) fun _ => h₅
    exact paced_checkWorn h₆

theorem paced_retireEmpty (h₀ : Paced s₀ s) : Paced s₀ (retireEmpty s) := by grind [retireEmpty, paced_each, paced_retire]

theorem paced_mapPageProg {m} (h₀ : Paced s₀ s) : Paced s₀ (mapPageProg m s) := by grind [mapPageProg, paced_onMed]

theorem paced_segmentProg {n gen} (h₀ : Paced s₀ s) : Paced s₀ (segmentProg n gen s) := by grind [segmentProg, paced_onMed]

theorem paced_startCkpt {why} (h₀ : Paced s₀ s) : Paced s₀ (startCkpt why s) := by grind [startCkpt, paced_onMed]

theorem paced_ckptSegments {c} (h₀ : Paced s₀ s) : Paced s₀ (ckptSegments c s) := by grind [ckptSegments, paced_onMed]

theorem paced_ckptPrograms {c} (h₀ : Paced s₀ s) : Paced s₀ (ckptPrograms c s) := by
  grind [ckptPrograms, paced_each, paced_segmentProg, paced_onMed]

theorem paced_ckptAdvance (h₀ : Paced s₀ s) : Paced s₀ (ckptAdvance s) := by
  grind [ckptAdvance, paced_each, paced_mapPageProg, paced_ckptSegments, paced_enter, paced_onMed, paced_ckptPrograms]

theorem paced_onReloc {i f} (h₀ : Paced s₀ s) : Paced s₀ (onReloc i f s) := paced_onMed _ _ h₀

theorem paced_dropReloc {i} (h₀ : Paced s₀ s) : Paced s₀ (dropReloc i s) := paced_onMed _ _ h₀

theorem paced_beginReloc {r} (h₀ : Paced s₀ s) : Paced s₀ (beginReloc r s) := by
  rw [show beginReloc = _ by delta beginReloc; rfl]
  extract_lets +onlyGivenNames x k go
  have hgo {t : State} (h : Paced s₀ t) : Paced s₀ (go t) :=
    paced_onReloc (paced_ite (paced_onBlk (paced_enter h)) fun _ => paced_enter h)
  clear_value go
  split
  · exact h₀
  · split
    · split
      · exact hgo h₀
      · rename_i j _
        extract_lets +onlyGivenNames s₁
        have h₁ : Paced s₀ s₁ := paced_ensureNext h₀
        clear_value s₁
        grind [paced_onStream]
    · exact hgo h₀

theorem paced_commitRun {r urgent l} (h₀ : Paced s₀ s) : Paced s₀ (commitRun r urgent l s) := by
  cases l with
  | nil => exact h₀
  | cons c l => exact paced_onReloc (paced_enter h₀)

theorem paced_commitCopied {r l last} (h₀ : Paced s₀ s) : Paced s₀ (commitCopied r l last s) := by
  grind [commitCopied, paced_each, paced_commitRun, paced_onReloc]

theorem paced_commitWindow {r last} (h₀ : Paced s₀ s) : Paced s₀ (commitWindow r last s) := by
  grind [commitWindow, paced_onReloc, paced_commitCopied]

theorem paced_toPending {b} (h₀ : Paced s₀ s) : Paced s₀ (toPending b s) := paced_onBlk h₀

theorem paced_relocStep {r} (h₀ : Paced s₀ s) : Paced s₀ (relocStep r s) := by
  rw [show relocStep = _ by delta relocStep; rfl]
  split
  · exact paced_beginReloc h₀
  · split
    · split
      · exact h₀
      · split
        · extract_lets +onlyGivenNames lev
          grind [paced_queueRead, paced_onReloc]
        · extract_lets +onlyGivenNames maps s₁
          have h₁ : Paced s₀ s₁ := paced_each _ _ h₀ fun _ _ => paced_needMap
          clear_value maps s₁
          grind [paced_commitWindow, paced_onReloc]
    · split
      · exact paced_ite h₀ fun _ => paced_onMed _ _ h₀
      · extract_lets +onlyGivenNames x fin
        have hfin {t : State} (h : Paced s₀ t) : Paced s₀ (fin t) := paced_dropReloc (paced_ite h fun h => paced_onDrf _ _ h)
        clear_value fin
        grind [paced_retire, paced_enter, paced_onReloc, paced_onMed, paced_toPending]

theorem paced_moveCopies {r redo l} (h₀ : Paced s₀ s) : Paced s₀ (moveCopies r redo l s) := by
  grind [moveCopies, paced_each, paced_setMap, paced_setDir]

theorem paced_recycleJournal (h₀ : Paced s₀ s) :
    Paced s₀ (recycleJournal s) := by grind [recycleJournal, paced_each, paced_enter, paced_onMed]

theorem paced_ckptDone {c jseq} (h₀ : Paced s₀ s) : Paced s₀ (ckptDone c jseq s) := by grind [ckptDone, paced_onMed, paced_onMedium]

theorem paced_journalDurable {j} (h₀ : Paced s₀ s) : Paced s₀ (journalDurable j s) := by
  unfold journalDurable
  split
  · exact h₀
  · extract_lets +onlyGivenNames s₁ s₂ s₃ s₄ s₅
    have h₂ : Paced s₀ s₂ := paced_onMed _ _ (paced_onMedium _ _ h₀)
    have h₃ : Paced s₀ s₃ := paced_each _ _ h₂ fun r s h => paced_onReloc (paced_each _ _ h fun _ _ => paced_moveCopies)
    have h₅ : Paced s₀ s₅ := paced_onMed _ _ (paced_each _ _ h₃ fun _ _ => paced_toPending)
    clear_value s₅
    grind [paced_ckptDone]

theorem paced_onProg {i f} (h₀ : Paced s₀ s) : Paced s₀ (onProg i f s) := paced_onMed _ _ h₀

theorem paced_dropProg {i} (h₀ : Paced s₀ s) : Paced s₀ (dropProg i s) := paced_onMed _ _ h₀

theorem paced_progVerified {p ppn} (h₀ : Paced s₀ s) : Paced s₀ (progVerified p ppn s) := by
  have h₁ {f} : Paced s₀ (onMedium f (dropProg p.id s)) := paced_onMedium _ _ (paced_dropProg h₀)
  unfold progVerified
  refine paced_closeBlock ?_
  split
  · exact paced_settlePend (paced_onMed _ _ (paced_setMap h₁))
  · exact paced_onReloc (paced_onMed _ _ h₁)
  · exact paced_onMed _ _ (paced_setDir h₁)
  · exact paced_journalDurable h₁
  · exact paced_onMed _ _ h₁
  · exact paced_onCph _ _ h₁

theorem paced_enduranceEnd (h₀ : Paced s₀ s) : Paced s₀ (enduranceEnd s) := by grind [enduranceEnd, paced_each, paced_retire, paced_onMed]

theorem paced_journalPrograms (h₀ : Paced s₀ s) : Paced s₀ (journalPrograms s) := by grind [journalPrograms, paced_takePage, paced_onMed]

theorem paced_mediaStep (h₀ : Paced s₀ s) : Paced s₀ (mediaStep s) := by
  unfold mediaStep
  extract_lets +onlyGivenNames s₁ s₂ s₃ s₄ s₅ s₆
  have h₁ : Paced s₀ s₁ := paced_journalPrograms (paced_enterWaiting h₀)
  have h₂ : Paced s₀ s₂ := paced_each _ _ h₁ fun _ _ => paced_placeAfresh
  have h₃ : Paced s₀ s₃ := paced_each _ _ h₂ fun _ _ => paced_stageProgram
  have h₄ : Paced s₀ s₄ := paced_each _ _ h₃ fun _ _ => paced_settlePend
  have h₅ : Paced s₀ s₅ := paced_each _ _ h₄ fun _ _ => paced_needMap
  have h₆ : Paced s₀ s₆ := paced_each _ _ h₅ fun _ _ => paced_relocStep
  exact paced_ckptAdvance (paced_enduranceEnd (paced_recycleJournal (paced_retireEmpty h₆)))

theorem paced_givePage {p} (h₀ : Paced s₀ s) : Paced s₀ (givePage p s).2 := by grind [givePage, paced_takePage]

theorem paced_firstPiece {p} (h₀ : Paced s₀ s) : Paced s₀ (firstPiece p s).2 := by
  unfold firstPiece
  split
  · exact paced_pair ‹_› (paced_givePage h₀)
  · have h₁ := paced_pair ‹_› (paced_givePage h₀)
    extract_lets +onlyGivenNames wave s₂ s₃
    have h₂ : Paced s₀ s₂ := paced_onProg h₁
    clear_value s₂
    have h₃ : Paced s₀ s₃ := paced_ite h₂ fun h => paced_takeCohort (paced_leaveCohort h)
    clear_value s₃
    split
    · exact paced_mk (paced_onProg h₃)
    · exact paced_mk (paced_onMed _ _ (paced_ite (paced_enter h₃) fun _ => h₃))
    · exact h₃

theorem paced_readNow {r} (h₀ : Paced s₀ s) : Paced s₀ (readNow r s) := by grind [readNow, paced_loadMap, paced_onMed]

theorem paced_programNow {p} (h₀ : Paced s₀ s) : Paced s₀ (programNow p s) := by
  unfold programNow
  split
  · exact h₀
  · split
    · exact paced_pair ‹_› (paced_firstPiece h₀)
    · have h₁ := paced_pair ‹_› (paced_firstPiece h₀)
      split
      · split
        · exact paced_progVerified h₁
        · exact h₁
      · exact h₁

theorem paced_mediaRun {n} (h₀ : Paced s₀ s) : Paced s₀ (mediaRun n s) := by
  induction n generalizing s with
  | zero => exact h₀
  | succ n ih =>
    unfold mediaRun
    refine paced_ite ?_ fun _ => h₀
    have h₁ {t : State} (h : Paced s₀ t) : Paced s₀ (each t.med.reads readNow t) := paced_each _ _ h fun _ _ => paced_readNow
    exact ih (paced_each _ _ (h₁ (paced_mediaStep (paced_onMed _ _ h₀))) fun _ _ => paced_programNow)

theorem paced_putEntry {kind id e} (h₀ : Paced s₀ s) : Paced s₀ (putEntry kind id e s) := by
  grind [putEntry, paced_touchMap, paced_onMed, paced_setDir]

theorem paced_againReloc {b act} (h₀ : Paced s₀ s) : Paced s₀ (againReloc b act s) := by grind [againReloc, paced_onMed]

theorem paced_againReset {b} (h₀ : Paced s₀ s) : Paced s₀ (againReset b s) := by grind [againReset, paced_onMed]

theorem paced_offer {ck kind id e seq later} {p : Table Nat × State} (h₀ : Paced s₀ p.2) :
    Paced s₀ (offer ck kind id e seq later p).2 := by
  unfold offer
  exact paced_prod_ite h₀ fun h => paced_mk (paced_putEntry h)

theorem paced_replay {ck r} {p : Table Nat × State} (h₀ : Paced s₀ p.2) : Paced s₀ (replay ck p r).2 := by
  unfold replay
  extract_lets +onlyGivenNames s blkTo
  have hs : Paced s₀ s := h₀
  have hblkTo {b f} : Paced s₀ (blkTo b f).2 := paced_mk (paced_onBlk hs)
  clear_value blkTo s
  split
  · exact paced_offer h₀
  · split
    · exact paced_prod_ite h₀ paced_offer
    · exact h₀
  · exact paced_foldl _ _ (paced_mk (paced_onMed _ _ hs)) fun _ _ => paced_offer
  · exact hblkTo
  · exact paced_prod_ite (paced_mk (paced_againReloc (paced_onBlk hs))) fun _ => h₀
  · exact paced_mk (paced_againReset (paced_onBlk hs))
  · exact paced_mk (paced_onMed _ _ (paced_onBlk hs))
  · have h₁ {b f g} : Paced s₀ (onMed g (onBlk b f s)) := paced_onMed _ _ (paced_onBlk hs)
    exact paced_prod_ite (paced_mk (paced_onMed _ _ h₁)) fun _ => paced_mk (paced_onMed _ _ h₁)
  · exact h₀

theorem paced_scanPages {ck} {p : Table Nat × State} (h₀ : Paced s₀ p.2) : Paced s₀ (scanPages ck p).2 := by
  unfold scanPages
  refine paced_foldl _ _ h₀ fun p x h => ?_
  split
  · exact paced_prod_ite h paced_offer
  · exact h

theorem paced_settleCohorts (h₀ : Paced s₀ s) : Paced s₀ (settleCohorts s) := by grind [settleCohorts, paced_each, paced_onBlk, paced_onPkg]

theorem paced_settleStreams {recs} (h₀ : Paced s₀ s) :
    Paced s₀ (settleStreams recs s) := by grind [settleStreams, paced_each, paced_onStream]

theorem paced_settleBanks (h₀ : Paced s₀ s) : Paced s₀ (settleBanks s) := by grind [settleBanks, paced_onMedium, paced_onMed]

theorem paced_loadCkpt {ck} (h₀ : Paced s₀ s) : Paced s₀ (loadCkpt ck s) := by
  grind [loadCkpt, paced_onDrf, paced_onMed, paced_each, paced_againReloc, paced_againReset]

theorem paced_countOrphans (h₀ : Paced s₀ s) : Paced s₀ (countOrphans s) := by grind [countOrphans, paced_onMed]

theorem paced_rebuild {ck} (h₀ : Paced s₀ s) : Paced s₀ (rebuild ck s) := by
  unfold rebuild
  extract_lets +onlyGivenNames recs s₁ s₂ s₃
  have h₁ : Paced s₀ s₁ := paced_foldl _ _ (paced_scanPages (paced_mk (paced_loadCkpt h₀))) fun _ _ => paced_replay
  clear_value recs s₁
  have h₂ : Paced s₀ s₂ := paced_onMed _ _ h₁
  have h₃ : Paced s₀ s₃ := paced_ite h₂ fun h => paced_closeOpen h
  exact paced_settleBanks (paced_settleCohorts (paced_settleStreams (paced_countOrphans h₃)))

theorem paced_resetDumpBlocks (h₀ : Paced s₀ s) : Paced s₀ (resetDumpBlocks s) := by
  grind [resetDumpBlocks, paced_each, paced_retire, paced_enter, paced_onMed, paced_onBlk, paced_onMedium]

theorem paced_eraseAll (h₀ : Paced s₀ s) : Paced s₀ (eraseAll s) := by
  unfold eraseAll
  extract_lets +onlyGivenNames s₁ s₂ s₃ s₄ s₅
  have h₁ : Paced s₀ s₁ := paced_onMed _ _ h₀
  have h₂ : Paced s₀ s₂ := paced_each _ _ h₁ fun b s h =>
    paced_ite (paced_ite h fun h => paced_onBlk h) fun _ => paced_onMed _ _ (paced_onBlk (paced_enter h))
  have h₃ : Paced s₀ s₃ := paced_onMed _ _ h₂
  clear_value s₃
  have h₅ : Paced s₀ s₅ := paced_mediaRun (paced_startCkpt (paced_resetDumpBlocks h₃))
  exact paced_onMedium _ _ h₅

theorem paced_restorePage {u d} (h₀ : Paced s₀ s) :
    Paced s₀ (restorePage u d s) := by grind [restorePage, paced_writeFlag, paced_stageWrite]

theorem paced_restoreItems {l} (h₀ : Paced s₀ s) : Paced s₀ (restoreItems l s) := by
  unfold restoreItems
  extract_lets +onlyGivenNames staged lines gather run s₁ s₂ rest s₃
  have hrun {t : State} (h : Paced s₀ t) : Paced s₀ (run t) := paced_mediaRun h
  clear_value run
  have h₁ : Paced s₀ s₁ := hrun (paced_each _ _ h₀ fun _ _ => paced_restorePage)
  have h₂ : Paced s₀ s₂ := hrun (paced_each _ _ h₁ fun _ _ => paced_restorePage)
  have h₃ : Paced s₀ s₃ := by
    refine hrun (paced_each _ _ h₂ fun u s h => ?_)
    split
    · exact paced_restorePage h
    · exact h
  exact hrun (paced_each _ _ h₃ fun _ _ => paced_writeFlag)

theorem paced_restoreDump {ck d us} (h₀ : Paced s₀ s) : Paced s₀ (restoreDump ck d us s) := by
  unfold restoreDump
  extract_lets +onlyGivenNames s₁ s₂ s₃ s₄ s₅
  have h₃ : Paced s₀ s₃ := paced_mediaRun (paced_startCkpt (paced_restoreItems h₀))
  clear_value s₃
  have h₅ : Paced s₀ s₅ := paced_onGlb _ _ (paced_onPwr _ _ h₃)
  clear_value s₅
  refine paced_ite ?_ fun _ => h₅
  extract_lets +onlyGivenNames s₆ s₇ s₈
  have h₈ : Paced s₀ s₈ := paced_resetDumpBlocks (paced_mediaRun (paced_enter h₅))
  exact paced_onMedium _ _ (paced_mediaRun h₈)

theorem paced_advanceBy {i u} (h₀ : Paced s₀ s) : Paced s₀ (advanceBy i u s) := paced_onPkg h₀

theorem paced_bestBin (h₀ : Paced s₀ s) : Paced s₀ (bestBin s).2 := by
  unfold bestBin
  split
  exact paced_mk (paced_pair ‹_› (paced_foldl _ _ h₀ fun p b h => paced_mk (paced_free _ h)))

theorem paced_measureCohort {i c} {p : List (Nat × Option Nat) × State} (h₀ : Paced s₀ p.2) :
    Paced s₀ (measureCohort i p c).2 := by
  unfold measureCohort
  extract_lets +onlyGivenNames s a
  have hs : Paced s₀ s := h₀
  clear_value a s
  split
  exact paced_mk (paced_pair ‹_› (paced_foldl _ _ (paced_mk hs) fun p b h => paced_mk (paced_bestBin h)))

theorem paced_foldl_triple {α β γ : Type} (l : List α) (f : β × γ × State → α → β × γ × State) {p : β × γ × State}
    (h₀ : Paced s₀ p.2.2) (hf : ∀ p x, Paced s₀ p.2.2 → Paced s₀ (f p x).2.2) : Paced s₀ (l.foldl f p).2.2 := by
  induction l generalizing p with
  | nil => exact h₀
  | cons x l ih => exact ih (hf p x h₀)

theorem paced_measurePkg {i} (h₀ : Paced s₀ s) : Paced s₀ (measurePkg i s).2.2 := by
  unfold measurePkg
  split
  have h₁ := paced_pair ‹_› (paced_foldl _ _ h₀ fun _ _ => paced_measureCohort)
  extract_lets +onlyGivenNames los u
  split
  · dsimp only
    exact paced_event _ _ _ _ h₁
  · exact h₁

theorem paced_recalibrate {off} (h₀ : Paced s₀ s) : Paced s₀ (recalibrate off s) := by
  unfold recalibrate
  extract_lets +onlyGivenNames bound
  refine paced_ite ?_ fun _ => paced_onDrf _ _ (paced_each _ _ h₀ fun _ _ => paced_advanceBy)
  split
  rename_i us spread s' heq
  have h₁ : Paced s₀ s' := by
    refine paced_pair (p := (spread, s')) rfl (paced_triple heq ?_)
    refine paced_foldl_triple _ _ h₀ fun x i h => ?_
    exact paced_measurePkg h
  extract_lets +onlyGivenNames cap top s₂
  have h₂ : Paced s₀ s₂ := paced_onDrf _ _ h₁
  exact paced_each _ _ h₂ fun _ _ => paced_advanceBy

theorem paced_pinMaps (h₀ : Paced s₀ s) : Paced s₀ (pinMaps s) := by
  unfold pinMaps
  extract_lets +onlyGivenNames l s₁
  have h₁ : Paced s₀ s₁ := by
    refine paced_each _ _ h₀ fun n s h => ?_
    extract_lets +onlyGivenNames r z
    refine paced_ite ?_ fun _ => h
    refine paced_each _ _ h fun i s h => ?_
    extract_lets +onlyGivenNames old s₂
    have h₂ : Paced s₀ s₂ := paced_loadMap h
    clear_value old s₂
    split
    · exact paced_ite h₂ fun h => paced_touchMap h
    · exact h₂
  clear_value s₁
  split
  · exact paced_onMed _ _ (paced_event _ _ _ _ h₁)
  · exact h₁

theorem paced_setKind {k} (h₀ : Paced s₀ s) : Paced s₀ (setKind k s) := by grind [setKind, paced_onGlb, paced_event]

end Sys2Proof.Machine
end

section
/-!
PROOF. Memory becomes ready (R360, R361, R368, R382, R449; O49): a start that fails stays failed whatever the debug port's held writes do, and
recovery leaves the courses and the clocks alone.
-/

namespace Sys2Proof.Machine
open Sys2Proof

section
variable {s : State} {c u : Nat}

/-! ## A start that has failed (R382) -/

/-- The start has failed, with its cause and unit. -/
def StartFailed (c u : Nat) (s : State) : Prop := s.glb.failed = true ∧ s.glb.failCause = c ∧ s.glb.failUnit = u

theorem startFailed_congr {t : State} (ht : t.glb = s.glb) (h : StartFailed c u s) : StartFailed c u t := by
  rw [StartFailed, ht]
  exact h

theorem startFailed_setExpert (off v : Nat) (h : StartFailed c u s) : StartFailed c u (setExpert off v s) :=
  startFailed_congr (clampIf_glb ..) h

theorem startFailed_writeGlb (o : Nat) (w : SlotWr) (h : StartFailed c u s) : StartFailed c u (writeGlb o w s) := by
  have hkey : ¬ (bits w.a 0 16 = 0xA55A ∧ (!s.glb.failed) = true) := by simp [h.1]
  have hclr : (expertClr s).glb = s.glb := ite_keeps (·.glb) rfl rfl
  unfold writeGlb
  rw [if_neg hkey]
  split_ifs
  · exact startFailed_congr hclr h
  · exact h
  · exact h
  · exact h
  · exact h

theorem writeSec_glb (o : Nat) (w : SlotWr) (s : State) : (writeSec o w s).glb = s.glb := by
  unfold writeSec
  split
  · exact ite_keeps (·.glb) rfl rfl
  · rfl

theorem writePwr_glb (o : Nat) (w : SlotWr) (s : State) : (writePwr o w s).glb = s.glb :=
  ite_keeps (·.glb) (clampIf_glb ..) (ite_keeps (·.glb) (ite_keeps (·.glb) rfl (clampIf_glb ..)) (ite_keeps (·.glb) rfl rfl))

theorem writeThm_glb (o : Nat) (w : SlotWr) (s : State) : (writeThm o w s).glb = s.glb :=
  ite_keeps (·.glb) rfl (ite_keeps (·.glb) (ite_keeps (·.glb) rfl rfl) rfl)

theorem writeEvr_glb (o : Nat) (w : SlotWr) (s : State) : (writeEvr o w s).glb = s.glb :=
  ite_keeps (·.glb) rfl (ite_keeps (·.glb) rfl (ite_keeps (·.glb) (ite_keeps (·.glb) rfl (clampIf_glb ..)) rfl))

theorem writeLdg_glb (o : Nat) (w : SlotWr) (s : State) : (writeLdg o w s).glb = s.glb := by
  have hstart (op slot k : Nat) (t : State) : (startImageOp op slot k t).glb = t.glb :=
    ite_keeps (·.glb) rfl (ite_keeps (·.glb) rfl rfl)
  have himg : (writeImg w s).glb = s.glb := ite_keeps (·.glb) ((hstart ..).trans (clampIf_glb ..)) (clampIf_glb ..)
  exact ite_keeps (·.glb) rfl (ite_keeps (·.glb) rfl (ite_keeps (·.glb) himg (ite_keeps (·.glb) rfl rfl)))

/-- The blocks that the failed state serves (R383). -/
theorem served_failed (h : s.glb.failed = true) {off : Nat} (hs : served s off = true) :
    off / 2 ^ 20 = 0 ∨ off / 2 ^ 20 = 0xA ∧ off % 2 ^ 20 < 0x80000 ∨ off / 2 ^ 20 = 0xB ∨ off / 2 ^ 20 = 0xD ∨ off / 2 ^ 20 = 0x10 ∨
      off / 2 ^ 20 = 0x11 := by
  simp only [served, h, Bool.not_true, Bool.false_or, Bool.or_eq_true, Bool.and_eq_true, beq_iff_eq, decide_eq_true_eq] at hs
  omega

section
variable {w : SlotWr} (hx : isExpert w.off = false) (s : State)
include hx

theorem writeSlot_glb (hb : w.off / 2 ^ 20 = 0) : writeSlot w s = writeGlb (w.off % 2 ^ 20) w s := by
  simp only [writeSlot, hx, hb]
  rfl

theorem writeSlot_sec (hb : w.off / 2 ^ 20 = 0xA) (ho : w.off % 2 ^ 20 < 0x80000) : writeSlot w s = writeSec (w.off % 2 ^ 20) w s := by
  have hlow : ¬ 0x80000 ≤ w.off % 2 ^ 20 := by omega
  simp only [writeSlot, hx, hb, hlow]
  simp

theorem writeSlot_pwr (hb : w.off / 2 ^ 20 = 0xB) : writeSlot w s = writePwr (w.off % 2 ^ 20) w s := by
  simp only [writeSlot, hx, hb]
  rfl

theorem writeSlot_thm (hb : w.off / 2 ^ 20 = 0xD) : writeSlot w s = writeThm (w.off % 2 ^ 20) w s := by
  simp only [writeSlot, hx, hb]
  rfl

theorem writeSlot_evr (hb : w.off / 2 ^ 20 = 0x10) : writeSlot w s = writeEvr (w.off % 2 ^ 20) w s := by
  simp only [writeSlot, hx, hb]
  rfl

theorem writeSlot_ldg (hb : w.off / 2 ^ 20 = 0x11) : writeSlot w s = writeLdg (w.off % 2 ^ 20) w s := by
  simp only [writeSlot, hx, hb]
  rfl

end

theorem startFailed_writeSlot {w : SlotWr} (h : StartFailed c u s) (hs : served s w.off = true) : StartFailed c u (writeSlot w s) := by
  cases hx : isExpert w.off with
  | true =>
    rw [writeSlot_expert hx]
    split
    · exact startFailed_setExpert _ _ h
    · exact h
  | false =>
    rcases served_failed h.1 hs with hb | ⟨hb, ho⟩ | hb | hb | hb | hb
    · exact writeSlot_glb hx s hb ▸ startFailed_writeGlb _ w h
    · exact startFailed_congr (writeSlot_sec hx s hb ho ▸ writeSec_glb _ w s) h
    · exact startFailed_congr (writeSlot_pwr hx s hb ▸ writePwr_glb _ w s) h
    · exact startFailed_congr (writeSlot_thm hx s hb ▸ writeThm_glb _ w s) h
    · exact startFailed_congr (writeSlot_evr hx s hb ▸ writeEvr_glb _ w s) h
    · exact startFailed_congr (writeSlot_ldg hx s hb ▸ writeLdg_glb _ w s) h

theorem served_slot {off : Nat} (h : served s off = true) : served s (off / 8 * 8) = true := by
  have hb : off / 8 * 8 / 2 ^ 20 = off / 2 ^ 20 := by omega
  have ho : off / 8 * 8 % 2 ^ 20 = off % 2 ^ 20 / 8 * 8 := by omega
  have hlt : off % 2 ^ 20 / 8 * 8 < 0x80000 ↔ off % 2 ^ 20 < 0x80000 := by omega
  rw [served] at h ⊢
  rwa [hb, ho, decide_eq_decide.mpr hlt]

theorem wakeFor_of_failed (off : Nat) (h : s.glb.failed = true) : wakeFor off s = s := if_pos (.inr (.inr (.inl h)))

theorem startFailed_regWrite (cls off size : Nat) (v : BitVec 64) (h : StartFailed c u s) : StartFailed c u (regWrite cls off size v s) := by
  rw [regWrite_eq, wakeFor_of_failed off h.1]
  split
  · exact h
  · next hs =>
    have hs : served s off = true := by simpa using hs
    split
    · exact h
    · split
      · exact h
      · exact startFailed_writeSlot h (served_slot hs)

theorem emit_glb (o : Out) (s : State) : (emit o s).glb = s.glb := congrArg (·.glb) (besideCompletions_emit o s)

/-- The writes that the debug port had held do nothing to the failure (R364). -/
theorem startFailed_releaseWrites (h : StartFailed c u s) : StartFailed c u (releaseWrites s) := by
  refine each_preserves (P := StartFailed c u) _ _ (fun w t ht => ?_) ?_
  · exact startFailed_congr (emit_glb ..) (startFailed_regWrite 2 w.1 w.2.1 w.2.2 ht)
  · exact h

/-- The state in which a start fails, its event recorded. -/
theorem startFailed_failStart (c u : Nat) (s : State) : StartFailed c u (failStart c u s) := by
  have hevent (t : State) (h : StartFailed c u t) : StartFailed c u (if c = 0 then t else event 0x0903 0 (c + u * 256) t) := by
    split
    · exact h
    · exact startFailed_congr (event_glb ..) h
  refine startFailed_releaseWrites (startFailed_congr (s := if c = 0 then _ else _) rfl (hevent _ ?_))
  exact ⟨rfl, rfl, rfl⟩

/-! ## The media path (R360) -/

/-- The state once the media channels have been trained: the courses run, and the trims and the media key are read. -/
def mediaOpened (s : State) : State :=
  let s := onClk (fun x => { x with dram := 0xFFFF, media := 0xFFFFFFFF }) s
  let s := onSec (fun c => { c with mediaKey := match s.medium.mediaKey with
    | some (_, w) => (Config.keyUnwrap (mediaWrapKey s) w).map fun k => (BitVec.ofNat 256 k, BitVec.ofNat 256 (k / 2 ^ 256))
    | none => none }) s
  let s := onGlb (fun g => { g with step := 8 }) (readTrims (onTck (fun t => { t with running := true }) s))
  if s.plinth.st = 1 then recordCycles (s.flash.powerCycles + 1) s else s

theorem mediaOpened_medium (s : State) : (mediaOpened s).medium = s.medium := by
  unfold mediaOpened
  extract_lets a b d
  have hd : d.medium = s.medium := rfl
  clear_value d
  split
  · exact hd
  · exact hd

theorem mediaOpened_running (s : State) : (mediaOpened s).tck.running = true := ite_keeps (·.tck.running) rfl rfl

theorem mediaOpened_dram (s : State) : (mediaOpened s).clk.dram = 0xFFFF := ite_keeps (·.clk.dram) rfl rfl

theorem mediaOpened_media (s : State) : (mediaOpened s).clk.media = 0xFFFFFFFF := ite_keeps (·.clk.media) rfl rfl

/-- What the media path does once its channels are trained: recovery from a root mark, or the failure to find one. -/
def mediaPath (b : BootMedia) (off us : Nat) (s : State) : State :=
  if b = .noMark then failStart 6 0 (mediaOpened s) else recovery (b == .olderMark) off us (mediaOpened s)

theorem dramReady_eq (b : BootMedia) (off us : Nat) (h6 : s.glb.step = 6) (hf : s.glb.failed = false) (ht : s.plinth.tapHold = false)
    (hh : tooHot s = false) : dramReady b off us s = match b with
      | .dramFail k => if s.clk.dram = 0xFFFF then mediaPath b off us s else failStart 4 (k % 16) s
      | .mediaFail c => if s.clk.media = 0xFFFFFFFF then mediaPath b off us s
        else failStart 5 (c % 32) (onGlb (fun g => { g with step := 7 }) (onClk (fun x => { x with dram := 0xFFFF }) s))
      | _ => mediaPath b off us s :=
  if_neg (by simp [h6, hf, ht, hh])

theorem dramReady_idle (b : BootMedia) (off us : Nat) (h : s.glb.step ≠ 6 ∨ s.glb.failed = true ∨ s.plinth.tapHold = true ∨ tooHot s = true) :
    dramReady b off us s = s := if_pos h

/-- Recovery needs a root mark, the older one where it is asked for. -/
theorem recovery_none {older : Bool} (off us : Nat) (h : s.medium.ckpts.drop (b2n older) = []) :
    recovery older off us s = failStart 6 0 s := by
  rw [recovery, h]

theorem recovery_ends {older : Bool} (off us : Nat) (h : s.medium.ckpts.drop (b2n older) ≠ []) :
    ∃ t, Paced s t ∧ recovery older off us s = onGlb (fun g => { g with step := 12 }) t := by
  obtain ⟨ck, l, hl⟩ := List.exists_cons_of_ne_nil h
  rw [recovery, hl]
  refine ⟨_, paced_pinMaps (paced_recalibrate ?_), rfl⟩
  have hsaved : Paced s (onMedium (fun m => { m with dump := none }) s) := paced_onMedium _ s (Paced.refl s)
  split
  · exact paced_setKind (paced_eraseAll (paced_rebuild hsaved))
  · split
    · split
      · exact paced_restoreDump (paced_setKind (paced_onGlb _ _ (paced_rebuild (Paced.refl s))))
      · exact Paced.refl s
    · exact paced_ite (paced_setKind (paced_rebuild hsaved)) fun h => paced_mediaRun (paced_resetDumpBlocks h)

theorem mediaPath_fails {b : BootMedia} (off us : Nat) (h : b = .noMark ∨ s.medium.ckpts.drop (b2n (b == .olderMark)) = []) :
    StartFailed 6 0 (mediaPath b off us s) := by
  have hfail := startFailed_failStart 6 0 (mediaOpened s)
  unfold mediaPath
  split
  · exact hfail
  · next hb =>
    rw [recovery_none off us ((mediaOpened_medium s).symm ▸ h.resolve_left hb)]
    exact hfail

/-- The media path has ended: the courses run and the domains of the DRAM and of the media are powered. -/
def Recovered (t : State) : Prop := t.glb.step = 12 ∧ t.tck.running = true ∧ t.clk.dram = 0xFFFF ∧ t.clk.media = 0xFFFFFFFF

theorem mediaPath_recovers {b : BootMedia} (off us : Nat) (hb : b ≠ .noMark) (h : s.medium.ckpts.drop (b2n (b == .olderMark)) ≠ []) :
    Recovered (mediaPath b off us s) := by
  obtain ⟨t, ht, hrec⟩ := recovery_ends off us ((mediaOpened_medium s).symm ▸ h)
  have htck : t.tck = (mediaOpened s).tck := ht.tck
  have hclk : t.clk = (mediaOpened s).clk := ht.clk
  rw [mediaPath, if_neg hb, hrec]
  exact ⟨rfl, (congrArg (·.running) htck).trans (mediaOpened_running s), (congrArg (·.dram) hclk).trans (mediaOpened_dram s),
    (congrArg (·.media) hclk).trans (mediaOpened_media s)⟩

theorem wakeStep_failed (h : s.glb.wakeBad = some (c, u)) : StartFailed c u (wakeStep s) := by
  rw [wakeStep, h]
  exact startFailed_failStart c u _

theorem wakeStep_none (h : s.glb.wakeBad = none) : wakeStep s = s := by
  rw [wakeStep, h]

/-! ## The bank (R361) -/

theorem takes_bankCharged (k vbank : Nat) (h2 : 2 ≤ s.glb.step) (hc : s.glb.charged = false) (hst : s.plinth.st = 1 ∨ s.plinth.st = 2) :
    ∃ t, Takes (.holdupCharged k vbank) s t ∧ t.glb.charged = true ∧ t.pwr.cMeas = k ∧ t.plinth.vbank = vbank ∧
      t.cch.limit = derivedLimit k vbank ∧ t.pwr.degraded = decide (k < 900) := by
  have hcharged : bankCharged k vbank s =
      onGlb (fun g => { g with charged := true }) (measured k vbank (if 2000 ≤ s.plinth.vbank then 1 else 0) s) :=
    if_neg (by simp [hc]; omega)
  obtain ⟨hmeas, hdeg, -, hlimit, hbank, -⟩ := measured_limits k vbank (if 2000 ≤ s.plinth.vbank then 1 else 0) s
  exact ⟨_, takes_of_done (congrArg (done s) hcharged), rfl, hmeas, hbank, hlimit, hdeg⟩

theorem bankCharged_idle (k vbank : Nat) (h : s.glb.step < 2 ∨ s.glb.charged = true ∨ (s.plinth.st ≠ 1 ∧ s.plinth.st ≠ 2)) :
    bankCharged k vbank s = s := if_pos (by simpa using h)

/-! ## Memory ready (R361, R449) -/

theorem quiet_startDetect (i : Nat) {s₀ : State} (h : Quiet s₀ s) : Quiet s₀ (startDetect i s) := quiet_ite h fun h => quiet_onLink i _ s h

theorem quiet_beginGroup {s₀ : State} (h : Quiet s₀ s) : Quiet s₀ (beginGroup s) :=
  quiet_ite (quiet_ite (quiet_onGrp _ _ h) fun _ => quiet_onGrp _ _ h) fun _ => quiet_event _ _ _ _ (quiet_onGrp _ _ h)

/-- What memory ready sets, before the links, the group and the streams begin. -/
def readyShown (us : Nat) (s : State) : State :=
  let s := onHst (fun h => { h with ready := true, pfw := false }) (onGlb (fun g => { g with step := 14, memReady := true, readyUs := us }) s)
  let s := onPlinth (fun p => { p with st := 2, agtRst := 0, pfw := false, fatal := false, kept := true }) s
  let s := onMedium (fun m => { m with lossy := false }) s
  let s := onMed (fun m => { m with patrolAge := (upto 32).foldl (fun t c => tset 0 t c s.now) m.patrolAge }) s
  onErr (fun e => { e with scrubAge := (upto 16).foldl (fun t k => tset 0 t k s.now) e.scrubAge }) s

theorem quiet_memoryReady (us : Nat) (h12 : s.glb.step = 12) (hc : s.glb.charged = true) (hf : s.glb.failed = false) (ht : s.plinth.tapHold = false)
    (hm : s.glb.memReady = false) (ha : (s.flash.appends.any fun a => a.part == 2 && a.r.key == 1) = false) :
    Quiet (readyShown us s) (memoryReady us s) := by
  have hready : memoryReady us s = _ := if_neg (by simp [h12, hc, hf, ht, hm, ha])
  rw [hready]
  extract_lets +onlyGivenNames a b d e f g k
  have hf : Quiet (readyShown us s) f := Quiet.refl _
  clear_value f
  have hg : Quiet (readyShown us s) g := quiet_beginGroup (quiet_each _ _ hf fun _ _ => quiet_startDetect _)
  have hk : Quiet (readyShown us s) k := quiet_each _ _ hg fun p t h => quiet_onPort p _ t h
  exact quiet_ite hk fun h => quiet_append _ _ _ _ h

theorem memoryReady_idle (us : Nat) (h : s.glb.step ≠ 12 ∨ s.glb.charged = false ∨ s.glb.failed = true ∨ s.plinth.tapHold = true ∨
    s.glb.memReady = true ∨ (s.flash.appends.any fun a => a.part == 2 && a.r.key == 1) = true) : memoryReady us s = s :=
  if_pos (by simpa using h)

end

/-- Settles O49, one lemma a path: the media path ends in `mediaPath_recovers` or in a failed start, which the debug port's held writes leave
failed (`startFailed_failStart`), and memory ready stands after the links, the group and the streams have begun (`quiet_memoryReady`). -/
theorem memoryBecomesReady : Obligations.MemoryBecomesReady := by
  unfold Obligations.MemoryBecomesReady
  refine ⟨fun s b off us => engages_of_settled rfl, fun s b off us h6 hf ht hh => ⟨_, rfl, engages_of_settled rfl, ?_⟩,
    fun s c u h => wakeStep_failed h, fun s h => wakeStep_none h, fun s b off us h => ?_, fun s c vbank => takes_bankCharged c vbank,
    fun s c vbank h => takes_of_done (congrArg (done s) (bankCharged_idle c vbank h)), fun s us h12 hc hf ht hm ha => ?_, fun s us h => ?_⟩
  · rw [dramReady_eq b off us h6 hf ht hh]
    refine ⟨?_, ?_, ?_, ?_, ?_, ?_⟩
    · rintro k rfl hk
      dsimp only
      rw [if_neg hk]
      exact startFailed_failStart 4 (k % 16) s
    · rintro c rfl hc
      dsimp only
      rw [if_neg hc]
      exact startFailed_failStart 5 (c % 32) _
    · rintro (rfl | ⟨hnone, rfl⟩)
      · obtain ⟨hfail, hcause, -⟩ := mediaPath_fails (s := s) off us (.inl rfl)
        exact ⟨hfail, hcause⟩
      · obtain ⟨hfail, hcause, -⟩ := mediaPath_fails (s := s) (b := .good) off us (.inr hnone)
        exact ⟨hfail, hcause⟩
    · rintro rfl hlt
      obtain ⟨hfail, hcause, -⟩ := mediaPath_fails (s := s) (b := .olderMark) off us (.inr (List.drop_eq_nil_of_le (Nat.le_of_lt_succ hlt)))
      exact ⟨hfail, hcause⟩
    · rintro (rfl | ⟨⟨k, rfl⟩, hk⟩ | ⟨⟨c, rfl⟩, hc⟩) hckpts
      · exact mediaPath_recovers off us nofun hckpts
      · dsimp only
        rw [if_pos hk]
        exact mediaPath_recovers off us nofun hckpts
      · dsimp only
        rw [if_pos hc]
        exact mediaPath_recovers off us nofun hckpts
    · rintro rfl hle
      exact mediaPath_recovers off us nofun (List.drop_eq_nil_iff.not.mpr (Nat.not_le.mpr hle))
  · exact engages_of_settled (congrArg (settled s) (dramReady_idle b off us h))
  · have hq : Quiet (readyShown us s) (memoryReady us s) := quiet_memoryReady us h12 hc hf ht hm ha
    have hglb : (memoryReady us s).glb = (readyShown us s).glb := hq.glb
    have hplinth : (memoryReady us s).plinth = (readyShown us s).plinth := hq.plinth
    exact ⟨_, rfl, engages_of_settled rfl, congrArg (·.hst.ready) hq, congrArg (·.memReady) hglb, congrArg (·.readyUs) hglb,
      congrArg (·.st) hplinth, congrArg (·.agtRst) hplinth, congrArg (·.pfw) hplinth, congrArg (·.lossy) hq.medium⟩
  · exact engages_of_settled (congrArg (settled s) (memoryReady_idle us h))

end Sys2Proof.Machine
end
